-- ==== Sys2Proof/Word.lean ====
section
/-! DEFINITION. The word types of the module and their plainest arithmetic (spec 00 R8, R9). -/

namespace Sys2Proof

/-- An integer register of a control core (04 R121). -/
abbrev W64 := BitVec 64
/-- A lane or a 32-bit register. -/
abbrev W32 := BitVec 32
/-- One byte. -/
abbrev Byte := BitVec 8
/-- A 128-byte line of EM or PS (06 Table 6.1), byte 0 in bits 7:0 (00 R9). -/
abbrev LineData := BitVec 1024
/-- A vector register: 64 lanes of 32 bits (04 R138). -/
abbrev VecData := BitVec 2048

/-- A tile number (01 Table 1.3). -/
abbrev TileId := Fin 1024
/-- A saddle of a tile (03 Table 3.1). -/
abbrev SaddleId := Fin 4
/-- A slice, half or stack number (01 R27). -/
abbrev SliceId := Fin 16
/-- A compute die number. -/
abbrev DieId := Fin 8
/-- An I/O die number. -/
abbrev IodId := Fin 4
/-- A channel of a stack (11 Table 11.1). -/
abbrev ChanId := Fin 16
/-- An optical port. -/
abbrev PortId := Fin 32
/-- A port quad and its laser-source module (16 R452). -/
abbrev QuadId := Fin 8
/-- A partition and its function (15 R423). -/
abbrev PartId := Fin 128
/-- An agent number (07 Table 7.1). -/
abbrev AgentId := Fin 2048
/-- An integer register number. -/
abbrev Reg := Fin 32
/-- A vector register number. -/
abbrev VReg := Fin 32

/-- Bits `hi:lo` of a number, both ends included (00 R9). -/
def bits (x hi lo : Nat) : Nat := (x / 2 ^ lo) % 2 ^ (hi + 1 - lo)

/-- Bit `i` of a number. -/
def bitOf (x i : Nat) : Bool := x.testBit i

/-- A truth value as a bit. -/
def b2n (b : Bool) : Nat := if b then 1 else 0

end Sys2Proof
end

