-- ==== Sys2Proof/Syntax.lean ====
section
/-! DEFINITION. The commands of the block: one constructor of `Instr` per row of spec/opcode_table.json, with its
operands. A command that an array, a link or a sensor takes part in carries what that part delivers (an error outcome, a
reading, a verified signature) as an operand. -/

namespace Sys2Proof

/-- Where a core instruction executes: a saddle of a tile, and whether it is a compressed (C) encoding (04 R121). -/
structure At where
  tile : TileId
  saddle : SaddleId
  compressed : Bool := false
  deriving DecidableEq, Repr

/-- Outcome of the error code of the arrays an access reads (03 R84, 06 R193, 11 R317). -/
inductive Ecc where
  | ok | corrected | uncorrectable
  deriving DecidableEq, Repr

/-- Where a vector operation executes, and whether a result of it fails its residue check (03 R103). -/
structure VecAt where
  ctx : At
  residueFault : Bool
  deriving DecidableEq, Repr

/-- Where an instruction executes that reads the array, with the outcome of the array's error code (03 R84). -/
structure EccAt where
  ctx : At
  ecc : Ecc
  deriving DecidableEq, Repr

/-- A tile whose engine reads its array, with the outcome of the array's error code (03 R84). -/
structure EccTile where
  tile : TileId
  ecc : Ecc
  deriving DecidableEq, Repr

/-- A copy by its number, with the outcome of the error code of the array it reads (03 R84). -/
structure EccCopy where
  copy : Nat
  ecc : Ecc
  deriving DecidableEq, Repr

/-- RV64I and M register operations of latency class ALU or MUL (04 Table 4.2). -/
inductive AluOp where
  | add | sub | sll | slt | sltu | xor | srl | sra | or | and
  | addw | subw | sllw | srlw | sraw
  | mul | mulh | mulhsu | mulhu | mulw
  deriving DecidableEq, Repr

/-- Operand forms of INTEGER_OP; a raw word is one that spells no instruction: an encoding of an absent extension, a reserved encoding, or one
that M-mode alone may execute. -/
inductive IntegerOp where
  | word (w : BitVec 32)
  | rr (op : AluOp) (rd rs1 rs2 : Reg)
  | ri (op : AluOp) (rd rs1 : Reg) (imm : BitVec 12)
  | lui (rd : Reg) (imm : BitVec 20)
  | auipc (rd : Reg) (imm : BitVec 20)
  deriving DecidableEq, Repr

/-- Conditions of a branch. -/
inductive Cond where
  | eq | ne | lt | ge | ltu | geu
  deriving DecidableEq, Repr

/-- Operand forms of BRANCH; offsets in bytes, bit 0 is not encoded and must be 0. -/
inductive BranchOp where
  | cond (c : Cond) (rs1 rs2 : Reg) (off : BitVec 13)
  | jal (rd : Reg) (off : BitVec 21)
  | jalr (rd rs1 : Reg) (imm : BitVec 12)
  deriving DecidableEq, Repr

/-- Divisions and remainders (04 R655). -/
inductive DivOp where
  | div | divu | rem | remu | divw | divuw | remw | remuw
  deriving DecidableEq, Repr

/-- Load widths. -/
inductive LoadW where
  | b | h | w | d | bu | hu | wu
  deriving DecidableEq, Repr

/-- Store widths. -/
inductive StoreW where
  | b | h | w | d
  deriving DecidableEq, Repr

/-- CSR operations and their source. -/
inductive CsrOp where
  | rw | rs | rc
  deriving DecidableEq, Repr
inductive CsrSrc where
  | reg (rs1 : Reg)
  | imm (u : BitVec 5)
  deriving DecidableEq, Repr

/-- A line of EM (`ps = false`, PA bits 40:7) or of PS (`ps = true`, pinned address bits 30:7). -/
structure LineRef where
  ps : Bool
  addr : Nat
  deriving DecidableEq, Repr

/-- Requesters of a tile-array bank, in the fixed order of 03 R88. -/
inductive BankReq where
  | ingress | matrix | vector | core | l1
  deriving DecidableEq, Repr

/-- An accumulator element that a fault of the engine changed: row and column of C and the value it holds (03 R111). -/
structure Upset where
  row : Nat
  col : Nat
  value : BitVec 64
  deriving DecidableEq, Repr

/-- A RED flit (09 Table 9.3): partition, destination node, space, byte address of the 128-byte payload, operator,
format, NOCOMB, byte enables, payload, flags raised so far, WAITED, and the copy it belongs to. -/
structure RedFlit where
  part : PartId
  dst : Nat
  space : Fin 3
  addr : Nat
  op : Fin 16
  fmt : Fin 16
  sfmt : Fin 16
  nocomb : Bool
  byteen : BitVec 128
  data : LineData
  afl : BitVec 4
  waited : Nat
  /-- Credit key of the link whose receiver's buffer it stands in, none in a Chainring buffer or at its source. -/
  via : Option Nat := none
  /-- The copies whose partials it holds, each with the valid bytes of the payload that are its own. -/
  parts : List (Nat × BitVec 128)
  deriving DecidableEq, Repr

/-- A message that crosses a die link (17 R499): of the bulk network its sideband header (09 Table 9.3) and its line, if it carries one; a flit of
the control or the semaphore network (09 Tables 9.4 and 9.5). -/
inductive UdlMsg where
  | bn (hdr : BitVec 256) (data : Option LineData)
  | cn (flit : BitVec 256)
  | sn (flit : BitVec 64)
  deriving DecidableEq, Repr

/-- What a DATA flit brings beside its numbers: the causal stamp, if it carries one (23 R634), and the messages whose first slots enter the
link with it (17 R499). -/
structure FlitBody where
  stamp : Option Nat
  msgs : List UdlMsg
  deriving DecidableEq, Repr

/-- Networks of a link's credits (10 Table 10.2). -/
inductive Net where
  | bn | cn | sn
  deriving DecidableEq, Repr

/-- Event of the network ports: a router port (tile, port 0 local, 1 N, 2 E, 3 S, 4 W), a seam channel or a gateway. -/
inductive PortRef where
  | router (tile : TileId) (port : Fin 5)
  | seam (die : DieId) (chan : Fin 8) (side : Fin 2)
  | gateway (die : DieId) (gate : Fin 8)
  deriving DecidableEq, Repr

/-- Ledgers (10 Tables 10.2 to 10.9). -/
inductive LedgerId where
  | credit (p : PortRef) (n : Net) (vc : Fin 3)
  | slots (half : SliceId)
  | ring (qp : BitVec 16) (kind : Fin 3)
  | entries (q : IodId)
  | pages (q : IodId)
  | pinned (part : Option PartId)
  | tokens (iod : IodId) (module : BitVec 16)
  | buffers (port : PortId)
  deriving DecidableEq, Repr

/-- What an audit samples beside the counts of the state (10 R299): items that circuits of the unit hold in excused windows, the window of the
oldest one (1 RETURN, 2 ALLOC, 3 RATIO, 4 REINIT), its age in sampling periods, whether it is held at the peer (R305), and
by how much corrupted stable terms fall short. -/
structure AuditSample where
  excused : Nat
  window : Fin 8
  age : Nat
  peer : Bool
  leak : Int
  deriving DecidableEq, Repr

/-- KDP transports (21 Table 21.1). -/
inductive Transport where
  | udp (addr : Nat)
  | pf0
  | vf (k : PartId)
  | vfl (port : PortId)
  deriving DecidableEq, Repr

/-- One entry of a KDP body (21 Table 21.4); the value's bytes, unpadded. -/
structure KEntry where
  number : BitVec 24
  type : Fin 16
  estat : Fin 16
  value : List Byte
  deriving DecidableEq, Repr

/-- A KDP frame as it arrives (21 Table 21.2). `reserved` says that a reserved field is set; `lenOk` that LEN equals the
padded entries; `tagOk` that the tag verifies under the session key (R580). -/
structure KFrame where
  ver : Fin 16
  op : BitVec 8
  count : Nat
  session : BitVec 32
  seq : BitVec 48
  tagged : Bool
  reserved : Bool
  lenOk : Bool
  tagOk : Bool
  body : List KEntry
  deriving DecidableEq, Repr

/-- A VFL packet (16 Table 16.4). `malformed` says that the header is malformed or a reserved field is set; `credit` that
the frame came with link credit (16 R465). -/
structure Packet where
  port : PortId
  dst : BitVec 16
  src : BitVec 16
  hops : Fin 8
  win : BitVec 8
  offset : BitVec 40
  eseq : BitVec 32
  group : BitVec 16
  op : Fin 16
  fmt : Fin 16
  afl : BitVec 4
  len : Nat
  key : BitVec 64
  siod : IodId
  malformed : Bool
  credit : Bool
  payload : List Byte
  deriving DecidableEq, Repr

/-- A UDL capability block (17 Table 17.2). -/
structure CapBlock where
  vmaj : Fin 16
  vmin : Fin 16
  medium : Fin 4
  widths : BitVec 4
  usable : BitVec 8
  rates : BitVec 4
  crct : BitVec 2
  replay : Fin 8
  proto : BitVec 8
  agents : BitVec 8
  cagents : BitVec 8
  epoch : BitVec 8
  die : Fin 16
  vendor : BitVec 16
  product : BitVec 16
  deriving DecidableEq, Repr

/-- A die link, named by its gateway: photonic `gate` of `die` (09 R275), the electrical path of `die` to its I/O die, or
an expansion site (17 Table 17.1). -/
inductive LinkRef where
  | photonic (die : DieId) (gate : Fin 8)
  | electrical (die : DieId)
  | site (s : Fin 2)
  deriving DecidableEq, Repr

/-- A PCIe BAR0 or unit register that has no row of its own (00 R14, 14 Table 14.2). -/
inductive RegRef where
  | hifCtl | hifAqSqbase | hifAqCqbase | hifAqCfg
  | msix (word : Nat)
  | undefinedOffset (off : Nat)
  | memTgCtl (stack : SliceId) (chan : ChanId)
  | csuStat (tile : TileId)
  | halfStat (half : SliceId)
  | audit (l : LedgerId)
  | mbxStat
  | tbyp
  deriving DecidableEq, Repr

/-- Image sections of a firmware slot that a boot examines (22 Tables 22.2 to 22.4): `signer` is SIGNER, X then Y; `sigOk` stands for: SIG verifies,
DIGEST matches the body. -/
structure PartnerRule where
  ptype : Nat
  vmin : Nat
  vmax : Nat
  deriving DecidableEq, Repr
structure Image where
  type : Nat
  version : Nat
  svn : Nat
  keyidx : Nat
  magicOk : Bool
  reservedZero : Bool
  blen : Nat
  sigOk : Bool
  stepMin : Nat
  stepMax : Nat
  rules : List PartnerRule
  digest : Nat
  signer : List Byte := []
  deriving DecidableEq, Repr

/-- What lies outside the module when the action of a WRITE entry is performed: whether its signature verifies and comes within the
minute of its nonce, the image its slot then holds, the inputs that MOD_START, SAF_RELEASE and PWR_REF_SELECT look at. -/
structure ActEnv where
  signatureOk : Bool := false
  within60s : Bool := false
  image : Option Image := none
  inputOk : Bool := false
  interlockClosed : Bool := false
  flow : Int := 0
  inlet : Int := 0
  hottest : Int := 0
  inputV : Int := 0
  barrierPasses : Bool := false
  refPresent : Bool := false
  deriving DecidableEq, Repr

/-- The commands. -/
inductive Instr where
  -- control core (04)
  | integerOp (c : At) (op : IntegerOp)
  | branch (c : At) (op : BranchOp)
  | divRem (c : At) (op : DivOp) (rd rs1 rs2 : Reg)
  | load (c : At) (width : LoadW) (rd rs1 : Reg) (imm : BitVec 12) (ecc : Ecc)
  | store (c : At) (width : StoreW) (rs1 rs2 : Reg) (imm : BitVec 12) (ecc : Ecc)
  | fence (c : At) (pred succ : BitVec 4)
  | fenceI (c : At)
  | csrAccess (c : At) (op : CsrOp) (rd : Reg) (src : CsrSrc) (csr : BitVec 12)
  | ebreak (c : At)
  | ecall (c : At)
  | taskFaultDrained (tile : TileId) (saddle : SaddleId)
  | contextRotate (tile : TileId)
  | engMm (c : EccAt) (wr acc : Bool) (rs1 : Reg)
  -- vector unit (03, 04)
  | vadd (c : At) (vd vs1 vs2 : VReg) (residueFault : Bool)
  | vsub (c : At) (vd vs1 vs2 : VReg) (residueFault : Bool)
  | vmul (c : At) (vd vs1 vs2 : VReg) (residueFault : Bool)
  | vfma (c : At) (vd vs1 vs2 : VReg) (residueFault : Bool)
  | vmin (c : VecAt) (vd vs1 vs2 : VReg)
  | vmax (c : VecAt) (vd vs1 vs2 : VReg)
  | vabs (c : VecAt) (vd vs1 : VReg)
  | vneg (c : VecAt) (vd vs1 : VReg)
  | vcmpEq (c : VecAt) (vd vs1 vs2 : VReg)
  | vcmpLt (c : VecAt) (vd vs1 vs2 : VReg)
  | vcmpLe (c : VecAt) (vd vs1 vs2 : VReg)
  | vcmpUnord (c : VecAt) (vd vs1 vs2 : VReg)
  | vsel (c : VecAt) (vd vs1 vs2 : VReg)
  | vand (c : VecAt) (vd vs1 vs2 : VReg)
  | vor (c : VecAt) (vd vs1 vs2 : VReg)
  | vxor (c : VecAt) (vd vs1 vs2 : VReg)
  | viadd (c : At) (vd vs1 vs2 : VReg) (residueFault : Bool)
  | visub (c : VecAt) (vd vs1 vs2 : VReg)
  | vimul (c : VecAt) (vd vs1 vs2 : VReg)
  | vsll (c : VecAt) (vd vs1 vs2 : VReg)
  | vsrl (c : VecAt) (vd vs1 vs2 : VReg)
  | vsra (c : VecAt) (vd vs1 vs2 : VReg)
  | viadds (c : VecAt) (vd vs1 vs2 : VReg)
  | vcvt (c : VecAt) (vd vs1 : VReg)
  | vmxenc (c : VecAt) (vd vs1 : VReg)
  | vrsum (c : VecAt) (vd vs1 : VReg)
  | vrmax (c : VecAt) (vd vs1 : VReg)
  | vrmin (c : VecAt) (vd vs1 : VReg)
  | vexp (c : VecAt) (vd vs1 : VReg)
  | vrcp (c : VecAt) (vd vs1 : VReg)
  | vrsqrt (c : VecAt) (vd vs1 : VReg)
  | vsmxr (c : VecAt) (vd vs1 vs2 : VReg)
  | engVld (c : At) (size : Fin 4) (vd : VReg) (rs1 : Reg) (ecc : Ecc)
  | engVst (c : At) (size : Fin 4) (vs2 : VReg) (rs1 : Reg) (ecc : Ecc)
  -- copies, synchronisation, fences of the core (04)
  | cpyPush (c : At) (rd rs1 : Reg)
  | cpyPushnb (c : At) (rd rs1 : Reg)
  | cpyWait (c : At) (rd rs1 : Reg)
  | cpyTest (c : At) (rd rs1 : Reg)
  | semSig (c : At) (rs1 rs2 : Reg)
  | semWait (c : At) (rd rs1 rs2 : Reg)
  | semTry (c : At) (rd rs1 rs2 : Reg)
  | barAw (c : At) (rd rs1 : Reg)
  | barA (c : At) (rd rs1 : Reg)
  | barW (c : At) (rd rs1 rs2 : Reg)
  | hintDead (c : At) (rs1 rs2 : Reg)
  | fenceE (c : At)
  | fenceM (c : At)
  | fenceH (c : At)
  | fenceFab (c : At)
  | fenceAll (c : At)
  | fenceDone (tile : TileId) (saddle : SaddleId)
  | dbgTrace (c : At) (rs1 : Reg)
  | dbgBrk (c : At)
  | taskEnd (c : At) (rs1 : Reg)
  -- tile engines (03)
  | matrixIssueStart (tile : EccTile)
  | issueWriteOut (tile : TileId) (upset : Option Upset)
  | thresholdStepDown (tile : TileId) (cls : Fin 6)
  | csuSelftest (tile : TileId) (perturbedPasses : Bool)
  | strikeLapse (tile : TileId)
  | bankStarved (tile : TileId) (bank : Fin 32) (req : BankReq)
  | splitChangeDone (tile : TileId)
  | copyComplete (copy : EccCopy)
  -- cache (06)
  | guardWindowEnd (slice : SliceId)
  | fillReturn (line : LineRef) (ecc : Ecc) (blocked : List AgentId)
  -- coherence (07)
  | gets (agent : AgentId) (line : LineRef) (part : PartId) (cls : Fin 8) (ecc : Ecc)
  | getx (agent : AgentId) (line : LineRef) (part : PartId) (cls : Fin 8) (ecc : Ecc)
  | upg (agent : AgentId) (line : LineRef) (part : PartId) (cls : Fin 8)
  | putf (agent : AgentId) (line : LineRef)
  | pute (agent : AgentId) (line : LineRef)
  | putm (agent : AgentId) (line : LineRef)
  | ncrd (agent : AgentId) (line : LineRef) (part : PartId) (cls : Fin 8) (ecc : Ecc)
  | ncwi (agent : AgentId) (line : LineRef) (part : PartId) (cls : Fin 8) (byteen : BitVec 128) (data : LineData)
  | ncwh (agent : AgentId) (line : LineRef) (part : PartId) (cls : Fin 8) (byteen : BitVec 128) (data : LineData)
      (target : Option TileId)
  | dead (agent : AgentId) (line : LineRef) (part : PartId)
  | fwdS (agent : AgentId) (line : LineRef)
  | fwdX (agent : AgentId) (line : LineRef)
  | fwdNc (agent : AgentId) (line : LineRef)
  | inv (agent : AgentId) (line : LineRef)
  | invd (agent : AgentId) (line : LineRef)
  | push (tile : TileId) (line : LineRef) (home : SliceId)
  | dataS (agent : AgentId) (line : LineRef)
  | dataF (agent : AgentId) (line : LineRef)
  | dataE (agent : AgentId) (line : LineRef)
  | dataM (agent : AgentId) (line : LineRef)
  | grantM (agent : AgentId) (line : LineRef)
  | ncdata (agent : AgentId) (line : LineRef)
  | ncack (agent : AgentId) (line : LineRef)
  | invAck (agent : AgentId) (line : LineRef)
  | fwdAck (agent : AgentId) (line : LineRef)
  | pushAck (tile : TileId) (line : LineRef)
  | pushNak (tile : TileId) (line : LineRef)
  | putAck (agent : AgentId) (line : LineRef)
  | nack (agent : AgentId) (line : LineRef)
  | nackBackoffExpiry (agent : AgentId) (line : LineRef)
  | ticketAdmit (line : LineRef)
  | agentUnresponsive (line : LineRef) (agent : AgentId)
  | ncModeChange (agent : AgentId)
  -- networks (09)
  | tswr (agent : AgentId) (tile : TileId) (offset : Nat) (data : List Byte) (part : PartId) (ecc : Ecc)
  | tsrd (agent : AgentId) (tile : TileId) (offset : Nat) (len : Nat) (part : PartId) (ecc : Ecc)
  | tsdata (agent : AgentId) (tile : TileId)
  | tsack (agent : AgentId) (tile : TileId)
  | red (router : TileId) (flit : RedFlit) (atDestination : Bool)
  | chainringRelease (router : TileId)
  | redack (copy : Nat)
  | branchHoldExpiry (port : PortRef) (place : Fin 4)
  | branchFail (copy : Nat) (target : Fin 64)
  | creditReturn (port : PortRef) (net : Net) (vc : Fin 3)
  | cnDoorbell (iod : IodId)
  | cnCmd (iod : IodId)
  | cnCmpl (iod : IodId)
  | cnSwr (src dst : AgentId) (line : LineRef) (offset : Nat) (data : List Byte) (part : PartId)
  | cnSwrack (agent : AgentId)
  | cnLaunch (tile : TileId) (saddle : SaddleId)
  | cnTaskend (tile : TileId) (saddle : SaddleId)
  | cnFault (tile : TileId) (saddle : SaddleId)
  | cnEvent (iod : IodId)
  | snSig (sem : BitVec 16) (count : BitVec 16) (src : AgentId)
  | snWait (sem : BitVec 16) (count : BitVec 16) (tile : TileId) (saddle : SaddleId)
  | snTry (sem : BitVec 16) (count : BitVec 16) (tile : TileId) (saddle : SaddleId)
  | snBarA (bar : BitVec 12) (src : AgentId)
  | snBarAw (bar : BitVec 12) (tile : TileId) (saddle : SaddleId)
  | snBarW (bar : BitVec 12) (phase : BitVec 16) (tile : TileId) (saddle : SaddleId)
  | snGrant (tile : TileId) (saddle : SaddleId)
  | snFail (tile : TileId) (saddle : SaddleId)
  | snRetry (tile : TileId) (saddle : SaddleId)
  | waitResend (tile : TileId) (saddle : SaddleId)
  | snRelease (tile : TileId) (saddle : SaddleId)
  | clkADivChange (half : SliceId)
  | seamPauseEnd (die : DieId)
  | auditSample (ledger : LedgerId) (sample : AuditSample)
  -- external memory (11)
  | memRead (pa : Nat) (data redundancy : Ecc) (lane : Fin 76)
  | memWrite (pa : Nat) (data : LineData) (poison : Bool)
  | parityDelta (pa : Nat) (delta : LineData)
  | scrub (pa : Nat) (data redundancy : Ecc) (lane : Fin 76)
  | refresh (stack : SliceId)
  | memRegionSet (blob : List Byte)
  | regionFormingDone
  | memTrainStepDone (stack : SliceId) (chan : ChanId) (ok : Bool) (weak : List (Fin 76)) (weakCa : List (Fin 12))
      (loopbackPass : Bool)
  | stackThermalSample (temps : List Int)
  | critParkDone (stack : SliceId)
  | resyncEnd (stack : SliceId)
  | stackCmdTimeout (stack : SliceId) (chan : ChanId)
  | rebuildStart (stack : SliceId)
  | rebuildStep (stack : SliceId) (redundancy : Ecc)
  | memTgStart (stack : SliceId) (chan : ChanId) (service : Bool)
  | memTgStop (stack : SliceId) (chan : ChanId)
  | memTgDone (stack : SliceId) (chan : ChanId) (errors : Nat) (first : Nat) (lanes : BitVec 76)
  -- sequence engine (12)
  | slotSet (cmd : Nat)
  | slotClear (cmd : Nat)
  | seqAdmit (cmd : Nat)
  | seqAppend (cmd : Nat)
  | seqPark (cmd : Nat)
  | seqResume (cmd : Nat)
  | seqRetire (cmd : Nat)
  | seqQuery (cmd : Nat)
  | stepCmd (cmd : Nat)
  | stepEnd (cmd : Nat)
  | retireDone (index : BitVec 20)
  | selectionStart (cmd : Nat) (item : Nat)
  | selectionMerge (cmd : Nat) (item : Nat)
  | seqAstInit
  | seqAstInitDone
  | seqPoolSet (blob : List Byte)
  -- scheduler (13)
  | taskLaunch (iod : IodId)
  | contextEvictable (tile : TileId) (saddle : SaddleId)
  | evictionReceived (tile : TileId) (saddle : SaddleId)
  | saveDone (tile : TileId) (saddle : SaddleId)
  | restoreDone (tile : TileId) (saddle : SaddleId) (ecc : Ecc)
  | parkedWaitDone (handle : Nat)
  | interfWindowEnd (part : PartId) (active waited : Nat)
  -- host port (14)
  | sqDoorbell (fn : PartId) (qp : BitVec 16) (tail : BitVec 16)
  | cqDoorbell (fn : PartId) (qp : BitVec 16) (head : BitVec 16)
  | adminSqDoorbell (fn : PartId) (tail : BitVec 16)
  | adminCqDoorbell (fn : PartId) (head : BitVec 16)
  | commandFetchDone (fn : PartId) (qp : Option (BitVec 16)) (slots : List LineData)
  | nop (cmd : Nat)
  | launch (cmd : Nat)
  | copyCmd (cmd : Nat)
  | pwrite (cmd : Nat)
  | collective (cmd : Nat)
  | pin (cmd : Nat)
  | unpin (cmd : Nat)
  | barAlloc (cmd : Nat)
  | mmuInval (cmd : Nat)
  | frameTag (cmd : Nat)
  | qpCreate (cmd : Nat)
  | qpDelete (cmd : Nat)
  | qpRebind (cmd : Nat)
  | resultFetch (cmd : Nat)
  | resultAck (cmd : Nat)
  | commandComplete (cmd : Nat)
  | flushReturn
  | tlimitExpiry (cmd : Nat)
  | msixCoalesceTimer (qp : BitVec 16)
  | hifAttach (fn : PartId)
  | hifAqEn (fn : PartId)
  | pcieLinkDown
  | pcieHotReset
  | pcieRecoveryTimeout
  | hifPortSelect (port : Nat)
  | flr (fn : PartId)
  | vfEnableClear
  -- partitions (15)
  | partCreate (blob : List Byte)
  | partDisable (part : BitVec 8)
  | disableDone (part : PartId)
  | shrSet (blob : List Byte)
  | shrSeal (slot : BitVec 8)
  | shrClear (slot : BitVec 8)
  | shrRepair (blob : List Byte)
  | mcastSet (part : PartId) (blob : List Byte)
  | migLogFlip (part : PartId)
  | migLogOnWrite (part : PartId) (on : Bool)
  -- fabric (16)
  | fabPortMode (port : PortId) (mode : Nat)
  | fabLinkUp (port : PortId) (idHash : Nat) (claimed : BitVec 16) (partnerAccepts : Bool) (lanes : List (Fin 8))
      (credit : Nat)
  | fabLinkFailRetry (port : PortId) (cause : Fin 5)
  | laneRemove (port : PortId) (lane : Fin 8)
  | ethLaneLoss (port : PortId) (goodLanes : Nat)
  | frameReplay (port : PortId) (frames : Nat)
  | keyRenew (port : PortId)
  | laserModuleFault (quad : QuadId)
  | vflWrite (p : Packet)
  | vflWriteReduce (p : Packet)
  | vflRead (p : Packet)
  | vflReadRsp (p : Packet)
  | vflSignal (p : Packet)
  | vflMulticast (p : Packet)
  | vflDcmp (p : Packet) (run : Nat)
  | vflOpen (p : Packet)
  | vflOpenAck (p : Packet) (grant : Nat)
  | vflColl (p : Packet)
  | vflSlow (p : Packet)
  | vflAbort (p : Packet)
  | vflMgmt (p : Packet) (total : Nat)
  | deliveryTimeout (iod : IodId) (dst : BitVec 16) (eseq : BitVec 32)
  | collTimeout (group : BitVec 16)
  | slowHintTimer
  | quarExpiry (entry : Nat)
  | fabAllowSet (blob : List Byte)
  | fabRouteSet (blob : List Byte)
  | fabGroupSet (blob : List Byte)
  | fabEthQpSet (blob : List Byte)
  | fabWinSet (part : PartId) (blob : List Byte)
  | fabRkeySet (part : PartId) (blob : List Byte)
  | roceWrite (port : PortId) (qpn : BitVec 24) (rkey : BitVec 32) (addr : Nat) (payload : List Byte)
  | roceWriteImm (port : PortId) (qpn : BitVec 24) (rkey : BitVec 32) (addr : Nat) (payload : List Byte) (imm : BitVec 32)
  | roceRead (port : PortId) (qpn : BitVec 24) (rkey : BitVec 32) (addr : Nat) (len : Nat)
  | roceAck (port : PortId) (qpn : BitVec 24) (psn : BitVec 24)
  | roceRetryTimeout (port : PortId) (qpn : BitVec 24)
  -- die links (17)
  | udlTrain (link : LinkRef) (weak : List (Fin 128)) (usable : Nat) (quick : Bool)
  | udlCapx (link : LinkRef) (partner : CapBlock)
  | udlPropose (link : LinkRef)
  | udlConfirm (link : LinkRef) (sameParameters : Bool) (ownErrors partnerErrors : Nat)
  | udlConfirmTimeout (link : LinkRef)
  | udlDataFlit (link : LinkRef) (seq : BitVec 12) (ack : BitVec 12) (crcOk : Bool) (body : FlitBody)
  | udlNak (link : LinkRef) (seq : BitVec 12)
  | udlPartnerTraining (link : LinkRef)
  | detourTimeout (link : LinkRef)
  | udlDetourReturn (link : LinkRef)
  | udl1TrainingPattern (die : DieId)
  | xsTrain (site : Fin 2) (modules : Fin 3) (cap : CapBlock)
  | combEmitterFail (src : Fin 12)
  | ringLockLoss (link : LinkRef) (wavelength : Fin 34)
  -- fault tolerance (18)
  | halfSidebandLoss (half : SliceId)
  | halfRequestTimeout (half : SliceId) (gateways : Nat) (sliceSilent : Bool)
  | iodHeartbeat (iod : IodId)
  | heartbeatMiss (iod : IodId) (seenAlive : Bool)
  | iodTakeoverDone (iod : IodId)
  | waypointTimer (part : PartId)
  | wpTake (part : PartId)
  | waypointDrained (part : PartId)
  | waypointDrainTimeout (part : PartId)
  | wpRestore (part : PartId)
  | ftTileTest (tile : BitVec 16)
  | tileTestDone (tile : TileId) (pass : Bool)
  | ftDieDrain (die : BitVec 8)
  | dieDrained (die : DieId)
  | ftDieTest (die : BitVec 8)
  | ftDieReturn (die : BitVec 8)
  | ftStackRetrain (word : BitVec 32)
  | stackRetrainChannelDone (stack : SliceId) (chan : ChanId) (ok : Bool) (weak : List (Fin 76))
  -- safety (19)
  | returnLossTrip (port : PortId)
  | lossOfLight (port : PortId)
  | transmitTapTimeout (port : PortId)
  | shutterProbe (port : PortId)
  | laserModuleRemove (quad : QuadId)
  | inputOvervoltage
  | inputUndervoltage
  | inputOvercurrent
  | fetReclose
  | segmentOvercurrent (segment : Fin 23)
  | junctionTrip (half : SliceId)
  | junctionRecover (half : SliceId) (celsius : Int)
  | junctionCrit (die : Fin 14)
  | coolantFlowLow
  | coolantTempHigh
  | interlockOpen
  | safKick
  | safRelease (service : Bool) (interlockClosed : Bool) (flow inlet : Int) (hottest : Int) (inputV : Int)
      (barrierPasses : Bool)
  | busConverterFail (conv : Fin 5)
  | refclkLoss
  | pwrRefSelect (src : Nat) (presentForOneSecond : Bool)
  | pllLockLoss (die : Fin 12)
  | powerCapSample (watts : Nat)
  | fastClamp (watts : Nat)
  | thermalLoopSample (half : SliceId) (celsius : Int)
  | voltageLoopStep (half : SliceId) (margin : Fin 3) (atVmaxFor1ms : Bool)
  | droopThrottle (tile : TileId)
  | droopEnd (tile : TileId)
  | coolantSample (flowMilli inletMilli : Nat)
  -- dictionary (21)
  | kdpDiscover (t : Transport) (f : KFrame)
  | kdpRead (t : Transport) (f : KFrame)
  | kdpWrite (t : Transport) (f : KFrame) (env : List ActEnv)
  | kdpDescribe (t : Transport) (f : KFrame)
  | kdpLoginChallenge (t : Transport) (f : KFrame)
  | kdpLoginResponse (t : Transport) (f : KFrame) (signatureOk : Bool)
  | kdpLogout (t : Transport) (f : KFrame)
  | kdpSubscribe (t : Transport) (f : KFrame)
  | kdpFetchEvents (t : Transport) (f : KFrame)
  | eventFrameSend (session : BitVec 32)
  | mbxGo (fn : PartId) (f : KFrame) (env : List ActEnv)
  | sessionIdleTimeout (session : BitVec 32)
  | loginLockoutExpiry (t : Transport)
  | actionRunningTimeout (number : BitVec 24)
  | actionDone (number : BitVec 24) (estat : Fin 8)
  | kdpServerFailover
  | mgmtFragmentTimeout (port : PortId)
  | kodSave
  | saveDelayExpiry
  | configSaveDone
  | kodFactory
  -- security and firmware (22)
  | fwWrite (blob : List Byte) (image : Option Image)
  | fwCommit (type : BitVec 8)
  | fwActivate
  | fwLiveIod
  | liveUpdateStepDone (ok : Bool)
  | fwSvnCommit (type : BitVec 8)
  | spdmReq (session : BitVec 32) (request : List Byte)
  | dbgUnlock (signatureOk : Bool) (within60s : Bool)
  -- counters and debug (23)
  | odoCopy
  | odoClear (number : BitVec 32) (inst : BitVec 32)
  | dbgTrigSet (blob : List Byte) (byOperator : Bool)
  | dbgResume (word : BitVec 32)
  | dbgFreewheel (scope : BitVec 8)
  | freewheelDrained (scope : BitVec 8)
  | dbgFreewheelEnd (scope : BitVec 8)
  | dbgBrake
  | brakeCut
  | brakeMarker (unit : Nat) (input : Nat)
  | brakeFabMarkerTimeout (port : PortId)
  | brakeUnitTimeout (unit : Nat)
  | dbgBrakeRelease
  | traceSpaceReturn (src : Fin 20)
  -- start-up (24)
  | powerOn (refPresent : Bool) (segFail : BitVec 23)
  | powerOff
  | modStart (inputOk : Bool)
  | modStop
  | secureBoot (inputOk factoryOk : Bool) (iodSelfTestOk : BitVec 4)
  | coldBringup (pllFail : BitVec 16) (barrier : BitVec 15)
  | readyReached
  | registerWrite (fn : PartId) (reg : RegRef) (value : BitVec 64)
  | laserModuleInsert (quad : QuadId)
  | shutterFullOpen (port : PortId)
  | doeRequest (request : List Byte)
  deriving DecidableEq, Repr

end Sys2Proof
end

