-- ==== Sys2Proof/Decode.lean ====
section
/-! DEFINITION. Words and commands. No row of the opcode table gives its command bits: commands come from outside with
their operands, so no word spells one. -/

namespace Sys2Proof

/-- The command that a word spells by the table's bits: none, since no row gives bits. -/
def decodeTableWord (_nbits _w : Nat) : Option Instr := none

end Sys2Proof
end

