-- ==== Sys2Proof/Machine/Tab.lean ====
section
/-! DEFINITION. Sparse tables and memories as plain data. A `Tab` lists (key, value) pairs, keys rising; a key that is not
listed stands for the table's default value, which each reader names. A `Mem` is a byte memory in its canonical form:
addresses strictly rising, no listed byte equal to 0, what an unlisted address reads as (11 R316, 24 Table 24.2). -/

namespace Sys2Proof.Machine

/-- A sparse table: keys rising, one entry a key. -/
abbrev Tab (α : Type) := List (Nat × α)

/-- The entry listed under a key. -/
def Tab.find {α : Type} (k : Nat) : Tab α → Option α
  | [] => none
  | (j, v) :: r => if j = k then some v else Tab.find k r

/-- The entry under a key, or the default. -/
def Tab.getD {α : Type} (t : Tab α) (k : Nat) (d : α) : α := (Tab.find k t).getD d

/-- Is a key listed? -/
def Tab.has {α : Type} (t : Tab α) (k : Nat) : Bool := (Tab.find k t).isSome

/-- Set the entry under a key. -/
def Tab.put {α : Type} (k : Nat) (v : α) : Tab α → Tab α
  | [] => [(k, v)]
  | (j, w) :: r => if j = k then (k, v) :: r else if k < j then (k, v) :: (j, w) :: r else (j, w) :: Tab.put k v r

/-- Remove the entry under a key. -/
def Tab.del {α : Type} (k : Nat) (t : Tab α) : Tab α := t.filter fun e => e.1 != k

/-- Update the entry under a key, starting from the default where none is listed. -/
def Tab.upd {α : Type} (t : Tab α) (k : Nat) (d : α) (f : α → α) : Tab α := Tab.put k (f (Tab.getD t k d)) t

/-- Update an entry only where it is listed. -/
def Tab.adj {α : Type} (t : Tab α) (k : Nat) (f : α → α) : Tab α :=
  match Tab.find k t with
  | some v => Tab.put k (f v) t
  | none => t

/-- Keep the entries that satisfy a test. -/
def Tab.keep {α : Type} (t : Tab α) (p : Nat → α → Bool) : Tab α := t.filter fun e => p e.1 e.2

/-- Update every entry that satisfies a test. -/
def Tab.mapWhere {α : Type} (t : Tab α) (p : Nat → α → Bool) (f : α → α) : Tab α :=
  t.map fun e => if p e.1 e.2 then (e.1, f e.2) else e

/-- Update every entry. -/
def Tab.mapVals {α : Type} (t : Tab α) (f : α → α) : Tab α := t.map fun e => (e.1, f e.2)

/-- One more than the greatest key listed (a fresh key). -/
def Tab.fresh {α : Type} (t : Tab α) : Nat := t.foldl (fun n e => max n (e.1 + 1)) 0

/-- A byte memory in canonical form. -/
abbrev Mem := List Host.Cell

/-- The byte at an address; 0 where none is listed. -/
def Mem.rd (a : Nat) : Mem → Byte
  | [] => 0
  | (j, b) :: r => if j = a then b else Mem.rd a r

/-- Write one byte, keeping the canonical form. -/
def Mem.wr (a : Nat) (v : Byte) : Mem → Mem
  | [] => if v = 0 then [] else [(a, v)]
  | (j, b) :: r =>
    if j = a then (if v = 0 then r else (a, v) :: r)
    else if a < j then (if v = 0 then (j, b) :: r else (a, v) :: (j, b) :: r)
    else (j, b) :: Mem.wr a v r

/-- Write consecutive bytes. -/
def Mem.wrs (a : Nat) : List Byte → Mem → Mem
  | [], m => m
  | v :: vs, m => Mem.wrs (a + 1) vs (Mem.wr a v m)

/-- Read consecutive bytes. -/
def Mem.rds (m : Mem) (a : Nat) : Nat → List Byte
  | 0 => []
  | n + 1 => Mem.rd a m :: Mem.rds m (a + 1) n

/-- Clear an address range to 0. -/
def Mem.clear (m : Mem) (a n : Nat) : Mem := m.filter fun e => decide (e.1 < a ∨ a + n ≤ e.1)

/-- All addresses listed lie at or above a bound, strictly rising, and no listed byte is 0. -/
def Mem.wfFrom : Nat → Mem → Bool
  | _, [] => true
  | lo, (j, b) :: r => decide (lo ≤ j) && decide (b ≠ 0) && Mem.wfFrom (j + 1) r

/-- The canonical form of a memory. -/
def Mem.wf (m : Mem) : Bool := Mem.wfFrom 0 m

/-- Bytes of a number, least significant first (00 R9). -/
def leBytes (x : Nat) : Nat → List Byte
  | 0 => []
  | n + 1 => BitVec.ofNat 8 x :: leBytes (x / 256) n

/-- The number that bytes spell, least significant first (00 R9). -/
def leNat : List Byte → Nat
  | [] => 0
  | b :: r => b.toNat + 256 * leNat r

/-- Bytes of a bit vector of `8 * n` bits. -/
def bytesOf {w : Nat} (v : BitVec w) : List Byte := leBytes v.toNat (w / 8)

/-- A line from its bytes. -/
def lineOf (l : List Byte) : LineData := BitVec.ofNat 1024 (leNat l)

/-- A field of a byte string: bytes `off` to `off + n - 1` as a number. -/
def leField (l : List Byte) (off n : Nat) : Nat := leNat ((l.drop off).take n)

/-- Cut or zero-extend to a length. -/
def padTo (l : List Byte) (n : Nat) : List Byte := (l ++ List.replicate (n - l.length) 0).take n

end Sys2Proof.Machine
end

