-- ==== Sys2Proof/Machine/Params.lean ====
section
/-! DEFINITION. The parameters of the object dictionary: one row a table row of the manual (spec 00 to 24, every table
with a Number column), with the type codes of 21 Table 21.4, the access and role codes of 21 Table 21.6, the default and
the range stated in the parameter's table. An indexed parameter is one row with a count. -/

namespace Sys2Proof.Machine

/-- A row of the dictionary: first number, how many numbers it spans, name, type, access, role, default, least and
greatest value (byte length for STR and BLOB), and whether it is a per-partition parameter (21 R583). -/
structure PRow where
  num : Nat
  count : Nat
  name : String
  type : Nat
  access : Nat
  role : Nat
  dflt : Int
  lo : Int
  hi : Int
  perPart : Bool
  deriving DecidableEq, Repr

/-- Rows of the dictionary, part 0, in ascending number. -/
def paramRows0 : List PRow := [
  ⟨0x010001, 1, "PART_NUMBER", 10, 0, 0, 0, 0, 64, false⟩,
  ⟨0x010002, 1, "ORDER_CODE", 9, 0, 0, 0, 0, 2, false⟩,
  ⟨0x010003, 1, "STEPPING", 3, 0, 0, 0, 0, 65535, false⟩,
  ⟨0x010004, 1, "IOD_TYPE", 2, 0, 0, 0, 0, 255, false⟩,
  ⟨0x010005, 1, "SERIAL", 10, 0, 0, 0, 0, 64, false⟩,
  ⟨0x010006, 1, "T1S_MAC", 5, 0, 0, 0, 0, 18446744073709551615, false⟩,
  ⟨0x010010, 2, "XS_IDENT", 4, 0, 0, 0, 0, 4294967295, false⟩,
  ⟨0x020001, 1, "PWR_CAP", 4, 2, 3, 7200, 2000, 7200, false⟩,
  ⟨0x020002, 1, "PWR_HYST", 3, 2, 3, 300, 100, 1000, false⟩,
  ⟨0x020003, 1, "PWR_INPUT_W", 8, 0, 0, 0, 0, 0, false⟩,
  ⟨0x020004, 1, "PWR_EXCESS_MS", 8, 0, 0, 0, 0, 0, false⟩,
  ⟨0x020005, 1, "PWR_EFF_CAP", 4, 0, 0, 7200, 0, 4294967295, false⟩,
  ⟨0x020006, 1, "PWR_CONV_OK", 2, 0, 0, 31, 0, 255, false⟩,
  ⟨0x020010, 16, "PWR_DIV_LIMIT", 2, 2, 3, 4, 4, 8, false⟩,
  ⟨0x020030, 16, "PWR_HALF_W", 8, 0, 0, 0, 0, 0, false⟩,
  ⟨0x030001, 1, "PWR_REF_SRC", 9, 0, 0, 0, 0, 1, false⟩,
  ⟨0x030002, 1, "PWR_REF_SELECT", 9, 4, 3, 0, 0, 1, false⟩,
  ⟨0x030003, 1, "PWR_TJ_TARGET", 2, 2, 3, 100, 85, 110, false⟩,
  ⟨0x030010, 16, "PWR_CLK_A_DIV", 2, 0, 0, 4, 0, 255, false⟩,
  ⟨0x030030, 14, "PWR_TJ", 6, 0, 0, 0, -2147483648, 2147483647, false⟩,
  ⟨0x040001, 1, "MEM_T_HIGH", 2, 2, 3, 95, 85, 95, false⟩,
  ⟨0x040002, 1, "MEM_T_CRIT", 2, 0, 0, 105, 0, 255, false⟩,
  ⟨0x040003, 1, "MEM_SCRUB_HOURS", 3, 2, 3, 24, 1, 168, false⟩,
  ⟨0x040004, 1, "MEM_REBUILD_RATE", 3, 2, 3, 200, 25, 200, false⟩,
  ⟨0x040005, 1, "MEM_LANE_CE_LIMIT", 4, 2, 3, 10000, 0, 4294967295, false⟩,
  ⟨0x040006, 1, "MEM_FKT_BASE", 5, 2, 3, 0, 0, 18446744073709551615, false⟩,
  ⟨0x040007, 1, "MEM_REGION_SET", 11, 4, 3, 0, 0, 1024, false⟩,
  ⟨0x040010, 16, "MEM_STACK_STATE", 9, 0, 0, 0, 0, 5, false⟩,
  ⟨0x040020, 16, "MEM_STACK_TEMP", 6, 0, 0, 0, -2147483648, 2147483647, false⟩,
  ⟨0x050001, 1, "FAB_MODULE_ID", 3, 2, 3, 0, 0, 65535, false⟩,
  ⟨0x050002, 1, "FAB_ALLOW_SET", 11, 4, 3, 0, 0, 1024, false⟩,
  ⟨0x050003, 1, "FAB_ROUTE_SET", 11, 4, 3, 0, 0, 1024, false⟩,
  ⟨0x050004, 1, "FAB_GROUP_SET", 11, 4, 3, 0, 0, 1024, false⟩,
  ⟨0x050005, 1, "FAB_ETH_QP_SET", 11, 4, 3, 0, 0, 1024, false⟩,
  ⟨0x050006, 1, "FAB_WIN_SET", 11, 4, 1, 0, 0, 1024, false⟩,
  ⟨0x050007, 1, "FAB_RKEY_SET", 11, 4, 1, 0, 0, 1024, false⟩,
  ⟨0x050010, 1, "FAB_DELIV_TO", 4, 2, 3, 1000, 0, 4294967295, false⟩,
  ⟨0x050011, 1, "FAB_COLL_TO", 4, 2, 3, 100000, 0, 4294967295, false⟩,
  ⟨0x050012, 1, "FAB_SLOW_FACTOR", 2, 2, 3, 8, 1, 64, false⟩,
  ⟨0x050013, 1, "FAB_E2E_GRANT", 3, 2, 3, 256, 0, 65535, false⟩]

/-- Rows of the dictionary, part 1, in ascending number. -/
def paramRows1 : List PRow := [
  ⟨0x050014, 1, "FAB_QUAR_TIME", 4, 2, 3, 60, 0, 4294967295, false⟩,
  ⟨0x050100, 256, "FAB_WIN_OWNER", 2, 2, 3, 255, 0, 255, false⟩,
  ⟨0x050200, 32, "FAB_PORT_MODE", 9, 2, 3, 1, 0, 2, false⟩,
  ⟨0x050220, 32, "FAB_PORT_STATE", 9, 0, 0, 0, 0, 4, false⟩,
  ⟨0x050240, 32, "FAB_PORT_WIDTH", 2, 0, 0, 0, 0, 255, false⟩,
  ⟨0x050260, 32, "FAB_PEER_CEIL", 3, 2, 3, 8192, 0, 65535, false⟩,
  ⟨0x050280, 32, "FAB_LANE_MAP", 4, 0, 0, 0, 0, 4294967295, false⟩,
  ⟨0x050300, 128, "FAB_RKEY_QUOTA", 3, 2, 3, 0, 0, 65535, true⟩,
  ⟨0x060001, 1, "HIF_PORT_STATE", 9, 0, 0, 0, 0, 2, false⟩,
  ⟨0x060002, 1, "HIF_PORT_SELECT", 9, 4, 3, 0, 0, 1, false⟩,
  ⟨0x060003, 1, "HIF_DETACH_CAUSE", 9, 0, 0, 0, 0, 4, false⟩,
  ⟨0x060100, 128, "HIF_QP_QUOTA", 3, 2, 3, 0, 0, 65535, true⟩,
  ⟨0x060200, 128, "HIF_TLIMIT_DEF", 4, 2, 3, 10000000, 0, 4294967295, true⟩,
  ⟨0x060300, 128, "HIF_JRNL_BASE", 5, 2, 3, 0, 0, 18446744073709551615, true⟩,
  ⟨0x060400, 128, "HIF_RETAIN_BASE", 5, 2, 3, 0, 0, 18446744073709551615, true⟩,
  ⟨0x060500, 128, "HIF_RETAIN_SIZE", 4, 2, 3, 0, 0, 4294967295, true⟩,
  ⟨0x070001, 1, "PART_CREATE", 11, 4, 3, 0, 0, 1024, false⟩,
  ⟨0x070002, 1, "PART_DISABLE", 2, 4, 3, 0, 0, 255, false⟩,
  ⟨0x070010, 1, "SHR_SET", 11, 4, 3, 0, 0, 1024, false⟩,
  ⟨0x070011, 1, "SHR_SEAL", 2, 4, 3, 0, 0, 255, false⟩,
  ⟨0x070012, 1, "SHR_CLEAR", 2, 4, 3, 0, 0, 255, false⟩,
  ⟨0x070013, 1, "SHR_REPAIR", 11, 4, 3, 0, 0, 1024, false⟩,
  ⟨0x070014, 1, "MCAST_SET", 11, 4, 1, 0, 0, 1024, false⟩,
  ⟨0x070021, 15, "SHR_STATE", 9, 0, 0, 0, 0, 2, false⟩,
  ⟨0x070100, 128, "PART_STATE", 9, 0, 0, 0, 0, 2, true⟩,
  ⟨0x070200, 128, "PART_GEN", 3, 0, 0, 0, 0, 65535, true⟩,
  ⟨0x070300, 128, "PART_VIOL", 4, 0, 3, 0, 0, 4294967295, true⟩,
  ⟨0x070400, 128, "MIG_LOG_BASE", 5, 2, 3, 0, 0, 18446744073709551615, true⟩,
  ⟨0x070500, 128, "MIG_HMLO", 5, 2, 3, 0, 0, 18446744073709551615, true⟩,
  ⟨0x070600, 128, "MIG_LOG2", 2, 2, 3, 20, 16, 30, true⟩,
  ⟨0x070700, 128, "MIG_LOG_ON", 1, 1, 3, 0, 0, 1, true⟩,
  ⟨0x070800, 128, "MIG_LOG_OVF", 1, 0, 3, 0, 0, 1, true⟩,
  ⟨0x070900, 128, "MIG_LOG_FLIP", 1, 4, 3, 0, 0, 1, true⟩,
  ⟨0x071000, 1, "SCH_SWAPWAIT", 4, 2, 3, 4096, 256, 16777216, false⟩,
  ⟨0x071100, 128, "SCH_SAVE_BASE", 5, 2, 3, 0, 0, 18446744073709551615, true⟩,
  ⟨0x071200, 128, "SCH_SAVE_SLOTS", 3, 2, 3, 0, 0, 65535, true⟩,
  ⟨0x071300, 128, "SCH_TASK_TABLE", 5, 2, 3, 0, 0, 18446744073709551615, true⟩,
  ⟨0x071400, 128, "SCH_INTERF", 4, 0, 1, 0, 0, 4294967295, true⟩,
  ⟨0x071500, 128, "SCH_INTERF_THR", 4, 2, 3, 0, 0, 4294967295, true⟩,
  ⟨0x071600, 16, "XS_AGENT_PART", 2, 2, 3, 255, 0, 255, false⟩]

/-- Rows of the dictionary, part 2, in ascending number. -/
def paramRows2 : List PRow := [
  ⟨0x071700, 128, "WP_BASE", 5, 2, 3, 0, 0, 18446744073709551615, true⟩,
  ⟨0x071800, 128, "WP_SLOT_MIB", 4, 2, 3, 0, 0, 4294967295, true⟩,
  ⟨0x071900, 128, "WP_PERIOD_MS", 4, 2, 3, 1000, 0, 3600000, true⟩,
  ⟨0x071A00, 128, "WP_AUTO", 1, 2, 3, 1, 0, 1, true⟩,
  ⟨0x071B00, 128, "WP_TAKE", 1, 4, 1, 0, 0, 1, true⟩,
  ⟨0x071C00, 128, "WP_RESTORE", 1, 4, 3, 0, 0, 1, true⟩,
  ⟨0x071D00, 128, "WP_LAST", 5, 0, 1, 0, 0, 18446744073709551615, true⟩,
  ⟨0x071E00, 128, "WP_DRAIN_MAX", 4, 2, 3, 1000, 100, 100000, true⟩,
  ⟨0x080001, 1, "SEQ_AST_BASE", 5, 2, 3, 0, 0, 18446744073709551615, false⟩,
  ⟨0x080002, 1, "SEQ_POOL_SET", 11, 4, 3, 0, 0, 1024, false⟩,
  ⟨0x080003, 1, "SEQ_EXTENTS", 3, 0, 0, 0, 0, 65535, false⟩,
  ⟨0x080004, 1, "SEQ_AST_INIT", 1, 4, 3, 0, 0, 1, false⟩,
  ⟨0x080005, 1, "SEQ_AST_STATE", 9, 0, 0, 0, 0, 1, false⟩,
  ⟨0x080010, 4, "SEQ_POOL_FREE", 4, 0, 0, 0, 0, 4294967295, false⟩,
  ⟨0x080014, 4, "SEQ_LIVE_Q", 4, 0, 0, 0, 0, 4294967295, false⟩,
  ⟨0x080100, 128, "SEQ_QUOTA", 4, 2, 3, 0, 0, 4294967295, true⟩,
  ⟨0x080200, 128, "SEQ_VOFF", 5, 2, 3, 0, 0, 18446744073709551615, true⟩,
  ⟨0x080300, 128, "SEQ_LIVE", 4, 0, 1, 0, 0, 4294967295, true⟩,
  ⟨0x080400, 128, "SEQ_PAGES", 4, 0, 1, 0, 0, 4294967295, true⟩,
  ⟨0x090001, 1, "CCH_GUARD_MIN_LOOKUPS", 4, 2, 3, 4096, 256, 1048576, false⟩,
  ⟨0x090100, 128, "CCH_PIN_QUOTA", 3, 2, 3, 0, 0, 768, true⟩,
  ⟨0x090200, 128, "CCH_THRASH_THR", 3, 2, 3, 512, 0, 1024, true⟩,
  ⟨0x090300, 128, "CCH_THRASH_POLICY", 9, 2, 3, 0, 0, 1, true⟩,
  ⟨0x090400, 128, "CCH_PIN_USED", 3, 0, 1, 0, 0, 65535, true⟩,
  ⟨0x091400, 176, "CCH_NC_MODE", 9, 2, 3, 0, 0, 2, false⟩,
  ⟨0x0A0001, 1, "SAF_CAUSE", 4, 0, 0, 0, 0, 4294967295, false⟩,
  ⟨0x0A0002, 1, "SAF_KICK", 1, 4, 3, 0, 0, 1, false⟩,
  ⟨0x0A0003, 1, "SAF_RELEASE", 1, 4, 3, 0, 0, 1, false⟩,
  ⟨0x0A0004, 1, "SAF_KICK_COUNT", 4, 0, 0, 0, 0, 4294967295, false⟩,
  ⟨0x0A0010, 1, "SAF_COOL_FLOW", 8, 0, 0, 0, 0, 0, false⟩,
  ⟨0x0A0011, 1, "SAF_COOL_INLET", 8, 0, 0, 0, 0, 0, false⟩,
  ⟨0x0A0012, 1, "SAF_INPUT_V", 8, 0, 0, 0, 0, 0, false⟩,
  ⟨0x0A0020, 1, "SAF_BARRIER_STAT", 4, 0, 0, 0, 0, 4294967295, false⟩,
  ⟨0x0A0040, 1, "CSU_T_MIN", 6, 2, 3, -3, -4, 0, false⟩,
  ⟨0x0A0041, 1, "CSU_QUIET_CHECKS", 4, 2, 3, 65536, 4096, 16777216, false⟩,
  ⟨0x0A0042, 1, "CSU_STRIKE_AGE", 5, 2, 3, 1099511627776, 4294967296, 18446744073709551615, false⟩,
  ⟨0x0A0043, 1, "CSU_SELFTEST_INTERVAL", 4, 2, 3, 1048576, 1024, 16777216, false⟩,
  ⟨0x0A0200, 1, "FT_DIRTYMAP_BASE", 5, 2, 3, 0, 0, 18446744073709551615, false⟩,
  ⟨0x0A0201, 1, "FT_CFE_STATE_BASE", 5, 2, 3, 0, 0, 18446744073709551615, false⟩,
  ⟨0x0A0202, 1, "FT_SPARE_TG", 11, 2, 3, 0, 0, 16, false⟩]

/-- Rows of the dictionary, part 3, in ascending number. -/
def paramRows3 : List PRow := [
  ⟨0x0A0203, 1, "FT_TILE_TEST", 3, 4, 4, 0, 0, 65535, false⟩,
  ⟨0x0A0204, 1, "FT_DIE_DRAIN", 2, 4, 4, 0, 0, 255, false⟩,
  ⟨0x0A0205, 1, "FT_DIE_TEST", 2, 4, 4, 0, 0, 255, false⟩,
  ⟨0x0A0206, 1, "FT_DIE_RETURN", 2, 4, 4, 0, 0, 255, false⟩,
  ⟨0x0A0207, 1, "FT_STACK_RETRAIN", 4, 4, 4, 0, 0, 4294967295, false⟩,
  ⟨0x0A0208, 1, "FT_TEST_RESULT", 11, 0, 4, 0, 0, 1024, false⟩,
  ⟨0x0A0210, 16, "FT_HALF_STATE", 9, 0, 0, 0, 0, 4, false⟩,
  ⟨0x0A0220, 4, "FT_IOD_STATE", 9, 0, 0, 0, 0, 2, false⟩,
  ⟨0x0B0001, 1, "DEVICEID_CERT", 11, 0, 0, 0, 0, 1024, false⟩,
  ⟨0x0B0002, 1, "ALIAS_CERT", 11, 0, 0, 0, 0, 1024, false⟩,
  ⟨0x0B0003, 1, "MFG_CA_CERT", 11, 0, 0, 0, 0, 1024, false⟩,
  ⟨0x0B0010, 1, "SPDM_REQ", 11, 3, 0, 0, 0, 1024, false⟩,
  ⟨0x0B0011, 1, "SPDM_RSP", 11, 0, 0, 0, 0, 1024, false⟩,
  ⟨0x0B0020, 1, "DBG_UNLOCK_NONCE", 11, 0, 4, 0, 0, 1024, false⟩,
  ⟨0x0B0021, 1, "DBG_UNLOCK", 11, 4, 4, 0, 0, 1024, false⟩,
  ⟨0x0B0022, 1, "DBG_UNLOCKED", 1, 0, 0, 0, 0, 1, false⟩,
  ⟨0x0B0100, 4, "KOD_PROVIDER_KEY", 11, 2, 3, 0, 0, 64, false⟩,
  ⟨0x0B0110, 8, "KOD_OPERATOR_KEY", 11, 2, 3, 0, 0, 64, false⟩,
  ⟨0x0C0001, 1, "ODO_INST", 4, 1, 0, 0, 0, 4294967295, false⟩,
  ⟨0x0C0002, 1, "ODO_CLEAR", 11, 4, 3, 0, 0, 1024, false⟩,
  ⟨0x0C0003, 1, "ODO_MAX_EN", 1, 2, 3, 0, 0, 1, false⟩,
  ⟨0x0C0010, 1, "EVT_NAME", 10, 0, 0, 0, 0, 64, false⟩,
  ⟨0x0D0001, 1, "DBG_TRIG_SET", 11, 4, 2, 0, 0, 1024, false⟩,
  ⟨0x0D0002, 1, "DBG_HALTED", 11, 0, 2, 0, 0, 1024, false⟩,
  ⟨0x0D0003, 1, "DBG_CTX_SEL", 4, 1, 2, 0, 0, 4294967295, false⟩,
  ⟨0x0D0004, 1, "DBG_CTX_IMAGE", 11, 0, 2, 0, 0, 1024, false⟩,
  ⟨0x0D0005, 1, "DBG_RESUME", 4, 4, 2, 0, 0, 4294967295, false⟩,
  ⟨0x0D0010, 1, "DBG_FREEWHEEL", 2, 4, 3, 0, 0, 255, false⟩,
  ⟨0x0D0011, 1, "DBG_FREEWHEEL_END", 2, 4, 3, 0, 0, 255, false⟩,
  ⟨0x0D0012, 1, "DBG_FWL_STATE", 9, 0, 0, 0, 0, 2, false⟩,
  ⟨0x0D0020, 1, "DBG_BRAKE", 1, 4, 4, 0, 0, 1, false⟩,
  ⟨0x0D0021, 1, "DBG_BRAKE_RELEASE", 1, 4, 4, 0, 0, 1, false⟩,
  ⟨0x0D0022, 1, "DBG_BRAKE_STATE", 9, 0, 0, 0, 0, 4, false⟩,
  ⟨0x0D0023, 1, "DBG_BRAKE_TO", 4, 2, 4, 10000, 1000, 1000000, false⟩,
  ⟨0x0D0024, 1, "DBG_BRAKE_FAB", 1, 2, 4, 0, 0, 1, false⟩,
  ⟨0x0D0030, 1, "DBG_TRACE_ON", 1, 1, 3, 0, 0, 1, false⟩,
  ⟨0x0D0031, 1, "DBG_TRACE_MASK", 3, 1, 3, 3, 0, 65535, false⟩,
  ⟨0x0D0032, 1, "DBG_TRACE_BASE", 5, 2, 3, 0, 0, 18446744073709551615, false⟩,
  ⟨0x0D0033, 1, "DBG_TRACE_LOG2", 2, 2, 3, 20, 16, 28, false⟩,
  ⟨0x0D0034, 1, "DBG_TRACE_WPTR", 5, 0, 3, 0, 0, 18446744073709551615, false⟩]

/-- Rows of the dictionary, part 4, in ascending number. -/
def paramRows4 : List PRow := [
  ⟨0x0D0100, 128, "DBG_ENABLE", 1, 2, 3, 0, 0, 1, true⟩,
  ⟨0x0E0001, 1, "FW_WRITE", 11, 4, 3, 0, 0, 1024, false⟩,
  ⟨0x0E0002, 1, "FW_COMMIT", 2, 4, 3, 0, 0, 255, false⟩,
  ⟨0x0E0003, 1, "FW_ACTIVATE", 1, 4, 3, 0, 0, 1, false⟩,
  ⟨0x0E0004, 1, "FW_LIVE_IOD", 1, 4, 3, 0, 0, 1, false⟩,
  ⟨0x0E0005, 1, "FW_SVN_COMMIT", 2, 4, 3, 0, 0, 255, false⟩,
  ⟨0x0E0006, 1, "FW_PENDING", 2, 0, 0, 0, 0, 255, false⟩,
  ⟨0x0E0007, 1, "FW_LKG", 2, 0, 0, 0, 0, 255, false⟩,
  ⟨0x0E0008, 1, "FW_RUNNING", 2, 0, 0, 0, 0, 255, false⟩,
  ⟨0x0E0009, 1, "FW_PENDING_OK", 1, 0, 0, 1, 0, 1, false⟩,
  ⟨0x0E000A, 1, "FW_BOOT_RESULT", 9, 0, 0, 0, 0, 4, false⟩,
  ⟨0x0E000B, 1, "FW_UPDATE_STATE", 9, 0, 0, 0, 0, 5, false⟩,
  ⟨0x0E0010, 1, "FW_MISMATCH", 1, 0, 0, 0, 0, 1, false⟩,
  ⟨0x0E0011, 1, "FW_FACTORY_BAD", 1, 0, 0, 0, 0, 1, false⟩,
  ⟨0x0E0101, 4, "FW_VER_A", 4, 0, 0, 0, 0, 4294967295, false⟩,
  ⟨0x0E0111, 4, "FW_VER_B", 4, 0, 0, 0, 0, 4294967295, false⟩,
  ⟨0x0E0121, 4, "FW_SVN_MIN", 2, 0, 0, 0, 0, 255, false⟩,
  ⟨0x0F0001, 1, "CONFIG_DEFAULTED", 1, 0, 0, 0, 0, 1, false⟩,
  ⟨0x0F0002, 1, "KOD_SAVE", 1, 4, 3, 0, 0, 1, false⟩,
  ⟨0x0F0003, 1, "KOD_SAVE_DELAY", 3, 2, 3, 2, 0, 60, false⟩,
  ⟨0x0F0004, 1, "KOD_CFG_SEQ", 5, 0, 0, 0, 0, 18446744073709551615, false⟩,
  ⟨0x0F0005, 1, "KOD_CFG_SLOT", 9, 0, 0, 0, 0, 2, false⟩,
  ⟨0x0F0006, 1, "KOD_CFG_DIRTY", 1, 0, 0, 0, 0, 1, false⟩,
  ⟨0x0F0007, 1, "KOD_FACTORY", 1, 4, 3, 0, 0, 1, false⟩,
  ⟨0x0F0010, 1, "KOD_CFG_SKIPPED", 4, 0, 3, 0, 0, 4294967295, false⟩,
  ⟨0x0F0100, 1, "KDP_PORT", 3, 2, 3, 4710, 1024, 65535, false⟩,
  ⟨0x0F0101, 1, "KDP_PLCA_ID", 2, 2, 3, 255, 0, 255, false⟩,
  ⟨0x0F0102, 1, "KDP_PLCA_COUNT", 2, 2, 3, 8, 2, 255, false⟩,
  ⟨0x0F0103, 1, "KDP_IDLE_S", 3, 2, 3, 60, 10, 3600, false⟩,
  ⟨0x0F0104, 1, "KDP_SESSIONS", 2, 0, 0, 0, 0, 255, false⟩,
  ⟨0x0F0105, 1, "KDP_VFL_EN", 1, 2, 3, 1, 0, 1, false⟩,
  ⟨0x0F0120, 1, "KOD_VIOL", 4, 0, 3, 0, 0, 4294967295, false⟩,
  ⟨0x0F0121, 1, "KDP_BAD_TAG", 4, 0, 3, 0, 0, 4294967295, false⟩,
  ⟨0x0F0122, 1, "KDP_LOGIN_FAIL", 4, 0, 3, 0, 0, 4294967295, false⟩,
  ⟨0x0F0200, 1, "MOD_STATE", 9, 0, 0, 1, 0, 7, false⟩,
  ⟨0x0F0201, 1, "MOD_AUTOSTART", 1, 2, 3, 1, 0, 1, false⟩,
  ⟨0x0F0202, 1, "MOD_START", 1, 4, 3, 0, 0, 1, false⟩,
  ⟨0x0F0203, 1, "MOD_STOP", 1, 4, 3, 0, 0, 1, false⟩,
  ⟨0x0F0204, 1, "MOD_WARM", 1, 0, 0, 0, 0, 1, false⟩,
  ⟨0x0F0205, 1, "MOD_READY_MS", 4, 0, 0, 0, 0, 4294967295, false⟩]

/-- Rows of the dictionary, part 5, in ascending number. -/
def paramRows5 : List PRow := [
  ⟨0x0F0206, 1, "MOD_BOOT_FAULT", 1, 0, 0, 0, 0, 1, false⟩]

/-- The dictionary, in ascending number (21 R594). -/
def paramTable : List PRow :=
  paramRows0 ++ paramRows1 ++ paramRows2 ++ paramRows3 ++ paramRows4 ++ paramRows5

/-- The row that holds a number. -/
def paramRow (n : Nat) : Option PRow := paramTable.find? fun r => decide (r.num ≤ n ∧ n < r.num + r.count)

/-- The index of a number within its row. -/
def paramIndex (n : Nat) : Nat := match paramRow n with
  | some r => n - r.num
  | none => 0

/-- The default value of a number (the F order code's where it differs by order code). -/
def paramDefault (n : Nat) : Int := match paramRow n with
  | some r => r.dflt
  | none => 0

/-- The next defined number above `n`, or 0 (21 R594), counters of group 0x0C apart. -/
def paramNext (n : Nat) : Nat :=
  paramTable.foldl (fun b r =>
    let c := if n < r.num then r.num else if n + 1 < r.num + r.count then n + 1 else 0
    if c = 0 then b else if b = 0 ∨ c < b then c else b) 0

/-! Numbers used by name elsewhere. -/
def pPartNumber : Nat := 0x010001
def pOrderCode : Nat := 0x010002
def pStepping : Nat := 0x010003
def pIodType : Nat := 0x010004
def pSerial : Nat := 0x010005
def pT1sMac : Nat := 0x010006
def pXsIdent : Nat := 0x010010
def pPwrCap : Nat := 0x020001
def pPwrHyst : Nat := 0x020002
def pPwrInputW : Nat := 0x020003
def pPwrExcessMs : Nat := 0x020004
def pPwrEffCap : Nat := 0x020005
def pPwrConvOk : Nat := 0x020006
def pPwrDivLimit : Nat := 0x020010
def pPwrHalfW : Nat := 0x020030
def pPwrRefSrc : Nat := 0x030001
def pPwrRefSelect : Nat := 0x030002
def pPwrTjTarget : Nat := 0x030003
def pPwrClkADiv : Nat := 0x030010
def pPwrTj : Nat := 0x030030
def pMemTHigh : Nat := 0x040001
def pMemTCrit : Nat := 0x040002
def pMemScrubHours : Nat := 0x040003
def pMemRebuildRate : Nat := 0x040004
def pMemLaneCeLimit : Nat := 0x040005
def pMemFktBase : Nat := 0x040006
def pMemRegionSet : Nat := 0x040007
def pMemStackState : Nat := 0x040010
def pMemStackTemp : Nat := 0x040020
def pFabModuleId : Nat := 0x050001
def pFabAllowSet : Nat := 0x050002
def pFabRouteSet : Nat := 0x050003
def pFabGroupSet : Nat := 0x050004
def pFabEthQpSet : Nat := 0x050005
def pFabWinSet : Nat := 0x050006
def pFabRkeySet : Nat := 0x050007
def pFabDelivTo : Nat := 0x050010
def pFabCollTo : Nat := 0x050011
def pFabSlowFactor : Nat := 0x050012
def pFabE2eGrant : Nat := 0x050013
def pFabQuarTime : Nat := 0x050014
def pFabWinOwner : Nat := 0x050100
def pFabPortMode : Nat := 0x050200
def pFabPortState : Nat := 0x050220
def pFabPortWidth : Nat := 0x050240
def pFabPeerCeil : Nat := 0x050260
def pFabLaneMap : Nat := 0x050280
def pFabRkeyQuota : Nat := 0x050300
def pHifPortState : Nat := 0x060001
def pHifPortSelect : Nat := 0x060002
def pHifDetachCause : Nat := 0x060003
def pHifQpQuota : Nat := 0x060100
def pHifTlimitDef : Nat := 0x060200
def pHifJrnlBase : Nat := 0x060300
def pHifRetainBase : Nat := 0x060400
def pHifRetainSize : Nat := 0x060500
def pPartCreate : Nat := 0x070001
def pPartDisable : Nat := 0x070002
def pShrSet : Nat := 0x070010
def pShrSeal : Nat := 0x070011
def pShrClear : Nat := 0x070012
def pShrRepair : Nat := 0x070013
def pMcastSet : Nat := 0x070014
def pShrState : Nat := 0x070020
def pPartState : Nat := 0x070100
def pPartGen : Nat := 0x070200
def pPartViol : Nat := 0x070300
def pMigLogBase : Nat := 0x070400
def pMigHmlo : Nat := 0x070500
def pMigLog2 : Nat := 0x070600
def pMigLogOn : Nat := 0x070700
def pMigLogOvf : Nat := 0x070800
def pMigLogFlip : Nat := 0x070900
def pSchSwapwait : Nat := 0x071000
def pSchSaveBase : Nat := 0x071100
def pSchSaveSlots : Nat := 0x071200
def pSchTaskTable : Nat := 0x071300
def pSchInterf : Nat := 0x071400
def pSchInterfThr : Nat := 0x071500
def pXsAgentPart : Nat := 0x071600
def pWpBase : Nat := 0x071700
def pWpSlotMib : Nat := 0x071800
def pWpPeriodMs : Nat := 0x071900
def pWpAuto : Nat := 0x071A00
def pWpTake : Nat := 0x071B00
def pWpRestore : Nat := 0x071C00
def pWpLast : Nat := 0x071D00
def pWpDrainMax : Nat := 0x071E00
def pSeqAstBase : Nat := 0x080001
def pSeqPoolSet : Nat := 0x080002
def pSeqExtents : Nat := 0x080003
def pSeqAstInit : Nat := 0x080004
def pSeqAstState : Nat := 0x080005
def pSeqPoolFree : Nat := 0x080010
def pSeqLiveQ : Nat := 0x080014
def pSeqQuota : Nat := 0x080100
def pSeqVoff : Nat := 0x080200
def pSeqLive : Nat := 0x080300
def pSeqPages : Nat := 0x080400
def pCchGuardMinLookups : Nat := 0x090001
def pCchPinQuota : Nat := 0x090100
def pCchThrashThr : Nat := 0x090200
def pCchThrashPolicy : Nat := 0x090300
def pCchPinUsed : Nat := 0x090400
def pCchNcMode : Nat := 0x091000
def pSafCause : Nat := 0x0A0001
def pSafKick : Nat := 0x0A0002
def pSafRelease : Nat := 0x0A0003
def pSafKickCount : Nat := 0x0A0004
def pSafCoolFlow : Nat := 0x0A0010
def pSafCoolInlet : Nat := 0x0A0011
def pSafInputV : Nat := 0x0A0012
def pSafBarrierStat : Nat := 0x0A0020
def pCsuTMin : Nat := 0x0A0040
def pCsuQuietChecks : Nat := 0x0A0041
def pCsuStrikeAge : Nat := 0x0A0042
def pCsuSelftestInterval : Nat := 0x0A0043
def pFtDirtymapBase : Nat := 0x0A0200
def pFtCfeStateBase : Nat := 0x0A0201
def pFtSpareTg : Nat := 0x0A0202
def pFtTileTest : Nat := 0x0A0203
def pFtDieDrain : Nat := 0x0A0204
def pFtDieTest : Nat := 0x0A0205
def pFtDieReturn : Nat := 0x0A0206
def pFtStackRetrain : Nat := 0x0A0207
def pFtTestResult : Nat := 0x0A0208
def pFtHalfState : Nat := 0x0A0210
def pFtIodState : Nat := 0x0A0220
def pDeviceidCert : Nat := 0x0B0001
def pAliasCert : Nat := 0x0B0002
def pMfgCaCert : Nat := 0x0B0003
def pSpdmReq : Nat := 0x0B0010
def pSpdmRsp : Nat := 0x0B0011
def pDbgUnlockNonce : Nat := 0x0B0020
def pDbgUnlock : Nat := 0x0B0021
def pDbgUnlocked : Nat := 0x0B0022
def pKodProviderKey : Nat := 0x0B0100
def pKodOperatorKey : Nat := 0x0B0110
def pOdoInst : Nat := 0x0C0001
def pOdoClear : Nat := 0x0C0002
def pOdoMaxEn : Nat := 0x0C0003
def pEvtName : Nat := 0x0C0010
def pDbgTrigSet : Nat := 0x0D0001
def pDbgHalted : Nat := 0x0D0002
def pDbgCtxSel : Nat := 0x0D0003
def pDbgCtxImage : Nat := 0x0D0004
def pDbgResume : Nat := 0x0D0005
def pDbgFreewheel : Nat := 0x0D0010
def pDbgFreewheelEnd : Nat := 0x0D0011
def pDbgFwlState : Nat := 0x0D0012
def pDbgBrake : Nat := 0x0D0020
def pDbgBrakeRelease : Nat := 0x0D0021
def pDbgBrakeState : Nat := 0x0D0022
def pDbgBrakeTo : Nat := 0x0D0023
def pDbgBrakeFab : Nat := 0x0D0024
def pDbgTraceOn : Nat := 0x0D0030
def pDbgTraceMask : Nat := 0x0D0031
def pDbgTraceBase : Nat := 0x0D0032
def pDbgTraceLog2 : Nat := 0x0D0033
def pDbgTraceWptr : Nat := 0x0D0034
def pDbgEnable : Nat := 0x0D0100
def pFwWrite : Nat := 0x0E0001
def pFwCommit : Nat := 0x0E0002
def pFwActivate : Nat := 0x0E0003
def pFwLiveIod : Nat := 0x0E0004
def pFwSvnCommit : Nat := 0x0E0005
def pFwPending : Nat := 0x0E0006
def pFwLkg : Nat := 0x0E0007
def pFwRunning : Nat := 0x0E0008
def pFwPendingOk : Nat := 0x0E0009
def pFwBootResult : Nat := 0x0E000A
def pFwUpdateState : Nat := 0x0E000B
def pFwMismatch : Nat := 0x0E0010
def pFwFactoryBad : Nat := 0x0E0011
def pFwVerA : Nat := 0x0E0100
def pFwVerB : Nat := 0x0E0110
def pFwSvnMin : Nat := 0x0E0120
def pConfigDefaulted : Nat := 0x0F0001
def pKodSave : Nat := 0x0F0002
def pKodSaveDelay : Nat := 0x0F0003
def pKodCfgSeq : Nat := 0x0F0004
def pKodCfgSlot : Nat := 0x0F0005
def pKodCfgDirty : Nat := 0x0F0006
def pKodFactory : Nat := 0x0F0007
def pKodCfgSkipped : Nat := 0x0F0010
def pKdpPort : Nat := 0x0F0100
def pKdpPlcaId : Nat := 0x0F0101
def pKdpPlcaCount : Nat := 0x0F0102
def pKdpIdleS : Nat := 0x0F0103
def pKdpSessions : Nat := 0x0F0104
def pKdpVflEn : Nat := 0x0F0105
def pKodViol : Nat := 0x0F0120
def pKdpBadTag : Nat := 0x0F0121
def pKdpLoginFail : Nat := 0x0F0122
def pModState : Nat := 0x0F0200
def pModAutostart : Nat := 0x0F0201
def pModStart : Nat := 0x0F0202
def pModStop : Nat := 0x0F0203
def pModWarm : Nat := 0x0F0204
def pModReadyMs : Nat := 0x0F0205
def pModBootFault : Nat := 0x0F0206

end Sys2Proof.Machine
end

