-- ==== Sys2Proof/Machine/Encoding.lean ====
section
/-! DEFINITION. The words of the control core's instructions (spec 04 R121, R132, R138, R139): RV64I, M, C, Zicsr and Zifencei as RISC-V
defines them (PRESUMED, log 130), and the engine extension of Tables 4.5 and 4.8. A word that spells none of them is an encoding of an absent
extension or a reserved one. -/

namespace Sys2Proof.Machine

/-- Fields of a 32-bit word (the R-type layout of R132). -/
def wOp (w : Nat) : Nat := bits w 6 0
def wRd (w : Nat) : Reg := Fin.ofNat 32 (bits w 11 7)
def wF3 (w : Nat) : Nat := bits w 14 12
def wRs1 (w : Nat) : Reg := Fin.ofNat 32 (bits w 19 15)
def wRs2 (w : Nat) : Reg := Fin.ofNat 32 (bits w 24 20)
def wF7 (w : Nat) : Nat := bits w 31 25
/-- Immediates of the I, S, B, U and J layouts. -/
def wImmI (w : Nat) : BitVec 12 := BitVec.ofNat 12 (bits w 31 20)
def wImmS (w : Nat) : BitVec 12 := BitVec.ofNat 12 (bits w 31 25 * 32 + bits w 11 7)
def wImmB (w : Nat) : BitVec 13 :=
  BitVec.ofNat 13 (bits w 31 31 * 2 ^ 12 + bits w 7 7 * 2 ^ 11 + bits w 30 25 * 32 + bits w 11 8 * 2)
def wImmU (w : Nat) : BitVec 20 := BitVec.ofNat 20 (bits w 31 12)
def wImmJ (w : Nat) : BitVec 21 :=
  BitVec.ofNat 21 (bits w 31 31 * 2 ^ 20 + bits w 19 12 * 2 ^ 12 + bits w 20 20 * 2 ^ 11 + bits w 30 21 * 2)

/-- Register operations by funct3 (funct7 0 and 0x20), and those of the M extension. -/
def aluOf (f7 f3 : Nat) : Option AluOp :=
  match f7, f3 with
  | 0, 0 => some .add | 0, 1 => some .sll | 0, 2 => some .slt | 0, 3 => some .sltu
  | 0, 4 => some .xor | 0, 5 => some .srl | 0, 6 => some .or | 0, 7 => some .and
  | 32, 0 => some .sub | 32, 5 => some .sra
  | 1, 0 => some .mul | 1, 1 => some .mulh | 1, 2 => some .mulhsu | 1, 3 => some .mulhu
  | _, _ => none
def aluwOf (f7 f3 : Nat) : Option AluOp :=
  match f7, f3 with
  | 0, 0 => some .addw | 0, 1 => some .sllw | 0, 5 => some .srlw
  | 32, 0 => some .subw | 32, 5 => some .sraw | 1, 0 => some .mulw
  | _, _ => none
def divOf (wide : Bool) (f3 : Nat) : Option DivOp :=
  match wide, f3 with
  | true, 4 => some .div | true, 5 => some .divu | true, 6 => some .rem | true, 7 => some .remu
  | false, 4 => some .divw | false, 5 => some .divuw | false, 6 => some .remw | false, 7 => some .remuw
  | _, _ => none
def condOf (f3 : Nat) : Option Cond :=
  match f3 with
  | 0 => some .eq | 1 => some .ne | 4 => some .lt | 5 => some .ge | 6 => some .ltu | 7 => some .geu
  | _ => none
def loadOf (f3 : Nat) : Option LoadW :=
  match f3 with
  | 0 => some .b | 1 => some .h | 2 => some .w | 3 => some .d | 4 => some .bu | 5 => some .hu | 6 => some .wu
  | _ => none
def storeOf (f3 : Nat) : Option StoreW :=
  match f3 with
  | 0 => some .b | 1 => some .h | 2 => some .w | 3 => some .d
  | _ => none

/-- Immediate operations: the shifts take a 6-bit amount (5 bits in the W forms). -/
def immOf (w : Nat) (c : At) : Option Instr :=
  let op (o : AluOp) (imm : BitVec 12) : Option Instr := some (.integerOp c (.ri o (wRd w) (wRs1 w) imm))
  let sh : BitVec 12 := BitVec.ofNat 12 (bits w 25 20)
  match wF3 w with
  | 0 => op .add (wImmI w) | 2 => op .slt (wImmI w) | 3 => op .sltu (wImmI w)
  | 4 => op .xor (wImmI w) | 6 => op .or (wImmI w) | 7 => op .and (wImmI w)
  | 1 => if bits w 31 26 = 0 then op .sll sh else none
  | _ => if bits w 31 26 = 0 then op .srl sh else if bits w 31 26 = 16 then op .sra sh else none
def immwOf (w : Nat) (c : At) : Option Instr :=
  let op (o : AluOp) (imm : BitVec 12) : Option Instr := some (.integerOp c (.ri o (wRd w) (wRs1 w) imm))
  let sh : BitVec 12 := BitVec.ofNat 12 (bits w 24 20)
  match wF3 w, wF7 w with
  | 0, _ => op .addw (wImmI w)
  | 1, 0 => op .sllw sh
  | 5, 0 => op .srlw sh
  | 5, 32 => op .sraw sh
  | _, _ => none

/-- SYSTEM: ECALL, EBREAK and Zicsr. -/
def systemOf (w : Nat) (c : At) : Option Instr :=
  let csr : BitVec 12 := wImmI w
  let src : CsrSrc := if wF3 w < 4 then .reg (wRs1 w) else .imm (BitVec.ofNat 5 (bits w 19 15))
  match wF3 w with
  | 0 => if w = 0x00000073 then some (.ecall c) else if w = 0x00100073 then some (.ebreak c) else none
  | 1 | 5 => some (.csrAccess c .rw (wRd w) src csr)
  | 2 | 6 => some (.csrAccess c .rs (wRd w) src csr)
  | 3 | 7 => some (.csrAccess c .rc (wRd w) src csr)
  | _ => none

/-- Vector operations by VOP (Table 4.8). -/
def vopOf (vop : Nat) (c : At) (vd a b : VReg) : Option Instr :=
  match vop with
  | 0x00 => some (.vadd c vd a b false) | 0x01 => some (.vsub c vd a b false) | 0x02 => some (.vmul c vd a b false)
  | 0x03 => some (.vfma c vd a b false) | 0x04 => some (.vmin ⟨c, false⟩ vd a b) | 0x05 => some (.vmax ⟨c, false⟩ vd a b)
  | 0x06 => some (.vabs ⟨c, false⟩ vd a) | 0x07 => some (.vneg ⟨c, false⟩ vd a)
  | 0x08 => some (.vcmpEq ⟨c, false⟩ vd a b) | 0x09 => some (.vcmpLt ⟨c, false⟩ vd a b)
  | 0x0A => some (.vcmpLe ⟨c, false⟩ vd a b) | 0x0B => some (.vcmpUnord ⟨c, false⟩ vd a b)
  | 0x0C => some (.vsel ⟨c, false⟩ vd a b) | 0x0D => some (.vand ⟨c, false⟩ vd a b) | 0x0E => some (.vor ⟨c, false⟩ vd a b)
  | 0x0F => some (.vxor ⟨c, false⟩ vd a b)
  | 0x10 => some (.viadd c vd a b false) | 0x11 => some (.visub ⟨c, false⟩ vd a b) | 0x12 => some (.vimul ⟨c, false⟩ vd a b)
  | 0x13 => some (.vsll ⟨c, false⟩ vd a b) | 0x14 => some (.vsrl ⟨c, false⟩ vd a b) | 0x15 => some (.vsra ⟨c, false⟩ vd a b)
  | 0x16 => some (.viadds ⟨c, false⟩ vd a b)
  | 0x18 => some (.vcvt ⟨c, false⟩ vd a) | 0x19 => some (.vmxenc ⟨c, false⟩ vd a)
  | 0x1C => some (.vrsum ⟨c, false⟩ vd a) | 0x1D => some (.vrmax ⟨c, false⟩ vd a) | 0x1E => some (.vrmin ⟨c, false⟩ vd a)
  | 0x20 => some (.vexp ⟨c, false⟩ vd a) | 0x21 => some (.vrcp ⟨c, false⟩ vd a) | 0x22 => some (.vrsqrt ⟨c, false⟩ vd a)
  | 0x23 => some (.vsmxr ⟨c, false⟩ vd a b)
  | _ => none

/-- custom-0 (Table 4.5). -/
def custom0Of (w : Nat) (c : At) : Option Instr :=
  let d := wRd w
  let a := wRs1 w
  let b := wRs2 w
  match wF3 w with
  | 0 => if d = 0 ∧ b = 0 ∧ wF7 w < 4 then some (.engMm ⟨c, .ok⟩ (wF7 w / 2 == 1) (wF7 w % 2 == 1) a) else none
  | 1 => vopOf (wF7 w) c d a b
  | 2 => if b = 0 ∧ wF7 w < 3 then some (.engVld c (Fin.ofNat 4 (wF7 w)) d a .ok) else none
  | 3 => if d = 0 ∧ wF7 w < 3 then some (.engVst c (Fin.ofNat 4 (wF7 w)) b a .ok) else none
  | 4 => if b ≠ 0 then none else match wF7 w with
    | 0 => some (.cpyPush c d a) | 1 => some (.cpyPushnb c d a) | _ => none
  | 5 => if b ≠ 0 then none else match wF7 w with
    | 0 => some (.cpyWait c d a) | 1 => some (.cpyTest c d a) | _ => none
  | _ => none

/-- custom-1 (Table 4.5). -/
def custom1Of (w : Nat) (c : At) : Option Instr :=
  let d := wRd w
  let a := wRs1 w
  let b := wRs2 w
  match wF3 w, wF7 w with
  | 0, 0 => if d = 0 then some (.semSig c a b) else none
  | 1, 0 => some (.semWait c d a b)
  | 1, 1 => some (.semTry c d a b)
  | 2, 0 => if b = 0 then some (.barAw c d a) else none
  | 2, 1 => if b = 0 then some (.barA c d a) else none
  | 2, 2 => some (.barW c d a b)
  | 3, 0 => if d = 0 then some (.hintDead c a b) else none
  | 4, k => if d ≠ 0 ∨ a ≠ 0 ∨ b ≠ 0 then none else match k with
    | 0 => some (.fenceE c) | 1 => some (.fenceM c) | 2 => some (.fenceH c) | 3 => some (.fenceFab c) | 4 => some (.fenceAll c)
    | _ => none
  | 5, 0 => if d = 0 ∧ b = 0 then some (.dbgTrace c a) else none
  | 5, 1 => if d = 0 ∧ a = 0 ∧ b = 0 then some (.dbgBrk c) else none
  | 6, 0 => if d = 0 ∧ b = 0 then some (.taskEnd c a) else none
  | _, _ => none

/-- A 32-bit word. -/
def decode32 (w : Nat) (c : At) : Option Instr :=
  match wOp w with
  | 0x37 => some (.integerOp c (.lui (wRd w) (wImmU w)))
  | 0x17 => some (.integerOp c (.auipc (wRd w) (wImmU w)))
  | 0x6F => some (.branch c (.jal (wRd w) (wImmJ w)))
  | 0x67 => if wF3 w = 0 then some (.branch c (.jalr (wRd w) (wRs1 w) (wImmI w))) else none
  | 0x63 => (condOf (wF3 w)).map fun k => .branch c (.cond k (wRs1 w) (wRs2 w) (wImmB w))
  | 0x03 => (loadOf (wF3 w)).map fun k => .load c k (wRd w) (wRs1 w) (wImmI w) .ok
  | 0x23 => (storeOf (wF3 w)).map fun k => .store c k (wRs1 w) (wRs2 w) (wImmS w) .ok
  | 0x13 => immOf w c
  | 0x1B => immwOf w c
  | 0x33 =>
    if wF7 w = 1 ∧ 4 ≤ wF3 w then (divOf true (wF3 w)).map fun k => .divRem c k (wRd w) (wRs1 w) (wRs2 w)
    else (aluOf (wF7 w) (wF3 w)).map fun k => .integerOp c (.rr k (wRd w) (wRs1 w) (wRs2 w))
  | 0x3B =>
    if wF7 w = 1 ∧ 4 ≤ wF3 w then (divOf false (wF3 w)).map fun k => .divRem c k (wRd w) (wRs1 w) (wRs2 w)
    else (aluwOf (wF7 w) (wF3 w)).map fun k => .integerOp c (.rr k (wRd w) (wRs1 w) (wRs2 w))
  | 0x0F => match wF3 w with
    | 0 => some (.fence c (BitVec.ofNat 4 (bits w 27 24)) (BitVec.ofNat 4 (bits w 23 20)))
    | 1 => some (.fenceI c)
    | _ => none
  | 0x73 => systemOf w c
  | 0x0B => custom0Of w c
  | 0x2B => custom1Of w c
  | _ => none

/-! The C extension (RV64C without floating point). -/

/-- Registers of the three-bit fields, and the sign-extended six-bit immediate. -/
def cR (w lo : Nat) : Reg := Fin.ofNat 32 (8 + bits w (lo + 2) lo)
def cImm6 (w : Nat) : BitVec 12 := (BitVec.ofNat 6 (bits w 12 12 * 32 + bits w 6 2)).signExtend 12
def cSh (w : Nat) : BitVec 12 := BitVec.ofNat 12 (bits w 12 12 * 32 + bits w 6 2)

/-- Quadrant 0. -/
def cQ0 (w : Nat) (c : At) : Option Instr :=
  let uw : BitVec 12 := BitVec.ofNat 12 (bits w 12 10 * 8 + bits w 6 6 * 4 + bits w 5 5 * 64)
  let ud : BitVec 12 := BitVec.ofNat 12 (bits w 12 10 * 8 + bits w 6 5 * 64)
  let n := bits w 12 11 * 16 + bits w 10 7 * 64 + bits w 6 6 * 4 + bits w 5 5 * 8
  match bits w 15 13 with
  | 0 => if n = 0 then none else some (.integerOp c (.ri .add (cR w 2) 2 (BitVec.ofNat 12 n)))
  | 2 => some (.load c .w (cR w 2) (cR w 7) uw .ok)
  | 3 => some (.load c .d (cR w 2) (cR w 7) ud .ok)
  | 6 => some (.store c .w (cR w 7) (cR w 2) uw .ok)
  | 7 => some (.store c .d (cR w 7) (cR w 2) ud .ok)
  | _ => none

/-- Quadrant 1, funct3 100. -/
def cArith (w : Nat) (c : At) : Option Instr :=
  let d := cR w 7
  let rr (o : AluOp) : Option Instr := some (.integerOp c (.rr o d d (cR w 2)))
  match bits w 11 10 with
  | 0 => some (.integerOp c (.ri .srl d d (cSh w)))
  | 1 => some (.integerOp c (.ri .sra d d (cSh w)))
  | 2 => some (.integerOp c (.ri .and d d (cImm6 w)))
  | _ => match bits w 12 12, bits w 6 5 with
    | 0, 0 => rr .sub | 0, 1 => rr .xor | 0, 2 => rr .or | 0, 3 => rr .and
    | 1, 0 => rr .subw | 1, 1 => rr .addw
    | _, _ => none

/-- Quadrant 1. -/
def cQ1 (w : Nat) (c : At) : Option Instr :=
  let d := wRd w
  let sp : BitVec 12 := (BitVec.ofNat 10
    (bits w 12 12 * 512 + bits w 6 6 * 16 + bits w 5 5 * 64 + bits w 4 3 * 128 + bits w 2 2 * 32)).signExtend 12
  let up : BitVec 20 := (BitVec.ofNat 6 (bits w 12 12 * 32 + bits w 6 2)).signExtend 20
  let j : BitVec 21 := (BitVec.ofNat 12 (bits w 12 12 * 2 ^ 11 + bits w 11 11 * 16 + bits w 10 9 * 256 + bits w 8 8 * 1024 +
    bits w 7 7 * 64 + bits w 6 6 * 128 + bits w 5 3 * 2 + bits w 2 2 * 32)).signExtend 21
  let b : BitVec 13 := (BitVec.ofNat 9
    (bits w 12 12 * 256 + bits w 11 10 * 8 + bits w 6 5 * 64 + bits w 4 3 * 2 + bits w 2 2 * 32)).signExtend 13
  match bits w 15 13 with
  | 0 => some (.integerOp c (.ri .add d d (cImm6 w)))
  | 1 => if d = 0 then none else some (.integerOp c (.ri .addw d d (cImm6 w)))
  | 2 => some (.integerOp c (.ri .add d 0 (cImm6 w)))
  | 3 =>
    if d = 2 then (if sp = 0 then none else some (.integerOp c (.ri .add 2 2 sp)))
    else if up = 0 then none else some (.integerOp c (.lui d up))
  | 4 => cArith w c
  | 5 => some (.branch c (.jal 0 j))
  | 6 => some (.branch c (.cond .eq (cR w 7) 0 b))
  | _ => some (.branch c (.cond .ne (cR w 7) 0 b))

/-- Quadrant 2. -/
def cQ2 (w : Nat) (c : At) : Option Instr :=
  let d := wRd w
  let r : Reg := Fin.ofNat 32 (bits w 6 2)
  match bits w 15 13 with
  | 0 => some (.integerOp c (.ri .sll d d (cSh w)))
  | 2 => if d = 0 then none else
    some (.load c .w d 2 (BitVec.ofNat 12 (bits w 12 12 * 32 + bits w 6 4 * 4 + bits w 3 2 * 64)) .ok)
  | 3 => if d = 0 then none else
    some (.load c .d d 2 (BitVec.ofNat 12 (bits w 12 12 * 32 + bits w 6 5 * 8 + bits w 4 2 * 64)) .ok)
  | 4 =>
    if bits w 12 12 = 0 then
      if r = 0 then (if d = 0 then none else some (.branch c (.jalr 0 d 0))) else some (.integerOp c (.rr .add d 0 r))
    else if r = 0 then (if d = 0 then some (.ebreak c) else some (.branch c (.jalr 1 d 0)))
    else some (.integerOp c (.rr .add d d r))
  | 6 => some (.store c .w 2 r (BitVec.ofNat 12 (bits w 12 9 * 4 + bits w 8 7 * 64)) .ok)
  | 7 => some (.store c .d 2 r (BitVec.ofNat 12 (bits w 12 10 * 8 + bits w 9 7 * 64)) .ok)
  | _ => none

/-- Is a word a 16-bit encoding? -/
def shortWord (w : BitVec 32) : Bool := w.toNat % 4 != 3

/-- The command that a word of the instruction stream spells for a context, or none where it raises illegal instruction. -/
def coreDecode (t : TileId) (s : SaddleId) (w : BitVec 32) : Option Instr :=
  let c : At := { tile := t, saddle := s, compressed := shortWord w }
  match w.toNat % 4 with
  | 0 => cQ0 (w.toNat % 65536) c
  | 1 => cQ1 (w.toNat % 65536) c
  | 2 => cQ2 (w.toNat % 65536) c
  | _ => decode32 w.toNat c

end Sys2Proof.Machine
end

