-- ==== Sys2Proof/Config.lean ====
section
/-! DEFINITION. What the spec leaves open: free values, constants without a body. Nothing in Lean can evaluate them, so a
statement holds whatever they are. -/

namespace Sys2Proof.Config

/-- The stream of free values: SR random bits (02 R66), nonces, keys and other values the spec leaves open, one for each
value of the model's counter `free` (log 1). -/
opaque freeNat : Nat → Nat

/-- Which value within the error bound of 03 Table 3.7 a special-function unit (0 EXP, 1 RCP, 2 RSQRT, 4 + m an exponential of SMXR whose maximum has
the pattern m) gives for an FP32 operand; the same on every tile and lane (02 R78, 03 R101) (log 13). -/
opaque sfuPick : Nat → BitVec 32 → Nat

/-- What a line of external memory decrypts to when its key is not the one it was written under (11 R316): the data
written, the line, the key (tag and generation as one number) it was written under, the key it is read under (log 6). -/
opaque otherKey : LineData → Nat → Nat → Nat → LineData

/-- A byte that the host port delivers for a read of host memory: the value of the counter `free` at the read, and the
address (log 6). -/
opaque hostByte : Nat → Nat → Byte

/-- Byte strings the spec leaves to other standards: certificates of a boot (22 R599) (log 1). -/
opaque freeBlob : Nat → List Byte

/-- The SHA-256 digest of a measurement block of 22 Table 22.8 whose bytes the spec does not lay out: the block's index and what it measures, as
numbers (log 150). -/
opaque measureDigest : Nat → List Nat → Nat

/-- Numbers of the SPDM responder that 22 R612 does not give: 0 CTExponent, 1 MaxSPDMmsgSize (log 150). -/
opaque spdmNumber : Nat → Nat

/-- Factory fuses of the voltage loop (20 R563): half, division, and which value (0 VMIN, 1 VMAX, 2 starting value), in steps of 2.5 mV
above 0.5 V (log 49). -/
opaque vddFuse : Nat → Nat → Nat → Nat

end Sys2Proof.Config
end

