-- ==== Sys2Proof/Machine/Numbers.lean ====
section
/-! DEFINITION. Number formats and arithmetic (spec 02): exact values of every format of Table 2.1, exact sums and
products, and the one rounding with which each operation and conversion ends. -/

namespace Sys2Proof.Machine

/-- An exact value: NaN, an infinity, or (-1)^neg * m * 2^e; a zero keeps its sign (R48). -/
inductive Val where
  | nan
  | inf (neg : Bool)
  | fin (neg : Bool) (m : Nat) (e : Int)
  deriving DecidableEq, Repr

/-- Layout of a floating-point format (Table 2.2): mantissa bits, exponent bits, bias, greatest finite magnitude as a
pattern, whether it has infinities, canonical NaN (0 where there is none, R47). -/
structure FloatFmt where
  mb : Nat
  eb : Nat
  bias : Nat
  maxPat : Nat
  hasInf : Bool
  nan : Nat
  deriving DecidableEq, Repr

def fmtFP64 : FloatFmt := ⟨52, 11, 1023, 0x7FEFFFFFFFFFFFFF, true, 0x7FF8000000000000⟩
def fmtFP32 : FloatFmt := ⟨23, 8, 127, 0x7F7FFFFF, true, 0x7FC00000⟩
def fmtBF16 : FloatFmt := ⟨7, 8, 127, 0x7F7F, true, 0x7FC0⟩
def fmtFP16 : FloatFmt := ⟨10, 5, 15, 0x7BFF, true, 0x7E00⟩
def fmtE4M3 : FloatFmt := ⟨3, 4, 7, 0x7E, false, 0x7F⟩
def fmtE5M2 : FloatFmt := ⟨2, 5, 15, 0x7B, true, 0x7E⟩
def fmtE3M2 : FloatFmt := ⟨2, 3, 3, 0x1F, false, 0⟩
def fmtE2M3 : FloatFmt := ⟨3, 2, 1, 0x1F, false, 0⟩
def fmtE2M1 : FloatFmt := ⟨1, 2, 1, 0x7, false, 0⟩

/-- The floating layout of a format code, where it is a floating format. -/
def floatFmt (code : Nat) : Option FloatFmt :=
  match code with
  | 0 => some fmtFP64 | 1 => some fmtFP32 | 2 => some fmtBF16 | 3 => some fmtFP16 | 4 => some fmtE4M3
  | 5 => some fmtE5M2 | 6 => some fmtE3M2 | 7 => some fmtE2M3 | 8 => some fmtE2M1
  | _ => none

/-- Element width in bits (Table 2.1); TRI5 (1.6 bits) is 0 here and handled by its own block rule. -/
def fmtWidth (code : Nat) : Nat :=
  match code with
  | 0 => 64 | 1 => 32 | 2 => 16 | 3 => 16 | 4 => 8 | 5 => 8 | 6 => 6 | 7 => 6 | 8 => 4 | 9 => 8 | 10 => 8 | 11 => 4
  | 13 => 32
  | _ => 0

/-- Block size of a blocked format (R53); 0 for the others. -/
def fmtBlock (code : Nat) : Nat :=
  if 6 ≤ code ∧ code ≤ 9 then 32 else if code = 12 then 160 else 0

/-- MX formats (R51). -/
def isMX (code : Nat) : Bool := decide (6 ≤ code ∧ code ≤ 9)
/-- TRI5. -/
def isTri (code : Nat) : Bool := code == 12
/-- Integer formats. -/
def isInt (code : Nat) : Bool := code == 10 || code == 11 || code == 13
/-- A code of Table 2.1 that is not reserved. -/
def fmtValid (code : Nat) : Bool := decide (code ≤ 13)

/-- Two's complement value of the low `w` bits. -/
def sext (x w : Nat) : Int :=
  let y := x % 2 ^ w
  if y < 2 ^ (w - 1) then (y : Int) else (y : Int) - (2 ^ w : Nat)

/-- An integer as an exact value. -/
def Val.ofInt (i : Int) (e : Int) : Val := .fin (decide (i < 0)) i.natAbs e

/-- Decode a floating element (R46). -/
def decFloat (f : FloatFmt) (x : Nat) : Val :=
  let man := x % 2 ^ f.mb
  let ex := (x / 2 ^ f.mb) % 2 ^ f.eb
  let neg := (x / 2 ^ (f.mb + f.eb)) % 2 = 1
  if f.hasInf ∧ ex = 2 ^ f.eb - 1 then
    if man = 0 then .inf neg else .nan
  else if f.nan ≠ 0 ∧ ¬ f.hasInf ∧ x % 2 ^ (f.mb + f.eb) = f.nan then .nan
  else if ex = 0 then .fin neg man (1 - (f.bias : Int) - f.mb)
  else .fin neg (2 ^ f.mb + man) ((ex : Int) - f.bias - f.mb)

/-- Decode an element of an unscaled format or the element of an MX block before its scale (R46, R49, R50). -/
def decElem (code x : Nat) : Val :=
  match floatFmt code with
  | some f => decFloat f x
  | none =>
    if code = 9 then Val.ofInt (sext x 8) (-6)
    else Val.ofInt (sext x (fmtWidth code)) 0

/-- Multiply by a power of two. -/
def Val.scale (v : Val) (k : Int) : Val :=
  match v with
  | .fin n m e => .fin n m (e + k)
  | v => v

/-- Apply an E8M0 scale byte (Table 2.3). -/
def applyE8M0 (s : Nat) (v : Val) : Val := if s = 255 then .nan else v.scale ((s : Int) - 127)

/-- The weight of digit `i` of a TRI5 byte (R54, R55). -/
def triWeight (b i : Nat) : Int := if b ≤ 242 then (((b / 3 ^ i) % 3 : Nat) : Int) - 1 else 0

def Val.isNan : Val → Bool
  | .nan => true
  | _ => false
def Val.isInf : Val → Bool
  | .inf _ => true
  | _ => false
def Val.isZero : Val → Bool
  | .fin _ m _ => m == 0
  | _ => false
def Val.neg? : Val → Bool
  | .nan => false
  | .inf n => n
  | .fin n _ _ => n

/-- Exact product (R48, R68). -/
def Val.mul (a b : Val) : Val :=
  match a, b with
  | .nan, _ => .nan
  | _, .nan => .nan
  | .inf n, .fin m k _ => if k = 0 then .nan else .inf (n != m)
  | .fin m k _, .inf n => if k = 0 then .nan else .inf (n != m)
  | .inf n, .inf m => .inf (n != m)
  | .fin n m e, .fin n' m' e' => .fin (n != n') (m * m') (e + e')

/-- Exact sum; a cancellation gives the zero of sign `dn` (R48: -0 under RDN only). -/
def Val.addR (dn : Bool) (a b : Val) : Val :=
  match a, b with
  | .nan, _ => .nan
  | _, .nan => .nan
  | .inf n, .inf m => if n = m then .inf n else .nan
  | .inf n, _ => .inf n
  | _, .inf n => .inf n
  | .fin n m e, .fin n' m' e' =>
    let l := min e e'
    let x : Nat := m * 2 ^ (e - l).toNat
    let y : Nat := m' * 2 ^ (e' - l).toNat
    if n = n' then .fin n (x + y) l
    else if x = y then .fin dn 0 l
    else if y < x then .fin n (x - y) l
    else .fin n' (y - x) l

/-- Exact sum under round to nearest. -/
def Val.add (a b : Val) : Val := Val.addR false a b

/-- Negation. -/
def Val.negate : Val → Val
  | .nan => .nan
  | .inf n => .inf (!n)
  | .fin n m e => .fin (!n) m e

/-- Absolute value. -/
def Val.abs : Val → Val
  | .nan => .nan
  | .inf _ => .inf false
  | .fin _ m e => .fin false m e

/-- Exact sum of a list. -/
def Val.sum (l : List Val) : Val :=
  match l with
  | [] => .fin false 0 0
  | v :: vs => vs.foldl Val.add v

/-- Strict order of two values that are not NaN. -/
def Val.lt (a b : Val) : Bool :=
  match a, b with
  | .nan, _ => false
  | _, .nan => false
  | .inf n, .inf m => n && !m
  | .inf n, _ => n
  | _, .inf m => !m
  | .fin n m e, .fin n' m' e' =>
    let l := min e e'
    let x : Int := (if n then -1 else 1) * ((m * 2 ^ (e - l).toNat : Nat) : Int)
    let y : Int := (if n' then -1 else 1) * ((m' * 2 ^ (e' - l).toNat : Nat) : Int)
    decide (x < y)

/-- The order of IEEE 754-2019 minimum and maximum: as `lt`, and -0 below +0 (09 R283). -/
def Val.below (a b : Val) : Bool := Val.lt a b || (a.isZero && b.isZero && a.neg? && !b.neg?)

/-- Numerical equality; -0 = +0 (R48). -/
def Val.eqv (a b : Val) : Bool := !a.isNan && !b.isNan && !Val.lt a b && !Val.lt b a

/-- Less or equal. -/
def Val.le (a b : Val) : Bool := !a.isNan && !b.isNan && !Val.lt b a

/-- Bit length. -/
def bitLen (m : Nat) : Nat := if m = 0 then 0 else Nat.log2 m + 1

/-- Round `m / 2^r` to an integer under a rounding mode (R64; SR adds 16 random bits, R66). -/
def roundShift (mode rand : Nat) (neg : Bool) (m r : Nat) : Nat :=
  let q := m / 2 ^ r
  let rem := m % 2 ^ r
  match mode with
  | 1 => q
  | 2 => if neg ∧ rem ≠ 0 then q + 1 else q
  | 3 => if ¬ neg ∧ rem ≠ 0 then q + 1 else q
  | 4 => (m * 2 ^ 16 / 2 ^ r + rand % 2 ^ 16) / 2 ^ 16
  | _ => if 2 * rem > 2 ^ r ∨ (2 * rem = 2 ^ r ∧ q % 2 = 1) then q + 1 else q

/-- Round `m * 2^e` to an integer number of quanta `2^q`. -/
def roundQ (mode rand : Nat) (neg : Bool) (m : Nat) (e q : Int) : Nat :=
  if q ≤ e then m * 2 ^ (e - q).toNat else roundShift mode rand neg m (q - e).toNat

/-- The flags of Table 2.8 as a 4-bit number. -/
def flOVF : Nat := 8
def flACCSAT : Nat := 4
def flNAN : Nat := 2
def flNANINT : Nat := 1

/-- Magnitude pattern of a rounded finite value, as though the exponent range had no upper limit (R70). -/
def magPattern (f : FloatFmt) (mode rand : Nat) (neg : Bool) (m : Nat) (e : Int) : Nat :=
  let qmin : Int := 1 - (f.bias : Int) - f.mb
  let q : Int := max ((bitLen m : Int) + e - (f.mb + 1)) qmin
  let r := roundQ mode rand neg m e q
  -- r is at most 2^(mb+1); the pattern rises with the value, so the carry into the exponent is right
  if r < 2 ^ f.mb then r else (q - qmin).toNat * 2 ^ f.mb + r

/-- Encode a value into a floating format under RMODE and SAT (R70, Table 2.9): pattern and flags. -/
def encFloat (f : FloatFmt) (mode : Nat) (sat : Bool) (rand : Nat) (v : Val) : Nat × Nat :=
  let sgn (n : Bool) (p : Nat) : Nat := (if n then 2 ^ (f.mb + f.eb) else 0) + p
  let infPat := f.maxPat + 1
  match v with
  | .nan => (f.nan, flNAN)
  | .inf n => if sat then (sgn n f.maxPat, 0) else if f.hasInf then (sgn n infPat, 0) else (f.nan, 0)
  | .fin n m e =>
    let p := magPattern f mode rand n m e
    if p ≤ f.maxPat then (sgn n p, 0)
    else if sat ∨ mode = 1 ∨ (mode = 2 ∧ ¬ n) ∨ (mode = 3 ∧ n) then (sgn n f.maxPat, flOVF)
    else if f.hasInf then (sgn n infPat, flOVF) else (f.nan, flOVF)

/-- Clamp an integer. -/
def clampI (lo hi x : Int) : Int := if x < lo then lo else if hi < x then hi else x

/-- Encode a value into a two's complement integer of `w` bits (R71, R74, Table 2.9). -/
def encInt (w mode rand : Nat) (v : Val) : Nat × Nat :=
  let lo : Int := -((2 ^ (w - 1) : Nat) : Int)
  let hi : Int := ((2 ^ (w - 1) : Nat) : Int) - 1
  let pat (x : Int) : Nat := (x % ((2 ^ w : Nat) : Int)).toNat
  match v with
  | .nan => (0, flNANINT)
  | .inf n => (pat (if n then lo else hi), flOVF)
  | .fin n m e =>
    let r : Int := (roundQ mode rand n m e 0 : Nat)
    let x := if n then -r else r
    if x < lo ∨ hi < x then (pat (clampI lo hi x), flOVF) else (pat x, 0)

/-- Encode into an unblocked format code. -/
def encElem (code mode : Nat) (sat : Bool) (rand : Nat) (v : Val) : Nat × Nat :=
  match floatFmt code with
  | some f => encFloat f mode sat rand v
  | none => encInt (fmtWidth code) mode rand v

/-- The exponent offset e of R73. -/
def mxE (code : Nat) : Int := if code = 6 then 4 else if code = 9 then 0 else 2

/-- Encode a block of 32 values into an MX format (R73): codes, scale byte, flags. The codes under scale byte 0xFF are zeros (DESIGN CHOICE, log 125). -/
def encMX (code : Nat) (vs : List Val) : List Nat × Nat × Nat :=
  if vs.any (fun v => v.isNan || v.isInf) then (List.replicate vs.length 0, 255, flNAN)
  else if vs.all Val.isZero then
    (vs.map fun v => if v.neg? && code != 9 then 2 ^ (fmtWidth code - 1) else 0, 127, 0)
  else
    let top : Int := vs.foldl (fun t v => match v with
      | .fin _ m e => if m = 0 then t else max t (e + (bitLen m : Int) - 1)
      | _ => t) (-100000)
    let x := clampI (-127) 127 (top - mxE code)
    let one (v : Val) : Nat × Nat :=
      let w := v.scale (-x)
      match floatFmt code with
      | some f => encFloat f 0 true 0 w
      | none =>
        -- MXINT8: the largest magnitude of either sign (R50, R73)
        encInt 8 0 0 (w.scale 6)
    let rs := vs.map one
    (rs.map Prod.fst, (x + 127).toNat, rs.foldl (fun a r => a ||| r.2) 0)

/-- FP32 pattern of a value rounded to nearest even. -/
def toF32 (v : Val) : Nat := (encFloat fmtFP32 0 false 0 v).1
/-- FP64 pattern of a value rounded to nearest even. -/
def toF64 (v : Val) : Nat := (encFloat fmtFP64 0 false 0 v).1
/-- Value of an FP32 pattern. -/
def ofF32 (x : Nat) : Val := decFloat fmtFP32 x

/-- Round a value to FP32 (or FP64) and take it as a value again. -/
def rnd32 (v : Val) : Val := decFloat fmtFP32 (toF32 v)
def rnd64 (v : Val) : Val := decFloat fmtFP64 (toF64 v)

/-- One saturating INT32 addition (R61): the sum and whether it saturated. -/
def satAdd32 (a b : Int) : Int × Bool :=
  let s := a + b
  if s < -2147483648 then (-2147483648, true) else if 2147483647 < s then (2147483647, true) else (s, false)

/-- Combine one element under a reduction operator of Table 5.7 (05 R174), both already in the destination format:
result pattern and flags. -/
def combine (op fmt d s : Nat) : Nat × Nat :=
  if fmt = 13 ∧ op = 1 then
    let r := satAdd32 (sext d 32) (sext s 32)
    ((r.1 % 4294967296).toNat, if r.2 then flACCSAT else 0)
  else if op = 1 then
    let v := Val.add (decElem fmt d) (decElem fmt s)
    let r := encElem fmt 0 false 0 v
    (r.1, if v.isNan then flNAN else r.2)
  else if op = 4 then (d &&& s, 0)
  else if op = 5 then (d ||| s, 0)
  else if op = 6 then (d ^^^ s, 0)
  else
    let a := decElem fmt d
    let b := decElem fmt s
    if a.isNan ∨ b.isNan then ((encElem fmt 0 false 0 .nan).1, flNAN)
    else if op = 2 then (if Val.below a b then s else d, 0)
    else if op = 3 then (if Val.below b a then s else d, 0)
    else (s, 0)

/-- Combine a source element in its own format with a destination element (05 R174): the source is decoded exactly; for an
INT32 destination it is first converted to INT32; a SUM makes one rounding, to nearest even; a MAX or MIN that takes the source
rounds it by `mode` and `sat` (R72), and only then has its flags. -/
def reduceElemBy (op dfmt mode : Nat) (sat : Bool) (rand : Nat) (d : Nat) (sv : Val) : Nat × Nat :=
  if dfmt = 13 then
    let c := encInt 32 0 0 sv
    let r := combine op 13 d c.1
    (r.1, r.2 ||| c.2)
  else if op = 1 then
    let v := Val.add (decElem dfmt d) sv
    let r := encElem dfmt 0 false 0 v
    (r.1, r.2)
  else
    let a := decElem dfmt d
    let r := encElem dfmt mode sat rand sv
    if a.isNan ∨ sv.isNan then
      let n := encElem dfmt 0 false 0 .nan
      (n.1, n.2 ||| flNAN)
    else if op = 2 then (if Val.below a sv then r else (d, 0))
    else if op = 3 then (if Val.below sv a then r else (d, 0))
    else (r.1, r.2)

/-- The same with rounding to nearest even, for units that take no control word. -/
def reduceElem (op dfmt : Nat) (d : Nat) (sv : Val) : Nat × Nat := reduceElemBy op dfmt 0 false 0 d sv

/-! Packed arrays of elements (R52, R54). -/

/-- Element `i` of width `w` bits in packed bytes. -/
def packedGet (l : List Byte) (w i : Nat) : Nat :=
  let b := i * w / 8
  (leNat ((l.drop b).take (w / 8 + 2)) / 2 ^ (i * w % 8)) % 2 ^ w

/-- Bytes of packed elements of width `w`. -/
def packElems (w : Nat) (xs : List Nat) : List Byte :=
  let rec go : List Nat → Nat → Nat
    | [], _ => 0
    | x :: r, k => (x % 2 ^ w) * 2 ^ k + go r (k + w)
  leBytes (go xs 0) ((xs.length * w + 7) / 8)

/-- Decode `n` consecutive elements of a row: bytes of the row, scale bytes of the row's blocks (R51, R54, R56). -/
def decRow (code : Nat) (row scales : List Byte) (n : Nat) : List Val :=
  if isTri code then
    (List.range n).map fun i =>
      let b := leNat ((row.drop (i / 5)).take 1)
      let w := triWeight b (i % 5)
      let s := decFloat fmtBF16 (leNat ((scales.drop (2 * (i / 160))).take 2))
      Val.mul (Val.ofInt w 0) s
  else if isMX code then
    (List.range n).map fun i =>
      applyE8M0 (leNat ((scales.drop (i / 32)).take 1)) (decElem code (packedGet row (fmtWidth code) i))
  else
    (List.range n).map fun i => decElem code (packedGet row (fmtWidth code) i)

/-- Bytes that `n` elements of a format fill, packed (R52, R54). -/
def rowBytes (code n : Nat) : Nat := if isTri code then n / 5 else (n * fmtWidth code + 7) / 8

/-- Bytes of one scale (05 R172): 1 for MX, 2 for TRI5. -/
def scaleUnit (code : Nat) : Nat := if isTri code then 2 else if isMX code then 1 else 0

/-- Encode a row of values: bytes, scale bytes, flags. `rands` supplies the SR bits, one a conversion. -/
def encRow (code mode : Nat) (sat : Bool) (rands : List Nat) (vs : List Val) : List Byte × List Byte × Nat :=
  if isMX code then
    let rec blocks : Nat → List Val → List Nat × List Byte × Nat
      | 0, _ => ([], [], 0)
      | k + 1, l =>
        let r := encMX code (l.take 32)
        let t := blocks k (l.drop 32)
        (r.1 ++ t.1, BitVec.ofNat 8 r.2.1 :: t.2.1, r.2.2 ||| t.2.2)
    let r := blocks (vs.length / 32) vs
    (packElems (fmtWidth code) r.1, r.2.1, r.2.2)
  else
    let rs := (vs.zip (rands ++ List.replicate vs.length 0)).map fun p => encElem code mode sat p.2 p.1
    (packElems (fmtWidth code) (rs.map Prod.fst), [], rs.foldl (fun a r => a ||| r.2) 0)

/-! Special functions (03 Table 3.7): the set of values within the error bound, and the pick of `Config.sfuPick`. -/

/-- Integer square root, by bisection on `fuel` bits. -/
def isqrtAux (n : Nat) : Nat → Nat → Nat
  | 0, r => r
  | k + 1, r => if (r + 2 ^ k) * (r + 2 ^ k) ≤ n then isqrtAux n k (r + 2 ^ k) else isqrtAux n k r
def isqrt (n : Nat) : Nat := isqrtAux n (bitLen n / 2 + 1) 0

/-- Natural logarithm of 2, times 2^160, rounded down. -/
def ln2fix : Nat := 1013035739299659071135698605846798551586536899366

/-- e^f * 2^128 for f = x / 2^128, 0 ≤ f < 1, by 40 terms of the series. -/
def expFixAux (x : Nat) : Nat → Nat → Nat → Nat
  | 0, _, _ => 0
  | k + 1, n, t => t + expFixAux x k (n + 1) (t * x / 2 ^ 128 / n)
def expFix (x : Nat) : Nat := expFixAux x 40 1 (2 ^ 128)

/-- The pattern of the greatest FP32 magnitude not above `m * 2^e` (a positive value), and whether it is exact. -/
def f32Floor (m : Nat) (e : Int) : Nat × Bool :=
  let p := magPattern fmtFP32 1 0 false m e
  (p, Val.eqv (decFloat fmtFP32 p) (.fin false m e))

/-- Pick a pattern within `n` units in the last place of a positive result whose floor pattern is `p`. -/
def pickUlp (n p : Nat) (exact : Bool) (pick : Nat) : Nat :=
  let lo : Int := if exact then -(n : Int) else 1 - (n : Int)
  let cnt := if exact then 2 * n + 1 else 2 * n
  let r := (p : Int) + lo + ((pick % cnt : Nat) : Int)
  min (if r < 0 then 0 else r.toNat) (fmtFP32.maxPat + 1)

/-- e^x of an exact value, with the pick of a value within the bound. -/
def expOf (pick : Nat) (x : Val) : W32 :=
  match x with
  | .nan => BitVec.ofNat 32 fmtFP32.nan
  | .inf true => 0
  | .inf false => BitVec.ofNat 32 (fmtFP32.maxPat + 1)
  | .fin n m e =>
    if m = 0 then BitVec.ofNat 32 (pickUlp 2 0x3F800000 true pick)
    -- beyond 2^8 in magnitude the result overflows, or lies far below the smallest subnormal
    else if 8 < (bitLen m : Int) + e then
      if n then BitVec.ofNat 32 (pickUlp 2 0 false pick) else BitVec.ofNat 32 (fmtFP32.maxPat + 1)
    else
      -- |x| * 2^160, then x = k ln 2 + f with 0 ≤ f < ln 2
      let a := roundQ 1 0 false m e (-160)
      let k : Int := if n then -((a / ln2fix : Nat) : Int) - 1 else ((a / ln2fix : Nat) : Int)
      let f : Nat := if n then ln2fix - a % ln2fix else a % ln2fix
      let r := expFix (f / 2 ^ 32)
      let p := (f32Floor r (k - 128)).1
      if fmtFP32.maxPat < p then BitVec.ofNat 32 (fmtFP32.maxPat + 1)
      else BitVec.ofNat 32 (pickUlp 2 p false pick)

/-- e^x (EXP). -/
def sfuExp (x : W32) : W32 := expOf (Config.sfuPick 0 x) (ofF32 x.toNat)

/-- 1 / x (RCP). -/
def sfuRcp (x : W32) : W32 :=
  let sgn (n : Bool) (p : Nat) : W32 := BitVec.ofNat 32 ((if n then 2 ^ 31 else 0) + p)
  match ofF32 x.toNat with
  | .nan => BitVec.ofNat 32 fmtFP32.nan
  | .inf n => sgn n 0
  | .fin n m e =>
    if m = 0 then sgn n (fmtFP32.maxPat + 1)
    else
      let q := 2 ^ 300 / m
      let f := f32Floor q (-300 - e)
      let p := if fmtFP32.maxPat < f.1 then fmtFP32.maxPat + 1
        else pickUlp 1 f.1 (f.2 && decide (2 ^ 300 % m = 0)) (Config.sfuPick 1 x)
      sgn n p

/-- 1 / sqrt x (RSQRT). -/
def sfuRsqrt (x : W32) : W32 :=
  match ofF32 x.toNat with
  | .nan => BitVec.ofNat 32 fmtFP32.nan
  | .inf true => BitVec.ofNat 32 fmtFP32.nan
  | .inf false => 0
  | .fin n m e =>
    if m = 0 then BitVec.ofNat 32 ((if n then 2 ^ 31 else 0) + (fmtFP32.maxPat + 1))
    else if n then BitVec.ofNat 32 fmtFP32.nan
    else
      -- make the exponent even, then 1/sqrt(m 2^(2j)) = sqrt(2^400 / m) * 2^(-200-j)
      let m' := if e % 2 = 0 then m else 2 * m
      let j := if e % 2 = 0 then e / 2 else (e - 1) / 2
      let q := isqrt (2 ^ 400 / m')
      let f := f32Floor q (-200 - j)
      BitVec.ofNat 32 (pickUlp 2 f.1 (f.2 && decide (q * q * m' = 2 ^ 400)) (Config.sfuPick 2 x))

end Sys2Proof.Machine
end

