-- ==== Sys2Proof/Machine/Checks.lean ====
section
/-! DEFINITION. Operands that no command of the spec carries, one check for each kind of command: an encoding without a place for the
value, a flit or frame longer than its form, an answer that cannot belong to its request. -/

namespace Sys2Proof.Machine

/-- Has an operation an immediate form in RV64I: the shifts take 6 bits, their W forms 5, the others a signed immediate. -/
def aluHasImm (op : AluOp) : Bool :=
  match op with
  | .sub | .subw | .mul | .mulh | .mulhsu | .mulhu | .mulw => false
  | _ => true
/-- Is an immediate one that the encoding of the operation holds? -/
def immFits (op : AluOp) (imm : BitVec 12) : Bool :=
  match op with
  | .sll | .srl | .sra => decide (imm.toNat < 64)
  | .sllw | .srlw | .sraw => decide (imm.toNat < 32)
  | _ => true
/-- INTEGER_OP (04 R121): a raw word spells no instruction and has the length of its encoding. -/
def integerOpOk (a : At) (op : IntegerOp) : Bool :=
  match op with
  | .word w => (coreDecode a.tile a.saddle w).isNone && a.compressed == shortWord w
  | .ri op _ _ imm => aluHasImm op && immFits op imm
  | _ => true
/-- BRANCH: offsets are even (04 R121). -/
def branchOk (op : BranchOp) : Bool :=
  match op with
  | .cond _ _ _ off => !off.getLsbD 0
  | .jal _ off => !off.getLsbD 0
  | .jalr _ _ _ => true

/-- TSWR, TSRD: bytes of one 128-byte line (09 Table 9.3). -/
def tsSpanOk (offset len : Nat) : Bool := decide (0 < len ∧ offset % 128 + len ≤ 128)

/-- Is OP permitted with the formats (05 Table 5.7)? -/
def opPermits (op sfmt dfmt : Nat) : Bool :=
  match op with
  | 0 => true
  | 1 => dfmt == 0 || dfmt == 1 || dfmt == 13
  | 2 | 3 => fmtBlock dfmt == 0
  | 4 | 5 | 6 => dfmt == 13 && sfmt == 13
  | _ => false
/-- Formats and operators a RED flit carries (05 R174): byte-sized unblocked elements. -/
def redOk (f : RedFlit) : Bool :=
  let byteFmt (x : Nat) : Bool := fmtValid x && fmtBlock x == 0 && fmtWidth x != 0
  byteFmt f.fmt.val && fmtWidth f.fmt.val % 8 == 0 && byteFmt f.sfmt.val && opPermits f.op.val f.sfmt.val f.fmt.val &&
    f.op.val != 0 && decide (f.waited ≤ 64) && decide (f.addr % (fmtWidth f.fmt.val / 8) = 0) && decide (f.dst < 1520)

/-- Virtual channels of a network (09 Tables 9.1, 10.2). -/
def netVcs : Net → Nat
  | .bn => 3
  | .cn => 2
  | .sn => 1
/-- CREDIT_RETURN. -/
def creditOk (n : Net) (vc : Nat) : Bool := decide (vc < netVcs n)
/-- AUDIT_SAMPLE: a virtual channel of the network; without a window nothing is excused. -/
def sampleOk (l : LedgerId) (x : AuditSample) : Bool :=
  (match l with
   | .credit _ n v => creditOk n v.val
   | _ => true) && (x.window != 0 || (x.excused == 0 && x.age == 0))

/-- CN_SWR: up to 16 bytes of a line (09 Table 9.4). -/
def swrOk (offset len : Nat) : Bool := decide (0 < len ∧ len ≤ 16 ∧ offset + len ≤ 128)
/-- STACK_THERMAL_SAMPLE: one temperature for each stack (11 R325). -/
def tempsOk (temps : List Int) : Bool := decide (temps.length = 16)
/-- COMMAND_FETCH_DONE: as many slots as the first one says (14 Table 14.7). -/
def slotsOk (slots : List LineData) : Bool := decide (slots.length = bits (slots.getD 0 0).toNat 13 12 + 1)
/-- FAB_LINK_UP: lanes that trained, each named once (16 R450). -/
def lanesOk (lanes : List (Fin 8)) : Bool := decide lanes.Nodup
/-- ETH_LANE_LOSS: fewer than all eight lanes (16 R451). -/
def laneLossOk (good : Nat) : Bool := decide (good < 8)
/-- FRAME_REPLAY: frames of the replay buffer (16 R466). -/
def replayOk (frames : Nat) : Bool := decide (frames ≤ 1024)
/-- VFL_DCMP: a run of 1 to 64 (16 R463). -/
def dcmpOk (run : Nat) : Bool := decide (1 ≤ run ∧ run ≤ 64)
/-- VFL_OPEN_ACK: a grant of 16 bits (16 R460). -/
def grantOk (grant : Nat) : Bool := decide (grant < 65536)
/-- VFL_MGMT: a frame of at most three packets (21 R587). -/
def mgmtOk (total : Nat) : Bool := decide (total ≤ 1536)

/-- Is an OP a request operation of 21 Table 21.3? -/
def isRequest (op : BitVec 8) : Bool := decide (op.toNat ≤ 8)
/-- A row of the dictionary protocol takes frames of its OP, and frames whose OP is no request. -/
def opIs (f : KFrame) (op : Nat) : Bool := f.op.toNat == op || !(isRequest f.op)

/-- Physical addresses have 41 bits (11 R306). -/
def paLimit : Nat := 2 ^ 41

end Sys2Proof.Machine
end

