-- ==== Sys2Proof/Machine/State.lean ====
section
/-! DEFINITION. The state of the module as plain data: every register, table, buffer, queue and mode the spec gives it, one
structure a chapter; the faults and refusals of a step; the state after reset (STANDBY, 24 Table 24.4). Numbers are `Nat`
where the spec counts or numbers, bit vectors where it computes with words. A `Tab` entry that is not listed stands for
the default its reader names. -/

namespace Sys2Proof.Machine

/-- What stops the machine. -/
inductive Fault where
  /-- Raised by MEM_READ, MEM_WRITE, PARITY_DELTA and SCRUB at an address outside the 41-bit physical space (11 R306).
  Safe: the hardware has no such address. -/
  | noSuchAddress (pa : Nat)
  deriving DecidableEq, Repr

/-- What a command is turned away for. -/
inductive Refusal where
  /-- Raised by an arm of `exec` for a command that has no meaning yet. Safe. -/
  | notModelled (mnemonic : String)
  /-- Raised for operands that no command of the spec carries (`WellFormed`). Safe. -/
  | illFormed (mnemonic : String)
  deriving DecidableEq, Repr

/-- Fuses and the factory record (00 Table 0.2, 17 R508, 22 R602, R606): kept through every reset. -/
structure Fuse where
  order : Fin 3 := 0
  stepping : BitVec 16 := 0x0100
  serial : List Byte := []
  mac : BitVec 48 := 0
  /-- Expected VENDOR and PRODUCT of each expansion site. -/
  xsIdent : Tab Nat := []
  /-- Minimum SVN by image type 1-4 (22 R602). -/
  svnMin : Tab Nat := []
  /-- Root keys of Gwynsiord that are revoked, one bit each (22 R602). -/
  revoked : Nat := 0
  /-- Certificates of the factory record (22 R599). -/
  deviceCert : List Byte := []
  /-- Unique device secret, the same in the fuses of every I/O die (22 R596; log 142). -/
  uds : BitVec 256 := 0
  /-- SHA-256 of the four signing keys (22 R602) and of the public key of the Gwynsiord root (22 R599) (log 142). -/
  keyHash : Tab Nat := []
  rootHash : BitVec 256 := 0
  caCert : List Byte := []
  deriving DecidableEq, Repr

/-- Module state (24). -/
structure ModS where
  /-- MSTATE (14 Table 14.3): 0 OFF, 1 STANDBY, 2 SECURE_BOOT, 3 BRINGUP, 4 READY, 5 SERVICE, 6 RECOVERY_ONLY,
  7 KICKSTAND. -/
  mstate : Fin 8 := 1
  startReq : Bool := false
  warm : Bool := false
  readyMs : Nat := 0
  startTick : Nat := 0
  bootFault : Bool := false
  /-- Last completed step of 24 Table 24.2. -/
  bringStep : Nat := 0
  /-- EPOCH of the module's ends of die links, whose logic is reset together (17 R491). -/
  linkEpoch : BitVec 8 := 0
  deriving DecidableEq, Repr

/-- One counter instance (23 R615-R622); `stored` is the copy in the Odometer store. -/
structure Ctr where
  value : Nat := 0
  ovf : Bool := false
  epoch : BitVec 32 := 0
  stored : Nat := 0
  maxSent : Bool := false
  deriving DecidableEq, Repr

/-- One event record (21 R588). -/
structure Event where
  seq : Nat
  code : BitVec 32
  source : BitVec 16
  part : BitVec 8
  data : BitVec 128
  deriving DecidableEq, Repr

/-- Where the SPDM responder stands with one requester (22 R612, log 150): negotiation stage (1 version, 2 capabilities, 3 algorithms), the rest of a
large response with its handle and next chunk, the large request that arrives in chunks with its handle and next chunk. -/
structure Spdm where
  stage : Fin 4 := 0
  out : List Byte := []
  outHandle : Byte := 0
  outSeq : Nat := 0
  inp : List Byte := []
  inpHandle : Byte := 0
  inpSeq : Nat := 0
  deriving DecidableEq, Repr

/-- A KDP session (21 R579-R581, 23 R618): roles 0 OBSERVER to 4 SERVICE. -/
structure Session where
  transport : Transport
  role : Fin 5 := 0
  /-- Role asked for in a LOGIN_CHALLENGE that awaits its response. -/
  challenge : Option (Fin 5) := none
  /-- Index of the free value that stands for the nonce sent. -/
  nonce : Nat := 0
  lastSeq : Option Nat := none
  odoInst : BitVec 32 := 0
  ctxSel : BitVec 32 := 0
  mask : BitVec 16 := 0
  /-- First EVSEQ not yet sent in an EVENT frame. -/
  evNext : Nat := 0
  /-- SPDM response that waits to be read, and the responder's state. -/
  spdm : List Byte := []
  spdmAt : Spdm := {}
  deriving DecidableEq, Repr

/-- A saved value (21 R589): a number or a byte string. -/
inductive PVal where
  | num (v : Int)
  | blob (b : List Byte)
  deriving DecidableEq, Repr

/-- A saved configuration copy (21 Table 21.9) that is valid. -/
structure SavedCopy where
  seq : Nat
  fwver : Nat
  entries : List (Nat × PVal)
  deriving DecidableEq, Repr

/-- A response of the dictionary server (21 Table 21.2). -/
structure KResp where
  transport : Transport
  op : BitVec 8
  status : Fin 6
  session : Nat
  seq : Nat
  tagged : Bool
  entries : List KEntry
  deriving DecidableEq, Repr

/-- An action under way (21 R577): it has been answered RUNNING; its final ESTAT once it is over. -/
structure ActRun where
  answered : Bool := false
  final : Option Nat := none
  deriving DecidableEq, Repr

/-- The object dictionary (21). -/
structure Kod where
  /-- Values of RW and RWS parameters that were written. -/
  params : Tab Int := []
  blobs : Tab (List Byte) := []
  sessions : Tab Session := []
  /-- Sessionless state of each transport (SESSION 0): ODO_INST, DBG_CTX_SEL, SPDM. -/
  base : List (Transport × Session) := []
  server : IodId := 0
  /-- Event messages on their way to the serving management block, oldest first (23 R659). -/
  evq : List Event := []
  events : List Event := []
  evseq : Nat := 0
  /-- Failed logins: source and tick; sources locked and the tick they were. -/
  fails : List (Transport × Nat) := []
  locked : List (Transport × Nat) := []
  cfgA : Option SavedCopy := none
  cfgB : Option SavedCopy := none
  cfgSeq : Nat := 0
  cfgSlot : Fin 3 := 0
  dirty : Bool := false
  lastRws : Option Nat := none
  defaulted : Bool := false
  skipped : Nat := 0
  /-- Save in progress: copy being written (false A) and its contents; another save is requested. -/
  saving : Option (Bool × SavedCopy) := none
  saveAgain : Bool := false
  /-- Is KOD_SAVE waiting for the save in progress; for the one after it? -/
  saveAct : Bool := false
  againAct : Bool := false
  /-- Actions under way, by number, and responses that wait for one. -/
  actions : Tab ActRun := []
  held : List KResp := []
  viol : Nat := 0
  violOvf : Bool := false
  badTag : Nat := 0
  badTagOvf : Bool := false
  loginFail : Nat := 0
  loginFailOvf : Bool := false
  /-- MGMT fragments received by port, as (offset, bytes). -/
  frags : Tab (List (Nat × List Byte)) := []
  /-- Frames of MGMT packets put together, with their port, newest first. -/
  mgmt : List (Nat × List Byte) := []
  /-- Number and final ESTAT of the last action performed. -/
  lastAct : Option (Nat × Nat) := none
  /-- Responses and EVENT frames sent, newest first. -/
  sent : List KResp := []
  deriving DecidableEq, Repr

/-- TIL_CSU_MISMATCH_REC (03 R111). -/
structure MatRec where
  issue : Nat := 0
  block : Nat := 0
  col : Nat := 0
  digest : BitVec 32 := 0
  /-- A residue failure of the vector unit: there is no digest to compare (03 R103, log 21). -/
  residue : Bool := false
  deriving DecidableEq, Repr

/-- A matrix issue as queued (04 Table 4.6). -/
structure Issue where
  wr : Bool
  acc : Bool
  record : BitVec 512
  /-- Index of the issue within its task (03 R111). -/
  index : Nat
  deriving DecidableEq, Repr

/-- One column of an output block as the checksum unit holds it (03 R105): Q and P as patterns of FP32 (FP64 for FP64
pairs), and what R107 skips for. -/
structure ColSum where
  q : Nat := 0
  p : Nat := 0
  nanOp : Bool := false
  infOp : Bool := false
  sat : Bool := false
  /-- Some α_k left the range in which FP32 holds it (log 25). -/
  narrow : Bool := false
  deriving DecidableEq, Repr

/-- Accumulators left by the last issue (03 R91): shape, pair, elements row by row, column sums of each output block. -/
structure AccS where
  m : Nat
  n : Nat
  fa : Nat
  fb : Nat
  kTotal : Nat
  elems : List Nat
  cols : Tab ColSum
  /-- The issue that left them had WR = 0. -/
  held : Bool := false
  deriving DecidableEq, Repr

/-- An issue with WR = 1 whose K loop has run: its saddle, the uid of its context, its accumulators. -/
structure RunIssue where
  sd : SaddleId
  uid : Nat
  issue : Issue
  acc : AccS
  deriving DecidableEq, Repr

/-- What a context waits for (04 R148); `rd` is written when the wait ends. -/
inductive Wait where
  | copy (tag : Nat) (rd : Reg)
  | sem (num : Nat) (count : Nat) (rd : Reg)
  | try (num : Nat) (rd : Reg)
  | bar (num : Nat) (phase : Nat) (rd : Reg) (arrive : Bool)
  | arrive (num : Nat) (rd : Reg)
  | fence (kind : Fin 5)
  | taskEnd (exit : BitVec 16)
  deriving DecidableEq, Repr

/-- Saddle states (13 Table 13.2). -/
inductive CtxSt where
  | empty | run | blocked | halted | saving | loading
  deriving DecidableEq, Repr

/-- One trigger (04 Table 4.11): control, address, and SKIP as last written (R155). -/
structure Trig where
  ctl : W64 := 0
  adr : W64 := 0
  skip0 : BitVec 16 := 0
  deriving DecidableEq, Repr

/-- A tile (03). Scratchpad bytes are kept by bank, row and byte: address bank * 2^17 + row * 64 + byte (R80, R82). -/
structure Tile where
  split : Fin 8 := 4
  changing : Option (Fin 8) := none
  ts : Mem := []
  /-- Poisoned granules, as bank * 2^11 + row. -/
  poison : Tab Unit := []
  /-- TIL_TSWIN_s: base and size in 64 KiB units. -/
  win : Tab (Nat × Nat) := []
  /-- Requesters of a bank refused for 16 cycles, in the order they are served, each with the tick it starved at. -/
  starved : Tab (List (Nat × BankReq)) := []
  rr : SaddleId := 0
  /-- Issues whose accumulators await write-out, one an accumulator half, in order (R93). -/
  running : List RunIssue := []
  fenced : Bool := false
  strike : Fin 3 := 0
  strikeTick : Nat := 0
  selftestFail : Bool := false
  recValid : Bool := false
  /-- TIL_CSU_MISMATCH_REC (03 R111). -/
  mrec : MatRec := {}
  /-- Exponents t and counts of quiet checks by rate class; steps down that have fallen due and not been made (R109). -/
  tvals : Tab Int := []
  quiet : Tab Nat := []
  stepDown : Tab Nat := []
  checksSince : Nat := 0
  /-- A self-test is due; once a column has been perturbed, whether its comparison passed (R118). -/
  selftestDue : Bool := false
  selftest : Option Bool := none
  /-- Context on the core (13 R366). -/
  cur : SaddleId := 0
  /-- Under test (18 R534). -/
  testing : Bool := false
  /-- Issuing on alternate cycles (20 R564). -/
  droop : Bool := false
  deriving DecidableEq, Repr

/-- A task (13): its descriptor, the command it belongs to and its index there, and what a retry carries over. -/
structure Task where
  uid : Nat
  cmd : Nat
  index : Nat
  part : PartId
  desc : BitVec 512
  a0 : W64
  a1 : W64
  /-- Work item of a STEP task (12). -/
  item : Option Nat := none
  /-- Mismatches to settle by a retry: first tile and its record, newest first (03 R114, R117). -/
  retry : List (TileId × MatRec) := []
  /-- Tiles a retry avoids. -/
  avoid : List TileId := []
  deriving DecidableEq, Repr

/-- A context (04, 13): one saddle's contents. x0 is never stored; unlisted registers are 0. -/
structure Ctx where
  uid : Nat := 0
  st : CtxSt := .empty
  task : Option Task := none
  part : PartId := 0
  x : Tab W64 := []
  pc : W64 := 0
  v : Tab VecData := []
  tcls : BitVec 3 := 7
  tvlive : BitVec 32 := 0xFFFFFFFF
  tcvt : BitVec 10 := 0x11
  tarith : BitVec 16 := 0
  tflags : BitVec 4 := 0
  /-- Operations in the vector queue that the unit has not completed (04 R136). -/
  vq : Nat := 0
  /-- The core is in machine mode for it (04 R121, R122; log 133). -/
  mmode : Bool := false
  /-- Machine-mode CSRs by number (04 Table 4.4). -/
  mcsr : Tab W64 := []
  instret : BitVec 64 := 0
  trig : Tab Trig := []
  /-- Unretired copy tags and the copies they name (04 R142). -/
  tags : Tab Nat := []
  nextTag : Nat := 1
  wait : Option Wait := none
  blockedAt : Nat := 0
  evictable : Bool := false
  /-- Host-memory and fabric writes made that a fence still awaits (04 Table 4.7). -/
  hmPend : Bool := false
  fabPend : Bool := false
  /-- A read flush issued after those host-memory writes is under way. -/
  hmFlush : Bool := false
  iq : List Issue := []
  acc : Option AccS := none
  issues : Nat := 0
  /-- The task is ended and waits for its copies; status it ends with (04 R129, R152). -/
  ending : Option Nat := none
  /-- Fault detail of the ending: KIND or mcause, mtval (14 Table 14.9). -/
  endKind : Nat := 0
  endMcause : Nat := 0
  endMtval : W64 := 0
  endExit : BitVec 16 := 0
  /-- The failed check that ended the task, as its report carries it (03 R111, R114). -/
  mrec : Option MatRec := none
  /-- The end has been reported to the scheduler. -/
  reported : Bool := false
  /-- Tick of the launch. -/
  launchTick : Nat := 0
  /-- Halt handle (23 R626), and whether it stops again after one instruction. -/
  handle : Option (BitVec 16) := none
  single : Bool := false
  /-- Resumed: the next instruction does not stop the context again. -/
  stepOver : Bool := false
  deriving DecidableEq, Repr

/-- A copy that has not completed, or whose tag is not retired (05). -/
structure Copy where
  /-- uid of the context that pushed it; none for a COPY command. -/
  owner : Option Nat
  task : Option Nat
  cmd : Nat
  part : PartId
  half : SliceId
  engine : Fin 8
  desc : BitVec 1024
  /-- Arithmetic control word, read at push. -/
  arith : BitVec 16
  /-- Multicast set entry as it stood at push (15 R445). -/
  mset : List (BitVec 64) := []
  order : Nat
  status : Option Nat := none
  /-- The engine has begun: reads of peers and multicast branches are out (05 R177). -/
  started : Bool := false
  /-- Elements written, by target; their sum over the targets delivered, once it is complete (R178). -/
  counts : Tab Nat := []
  elems : Nat := 0
  aflags : BitVec 4 := 0
  undeliv : BitVec 64 := 0
  /-- What its status is to say (R180). -/
  wShared : Bool := false
  wPoison : Bool := false
  wDetached : Bool := false
  wUncertain : Bool := false
  /-- RED flits that REDACK has not answered (09 R283). -/
  reds : Nat := 0
  /-- The walk has been made; packets and flits may still await acceptance, delivery or acknowledgement. -/
  walked : Bool := false
  /-- Bytes read from peers: module and window * 2^40 + offset. -/
  peerIn : Tab Byte := []
  /-- Key and remote base of each pair of module and window, as at push (16 R488). -/
  keys : List (Nat × BitVec 64 × BitVec 64) := []
  gen : BitVec 16 := 0
  deriving DecidableEq, Repr

/-- Directory entry (07 Table 7.3): dstate 0 DI, 1 DS, 2 DSF, 3 DX. -/
structure Dir where
  dstate : Fin 4 := 0
  busy : Bool := false
  coarse : Bool := false
  fwd : AgentId := 0
  ptrs : List AgentId := []
  xvec : BitVec 2 := 0
  cvec : BitVec 32 := 0
  deriving DecidableEq, Repr

/-- A line present in a slice (06 Table 6.1). -/
structure Line where
  way : Fin 16
  cls : Fin 8 := 7
  dirty : Bool := false
  poison : Bool := false
  /-- Order among the set's evictable-first lines; 0 is not marked. -/
  evictFirst : Nat := 0
  /-- Key tag carried from the fill (15 Table 15.2 step 5). -/
  keyTag : BitVec 8 := 0xFE
  data : LineData := 0
  dir : Dir := {}
  deriving DecidableEq, Repr

/-- States of a line in a caching agent (07 Table 7.2); I is not listed. -/
inductive L1St where
  | S | F | E | M
  deriving DecidableEq, Repr

/-- A copy of a line in a caching agent, or in its write-back buffer after PUTF, PUTE or PUTM. -/
structure L1Line where
  st : L1St
  data : LineData
  poison : Bool := false
  deriving DecidableEq, Repr

/-- Requests of the coherence protocol (07 Table 7.4); `put` stands for PUTF, PUTE and PUTM, and `evict` for the home's own
transaction on a victim line (R238). -/
inductive ReqKind where
  | gets | getx | upg | put | ncrd | ncwi | ncwh | dead | evict
  deriving DecidableEq, Repr

/-- A request that its agent has sent and that is not completed (07 R234-R236), and the same request admitted at the
home or waiting behind a fill. -/
structure Req where
  kind : ReqKind
  agent : AgentId
  part : PartId := 0
  cls : Fin 8 := 7
  byteen : BitVec 128 := 0
  data : LineData := 0
  target : Option TileId := none
  nacks : Nat := 0
  ticket : Bool := false
  /-- NACKed and backing off; `delay` is the back-off in CLK_N cycles. -/
  backoff : Bool := false
  delay : Nat := 0
  /-- It started the fill it waits behind: its lookup is counted (06 R217), and it is none of the four of R229. -/
  starter : Bool := false
  deriving DecidableEq, Repr

/-- A transaction that keeps its line BUSY (07 R228): the request, the agents whose acknowledgement is awaited, whether the
requester still needs its grant from the home. -/
structure Txn where
  req : Req
  await : List AgentId
  /-- The data has gone, or goes, straight from the forwarding holder to the requester. -/
  direct : Bool := false
  /-- The write is performed and the line has been offered to the hinted tile (07 R240). -/
  pushed : Bool := false
  deriving DecidableEq, Repr

/-- Coherence messages in flight (07 Table 7.4). -/
inductive MsgKind where
  | fwdS | fwdX | fwdNc | inv | invd | push | dataS | dataF | dataE | dataM | grantM | ncdata | ncack | invAck | fwdAck
  | pushAck | pushNak | putAck | nack
  deriving DecidableEq, Repr

/-- A message in flight: the agent it concerns (destination of home messages, source of acknowledgements), the line, the
requester a forward serves, data and poison where it carries them. -/
structure Msg where
  kind : MsgKind
  agent : AgentId
  line : Nat
  fwdTo : AgentId := 0
  data : Option LineData := none
  poison : Bool := false
  /-- A NACK that carries a ticket (07 R235). -/
  ticket : Bool := false
  deriving DecidableEq, Repr

/-- A multicast branch in a branch-hold buffer (09 R287): target of a copy, or branch of a Drafting fill. -/
inductive Branch where
  | copy (id target : Nat)
  | fill (x : Msg)
  deriving DecidableEq, Repr

/-- A miss-status entry (06 R213): readers joined, in home order, and the data with its poison mark once it has arrived and
waits for a way of the set. -/
structure Mshr where
  readers : List Req
  data : Option (LineData × Bool) := none
  /-- A whole-line write that allocates its line without a read (06 R191). -/
  alloc : Bool := false
  deriving DecidableEq, Repr

/-- A pin extent (06 R195-R206): first unit, units, partition, physical pages of the backing (64 KiB each), demoted, and
the order of granting and of demotion. -/
structure Extent where
  base : Nat
  units : Nat
  part : PartId
  backing : List Nat := []
  demoted : Nat := 0
  order : Nat
  /-- Granted without LOAD: a line the slices do not list is a dirty line of zeros until it is listed in `gone`, having left its way
  for its backing line (06 R196, R205). -/
  zeroed : Bool := true
  gone : Tab Unit := []
  /-- Guard window of its demotion. -/
  demWin : Nat := 0
  /-- Its PS contents went with the slices at an entry into Kickstand (19 R555, 18 R517). -/
  lost : Bool := false
  deriving DecidableEq, Repr

/-- CCH_GUARD_s (06 Table 6.2). -/
structure Guard where
  rate : Nat := 0
  valid : Bool := false
  thrash : Bool := false
  lastPart : PartId := 0
  /-- Windows completed; WINDOWS reads it modulo 4,096. -/
  windows : Nat := 0
  deriving DecidableEq, Repr

/-- A HINT.DEAD whose range waits for earlier accesses of its context (04 R149): uid, tile, partition, virtual address, length; the first matrix issue
and the first copy that come after it. -/
structure DeadHint where
  uid : Nat
  tile : TileId
  part : PartId
  va : Nat
  len : Nat
  issue : Nat
  copy : Nat
  deriving DecidableEq, Repr

/-- The unified cache and the coherence protocol (06, 07). Lines are keyed by line key: L for EM, 2^34 + A / 128 for PS. -/
structure CacheS where
  lines : Tab Line := []
  /-- 15-bit tree by slice * 65536 + set (06 R189). -/
  plru : Tab Nat := []
  evictSeq : Nat := 0
  /-- Lines in caching agents, by agent * 2^36 + line key. -/
  l1 : Tab L1Line := []
  /-- Write-back buffers, by the same key, until PUT_ACK (07 R232). -/
  wbuf : Tab L1Line := []
  mshr : Tab (List Mshr) := []
  /-- Writes and requests for ownership that wait behind a fill, in arrival order (07 R229). -/
  waitq : Tab (List Req) := []
  reqs : Tab Req := []
  txns : Tab Txn := []
  /-- Tickets pending, oldest first: slice, agent, line key (07 R235). -/
  tickets : List (SliceId × AgentId × Nat) := []
  net : List Msg := []
  /-- Dead-tag filter of each slice, oldest first (06 R208). -/
  deadTags : Tab (List Nat) := []
  extents : List Extent := []
  extentSeq : Nat := 0
  guard : Tab Guard := []
  /-- Rate of the last window of a slice for a partition, whether it was not void, and its number: slice * 128 + partition. -/
  guardP : Tab (Nat × Bool × Nat) := []
  /-- Lookups and hits of unpinned lines in the window, by slice * 256 + partition (255 for the slice). -/
  win : Tab (Nat × Nat) := []
  /-- One more than the window in which an extent of a partition was last demoted, and last restored (06 R204, R206). -/
  winDem : Tab Nat := []
  winRes : Tab Nat := []
  /-- Mode of non-caching agents in use, and a change that waits (07 R242). -/
  ncMode : Tab Nat := []
  /-- Hints that wait, oldest first. -/
  hints : List DeadHint := []
  ncPend : Tab Nat := []
  deriving DecidableEq, Repr

/-- A stack (11). State: 0 TRAINING, 1 ONLINE, 2 HIGH, 3 PARKED, 4 FAILED, 5 RESYNC. -/
structure Stack where
  state : Fin 6 := 0
  temp : Int := 25
  hiRun : Nat := 0
  loRun : Nat := 0
  coolRun : Nat := 0
  refresh2x : Bool := false
  selfRefresh : Bool := false
  /-- Critical: the stack is on its way to PARKED, or parked (11 Table 11.12). -/
  crit : Bool := false
  /-- Reached 115 degrees while parked (11 R326). -/
  lost : Bool := false
  /-- Lost-write map: marked 64 KiB stack-local blocks (11 R328). -/
  lostMap : Tab Unit := []
  /-- Non-durable lines that hold the poison code since the last RESYNC unless written since: all of them, or those of
  the blocks listed (11 R330). -/
  poisonAll : Bool := false
  poisonBlocks : Tab Unit := []
  failTick : Nat := 0
  /-- Rebuild in progress, or done: next line of the durable regions to place (11 R329). -/
  rebuild : Option Nat := none
  rebuilt : Bool := false
  /-- RESYNC pointer: the physical address below which lines are current (11 R330). -/
  resync : Nat := 0
  /-- Return from FAILED (poison fill) rather than PARKED. -/
  fromFailed : Bool := false
  /-- Durable lines, by line number: those that rebuild or RESYNC skipped and will retry (11 R331), and those written since RESYNC began and
  before the pointer passed them (11 R330). -/
  skipped : Tab Unit := []
  fresh : Tab Unit := []
  /-- Lines without stand-ins although rebuild has passed them. -/
  unplaced : Tab Unit := []
  refreshes : Nat := 0
  drained : Bool := false
  /-- What the stack was before a warm BRINGUP: 0 in service, 1 PARKED, 2 FAILED (19 R555, 11 R330). -/
  was : Fin 3 := 0
  deriving DecidableEq, Repr

/-- A channel (11): training step reached, attempts at the next one, MEM_SPARE_MAP, lanes found weak, corrected errors of
each lane in the present hour, MEM_TG_CTL, MEM_TG_STAT and MEM_TG_LANES. -/
structure Chan where
  step : Nat := 0
  attempts : Nat := 0
  spareMap : BitVec 64 := 0
  weak : List Nat := []
  weakCa : List Nat := []
  laneCe : Tab Nat := []
  hourTick : Nat := 0
  cmdErrs : List Nat := []
  tgCtl : BitVec 64 := 0x0040000000000000
  tgStat : BitVec 64 := 0
  tgLanes : BitVec 128 := 0
  deriving DecidableEq, Repr

/-- External memory (11). -/
structure MemS where
  /-- Plaintext of every physical byte, under the key it was written with. -/
  em : Mem := []
  /-- Key tag and generation under which a line was last written; unlisted lines carry the cold fill's. -/
  emKey : Tab (Nat × Nat) := []
  /-- Lines known to hold the memory poison code or known not to; a line that is not listed is as its stack says. -/
  emPoison : Tab Bool := []
  /-- Bytes the module wrote to host memory, by function * 2^64 + bus address (05 R163). -/
  hm : Tab Byte := []
  /-- MEM_REGION_r (11 Table 11.3). -/
  regions : Tab (BitVec 32) := []
  frameTag : Tab (BitVec 8) := []
  /-- Generation of the key of each tag (11 R316). -/
  keyGen : Tab Nat := []
  stackTab : Tab Stack := []
  /-- Channels by 16 * stack + channel. -/
  chans : Tab Chan := []
  deriving DecidableEq, Repr

/-- Partition states (15 Table 15.4). -/
inductive PartSt where
  | none | active | disabling
  deriving DecidableEq, Repr

/-- A partition (15). `done` lists the steps of Table 15.2 completed; `migB` says that bitmap B is the active one. -/
structure Part where
  st : PartSt := .none
  gen : BitVec 16 := 0
  tgmask : BitVec 128 := 0
  portmask : BitVec 32 := 0
  waymask : BitVec 16 := 0
  bwres : Nat := 0
  strict : Bool := false
  ptroot : Nat := 0
  viol : Nat := 0
  violOvf : Bool := false
  disTick : Nat := 0
  migB : Bool := false
  migOvf : Bool := false
  interf : Nat := 0
  deriving DecidableEq, Repr

/-- Partitions and isolation (15). -/
structure PartsS where
  parts : Tab Part := []
  /-- Shared slots: state (1 LOADING, 2 SEALED), first frame, frames. -/
  shr : Tab (Fin 3 × Nat × Nat) := []
  /-- Multicast set entries, by partition * 256 + index. -/
  mcast : Tab (List (BitVec 64)) := []
  deriving DecidableEq, Repr

/-- An entry of a half's translation cache (05 R168): the leaf of a partition's page, by its first virtual address and size. -/
structure TlbEnt where
  part : PartId
  page : Nat
  size : Nat
  pte : Nat
  deriving DecidableEq, Repr

/-- A half (01, 20): free descriptor slots, descriptors on each engine, clock division and its requests. -/
structure Half where
  slots : Nat := 256
  /-- Translation cache of up to 4,096 entries, newest first (05 R168). -/
  tlb : List TlbEnt := []
  engLoad : Tab Nat := []
  /-- FT_HALF_STATE: 0 IN_SERVICE, 1 DRAINING, 2 DRAINED, 3 TESTING, 4 FAILED. -/
  state : Fin 5 := 0
  foster : Option SliceId := none
  /-- Frames marked in the dirty-frame bitmap of the slice, and frames taken as lost (18 R515, R516). -/
  dirtyFrames : Tab Unit := []
  lostFrames : Tab Unit := []
  /-- Fostered lines written whole since the failure (18 R516). -/
  rewritten : Tab Unit := []
  div : Nat := 4
  capDiv : Nat := 4
  thermDiv : Nat := 4
  reqDiv : Option Nat := none
  /-- Slowest division that the hold of 20 R563 requires. -/
  holdDiv : Nat := 4
  vdd : Nat := 0
  tj : Int := 25
  droop : Bool := false
  stopped : Bool := false
  /-- Sample of the power-cap loop at the last change of division; samples of the thermal loop since it last changed its
  requirement. -/
  lastChg : Nat := 0
  thermAge : Nat := 100
  deriving DecidableEq, Repr

/-- A trace record (23 Table 23.5). -/
structure TraceRec where
  stamp : Nat
  cycle : Nat
  data : BitVec 32
  src : BitVec 11
  kind : Fin 10
  part : BitVec 7
  seq : BitVec 32
  aux : BitVec 32
  deriving DecidableEq, Repr

/-- The record a unit takes at the Brake (23 R633). -/
structure BrakeRec where
  /-- The unit has taken its stop. -/
  taken : Bool := false
  stamp : Nat := 0
  cycle : Nat := 0
  /-- Inputs that have delivered their marker. -/
  marked : Tab Unit := []
  isOpen : Bool := false
  incomplete : Bool := false
  undrained : Bool := false
  stopped : Bool := false
  deriving DecidableEq, Repr

/-- Debug (23). Brake states: 0 NONE, 1 DRAINING, 2 CUTTING, 3 STOPPED, 4 RELEASING. -/
structure DbgS where
  /-- Halted contexts by handle: uid of the context. -/
  halted : Tab Nat := []
  nextHandle : BitVec 16 := 1
  /-- Freewheel scopes (0-127, 255) in force and whether drained. -/
  fwl : Tab Bool := []
  fwlState : Fin 3 := 0
  brake : Fin 5 := 0
  brakeRecs : Tab BrakeRec := []
  /-- Unit that initiates the Brake. -/
  brakeUnit : Nat := 0
  /-- Trace records buffered by source (0-15 halves, 16-19 I/O dies), next SEQ, drops not yet reported. -/
  buf : Tab (List TraceRec) := []
  tseq : Tab (BitVec 32) := []
  lost : Tab Nat := []
  wptr : Nat := 0
  /-- Bypass bits of DBG_TBYP that software has set (17 R509). -/
  tbyp : BitVec 14 := 0
  deriving DecidableEq, Repr

/-- A die, compute die n as n and I/O die k as 8 + k: tick of its PLL lock, offset of its causal counter (23 R634), comb
emitter in use (17 R489), divisions of its two halves that the seam runs for, and its pause (09 R294, R295). -/
structure DieS where
  pllTick : Nat := 0
  ccOff : Nat := 0
  comb : Bool := false
  seamRatio : Nat × Nat := (4, 4)
  seamPaused : Bool := false
  deriving DecidableEq, Repr

/-- Synchronisation flits (09 Table 9.5). -/
inductive SnOp where
  | sig | wait | try | barA | barAw | barW | grant | fail | retry | release
  deriving DecidableEq, Repr

/-- A synchronisation flit in flight: semaphore or barrier, COUNT, phase or VALUE, the sending agent, the saddle it comes from
or goes to (tile * 4 + saddle) and the uid of the context concerned. -/
structure SnFlit where
  op : SnOp
  num : Nat := 0
  count : Nat := 0
  src : Nat := 0
  key : Nat := 0
  uid : Nat := 0
  /-- A WAIT that is resent (09 R292). -/
  again : Bool := false
  deriving DecidableEq, Repr

/-- Control flits (09 Table 9.4) that a row of the table delivers. -/
inductive CnOp where
  | doorbell | cmd | cmpl | swrack | launch | taskend | fault
  deriving DecidableEq, Repr

/-- A control flit in flight: destination (I/O die, agent or saddle) and two words. -/
structure CnFlit where
  op : CnOp
  dst : Nat
  a : Nat := 0
  b : Nat := 0
  c : Nat := 0
  /-- Die that sends it, where the die that takes it may be another (23 R634). -/
  src : Option Nat := none
  deriving DecidableEq, Repr

/-- A semaphore cell (09 R291). -/
structure Sem where
  value : Nat := 0
  ovf : Bool := false
  deriving DecidableEq, Repr

/-- A wait record (09 R292): uid 0 is the sequence engine's wait for a selection (12 R358), `key` its item. -/
structure WaitRec where
  sem : Nat
  count : Nat
  uid : Nat
  key : Nat
  deriving DecidableEq, Repr

/-- A barrier (09 R293): member count less one, current phase, arrivals of it, waiters as (uid, saddle, phase). -/
structure Bar where
  count1 : Nat := 0
  phase : Nat := 0
  arrived : Nat := 0
  waiters : List (Nat × Nat × Nat) := []
  deriving DecidableEq, Repr

/-- An answer to TSWR or TSRD in flight. -/
structure TsResp where
  agent : AgentId
  tile : TileId
  data : Option (List Byte)
  poison : Bool := false
  deriving DecidableEq, Repr

/-- An audit register (10 Table 10.1). -/
structure AuditReg where
  fault : Bool := false
  kind : Bool := false
  window : Fin 8 := 0
  inst : Nat := 0
  age : Nat := 0
  inflight : Nat := 0
  deriving DecidableEq, Repr

/-- A REDACK (09 R283): the copy it answers, elements of it that were written, AFL, whether a poisoned element was met. -/
structure RedAck where
  copy : Nat
  elems : Nat
  afl : BitVec 4
  poison : Bool := false
  deriving DecidableEq, Repr

/-- A TSWR (with data) or TSRD that arrived while its tile changed its split (03 R86). -/
structure TsReq where
  agent : AgentId
  tile : TileId
  offset : Nat
  len : Nat
  data : Option (List Byte)
  part : PartId
  ecc : Ecc
  deriving DecidableEq, Repr

/-- The networks and the ledgers (09, 10). -/
structure NetS where
  /-- Credits spent and not returned, by credit key; unlisted ones are all held. -/
  spent : Tab Nat := []
  /-- Buffer entries that the receiver of a link has freed, their credits on the way back, by credit key. -/
  freed : Tab Nat := []
  /-- Last sideband report of a link's receiving port: those entries, and the cycle it is stamped with (10 R300). -/
  reports : Tab (Nat × Nat) := []
  /-- Chainring buffers by router, oldest first. -/
  ring : Tab (List RedFlit) := []
  /-- Branch-hold buffers by the REQ credit key of their port, oldest first (09 R287). -/
  hold : Tab (List Branch) := []
  /-- Branches of fills that their homes repeat by unicast until they are delivered (06 R216), by the port that lacks credit. -/
  again : Tab (List Msg) := []
  /-- RED flits in flight: the router they have reached, and whether they have left it for their destination. -/
  red : List (Nat × Bool × RedFlit) := []
  /-- BRANCH_FAIL messages in flight, and unicast retries made, by copy * 64 + target. -/
  failed : List (Nat × Nat) := []
  retried : Tab Nat := []
  /-- REDACK messages in flight (09 R283). -/
  redacks : List RedAck := []
  tsResp : List TsResp := []
  /-- Scratchpad accesses that wait for a split change, in order of arrival. -/
  tsWait : List TsReq := []
  /-- Last scratchpad data an agent received, and whether it was poisoned. -/
  tsIn : Tab (List Byte × Bool) := []
  sn : List SnFlit := []
  cn : List CnFlit := []
  sems : Tab Sem := []
  /-- Wait records of all homes in the order they were taken. -/
  waits : List WaitRec := []
  /-- Waits answered RETRY that their core is to resend. -/
  resend : List SnFlit := []
  bars : Tab Bar := []
  /-- Items of the sequence engine whose wait was granted (12 R358). -/
  selGrants : List Nat := []
  audits : Tab AuditReg := []
  /-- First-fault ticks of links (10 Table 10.10). -/
  linkFault : Tab Nat := []
  deriving DecidableEq, Repr

/-- A saved context (13 R372): its state, its declared-live scratchpad as window offsets, its save slot, the quarter that owns
its command; `parked` while its wait is not over; `ready` is its place among runnable contexts. -/
structure Saved where
  ctx : Ctx
  ts : Mem := []
  poison : Tab Unit := []
  slot : Nat
  iod : IodId
  parked : Bool := false
  ready : Option Nat := none
  deriving DecidableEq, Repr

/-- Work that waits for a saddle (13 R375): a new task, or a saved context by handle. -/
inductive Work where
  | task (t : Task)
  | saved (h : Nat)
  deriving DecidableEq, Repr

/-- Resident tensor directory entry (13 Table 13.4). -/
structure DirEnt where
  part : PartId
  tag : BitVec 32
  tile : TileId
  age : Nat := 0
  deriving DecidableEq, Repr

/-- The scheduler (13). -/
structure SchedS where
  /-- New tasks that wait, in the order they became ready. -/
  ready : List Task := []
  readySeq : Nat := 0
  saved : Tab Saved := []
  /-- Evictions under way, by saddle, and contexts being restored into a saddle, by handle. -/
  evicting : Tab Work := []
  restoring : Tab Nat := []
  /-- Resident tensor directories by die. -/
  dir : Tab (List DirEnt) := []
  interf : Tab Nat := []
  deriving DecidableEq, Repr

/-- A journal entry (14 R415): its completion entries in the order they are written, header last, PHASE clear; ring position of
the header's entry once written; whether the HM writes of its command are certain (R416, R417). -/
structure JEntry where
  jseq : Nat
  entries : List (BitVec 256)
  pos : Option Nat := none
  certain : Bool := true
  /-- The read flush now outstanding was issued after it was written. -/
  flushing : Bool := false
  deriving DecidableEq, Repr

/-- A queue pair (14 R391); positions count without wrapping, the ring slot is the position modulo the ring size. -/
structure Qp where
  iod : IodId
  fn : PartId
  sqBase : Nat
  cqBase : Nat
  sqLog2 : Nat
  cqLog2 : Nat
  vec : Nat := 0
  ncoal : Nat := 0
  tcoal : Nat := 0
  sqTail : Nat := 0
  sqHead : Nat := 0
  cqHead : Nat := 0
  cqTail : Nat := 0
  jseq : Nat := 0
  journal : List JEntry := []
  /-- Entries written since the last MSI-X message (R411). -/
  unann : Nat := 0
  /-- Rings usable: since QP_CREATE or QP_REBIND with no detach after it. -/
  bound : Bool := true
  deleting : Bool := false
  /-- Halted by a ledger fault (10 Table 10.10). -/
  halted : Bool := false
  /-- Journal frame index within the partition's journal area. -/
  jslot : Nat := 0
  /-- Command that its counter set counts (23 R624). -/
  cset : Option Nat := none
  deriving DecidableEq, Repr

/-- A command that the front end fetched (14 Table 14.7) and that has not been completed. -/
structure HCmd where
  fn : PartId
  /-- Queue pair; none for the admin queue. -/
  qp : Option Nat
  iod : IodId
  gen : BitVec 16
  /-- Order of fetching. -/
  ord : Nat
  slots : List LineData
  sqhead : Nat := 0
  /-- Its record in the front end's area (18 R522); it waits for one: 65,536 commands are in flight. -/
  recSlot : Option Nat := none
  unrecorded : Bool := false
  /-- Handed to its unit (CN_CMD); started; all its work ended; expired time limit. -/
  handed : Bool := false
  started : Bool := false
  ended : Bool := false
  expired : Bool := false
  status : Nat := 0
  detail : Option (BitVec 128) := none
  spec : Nat := 0
  aflags : BitVec 4 := 0
  seqrc : Nat := 0
  exit : Nat := 0
  /-- Step records, in order (12 Table 12.11). -/
  recs : List (BitVec 128) := []
  tasks : Nat := 0
  tasksEnded : Nat := 0
  tasksNonzero : Nat := 0
  /-- Copy that performs a COPY. -/
  copy : Option Nat := none
  /-- HM writes posted that no read flush has followed; the flush now outstanding was issued after them. -/
  hmUncertain : Bool := false
  flushing : Bool := false
  emBytes : Nat := 0
  hmBytes : Nat := 0
  taskCyc : Nat := 0
  csumis : Nat := 0
  epoch : BitVec 32 := 0
  retained : Bool := false
  /-- Completes POISON because a rollback withdrew it (18 R532). -/
  withdrawn : Bool := false
  deriving DecidableEq, Repr

/-- A retained result (14 R420): the host-memory bytes of a copy, by address. -/
structure Retained where
  cmd : Nat
  qp : Nat
  /-- JSEQ of the completion, once there is one. -/
  jseq : Option Nat := none
  fn : PartId
  /-- Bytes of the retain area it takes. -/
  size : Nat
  /-- Parts of the retain area that it takes, as offset and length. -/
  place : List (Nat × Nat) := []
  bytes : List (Nat × Byte) := []
  deriving DecidableEq, Repr

/-- Per-function state of the host port (14 Tables 14.1-14.6). -/
structure Fn where
  aqEn : Bool := false
  sqBase : BitVec 64 := 0
  cqBase : BitVec 64 := 0
  vec : Nat := 0
  cqLog2 : Nat := 6
  sqLog2 : Nat := 6
  sqTail : Nat := 0
  sqHead : Nat := 0
  cqHead : Nat := 0
  cqTail : Nat := 0
  /-- MSI-X table words (16 bytes a vector) and pending bits. -/
  msix : Tab (BitVec 32) := []
  pba : Tab Unit := []
  /-- Disabled under 15 R429. -/
  disabled : Bool := false
  /-- Mailbox response awaiting the host (21 R585). -/
  mbxBusy : Bool := false
  mbxDone : Bool := false
  deriving DecidableEq, Repr

/-- The host port (14). Port state: 0 ATTACHED_A, 1 ATTACHED_B, 2 DETACHED. -/
structure HostS where
  portState : Fin 3 := 0
  /-- Active port: false A, true B. -/
  portB : Bool := false
  cause : Fin 5 := 0
  fns : Tab Fn := []
  qps : Tab Qp := []
  cmds : Tab HCmd := []
  cmdSeq : Nat := 1
  retained : List Retained := []
  /-- MSI-X messages sent: function and vector, newest first. -/
  msixSent : List (Nat × Nat) := []
  /-- A zero-length read flush is outstanding. -/
  flush : Bool := false
  deriving DecidableEq, Repr

/-- A packet sent and not delivered (16 R461-R464): what was sent, the copy, command or collective target it serves, resends made,
whether it still waits for a token. -/
structure OutPkt where
  iod : IodId
  /-- Partition it is sent for. -/
  part : PartId := 0
  type : Fin 16
  p : Packet
  copy : Option Nat := none
  /-- uid of the context and command it serves. -/
  owner : Option Nat := none
  cmd : Nat := 0
  target : Nat := 0
  resends : Nat := 0
  waiting : Bool := false
  deriving DecidableEq, Repr

/-- End-to-end transport to a destination from an I/O die (16 R460-R464). -/
structure E2eTx where
  openSent : Bool := false
  isOpen : Bool := false
  tokens : Nat := 0
  grant : Nat := 0
  next : BitVec 32 := 0
  unreach : Bool := false
  deriving DecidableEq, Repr

/-- End-to-end transport from an I/O die of a source module (16 R462, R463): lowest ESEQ not performed, those performed above
it, SIGNAL packets held for earlier ones (R468). -/
structure E2eRx where
  isOpen : Bool := false
  low : BitVec 32 := 0
  done : List (BitVec 32) := []
  held : List Packet := []
  deriving DecidableEq, Repr

/-- Causes of FAB_LINK_FAIL (16 R456), in the order of the operand of FAB_LINK_FAIL_RETRY. -/
inductive LinkCause where
  | none | nolaser | nolight | train | auth | param
  deriving DecidableEq, Repr

/-- A fabric port (16): state 0 NOT_FITTED, 1 DOWN, 2 TRAINING, 3 AUTH, 4 UP. -/
structure Port where
  state : Fin 5 := 1
  cause : LinkCause := .none
  /-- Mode in force, 0 OFF, 1 VFL, 2 ETH; the half-rate of R451. -/
  mode : Nat := 1
  width : Nat := 0
  ethHalf : Bool := false
  laneMap : Nat := 0
  /-- Lanes removed since the last training. -/
  removed : List (Fin 8) := []
  partner : BitVec 16 := 0
  /-- Allow-list entry of the partner. -/
  entry : Nat := 0
  credit : Nat := 0
  seq : Nat := 0
  keyGen : Nat := 0
  /-- Drops by the partner that count for R480, and the tick of the first of them. -/
  drops : Nat := 0
  dropTick : Nat := 0
  quarantined : Bool := false
  deriving DecidableEq, Repr

/-- An allow-list entry (16 Table 16.3). -/
structure Allow where
  idHash : Nat
  module : BitVec 16
  fwdFirst : Nat
  fwdCount : Nat
  valid : Bool
  quar : Bool := false
  deriving DecidableEq, Repr

/-- A route: primary and alternate port (16 Table 16.13). -/
structure Route where
  primary : PortId
  alt : Option PortId
  deriving DecidableEq, Repr

/-- A collective in progress at this member (16 R471-R476). -/
structure Coll where
  cmd : Nat
  kind : Fin 4
  op : Nat
  fmt : Nat
  count : Nat
  root : Nat
  va : Nat
  part : PartId
  /-- Contributions of each segment still to come up the tree (child index, 8 for the local one), and the values so far. -/
  parts : Tab (List Nat × List Byte) := []
  afl : BitVec 4 := 0
  /-- Segments of the result received from above and written. -/
  down : Tab Unit := []
  deriving DecidableEq, Repr

/-- A collective group (16 Table 16.7) with its COLLSEQ and SLOW hints: module and tick. -/
structure Group where
  entry : BitVec 256
  collSeq : BitVec 16 := 0
  cur : Option Coll := none
  slow : Tab Nat := []
  deriving DecidableEq, Repr

/-- An Ethernet queue pair (16 Table 16.14). -/
structure EthQp where
  bind : BitVec 512
  spsn : BitVec 24
  rpsn : BitVec 24
  /-- Immediate records written. -/
  imms : Nat := 0
  retries : Nat := 0
  error : Bool := false
  /-- Contexts (uid) and commands whose RDMA WRITEs the partner has not acknowledged. -/
  outst : List (Option Nat × Nat) := []
  deriving DecidableEq, Repr

/-- A remote-key entry (16 Table 16.15). -/
structure RKey where
  key : BitVec 64
  rbase : BitVec 64
  deriving DecidableEq, Repr

/-- The optical fabric (16). -/
structure FabS where
  ports : Tab Port := []
  allow : Tab Allow := []
  routes : Tab Route := []
  windows : Tab (BitVec 256) := []
  groups : Tab Group := []
  /-- By port * 2^24 + local QPN. -/
  eth : Tab EthQp := []
  /-- By partition * 2^24 + module * 256 + window. -/
  rkeys : Tab RKey := []
  /-- By I/O die * 65536 + destination. -/
  tx : Tab E2eTx := []
  /-- By source module * 4 + source I/O die. -/
  rx : Tab E2eRx := []
  out : List OutPkt := []
  /-- Packets sent that await no delivery (answers, transit, hints), newest first. -/
  sent : List (Nat × Packet) := []
  /-- RDMA WRITEs sent on Ethernet queue pairs: port, QPN, R_Key, address, payload, newest first. -/
  roceSent : List (Nat × Nat × Nat × Nat × List Byte) := []
  /-- RDMA READ responses sent: port, QPN, data, newest first. -/
  roceRsp : List (Nat × Nat × List Byte) := []
  /-- SLOW hints received: source module and tick. -/
  slow : Tab Nat := []
  deriving DecidableEq, Repr

/-- A model slot (12 Table 12.3). -/
structure Slot where
  part : PartId
  desc : BitVec 512
  deriving DecidableEq, Repr

/-- An active sequence table entry (12 Table 12.5); an entry that is not listed is FREE with GEN 1. -/
structure SeqEnt where
  state : Fin 8 := 0
  gen : Nat := 1
  slot : Fin 256 := 0
  part : PartId := 0
  prio : Fin 8 := 0
  reason : Fin 16 := 0
  pos : Nat := 0
  pend : Nat := 0
  pbase : Nat := 0
  last : BitVec 32 := 0
  generated : Nat := 0
  maxnew : Nat := 0
  dline : Nat := 0
  credit : Nat := 0
  root : Nat := 0
  nnpage : Nat := 0
  nnidx : Nat := 0
  pages : Nat := 0
  tokva : Nat := 0
  usertag : BitVec 64 := 0
  deriving DecidableEq, Repr

/-- A pool extent (12 Table 12.7) and its pages in use. -/
structure PoolExt where
  base : Nat
  count : Nat
  part : PartId
  quarter : IodId
  table : Bool
  used : Tab Unit := []
  deriving DecidableEq, Repr

/-- An item of a running step: its sequence (table index) and that entry's GEN, KIND, first position and positions, the VA of its
result word, its selection order, semaphores and area; `poisoned` says that POISON ended its task. -/
structure StepItem where
  ent : Nat
  gen : Nat
  kind : Fin 4
  pos : Nat
  ntok : Nat
  result : Nat
  sel : Option Nat := none
  semq : Nat := 0
  sems : Nat := 0
  selbuf : Nat := 0
  poisoned : Bool := false
  /-- Selection under way: KV layer and queries read. -/
  selecting : Option (Nat × List Byte) := none
  deriving DecidableEq, Repr

/-- A running step (12 R351-R354). -/
structure StepRun where
  slot : Fin 256
  part : PartId
  items : List StepItem
  /-- Order of the step's records: an item by index (false), or a sequence marked POOL by table index (true). -/
  order : List (Bool × Nat) := []
  /-- Sequences to park for poison in a node page; quarters that took part. -/
  npois : List Nat := []
  quarters : List Nat := []
  resva : Nat
  deriving DecidableEq, Repr

/-- The sequence engine (12). -/
structure SeqS where
  inService : Bool := false
  initing : Bool := false
  base : Nat := 0
  ents : Tab SeqEnt := []
  slots : Tab Slot := []
  /-- Ready lists by slot * 4 + quarter. -/
  ready : Tab (List Nat) := []
  /-- Entry free list of a quarter: the next entry never used, then the entries returned, oldest first (log 35). -/
  freed : Tab (List Nat) := []
  fresh : Tab Nat := []
  extents : List PoolExt := []
  steps : Tab StepRun := []
  /-- Commands held until step end (R343), in order. -/
  held : List Nat := []
  /-- Commands that wait for a retirement, by table index. -/
  retiring : List (Nat × Nat) := []
  deriving DecidableEq, Repr

/-- Parameters of a die link in force or proposed (17 R493): width in wavelengths or lanes, rate step, CRC-32C, replay depth code,
protocols. -/
structure LinkPar where
  width : Nat
  rate : Nat
  crc32c : Bool
  replay : Nat
  proto : Nat
  deriving DecidableEq, Repr

/-- A message slot of a UDL flit (17 R499): the message, the slot's place in it; the first slot carries the network code and the length in
slots. The re-coded bits are not laid out (log 140). -/
structure UdlSlot where
  msg : UdlMsg
  idx : Nat
  head : Option (Nat × Nat)
  deriving DecidableEq, Repr

/-- A die link, by gateway 8n + q, by 64 + n for the electrical path of die n, by 72 + s for site s (17 Tables 17.3 and 17.6):
state 0 TRAIN, 1 CAPX, 2 PROPOSE, 3 CONFIRM, 4 ACTIVE, 5 FAILED, 6 FIXED. -/
structure Link where
  state : Fin 8 := 0
  detour : Bool := false
  confFail : Nat := 0
  par : Option LinkPar := none
  proposal : Option LinkPar := none
  spares : Nat := 0
  /-- Wavelengths or lanes usable at this receiver, and those that stopped carrying data since the last training. -/
  usable : Nat := 0
  lost : List Nat := []
  partner : Option CapBlock := none
  /-- Partner's last EPOCH. -/
  epoch : Option (BitVec 8) := none
  /-- The block that this end advertised last (17 R491). -/
  sent : Option CapBlock := none
  txSeq : BitVec 12 := 0
  rxSeq : BitVec 12 := 0
  /-- Sequence numbers of flits sent and not acknowledged, oldest first; those sent over the detour. -/
  replay : List (BitVec 12) := []
  overDetour : List (BitVec 12) := []
  /-- Slots that the end that sends to this gateway has packed and not put into a flit; the slots of flits sent and not received (R499). -/
  feed : List UdlSlot := []
  flits : Tab (List UdlSlot) := []
  /-- Slots of a message that goes on in the next flit; the messages that the last flit taken completed, restored. -/
  partSlots : List UdlSlot := []
  restored : List UdlMsg := []
  /-- Successive CRC failures of one flit; replays in the present millisecond, and its tick. -/
  crcRun : Nat := 0
  replays : Nat := 0
  replayTick : Nat := 0
  /-- Credits are held in the REINIT window (R497). -/
  holdCredits : Bool := false
  /-- UCIe modules that trained (R506). -/
  modules : Fin 3 := 0
  deriving DecidableEq, Repr

/-- A waypoint image (18 Tables 18.4 and 18.5), kept as its contents. -/
structure WpImage where
  seq : Nat
  gen : BitVec 16
  len : Nat
  cmds : List (Nat × HCmd)
  ctxs : List Saved
  ready : List Task
  sems : Tab Sem
  bars : Tab Bar
  waits : List WaitRec
  /-- Steps of the STEP commands, and the completed copies whose tags its contexts hold. -/
  steps : Tab StepRun := []
  copies : Tab Copy := []
  /-- Tile groups whose cells it holds, by the partition's names. -/
  groups : List Nat := []
  deriving DecidableEq, Repr

/-- Waypoints of a partition (18 R525-R532): the two slots, the waypoint being taken, the last number used. -/
structure Wp where
  slotA : Option WpImage := none
  slotB : Option WpImage := none
  taking : Bool := false
  /-- A waypoint was called for while it had to be deferred (R526). -/
  wanted : Bool := false
  since : Nat := 0
  seq : Nat := 0
  deriving DecidableEq, Repr

/-- Fault tolerance and live repair (18). FT_IOD_STATE: 0 IN_SERVICE, 1 FAILED, 2 UPDATING. -/
structure FtS where
  iodState : Tab Nat := []
  /-- Heartbeats missed in succession, by I/O die. -/
  missed : Tab Nat := []
  /-- Takeovers begun and not done. -/
  takeover : Tab Unit := []
  testResult : BitVec 128 := 0
  /-- Die under test, tiles of it still to report; tile under FT_TILE_TEST. -/
  dieTest : Option Nat := none
  testing : List Nat := []
  /-- Substitutions (R519): partition, lost group, spare group. -/
  subst : List (PartId × Fin 128 × Fin 128) := []
  wps : Tab Wp := []
  /-- Stack retrain: stack, channels still to do. -/
  retrain : Option (SliceId × List Nat) := none
  /-- Unscrubbed tile groups (24 Table 24.2 step 7, 15 R426). -/
  unscrubbed : Tab Unit := []
  deriving DecidableEq, Repr

/-- Safety (19). -/
structure SafS where
  /-- SAF_CAUSE bits 8:0 and FIRST; LATCH. -/
  cause : BitVec 9 := 0
  first : Nat := 0
  latch : Bool := false
  /-- Ticks of the entries of the last hour. -/
  entries : List Nat := []
  kickCount : Nat := 0
  /-- MSTATE at entry, and whether the bring-up then under way was warm. -/
  entered : Nat := 0
  enteredWarm : Bool := false
  barrier : BitVec 32 := 0
  inputOpen : Bool := false
  undervolt : Bool := false
  segOpen : Tab Unit := []
  /-- Shutters by port: 1 probe, 2 full; unlisted ones are closed. Ports commanded shut with the tap still to settle. -/
  shutter : Tab Nat := []
  dark : Tab Unit := []
  /-- Latched bias cuts by quad, with the port that caused each. -/
  biasCut : Tab Nat := []
  /-- Bays without a laser-source module, or with one that failed. -/
  noModule : Tab Unit := []
  deriving DecidableEq, Repr

/-- Power, clocks and thermal control (20). -/
structure PwrS where
  inputW : Nat := 0
  flowMilli : Nat := 12000
  inletMilli : Int := 25000
  inputMv : Nat := 72000
  derate : Bool := false
  /-- Samples of 10 us, newest run first: how many in succession were above the effective cap. -/
  runs : List (Nat × Bool) := []
  samples : Nat := 0
  /-- Samples in succession at or below the cap less PWR_HYST. -/
  lowRun : Nat := 0
  /-- Samples at which the loop last slowed the halves and last restored one. -/
  lastSlow : Option Nat := none
  lastFast : Option Nat := none
  convOk : BitVec 5 := 0x1F
  refOsc : Bool := false
  deriving DecidableEq, Repr

/-- A firmware slot (22): flash bytes, what they hold where that is an image. -/
structure FwSlot where
  bytes : Mem := []
  image : Option Image := none
  deriving DecidableEq, Repr

/-- Private scalars of the DeviceID key and of the Alias key, none where none lies in range (22 R597, R598). -/
structure DieKeys where
  deviceId : Option Nat
  aliasScalar : Option Nat
  deriving DecidableEq, Repr

/-- Security and firmware (22). Slots by type * 2 + (0 A, 1 B). -/
structure SecS where
  /-- Debug-unlock flag on VSTBY, and whether debug is unlocked as measured by the last SECURE_BOOT (R613). -/
  unlockFlag : Bool := false
  unlocked : Bool := false
  nonce : Option Nat := none
  slots : Tab FwSlot := []
  pending : Nat := 0
  lkg : Nat := 0
  running : Nat := 0
  bootResult : Fin 5 := 0
  mismatch : Bool := false
  factoryBad : Bool := false
  /-- Slots that a staged write has begun and no FW_COMMIT has ended (22 R607): their header is not in flash yet. -/
  staging : Tab Unit := []
  /-- Live update: I/O die and step of Table 22.6. -/
  live : Option (IodId × Nat) := none
  /-- I/O dies that run the IODFW of the slot that the running index does not name (22 R610), and live updates since SECURE_BOOT. -/
  updated : List (IodId) := []
  liveCount : Nat := 0
  /-- Measurement behind the Alias key: DIGEST and SVN of the IODFW booted, debug byte (R598); free value that its certificate is. -/
  measured : Option (Nat × Nat × Bool) := none
  aliasCert : Nat := 0
  /-- What the boot ROM of an I/O die derived since its reset, by die: a die with an entry has read its UDS and locked the fuse read (R596). -/
  dieKeys : Tab DieKeys := []
  /-- DOE response waiting on PF0. -/
  doe : List Byte := []
  doeAt : Spdm := {}
  deriving DecidableEq, Repr

/-- The module without its factory record and its command queue. -/
structure Mod where
  /-- Index of the next free value (log 1). -/
  free : Nat := 0
  /-- Cycles of the 8.4 GHz root since VSTBY came up (20 Table 20.4; log 2). -/
  ticks : Nat := 0
  mod : ModS := {}
  ctr : Tab Ctr := []
  kod : Kod := {}
  tiles : Tab Tile := []
  /-- Contexts by tile * 4 + saddle. -/
  ctxs : Tab Ctx := []
  uidSeq : Nat := 1
  copies : Tab Copy := []
  copySeq : Nat := 1
  halves : Tab Half := []
  cache : CacheS := {}
  mem : MemS := {}
  parts : PartsS := {}
  dbg : DbgS := {}
  net : NetS := {}
  sched : SchedS := {}
  host : HostS := {}
  fab : FabS := {}
  seq : SeqS := {}
  sec : SecS := {}
  links : Tab Link := []
  ft : FtS := {}
  saf : SafS := {}
  pwr : PwrS := {}
  dies : Tab DieS := []
  deriving DecidableEq, Repr

/-- The state: waiting commands, first in first out (the model's own), the factory record and fuses, the module. -/
structure State where
  pending : List Instr := []
  fuse : Fuse := {}
  m : Mod := {}
  deriving DecidableEq, Repr

/-- The module once VSTBY has come up: STANDBY (14 Table 14.3, 24 Table 24.4), every field at its declared value (logs 3, 5, 7-12). -/
def State.reset : State := {}

end Sys2Proof.Machine
end

