-- ==== Sys2Proof/Machine/Counters.lean ====
section
/-! DEFINITION. Counter numbers, classes and instances (23 Tables 23.1 and 23.2) and event codes (23 Table 23.8). -/

namespace Sys2Proof.Machine

/-- A counter: number, name, class STICK (else WRAP), instances. -/
structure CtrDef where
  num : Nat
  name : String
  stick : Bool
  insts : Nat
  deriving DecidableEq, Repr

/-- Counters, part 0, in ascending number. -/
def ctrDefs0 : List CtrDef := [
  ⟨0x0C1100, "TIL_CSU_CHECKS", false, 1024⟩,
  ⟨0x0C1101, "TIL_CSU_MISMATCH", true, 1024⟩,
  ⟨0x0C1102, "TIL_CSU_FALSEALARM", true, 1024⟩,
  ⟨0x0C1103, "TIL_CSU_SKIP", true, 1024⟩,
  ⟨0x0C1104, "TIL_ARRAY_CE", true, 1024⟩,
  ⟨0x0C1200, "CCH_LKP_0", false, 16⟩,
  ⟨0x0C1201, "CCH_LKP_1", false, 16⟩,
  ⟨0x0C1202, "CCH_LKP_2", false, 16⟩,
  ⟨0x0C1203, "CCH_LKP_3", false, 16⟩,
  ⟨0x0C1204, "CCH_LKP_4", false, 16⟩,
  ⟨0x0C1205, "CCH_LKP_5", false, 16⟩,
  ⟨0x0C1206, "CCH_LKP_6", false, 16⟩,
  ⟨0x0C1207, "CCH_LKP_7", false, 16⟩,
  ⟨0x0C1208, "CCH_HIT_0", false, 16⟩,
  ⟨0x0C1209, "CCH_HIT_1", false, 16⟩,
  ⟨0x0C120A, "CCH_HIT_2", false, 16⟩,
  ⟨0x0C120B, "CCH_HIT_3", false, 16⟩,
  ⟨0x0C120C, "CCH_HIT_4", false, 16⟩,
  ⟨0x0C120D, "CCH_HIT_5", false, 16⟩,
  ⟨0x0C120E, "CCH_HIT_6", false, 16⟩,
  ⟨0x0C120F, "CCH_HIT_7", false, 16⟩,
  ⟨0x0C1210, "CCH_DEADREAD", false, 16⟩,
  ⟨0x0C1211, "CCH_DRAFT_FILLS", false, 16⟩,
  ⟨0x0C1212, "CCH_DRAFT_MERGED", false, 16⟩,
  ⟨0x0C1213, "CCH_THRASH_EVT", true, 16⟩,
  ⟨0x0C1214, "CCH_PIN_DEMOTE", true, 16⟩,
  ⟨0x0C1215, "CCH_CE", true, 16⟩,
  ⟨0x0C1216, "CCH_UE", true, 16⟩,
  ⟨0x0C1217, "CCH_POISON_DROP", true, 16⟩,
  ⟨0x0C1300, "CCH_NACK", false, 16⟩]

/-- Counters, part 1, in ascending number. -/
def ctrDefs1 : List CtrDef := [
  ⟨0x0C1301, "CCH_TICKET", false, 16⟩,
  ⟨0x0C1302, "CCH_INV_SENT", false, 16⟩,
  ⟨0x0C1303, "CCH_PUSH_NAK", true, 16⟩,
  ⟨0x0C1304, "CCH_UNRESP", true, 16⟩,
  ⟨0x0C1400, "TIL_RTR_CR_COMB", false, 1024⟩,
  ⟨0x0C1401, "TIL_RTR_CR_PASS", false, 1024⟩,
  ⟨0x0C1402, "TIL_RTR_MC_HOLD", false, 1024⟩,
  ⟨0x0C1403, "TIL_RTR_MC_FAIL", true, 1024⟩,
  ⟨0x0C1404, "TIL_SEM_OVF", true, 1024⟩,
  ⟨0x0C1405, "CCH_SEAM_RATIO_CHG", true, 8⟩,
  ⟨0x0C1500, "MEM_RD_BYTES", false, 16⟩,
  ⟨0x0C1501, "MEM_WR_BYTES", false, 16⟩,
  ⟨0x0C1502, "MEM_ACT", false, 256⟩,
  ⟨0x0C1503, "MEM_THROTTLE_CYC", false, 16⟩,
  ⟨0x0C1504, "MEM_REBUILD_LINES", false, 16⟩,
  ⟨0x0C1505, "MEM_CE", true, 256⟩,
  ⟨0x0C1506, "MEM_UE", true, 256⟩,
  ⟨0x0C1507, "MEM_POISON_RD", true, 256⟩,
  ⟨0x0C1508, "MEM_REPAIR", true, 16⟩,
  ⟨0x0C1509, "MEM_REBUILD_SKIP", true, 16⟩,
  ⟨0x0C150A, "MEM_ODECC_CE", true, 256⟩,
  ⟨0x0C1600, "SEQ_STEPS", false, 4⟩,
  ⟨0x0C1601, "SEQ_ITEMS", false, 4⟩,
  ⟨0x0C1602, "SEQ_ADMITS", false, 4⟩,
  ⟨0x0C1603, "SEQ_RETIRES", false, 4⟩,
  ⟨0x0C1604, "SEQ_SUMM", false, 4⟩,
  ⟨0x0C1605, "SEQ_SEL", false, 4⟩,
  ⟨0x0C1606, "SEQ_POOL_SKIP", true, 4⟩,
  ⟨0x0C1607, "SEQ_ITEM_NOADV", true, 4⟩,
  ⟨0x0C1608, "SEQ_NOSEQ", true, 4⟩]

/-- Counters, part 2, in ascending number. -/
def ctrDefs2 : List CtrDef := [
  ⟨0x0C1700, "SCH_LAUNCH", false, 4⟩,
  ⟨0x0C1701, "SCH_AFF_HIT", false, 4⟩,
  ⟨0x0C1702, "SCH_EVICT", false, 4⟩,
  ⟨0x0C1703, "SCH_RESTORE", false, 4⟩,
  ⟨0x0C1704, "SCH_SPLITCHG", false, 4⟩,
  ⟨0x0C1705, "SCH_SAVE_FULL", true, 4⟩,
  ⟨0x0C1706, "SCH_PARK_FULL", true, 4⟩,
  ⟨0x0C1800, "HIF_FETCH", false, 4⟩,
  ⟨0x0C1801, "HIF_CMPL", false, 4⟩,
  ⟨0x0C1802, "HIF_JRNL_REPLAY", false, 4⟩,
  ⟨0x0C1803, "HIF_DB_BAD", true, 4⟩,
  ⟨0x0C1804, "HIF_GEN_STALE", true, 4⟩,
  ⟨0x0C1805, "HIF_DETACH", true, 4⟩,
  ⟨0x0C1900, "FAB_TX_BYTES", false, 32⟩,
  ⟨0x0C1901, "FAB_RX_BYTES", false, 32⟩,
  ⟨0x0C1902, "FAB_REPLAY", false, 32⟩,
  ⟨0x0C1903, "FAB_RED_COMB", false, 4⟩,
  ⟨0x0C1904, "FAB_RESEND", false, 4⟩,
  ⟨0x0C1905, "FAB_WIN_VIOL", true, 256⟩,
  ⟨0x0C1906, "FAB_SRC_DROP", true, 32⟩,
  ⟨0x0C1907, "FAB_CREDIT_VIOL", true, 32⟩,
  ⟨0x0C1908, "FAB_MALFORMED", true, 32⟩,
  ⟨0x0C1909, "FAB_TRANSIT_DROP", true, 4⟩,
  ⟨0x0C190A, "FAB_COLL_STALE", true, 4⟩,
  ⟨0x0C190B, "FAB_AUTH_FAIL", true, 4⟩,
  ⟨0x0C190C, "FAB_UNREACH", true, 4⟩,
  ⟨0x0C1A00, "UDL_FLITS", false, 64⟩,
  ⟨0x0C1A01, "UDL_REPLAY", false, 64⟩,
  ⟨0x0C1A02, "UDL_CRC_ERR", true, 64⟩,
  ⟨0x0C1A03, "UDL_DISCARD", true, 64⟩]

/-- Counters, part 3, in ascending number. -/
def ctrDefs3 : List CtrDef := [
  ⟨0x0C1A04, "UDL_NEGOT_FAIL", true, 64⟩,
  ⟨0x0C1B00, "WP_TAKEN", false, 128⟩,
  ⟨0x0C1B01, "FT_FOSTER_ACC", false, 16⟩,
  ⟨0x0C1B02, "WP_SKIP", true, 128⟩,
  ⟨0x0C1B03, "FT_ROLLBACK", true, 128⟩,
  ⟨0x0C1B04, "FT_LOST_LINES", true, 16⟩,
  ⟨0x0C1C00, "SAF_LASER_B1", true, 32⟩,
  ⟨0x0C1C01, "SAF_LASER_B2", true, 8⟩,
  ⟨0x0C1C02, "SAF_EFUSE_TRIP", true, 23⟩,
  ⟨0x0C1C03, "SAF_TJ_TRIP", true, 14⟩,
  ⟨0x0C1C04, "SAF_LEAK_TRIP", true, 16⟩,
  ⟨0x0C1D00, "PWR_DIV_CHG", false, 16⟩,
  ⟨0x0C1D01, "PWR_DROOP", false, 16⟩,
  ⟨0x0C1D02, "PWR_CAP_STEP", true, 1⟩,
  ⟨0x0C1D03, "PWR_FASTCLAMP", true, 1⟩,
  ⟨0x0C1D04, "PWR_REF_SWITCH", true, 1⟩,
  ⟨0x0C1E00, "ODO_LEDGER_FAULT", true, 1⟩,
  ⟨0x0C1E01, "DBG_TRACE_DROP", true, 20⟩,
  ⟨0x0C1E02, "DBG_FREEWHEEL_CNT", true, 1⟩,
  ⟨0x0C1E03, "DBG_BRAKE_CNT", true, 1⟩,
  ⟨0x0C2000, "CMD_EMBYTES", false, 65536⟩,
  ⟨0x0C2001, "CMD_TASKCYC", false, 65536⟩,
  ⟨0x0C2002, "CMD_HMBYTES", false, 65536⟩,
  ⟨0x0C2003, "CMD_CSUMIS", true, 65536⟩]

/-- Every counter of the module. -/
def ctrDefs : List CtrDef := ctrDefs0 ++ ctrDefs1 ++ ctrDefs2 ++ ctrDefs3

/-- The definition of a counter number. -/
def ctrDef (n : Nat) : Option CtrDef := ctrDefs.find? fun d => d.num == n

/-- STICK counters are 32 bits wide and stick; WRAP counters are 64 bits wide (23 Table 23.1). -/
def ctrSticks (n : Nat) : Bool := match ctrDef n with
  | some d => d.stick
  | none => false

/-! Counter numbers by name. -/
def kTilCsuChecks : Nat := 0x0C1100
def kTilCsuMismatch : Nat := 0x0C1101
def kTilCsuFalsealarm : Nat := 0x0C1102
def kTilCsuSkip : Nat := 0x0C1103
def kTilArrayCe : Nat := 0x0C1104
def kCchLkp0 : Nat := 0x0C1200
def kCchLkp1 : Nat := 0x0C1201
def kCchLkp2 : Nat := 0x0C1202
def kCchLkp3 : Nat := 0x0C1203
def kCchLkp4 : Nat := 0x0C1204
def kCchLkp5 : Nat := 0x0C1205
def kCchLkp6 : Nat := 0x0C1206
def kCchLkp7 : Nat := 0x0C1207
def kCchHit0 : Nat := 0x0C1208
def kCchHit1 : Nat := 0x0C1209
def kCchHit2 : Nat := 0x0C120A
def kCchHit3 : Nat := 0x0C120B
def kCchHit4 : Nat := 0x0C120C
def kCchHit5 : Nat := 0x0C120D
def kCchHit6 : Nat := 0x0C120E
def kCchHit7 : Nat := 0x0C120F
def kCchDeadread : Nat := 0x0C1210
def kCchDraftFills : Nat := 0x0C1211
def kCchDraftMerged : Nat := 0x0C1212
def kCchThrashEvt : Nat := 0x0C1213
def kCchPinDemote : Nat := 0x0C1214
def kCchCe : Nat := 0x0C1215
def kCchUe : Nat := 0x0C1216
def kCchPoisonDrop : Nat := 0x0C1217
def kCchNack : Nat := 0x0C1300
def kCchTicket : Nat := 0x0C1301
def kCchInvSent : Nat := 0x0C1302
def kCchPushNak : Nat := 0x0C1303
def kCchUnresp : Nat := 0x0C1304
def kTilRtrCrComb : Nat := 0x0C1400
def kTilRtrCrPass : Nat := 0x0C1401
def kTilRtrMcHold : Nat := 0x0C1402
def kTilRtrMcFail : Nat := 0x0C1403
def kTilSemOvf : Nat := 0x0C1404
def kCchSeamRatioChg : Nat := 0x0C1405
def kMemRdBytes : Nat := 0x0C1500
def kMemWrBytes : Nat := 0x0C1501
def kMemAct : Nat := 0x0C1502
def kMemThrottleCyc : Nat := 0x0C1503
def kMemRebuildLines : Nat := 0x0C1504
def kMemCe : Nat := 0x0C1505
def kMemUe : Nat := 0x0C1506
def kMemPoisonRd : Nat := 0x0C1507
def kMemRepair : Nat := 0x0C1508
def kMemRebuildSkip : Nat := 0x0C1509
def kMemOdeccCe : Nat := 0x0C150A
def kSeqSteps : Nat := 0x0C1600
def kSeqItems : Nat := 0x0C1601
def kSeqAdmits : Nat := 0x0C1602
def kSeqRetires : Nat := 0x0C1603
def kSeqSumm : Nat := 0x0C1604
def kSeqSel : Nat := 0x0C1605
def kSeqPoolSkip : Nat := 0x0C1606
def kSeqItemNoadv : Nat := 0x0C1607
def kSeqNoseq : Nat := 0x0C1608
def kSchLaunch : Nat := 0x0C1700
def kSchAffHit : Nat := 0x0C1701
def kSchEvict : Nat := 0x0C1702
def kSchRestore : Nat := 0x0C1703
def kSchSplitchg : Nat := 0x0C1704
def kSchSaveFull : Nat := 0x0C1705
def kSchParkFull : Nat := 0x0C1706
def kHifFetch : Nat := 0x0C1800
def kHifCmpl : Nat := 0x0C1801
def kHifJrnlReplay : Nat := 0x0C1802
def kHifDbBad : Nat := 0x0C1803
def kHifGenStale : Nat := 0x0C1804
def kHifDetach : Nat := 0x0C1805
def kFabTxBytes : Nat := 0x0C1900
def kFabRxBytes : Nat := 0x0C1901
def kFabReplay : Nat := 0x0C1902
def kFabRedComb : Nat := 0x0C1903
def kFabResend : Nat := 0x0C1904
def kFabWinViol : Nat := 0x0C1905
def kFabSrcDrop : Nat := 0x0C1906
def kFabCreditViol : Nat := 0x0C1907
def kFabMalformed : Nat := 0x0C1908
def kFabTransitDrop : Nat := 0x0C1909
def kFabCollStale : Nat := 0x0C190A
def kFabAuthFail : Nat := 0x0C190B
def kFabUnreach : Nat := 0x0C190C
def kUdlFlits : Nat := 0x0C1A00
def kUdlReplay : Nat := 0x0C1A01
def kUdlCrcErr : Nat := 0x0C1A02
def kUdlDiscard : Nat := 0x0C1A03
def kUdlNegotFail : Nat := 0x0C1A04
def kWpTaken : Nat := 0x0C1B00
def kFtFosterAcc : Nat := 0x0C1B01
def kWpSkip : Nat := 0x0C1B02
def kFtRollback : Nat := 0x0C1B03
def kFtLostLines : Nat := 0x0C1B04
def kSafLaserB1 : Nat := 0x0C1C00
def kSafLaserB2 : Nat := 0x0C1C01
def kSafEfuseTrip : Nat := 0x0C1C02
def kSafTjTrip : Nat := 0x0C1C03
def kSafLeakTrip : Nat := 0x0C1C04
def kPwrDivChg : Nat := 0x0C1D00
def kPwrDroop : Nat := 0x0C1D01
def kPwrCapStep : Nat := 0x0C1D02
def kPwrFastclamp : Nat := 0x0C1D03
def kPwrRefSwitch : Nat := 0x0C1D04
def kOdoLedgerFault : Nat := 0x0C1E00
def kDbgTraceDrop : Nat := 0x0C1E01
def kDbgFreewheelCnt : Nat := 0x0C1E02
def kDbgBrakeCnt : Nat := 0x0C1E03
def kCmdEmbytes : Nat := 0x0C2000
def kCmdTaskcyc : Nat := 0x0C2001
def kCmdHmbytes : Nat := 0x0C2002
def kCmdCsumis : Nat := 0x0C2003

/-! Event codes by name (23 Table 23.8). -/
def evPwrConvFail : BitVec 32 := 0x02400001
def evPwrVmaxHold : BitVec 32 := 0x02400002
def evPwrDerate : BitVec 32 := 0x02000003
def evPwrRefLost : BitVec 32 := 0x03400001
def evMemThermHigh : BitVec 32 := 0x04400001
def evMemThermCrit : BitVec 32 := 0x04800002
def evMemStackFail : BitVec 32 := 0x04800003
def evMemLaneWeak : BitVec 32 := 0x04400004
def evMemTrainFail : BitVec 32 := 0x04800005
def evMemDegraded : BitVec 32 := 0x04400006
def evFabLinkUp : BitVec 32 := 0x05000001
def evFabLinkFail : BitVec 32 := 0x05400002
def evFabUnreach : BitVec 32 := 0x05800003
def evFabQuarantine : BitVec 32 := 0x05400004
def evDisableDone : BitVec 32 := 0x07000001
def evShrFault : BitVec 32 := 0x07800002
def evSchInterf : BitVec 32 := 0x07400003
def evWpToobig : BitVec 32 := 0x07400004
def evSeqPoolLow : BitVec 32 := 0x08400001
def evCchThrash : BitVec 32 := 0x09400001
def evCchPinDemote : BitVec 32 := 0x09000002
def evCchPinRestore : BitVec 32 := 0x09000003
def evTileFault : BitVec 32 := 0x0A800001
def evUdlLinkFail : BitVec 32 := 0x0A800002
def evXsFault : BitVec 32 := 0x0A800003
def evFtHalfFail : BitVec 32 := 0x0A800004
def evFtDieFail : BitVec 32 := 0x0A800005
def evFtNoSpare : BitVec 32 := 0x0A400006
def evSafTjTrip : BitVec 32 := 0x0AC00007
def evLedgerFault : BitVec 32 := 0x0C800001
def evOdoMax : BitVec 32 := 0x0C008001
def evDbgHalt : BitVec 32 := 0x0D000001
def evFreewheelDone : BitVec 32 := 0x0D000002
def evBrakeDone : BitVec 32 := 0x0D400003
def evDbgTraceLost : BitVec 32 := 0x0D400004
def evFwUpdateFail : BitVec 32 := 0x0E400001
def evKodActDone : BitVec 32 := 0x0F000001

/-- Events and their names (23 R620). -/
def eventNames : List (BitVec 32 × String) := [
  (evPwrConvFail, "PWR_CONV_FAIL"),
  (evPwrVmaxHold, "PWR_VMAX_HOLD"),
  (evPwrDerate, "PWR_DERATE"),
  (evPwrRefLost, "PWR_REF_LOST"),
  (evMemThermHigh, "MEM_THERM_HIGH"),
  (evMemThermCrit, "MEM_THERM_CRIT"),
  (evMemStackFail, "MEM_STACK_FAIL"),
  (evMemLaneWeak, "MEM_LANE_WEAK"),
  (evMemTrainFail, "MEM_TRAIN_FAIL"),
  (evMemDegraded, "MEM_DEGRADED"),
  (evFabLinkUp, "FAB_LINK_UP"),
  (evFabLinkFail, "FAB_LINK_FAIL"),
  (evFabUnreach, "FAB_UNREACH"),
  (evFabQuarantine, "FAB_QUARANTINE"),
  (evDisableDone, "DISABLE_DONE"),
  (evShrFault, "SHR_FAULT"),
  (evSchInterf, "SCH_INTERF"),
  (evWpToobig, "WP_TOOBIG"),
  (evSeqPoolLow, "SEQ_POOL_LOW"),
  (evCchThrash, "CCH_THRASH"),
  (evCchPinDemote, "CCH_PIN_DEMOTE"),
  (evCchPinRestore, "CCH_PIN_RESTORE"),
  (evTileFault, "TILE_FAULT"),
  (evUdlLinkFail, "UDL_LINK_FAIL"),
  (evXsFault, "XS_FAULT"),
  (evFtHalfFail, "FT_HALF_FAIL"),
  (evFtDieFail, "FT_DIE_FAIL"),
  (evFtNoSpare, "FT_NO_SPARE"),
  (evSafTjTrip, "SAF_TJ_TRIP"),
  (evLedgerFault, "LEDGER_FAULT"),
  (evOdoMax, "ODO_MAX"),
  (evDbgHalt, "DBG_HALT"),
  (evFreewheelDone, "FREEWHEEL_DONE"),
  (evBrakeDone, "BRAKE_DONE"),
  (evDbgTraceLost, "DBG_TRACE_LOST"),
  (evFwUpdateFail, "FW_UPDATE_FAIL"),
  (evKodActDone, "KOD_ACT_DONE")]

end Sys2Proof.Machine
end

