-- ==== Sys2Proof/Machine/Ops.lean ====
section
/-! DEFINITION. Named operations over the state that every unit shares: outcomes, numbering (01), parameters (21), counters
and events (23), free values, violations (15 R444), trace records (23 R634, R636). -/

namespace Sys2Proof.Machine

/-- The outcome of a command. -/
abbrev Out := Host.Outcome State Fault Refusal

/-- A command whose effect is a change of the module. -/
def State.go (s : State) (f : Mod → Mod) : Out := .next { s with m := f s.m }

/-- A command that carries operands no command of the spec has is refused by name; another acts on the module. -/
def State.goIf (s : State) (ok : Bool) (name : String) (f : Mod → Mod) : Out :=
  if ok then s.go f else .refused (.illFormed name)

/-! Numbering (01 R17-R31). -/

/-- Half (slice number) of a tile. -/
def halfOfTile (t : Nat) : Nat := t / 64
/-- Compute die of a tile. -/
def dieOfTile (t : Nat) : Nat := t / 128
/-- Tile group of a tile (R26). -/
def groupOfTile (t : Nat) : Nat := t / 8
/-- I/O die that serves a compute die (R17). -/
def iodOfDie (d : Nat) : Nat := d / 2
/-- Trace and die key of an agent's die: compute die n as n, I/O die k as 8 + k. -/
def dieOfHalf (h : Nat) : Nat := h / 2

/-! Access to units. -/

def Mod.tile (m : Mod) (t : Nat) : Tile := m.tiles.getD t {}
def Mod.setTile (m : Mod) (t : Nat) (v : Tile) : Mod := { m with tiles := m.tiles.put t v }
def Mod.updTile (m : Mod) (t : Nat) (f : Tile → Tile) : Mod := m.setTile t (f (m.tile t))
def ctxKey (t s : Nat) : Nat := t * 4 + s
def Mod.ctx (m : Mod) (t s : Nat) : Ctx := m.ctxs.getD (ctxKey t s) {}
def Mod.setCtx (m : Mod) (t s : Nat) (v : Ctx) : Mod := { m with ctxs := m.ctxs.put (ctxKey t s) v }
def Mod.updCtx (m : Mod) (t s : Nat) (f : Ctx → Ctx) : Mod := m.setCtx t s (f (m.ctx t s))
def Mod.half (m : Mod) (h : Nat) : Half := m.halves.getD h {}
def Mod.setHalf (m : Mod) (h : Nat) (v : Half) : Mod := { m with halves := m.halves.put h v }
def Mod.updHalf (m : Mod) (h : Nat) (f : Half → Half) : Mod := m.setHalf h (f (m.half h))
def Mod.part (m : Mod) (p : Nat) : Part := m.parts.parts.getD p {}
def Mod.setPart (m : Mod) (p : Nat) (v : Part) : Mod :=
  { m with parts := { m.parts with parts := m.parts.parts.put p v } }
def Mod.updPart (m : Mod) (p : Nat) (f : Part → Part) : Mod := m.setPart p (f (m.part p))
def Mod.stack (m : Mod) (i : Nat) : Stack := m.mem.stackTab.getD i {}
def Mod.updStack (m : Mod) (i : Nat) (f : Stack → Stack) : Mod :=
  { m with mem := { m.mem with stackTab := m.mem.stackTab.put i (f (m.stack i)) } }
def Mod.chan (m : Mod) (s c : Nat) : Chan := m.mem.chans.getD (16 * s + c) {}
def Mod.updChan (m : Mod) (s c : Nat) (f : Chan → Chan) : Mod :=
  { m with mem := { m.mem with chans := m.mem.chans.put (16 * s + c) (f (m.chan s c)) } }
def Mod.die (m : Mod) (d : Nat) : DieS := m.dies.getD d {}
def Mod.updDie (m : Mod) (d : Nat) (f : DieS → DieS) : Mod := { m with dies := m.dies.put d (f (m.die d)) }
def Mod.updKod (m : Mod) (f : Kod → Kod) : Mod := { m with kod := f m.kod }
def Mod.updCache (m : Mod) (f : CacheS → CacheS) : Mod := { m with cache := f m.cache }
def Mod.updMem (m : Mod) (f : MemS → MemS) : Mod := { m with mem := f m.mem }
def Mod.updDbg (m : Mod) (f : DbgS → DbgS) : Mod := { m with dbg := f m.dbg }

/-- READY or SERVICE (24 R640). -/
def Mod.serving (m : Mod) : Bool := m.mod.mstate == 4 || m.mod.mstate == 5

/-! Time: one tick is a cycle of the 8.4 GHz root (20 Table 20.4). -/

def ticksPerUs : Nat := 8400
def ticksPerMs : Nat := 8400000
/-- CLK_C cycles of a die since its PLL locked (20 R561). -/
def Mod.cycleC (m : Mod) (d : Nat) : Nat := (m.ticks - (m.die d).pllTick) / 8
/-- Causal counter of a die (23 R634). -/
def Mod.cc (m : Mod) (d : Nat) : Nat := m.cycleC d + (m.die d).ccOff
/-- A stamped message crosses a die link (23 R634): CC = max(CC, carried + 1). -/
def Mod.stampMsg (m : Mod) (src dst : Nat) : Mod := m.updDie dst fun d => { d with ccOff := d.ccOff + (m.cc src + 1 - m.cc dst) }
/-- The dies that a message from one die reaches on its way to another: the compute dies are linked with one another, an I/O die with the two
of its pair, and a way that has no such link goes by the even one (01 R21). -/
def dieHops (a b : Nat) : List Nat :=
  if a = b then []
  else if a < 8 then (if b < 8 ∨ iodOfDie a = b - 8 then [b] else [2 * (b - 8), b])
  else if b < 8 then (if iodOfDie b = a - 8 then [b] else [2 * (a - 8), b])
  else [2 * (a - 8), 2 * (b - 8), b]
def Mod.stampPath (m : Mod) : Nat → List Nat → Mod
  | _, [] => m
  | a, d :: r => (m.stampMsg a d).stampPath d r
/-- A message that carries no data of a store comes from one die to another: it stamps each die it reaches (23 R634, log 149). -/
def Mod.stampTo (m : Mod) (a b : Nat) : Mod := m.stampPath a (dieHops a b)
/-- Die of an agent (07 Table 7.1): compute die n as n, I/O die k as 8 + k; an expansion die's messages come by its I/O die. -/
def agentDie (a : Nat) : Nat :=
  if a < 1024 then a / 128 else if a < 1152 then (a - 1024) / 16 else if a < 1184 then 8 + (a - 1152) / 8 else if a < 1192 then 9 else 11

/-! Parameters. -/

/-- Value of an RW or RWS parameter (21 R574). -/
def Mod.par (m : Mod) (n : Nat) : Int := m.kod.params.getD n (paramDefault n)
def Mod.parN (m : Mod) (n : Nat) : Nat := (m.par n).toNat
def Mod.parB (m : Mod) (n : Nat) : Bool := m.par n ≠ 0
def Mod.setPar (m : Mod) (n : Nat) (v : Int) : Mod := m.updKod fun k => { k with params := k.params.put n v }
/-- Value of a BLOB parameter. -/
def Mod.parBlob (m : Mod) (n : Nat) : List Byte := m.kod.blobs.getD n []

/-- TDP of an order code, in W: default and maximum of PWR_CAP (25 R653). -/
def tdp (order : Nat) : Int := if order = 1 then 6700 else if order = 2 then 6800 else 7200

/-! Free values. -/

/-- The next free value and the module after it. -/
def Mod.draw (m : Mod) : Nat × Mod := (Config.freeNat m.free, { m with free := m.free + 1 })
/-- The next `n` free values. -/
def Mod.draws (m : Mod) (n : Nat) : List Nat × Mod :=
  ((List.range n).map fun i => Config.freeNat (m.free + i), { m with free := m.free + n })

/-! Events (21 R588, 23 R659). -/

/-- Raise an event: its message starts for the serving management block, which numbers it when it arrives (CN_EVENT). -/
def Mod.raise (m : Mod) (code : BitVec 32) (source : Nat) (part : Nat) (data : Nat) : Mod :=
  m.updKod fun k => { k with evq := k.evq ++
    [⟨0, code, BitVec.ofNat 16 source, BitVec.ofNat 8 part, BitVec.ofNat 128 data⟩] }

/-- Record an event with the next EVSEQ; the last 1,024 are kept (21 R588). -/
def Kod.record (k : Kod) (e : Event) : Kod :=
  { k with evseq := k.evseq + 1, events := (k.events ++ [{ e with seq := k.evseq + 1 }]).drop ((k.events.length + 1) - 1024) }

/-- Partition number of an event that has none. -/
def noPart : Nat := 0xFF

/-! Counters (23 R615-R624). -/

def ctrKey (num inst : Nat) : Nat := num * 2 ^ 32 + inst
def Mod.counter (m : Mod) (num inst : Nat) : Ctr := m.ctr.getD (ctrKey num inst) {}

/-- One counter after `by` more events: WRAP counters wrap at 2^64, STICK counters stick and set OVF (Table 23.1). -/
def bumpCtr (sticks : Bool) (n : Nat) (c : Ctr) : Ctr :=
  if sticks then
    if 0xFFFFFFFF ≤ c.value + n then { c with value := 0xFFFFFFFF, ovf := true } else { c with value := c.value + n }
  else { c with value := (c.value + n) % 2 ^ 64 }

/-- Count `n` events; a STICK counter that reaches its largest value raises ODO_MAX once an epoch while ODO_MAX_EN is 1
(R616). -/
def Mod.countBy (m : Mod) (num inst n : Nat) : Mod :=
  let c := m.counter num inst
  let d := bumpCtr (ctrSticks num) n c
  let hit := d.ovf && !d.maxSent && m.parB pOdoMaxEn
  let d := if hit then { d with maxSent := true } else d
  let m := { m with ctr := m.ctr.put (ctrKey num inst) d }
  if hit then m.raise evOdoMax 0 noPart (num + inst * 2 ^ 32) else m

def Mod.count (m : Mod) (num inst : Nat) : Mod := m.countBy num inst 1

/-- Clear a counter instance: value and OVF to 0, epoch one more (R621, R622). -/
def Mod.clearCtr (m : Mod) (num inst : Nat) : Mod :=
  let c := m.counter num inst
  { m with ctr := m.ctr.put (ctrKey num inst) { c with value := 0, ovf := false, epoch := c.epoch + 1, maxSent := false } }

/-- Bytes that a command's work moved to and from EM and the host port, CLK_A cycles of its tasks and checksum mismatches: into the
command's own counts, and into its queue pair's counter set while the set counts for it (14 Table 14.12, 23 R624). -/
def Mod.workDone (m : Mod) (cmd em hm cyc mis : Nat) : Mod :=
  match Tab.find cmd m.host.cmds with
  | none => m
  | some c =>
    let d : HCmd := { c with
      emBytes := c.emBytes + em, hmBytes := c.hmBytes + hm, taskCyc := c.taskCyc + cyc, csumis := c.csumis + mis }
    let m := { m with host := { m.host with cmds := m.host.cmds.put cmd d } }
    match c.qp with
    | none => m
    | some q => match Tab.find q m.host.qps with
      | none => m
      | some x =>
        if x.cset == some cmd then
          let add (k n : Nat) (m : Mod) : Mod := if n = 0 then m else m.countBy k q n
          add kCmdCsumis mis (add kCmdHmbytes hm (add kCmdTaskcyc cyc (add kCmdEmbytes em m)))
        else m

/-- A 32-bit count that sticks (21 R593, 15 Table 15.4): value and overflow after one more. -/
def stick32 (v : Nat) (o : Bool) : Nat × Bool := if 0xFFFFFFFF ≤ v + 1 then (0xFFFFFFFF, true) else (v + 1, o)

/-- A violation by a partition (15 R444). -/
def Mod.violate (m : Mod) (p : Nat) : Mod :=
  m.updPart p fun x => { x with viol := (stick32 x.viol x.violOvf).1, violOvf := (stick32 x.viol x.violOvf).2 }
def Mod.violateN (m : Mod) (p : Nat) : Nat → Mod
  | 0 => m
  | n + 1 => (m.violate p).violateN p n

/-- Does a partition own a tile (15 R424)? -/
def Mod.ownsTile (m : Mod) (p t : Nat) : Bool := decide (t < 1024) && (m.part p).tgmask.getLsbD (groupOfTile t)
/-- Does a partition own semaphore `s` (15 R424)? -/
def Mod.ownsSem (m : Mod) (p s : Nat) : Bool := m.ownsTile p (s / 64)
/-- Does a partition own barrier `b`? -/
def Mod.ownsBar (m : Mod) (p b : Nat) : Bool := m.ownsTile p (b / 4)

/-! Substituted tile groups (18 R520): while a spare group stands in for a lost one, names of the lost group mean the tiles of
the spare at the same COL, and names of the spare are not owned. -/

/-- Tile that a tile number presented by partition `p` names. -/
def Mod.nameTile (m : Mod) (p t : Nat) : Nat :=
  match m.ft.subst.find? fun e => e.1.val == p && e.2.1.val == t / 8 with
  | some e => 8 * e.2.2.val + t % 8
  | none => if m.ft.subst.any (fun e => e.1.val == p && e.2.2.val == t / 8) then 1024 else t
/-- The partition's own name of a tile. -/
def Mod.tileName (m : Mod) (p t : Nat) : Nat :=
  match m.ft.subst.find? fun e => e.1.val == p && e.2.2.val == t / 8 with
  | some e => 8 * e.2.1.val + t % 8
  | none => t
/-- The same for the numbers of semaphores and of barriers. -/
def Mod.nameSem (m : Mod) (p n : Nat) : Nat := 64 * m.nameTile p (n / 64) + n % 64
def Mod.semName (m : Mod) (p n : Nat) : Nat := 64 * m.tileName p (n / 64) + n % 64
def Mod.nameBar (m : Mod) (p b : Nat) : Nat := 4 * m.nameTile p (b / 4) + b % 4
def Mod.barName (m : Mod) (p b : Nat) : Nat := 4 * m.tileName p (b / 4) + b % 4
/-! Trace (23 R636). Sources: halves 0-15, I/O dies 16-19. -/

/-- Die of a trace source. -/
def dieOfSource (src : Nat) : Nat := if src < 16 then src / 2 else src - 8

/-- Emit a record of a kind; when the buffer of 4,096 is full it is dropped and counted. -/
def Mod.trace (m : Mod) (src : Nat) (kind : Fin 10) (node : Nat) (part : Nat) (data aux : Nat) : Mod :=
  if m.parB pDbgTraceOn && (m.parN pDbgTraceMask).testBit kind then
    let b := m.dbg.buf.getD src []
    if b.length < 4096 then
      let q := m.dbg.tseq.getD src 0
      let r : TraceRec :=
        ⟨m.cc (dieOfSource src), m.cycleC (dieOfSource src), BitVec.ofNat 32 data, BitVec.ofNat 11 node, kind,
          BitVec.ofNat 7 part, q, BitVec.ofNat 32 aux⟩
      m.updDbg fun d => { d with buf := d.buf.put src (b ++ [r]), tseq := d.tseq.put src (q + 1) }
    else (m.count kDbgTraceDrop src).updDbg fun d => { d with lost := d.lost.upd src 0 (· + 1) }
  else m

/-! The Brake (23 R629-R632). Units are named by node number (09 R274): a tile by its own, a slice with its copy engines by that of
its bank 0, an I/O die by that of its front end, a gateway by its own (log 50). -/

def unitOfSlice (h : Nat) : Nat := 1200 + 16 * h
def unitOfIod (k : Nat) : Nat := 1152 + 8 * k
def unitOfGate (g : Nat) : Nat := 1456 + g
def unitOfAgent (a : Nat) : Nat :=
  if a < 1024 then a
  else if a < 1152 then unitOfSlice ((a - 1024) / 8)
  else if a < 1184 then unitOfIod ((a - 1152) / 8)
  else unitOfIod (if a < 1192 then 1 else 3)

/-- Stages 2 and 3 of the Brake: timers are suspended (R632). -/
def Mod.braked (m : Mod) : Bool := decide (2 ≤ m.dbg.brake.val)
/-- Has a unit taken its stop? -/
def Mod.heldAt (m : Mod) (u : Nat) : Bool := m.braked && (m.dbg.brakeRecs.getD u {}).taken
/-- What a unit does with what reaches it: nothing once it has taken its stop (R630). -/
def Mod.atUnit (m : Mod) (u : Nat) (f : Mod → Mod) : Mod := if m.heldAt u then m else f m

/-- Insertion of an element in ascending order of a key. -/
def insertBy {α : Type} (f : α → Nat) (a : α) : List α → List α
  | [] => [a]
  | b :: r => if f a ≤ f b then a :: b :: r else b :: insertBy f a r
def sortBy {α : Type} (f : α → Nat) : List α → List α
  | [] => []
  | a :: r => insertBy f a (sortBy f r)

/-- Fold an operation over a list. -/
def forEach {α : Type} (l : List α) (f : α → Mod → Mod) (m : Mod) : Mod := l.foldl (fun m a => f a m) m

end Sys2Proof.Machine
end

