-- ==== Sys2Proof/Machine/Routes.lean ====
section
/-! DEFINITION. Names of the die links, the dies that can reach one another by them, and the I/O die that serves the numbers of another
(spec 01 R20-R23, R31; 17 R504; 18 R521-R523). -/

namespace Sys2Proof.Machine

/-! Naming (17 Tables 17.2 and 17.6). -/

/-- Key of a link in the table: gateways, electrical paths, sites (Table 17.6). -/
def linkKey : LinkRef → Nat
  | .photonic d g => 8 * d.val + g.val
  | .electrical d => 64 + d.val
  | .site s => 72 + s.val
def Mod.link (m : Mod) (k : Nat) : Link := m.links.getD k {}
def Mod.updLink (m : Mod) (k : Nat) (f : Link → Link) : Mod := { m with links := m.links.put k (f (m.link k)) }

/-- DIE code of the die behind a link, and of its partner (Table 17.2): CDn as n, IODk as 8 + k, XSs as 12 + s. -/
def linkOwn (k : Nat) : Nat := if k < 64 then k / 8 else if k < 72 then k - 64 else 8 + (if k = 72 then 1 else 3)
def linkPeer (k : Nat) : Nat :=
  if k < 64 then (if k % 8 = k / 8 then 8 + iodOfDie (k / 8) else k % 8) else if k < 72 then 8 + iodOfDie (k - 64) else 12 + (k - 72)
/-- A link between two compute dies, and the gateway at its other end (09 R275). -/
def isCdCd (k : Nat) : Bool := decide (k < 64) && k % 8 != k / 8
def otherGate (k : Nat) : Nat := 8 * (k % 8) + k / 8

/-- Does a link take part in UDL 2.1 on an order code: not between a compute die and its I/O die on the L (00 R6, 17 R505), and a site only
where it is populated (00 R5, Table 0.1)? -/
def linkNegotiates (order k : Nat) : Bool :=
  if k < 64 then isCdCd k || order != 2 else if k < 72 then order != 2 else order == 0

/-! Reaching a die. -/

/-- Both halves of a compute die are FAILED (18 R512). -/
def Mod.dieDead (m : Mod) (d : Nat) : Bool := (m.half (2 * d)).state == 4 && (m.half (2 * d + 1)).state == 4
/-- A compute die's photonic port toward its I/O die (F and S), and its electrical path to it. -/
def Mod.photonicUp (m : Mod) (order d : Nat) : Bool := order != 2 && (m.link (9 * d)).state != 5 && !(m.dieDead d)
def Mod.electricalUp (m : Mod) (d : Nat) : Bool := (m.link (64 + d)).state != 5 && !(m.dieDead d)
/-- Can a compute die reach its I/O die (R22, 17 R504)? -/
def Mod.reaches (m : Mod) (order d : Nat) : Bool := m.photonicUp order d || m.electricalUp d
/-- Does the electrical path of a compute die carry the die's traffic: always on the L, else while the photonic port is fenced (R23)? -/
def Mod.electricalCarries (m : Mod) (order d : Nat) : Bool := order == 2 || (m.link (9 * d)).state == 5

/-- The dies whose links to both ends of a link are ACTIVE, in ascending order (17 R501). -/
def Mod.detourDies (m : Mod) (k : Nat) : List Nat :=
  let a := k / 8
  let b := k % 8
  (List.range 8).filter fun c => c != a && c != b && (m.link (8 * a + c)).state == 4 && (m.link (8 * b + c)).state == 4
/-- Is there such a die? -/
def Mod.detourDie (m : Mod) (k : Nat) : Bool := !(m.detourDies k).isEmpty
/-- The die by which the traffic of a link makes its detour to an end node: the ((node number) mod m)-th of the m dies (17 R501). -/
def Mod.detourVia (m : Mod) (k node : Nat) : Option Nat := let ds := m.detourDies k; ds[node % ds.length]?
/-- Can two compute dies reach each other, directly or by a detour? -/
def Mod.cdPath (m : Mod) (a b : Nat) : Bool := a == b || (m.link (8 * a + b)).state != 5 || m.detourDie (8 * a + b)

/-- The compute die by which the traffic of I/O die `a` to another travels: CD(2a), or CD(2a+1) where the port of CD(2a) is fenced (R21, R22);
with both ports fenced, or on the L, the first whose electrical path is up (17 R504). -/
def Mod.viaDie (m : Mod) (order a : Nat) : Option Nat :=
  let ds := [2 * a, 2 * a + 1]
  (ds.filter (m.photonicUp order) ++ ds.filter m.electricalUp).head?
/-- The two compute dies on the way between two I/O dies, which no link joins (R21, R22). -/
def Mod.iodRoute (m : Mod) (order a b : Nat) : Option (Nat × Nat) :=
  match m.viaDie order a, m.viaDie order b with
  | some x, some y => if m.cdPath x y then some (x, y) else none
  | _, _ => none
/-- Does what one I/O die sends another arrive? -/
def Mod.iodReach (m : Mod) (order a b : Nat) : Bool := a == b || (m.iodRoute order a b).isSome

/-! Who serves the numbers of an I/O die (R20, R31, 18 R521-R523). -/

def Mod.iodState (m : Mod) (k : Nat) : Nat := m.ft.iodState.getD k 0
/-- The I/O die whose front end and sequence engine quarter serve the numbers of die `k`: the die itself in service, its failover partner
once it has taken over and is itself in service, else none (log 123). -/
def Mod.servedBy (m : Mod) (k : Nat) : Option Nat :=
  if m.iodState k = 0 then some k
  else if m.ft.takeover.has k || m.iodState (k ^^^ 1) != 0 then none
  else some (k ^^^ 1)
/-- Does a die stand behind the numbers of die `k`? -/
def Mod.served (m : Mod) (k : Nat) : Bool := (m.servedBy k).isSome
/-- The die that acts for the numbers of die `k`: while none does, it is named by its own. -/
def Mod.actingIod (m : Mod) (k : Nat) : Nat := (m.servedBy k).getD k
/-- Quarter of a sequence ID or table index (01 R30). -/
def quarterOf (i : Nat) : Nat := i / 2 ^ 18 % 4
/-- Can the quarter of die `k` carry through what it has begun: a die that a live update takes out still finishes its step ends (22 Table 22.6
step 1)? -/
def Mod.finishes (m : Mod) (k : Nat) : Bool := m.served k || m.iodState k == 2

end Sys2Proof.Machine
end

