-- ==== Sys2Proof/Machine/Memory.lean ====
section
/-! DEFINITION. External memory (spec 11): placement, regions, keys, redundancy, poison; reads and writes of one line as a
controller performs them. -/

namespace Sys2Proof.Machine

/-! Placement (R306, Table 11.2) and the region map (Table 11.3). -/

def regionOf (pa : Nat) : Nat := pa / 2 ^ 30
def Mod.region (m : Mod) (r : Nat) : BitVec 32 := m.mem.regions.getD r 0
def kindOf (v : BitVec 32) : Nat := bits v.toNat 31 29
def formingOf (v : BitVec 32) : Bool := v.getLsbD 28
def memberOf (v : BitVec 32) : Nat := bits v.toNat 27 24
def partnerOf (v : BitVec 32) : Nat := bits v.toNat 23 13
def kPLAIN : Nat := 0
def kMIRROR : Nat := 1
def kMIRRORCOPY : Nat := 2
def kPARITY : Nat := 3
def kPARITYP : Nat := 4
def kSPARE : Nat := 5
/-- Kinds that hold data durably (Table 11.4); the data kinds among them are MIRROR and PARITY. -/
def durableKind (k : Nat) : Bool := decide (1 ≤ k ∧ k ≤ 4)
def dataDurable (k : Nat) : Bool := k == kMIRROR || k == kPARITY
/-- Is the region of an address durable (R192)? -/
def Mod.durable (m : Mod) (pa : Nat) : Bool := dataDurable (kindOf (m.region (regionOf pa)))
/-- ROT of Table 11.4. -/
def rotOf (v : BitVec 32) : Nat :=
  let k := kindOf v
  if k = kMIRRORCOPY then 8 else if k = kPARITY then memberOf v else if k = kPARITYP then 15 else 0
/-- Stack of a line. -/
def Mod.stackOf (m : Mod) (pa : Nat) : Nat := (bits pa 10 7 + rotOf (m.region (regionOf pa))) % 16
/-- Channel of a line. -/
def chanOf (pa : Nat) : Nat := bits pa 14 11
/-- Bank, row and rank (Table 11.2). -/
def bankOf (pa : Nat) : Nat := bits pa 23 19 ^^^ bits pa 30 26
def rowOf (pa : Nat) : Nat := bits pa 40 26
def rankOf (pa : Nat) : Nat := bits pa 25 24
/-- Stack-local 64 KiB block of a line (R328): the stack holds every sixteenth line. -/
def blockOf (pa : Nat) : Nat := pa / 2 ^ 20

/-- A stack is unavailable while PARKED or FAILED (R327). -/
def stackDown (s : Stack) : Bool := s.state == 3 || s.state == 4
/-- Does the line's own stack serve it? In RESYNC a durable line is served so once the pointer has passed it (R330). -/
def Mod.lineUp (m : Mod) (pa : Nat) : Bool :=
  let s := m.stack (m.stackOf pa)
  !stackDown s && !(durableKind (kindOf (m.region (regionOf pa))) && ((s.state == 5 && decide (s.resync ≤ pa)) || s.skipped.has (pa / 128)))
/-- Does the line's own stack take a write? RESYNC keeps no line from being written (R330). -/
def Mod.lineTakes (m : Mod) (pa : Nat) : Bool := !(stackDown (m.stack (m.stackOf pa)))

/-! Keys (R313-R316). -/

/-- Key tag of a frame; the frames of the table itself are always 0xFE (R314). -/
def Mod.tagOf (m : Mod) (pa : Nat) : BitVec 8 :=
  let base := m.parN pMemFktBase
  if base ≤ pa ∧ pa < base + 2 ^ 25 then 0xFE else m.mem.frameTag.getD (pa / 65536) 0xFE
/-- A key as one number: tag and generation. -/
def keyNum (tag gen : Nat) : Nat := tag * 2 ^ 32 + gen
def Mod.keyGenOf (m : Mod) (tag : Nat) : Nat := m.mem.keyGen.getD tag 0
/-- The key under which an address is read and written now. -/
def Mod.keyOf (m : Mod) (pa : Nat) : Nat := keyNum (m.tagOf pa).toNat (m.keyGenOf (m.tagOf pa).toNat)
/-- The key under which a line was last written. -/
def Mod.writtenKey (m : Mod) (line : Nat) : Nat :=
  match Tab.find line m.mem.emKey with
  | some p => keyNum p.1 p.2
  | none => keyNum 0xFE (m.keyGenOf 0xFE)

/-- Stored plaintext of a line. -/
def Mod.emLine (m : Mod) (pa : Nat) : LineData := lineOf (Mem.rds m.mem.em (pa / 128 * 128) 128)
/-- What the line reads as under the key in force (R316). -/
def Mod.emRead (m : Mod) (pa : Nat) : LineData :=
  let d := m.emLine pa
  let w := m.writtenKey (pa / 128)
  let r := m.keyOf pa
  if w = r then d else Config.otherKey d (pa / 128) w r
/-- What an unlisted line holds since its stack's last RESYNC (R330). -/
def Mod.poisonDflt (m : Mod) (pa : Nat) : Bool :=
  let s := m.stack (m.stackOf pa)
  !(durableKind (kindOf (m.region (regionOf pa)))) && (s.poisonAll || s.poisonBlocks.has (blockOf pa))
def Mod.poisoned (m : Mod) (pa : Nat) : Bool := m.mem.emPoison.getD (pa / 128) (m.poisonDflt pa)
def Mod.setPoison (m : Mod) (pa : Nat) (p : Bool) : Mod :=
  m.updMem fun e => { e with
    emPoison := if p = m.poisonDflt pa then e.emPoison.del (pa / 128) else e.emPoison.put (pa / 128) p }
/-- Store a line in its place, under the key of the data line `keyPa`. -/
def Mod.emStore (m : Mod) (pa keyPa : Nat) (d : LineData) (poison : Bool) : Mod :=
  let a := pa / 128 * 128
  let t := m.tagOf keyPa
  let m := m.updMem fun e => { e with
    em := Mem.wrs a (bytesOf d) e.em,
    emKey := e.emKey.put (pa / 128) (t.toNat, m.keyGenOf t.toNat) }
  let m := m.setPoison pa poison
  (m.countBy kMemWrBytes (m.stackOf pa) 128).count kMemAct (16 * m.stackOf pa + chanOf pa)
/-- The same by an agent's write: a durable line that RESYNC has not reached, or has skipped, is current from then on (R330, R331). -/
def Mod.emTake (m : Mod) (pa keyPa : Nat) (d : LineData) (poison : Bool) : Mod :=
  let n := m.emStore pa keyPa d poison
  if m.lineUp pa then n
  else n.updStack (m.stackOf pa) fun s => { s with skipped := s.skipped.del (pa / 128), fresh := s.fresh.put (pa / 128) () }

/-! Redundancy (R310-R312, R328, R329). -/

/-- The line at the same offset in another region. -/
def sameOffset (r pa : Nat) : Nat := r * 2 ^ 30 + pa % 2 ^ 30
/-- Regions of a parity group, its PARITY_P region among them. -/
def Mod.stripe (m : Mod) (p : Nat) : List Nat :=
  (m.mem.regions.keep fun _ v =>
    (kindOf v == kPARITY || kindOf v == kPARITYP) && partnerOf v == p).map Prod.fst

/-- Stand-in pool: the address of pool line `u` for failed stack `f` (R329). -/
def Mod.poolAddr (m : Mod) (f u : Nat) : Option Nat :=
  let spares := (m.mem.regions.keep fun _ v => kindOf v == kSPARE).map Prod.fst
  match spares[u / 7864320]? with
  | none => none
  | some r =>
    let v := u % 7864320
    let p := v % 15
    let t := if p < f then p else p + 1
    some (r * 2 ^ 30 + 2048 * (v / 15) + 128 * t)

/-- Durable-kind regions numbered below a region (R329). -/
def Mod.durableBelow (m : Mod) (r : Nat) : Nat :=
  (m.mem.regions.keep fun k v => durableKind (kindOf v) && decide (k < r)).length

/-- The two stand-in copies of a line of failed stack `f`. -/
def Mod.standins (m : Mod) (f pa : Nat) : List Nat :=
  let u := 2 * (2 ^ 19 * m.durableBelow (regionOf pa) + bits pa 29 11)
  [m.poolAddr f u, m.poolAddr f (u + 1)].filterMap id

/-- Does a stand-in of the line exist and hold it? -/
def Mod.standinOf (m : Mod) (pa : Nat) : Option Nat :=
  let f := m.stackOf pa
  let s := m.stack f
  let placed := match s.rebuild with
    | some n => decide (pa < n)
    | none => s.rebuilt
  let stands := stackDown s || (s.state == 5 && s.fromFailed && decide (s.resync ≤ pa))
  if stands && placed && !(s.unplaced.has (pa / 128)) then (m.standins f pa).find? fun a => m.lineUp a && !m.poisoned a else none

/-- A member of a redundancy set as it can be read: its own line, else a stand-in. -/
def Mod.member (m : Mod) (pa : Nat) : Option LineData :=
  if m.lineUp pa then some (m.emLine pa) else (m.standinOf pa).map m.emLine
/-- XOR of the members at one offset of a list of regions; none where one cannot be read. -/
def Mod.xorLines (m : Mod) (rs : List Nat) (pa : Nat) : Option LineData :=
  rs.foldl (fun d r => match d, m.member (sameOffset r pa) with
    | some d, some x => some (d ^^^ x)
    | _, _ => none) (some 0)

/-- The redundancy of a durable line: what the mirror copy, the reconstruction or the stand-in gives, or none where it
fails (R312). The result is decrypted as the data line is. -/
def Mod.redundant (m : Mod) (pa : Nat) (e : Ecc) : Option LineData :=
  let v := m.region (regionOf pa)
  let dec (d : LineData) : LineData :=
    let w := m.writtenKey (pa / 128)
    let r := m.keyOf pa
    if w = r then d else Config.otherKey d (pa / 128) w r
  if e == .uncorrectable then none
  else match m.standinOf pa with
    | some a => some (dec (m.emLine a))
    | none =>
      if kindOf v = kMIRROR then
        let c := sameOffset (partnerOf v) pa
        if m.lineUp c && m.poisoned c then none else (m.member c).map dec
      else if kindOf v = kPARITY then (m.xorLines ((m.stripe (partnerOf v)).filter fun r => r != regionOf pa) pa).map dec
      else none

/-- A corrected error of one lane (R322): counted, and MEM_LANE_WEAK when the hour's limit is passed. -/
def Mod.laneError (m : Mod) (st ch lane : Nat) : Mod :=
  let m := m.count kMemCe (16 * st + ch)
  let c := m.chan st ch
  let c := if c.hourTick + 3600000 * ticksPerMs ≤ m.ticks then { c with hourTick := m.ticks, laneCe := [] } else c
  let n := c.laneCe.getD lane 0 + 1
  let m := m.updChan st ch fun _ => { c with laneCe := c.laneCe.put lane n }
  if n = m.parN pMemLaneCeLimit + 1 then
    m.raise evMemLaneWeak st noPart (st + 256 * ch + 65536 * lane)
  else m

/-- Result of a read of a line: data and whether it is poison. -/
structure LineRes where
  data : LineData
  poison : Bool
  deriving DecidableEq, Repr

/-- Write the poison code into a line and into an available mirror copy (R312, R319). -/
def Mod.writePoison (m : Mod) (pa : Nat) : Mod :=
  let v := m.region (regionOf pa)
  let m := if m.lineUp pa then m.setPoison pa true else m
  if kindOf v = kMIRROR ∧ m.lineUp (sameOffset (partnerOf v) pa) then m.setPoison (sameOffset (partnerOf v) pa) true
  else m

/-- A read of one line at its controller (R312, R318, R328): `e` is the outcome of the data line's code, `eR` that of the
redundancy, `lane` the lane of a corrected error. -/
def Mod.memReadLine (m : Mod) (pa : Nat) (e eR : Ecc) (lane : Nat) : LineRes × Mod :=
  let st := m.stackOf pa
  let ch := chanOf pa
  let up := m.lineUp pa
  let dur := m.durable pa
  let m := if up then (m.countBy kMemRdBytes st 128).count kMemAct (16 * st + ch) else m
  if m.poisoned pa && (up || dur) then (⟨m.emLine pa, true⟩, m.count kMemPoisonRd (16 * st + ch))
  else if up && e != .uncorrectable then
    (⟨m.emRead pa, false⟩, if e == .corrected then m.laneError st ch lane else m)
  else if dur then
    let m := if up then m.count kMemUe (16 * st + ch) else m
    match m.redundant pa eR with
    | some d => (⟨d, false⟩, if up then m.count kMemRepair st else m)
    | none => (⟨0, true⟩, if up then m.writePoison pa else m)
  else (⟨0, true⟩, if up then m.count kMemUe (16 * st + ch) else m)

/-- Mark a line's block in the lost-write map of a stack (R328). -/
def Mod.markLost (m : Mod) (st pa : Nat) : Mod :=
  m.updStack st fun s => { s with lostMap := s.lostMap.put (blockOf pa) () }

/-- A write of a parity line that two members of its stripe lose: its block is marked on each unavailable stack (R328). -/
def Mod.markStripe (m : Mod) (v : BitVec 32) (st pa : Nat) : Mod :=
  forEach (m.stripe (partnerOf v)) (fun r m =>
    let x := sameOffset r pa
    if stackDown (m.stack (m.stackOf x)) then m.markLost (m.stackOf x) x else m) (m.markLost st pa)

/-- A durable line takes new contents, in its own place and in its stand-ins (R329). -/
def Mod.placeLine (m : Mod) (pa keyPa : Nat) (d : LineData) (poison : Bool) : Mod :=
  let m := if (m.standinOf pa).isSome then forEach (m.standins (m.stackOf pa) pa) (fun a m => m.emStore a keyPa d poison) m else m
  if m.lineTakes pa then m.emTake pa keyPa d poison else m

/-- A write of one whole line at its controllers (R310, R312, R328-R330): the module after it, and whether it was performed. -/
def Mod.memWriteLine (m : Mod) (pa : Nat) (d : LineData) (poison : Bool) : Mod × Bool :=
  let v := m.region (regionOf pa)
  let st := m.stackOf pa
  let holds (x : Nat) : Bool := m.lineTakes x || (m.standinOf x).isSome
  if kindOf v = kMIRROR then
    let c := sameOffset (partnerOf v) pa
    if holds pa || holds c then ((m.placeLine pa pa d poison).placeLine c pa d poison, true)
    else ((m.markLost st pa).markLost (m.stackOf c) c, false)
  else if kindOf v = kPARITY then
    let p := sameOffset (partnerOf v) pa
    let old : Option LineData :=
      if m.lineTakes pa && (m.stack st).fresh.has (pa / 128) then some (m.emLine pa)
      else match m.member pa with
        | some x => some x
        | none => m.xorLines ((m.stripe (partnerOf v)).filter fun r => r != regionOf pa) pa
    match old with
    | none => (m.markStripe v st pa, false)
    | some o =>
      let m := m.placeLine pa pa d poison
      let m := if m.lineTakes pa then m
        else (m.updMem fun e => { e with
          emKey := e.emKey.put (pa / 128) ((m.tagOf pa).toNat, m.keyGenOf (m.tagOf pa).toNat) }).setPoison pa poison
      (match m.member p with
        | some x => m.placeLine p p (x ^^^ o ^^^ d) false
        | none => m, true)
  else if m.lineUp pa then (m.emStore pa pa d poison, true)
  else (m.markLost st pa, false)

/-! Meanings of the controller's own commands. -/

/-- MEM_READ: a fill, sector or copy read at a controller (R312, R317, R318, R328). -/
def execMemRead (pa : Nat) (e eR : Ecc) (lane : Fin 76) (s : State) : Out :=
  if paLimit ≤ pa then .fault (.noSuchAddress pa) else s.go fun m => (m.memReadLine pa e eR lane).2

/-- MEM_WRITE: a write-back or write-through of a line at its controllers (R310, R328). -/
def execMemWrite (pa : Nat) (d : LineData) (poison : Bool) (s : State) : Out :=
  if paLimit ≤ pa then .fault (.noSuchAddress pa) else s.go fun m => (m.memWriteLine pa d poison).1

/-- PARITY_DELTA: the controller of the PARITY_P line applies a delta, in arrival order (R310, R311). -/
def execParityDelta (pa : Nat) (delta : LineData) (s : State) : Out :=
  if paLimit ≤ pa then .fault (.noSuchAddress pa)
  else s.go fun m =>
    let v := m.region (regionOf pa)
    if kindOf v = kPARITYP ∧ m.lineUp pa then m.emStore pa pa (m.emLine pa ^^^ delta) (m.poisoned pa) else m

/-- One line of the channel's scrub (R319): corrected lines are rewritten, an uncorrectable durable line is repaired
under R312, an uncorrectable non-durable line takes the poison code. -/
def Mod.scrubLine (m : Mod) (pa : Nat) (e eR : Ecc) (lane : Fin 76) : Mod :=
  if !m.lineUp pa then m
  else
    let st := m.stackOf pa
    let ch := chanOf pa
    if m.poisoned pa then m.count kMemPoisonRd (16 * st + ch)
    else match e with
      | .ok => m
      | .corrected => m.laneError st ch lane
      | .uncorrectable =>
        let m := m.count kMemUe (16 * st + ch)
        if m.durable pa then
          match m.redundant pa eR with
          | some _ => m.count kMemRepair st
          | none => m.writePoison pa
        else m.setPoison pa true

/-- REFRESH: one refresh of a stack that is neither parked nor failed, base or doubled rate (Table 11.11). -/
def execRefresh (st : SliceId) (s : State) : Out :=
  s.go fun m => m.updStack st fun k => if k.selfRefresh then k else { k with refreshes := k.refreshes + 1 }

/-! Regions (R307, R308, R333). -/

/-- Answers of an action (21 Table 21.4): 0 OK, 2 TYPE, 3 RANGE, 4 ACCESS, 5 STATE, 6 BUSY, 7 RUNNING. -/
def esOK : Nat := 0
def esNOPARAM : Nat := 1
def esTYPE : Nat := 2
def esRANGE : Nat := 3
def esACCESS : Nat := 4
def esSTATE : Nat := 5
def esBUSY : Nat := 6
def esRUNNING : Nat := 7

/-- Number and ESTAT of the last action performed; one that was under way is over once its ESTAT is not RUNNING. -/
def Mod.acted (m : Mod) (num estat : Nat) : Mod := m.updKod fun k => { k with
  lastAct := some (num, estat),
  actions := if estat = esRUNNING then k.actions else k.actions.adj num fun a => { a with final := some estat } }
/-- Every action under way is abandoned. -/
def Kod.abandonActs (k : Kod) : Kod :=
  { k with actions := k.actions.map fun (e : Nat × ActRun) =>
      (e.1, if e.2.final.isSome then e.2 else { e.2 with final := some esSTATE }) }

/-- An action that takes effect only in READY and SERVICE (24 R642). -/
def Mod.perform (m : Mod) (num : Nat) (f : Mod → Nat × Mod) : Mod :=
  if m.serving then
    let r := f m
    r.2.acted num r.1
  else m.acted num esSTATE

/-- Split a BLOB into records of `n` bytes, as numbers. -/
def records (n : Nat) : Nat → List Byte → List Nat
  | 0, _ => []
  | k + 1, l => if l.length < n then [] else leNat (l.take n) :: records n k (l.drop n)
def recordsOf (n : Nat) (l : List Byte) : List Nat := records n (l.length / n + 1) l

/-- The region map after a set of records. -/
def applyRegions (rs : List Nat) (t : Tab (BitVec 32)) : Tab (BitVec 32) :=
  rs.foldl (fun t r => t.put (bits r 63 53) (BitVec.ofNat 32 (bits r 31 0))) t

/-- A record's own fields are as Table 11.3 gives them (R333). -/
def regionRecOk (r : Nat) : Bool :=
  let v := BitVec.ofNat 32 (bits r 31 0)
  let k := kindOf v
  let reg := bits r 63 53
  bits r 52 32 == 0 && !formingOf v && bits v.toNat 12 0 == 0 && decide (k ≤ 5) &&
  (if k = kPARITY then decide (memberOf v ≤ 14) else if k = kPARITYP then memberOf v == 15 else memberOf v == 0) &&
  (if k = kPARITYP then partnerOf v == reg else if k = kPLAIN ∨ k = kSPARE then partnerOf v == 0 else true)

/-- Mirrors name each other; parity groups are complete (R308). -/
def regionMapOk (t : Tab (BitVec 32)) : Bool :=
  t.all fun e =>
    let v := e.2
    let k := kindOf v
    let p := Tab.getD t (partnerOf v) 0
    if k = kMIRROR then kindOf p == kMIRRORCOPY && partnerOf p == e.1
    else if k = kMIRRORCOPY then kindOf p == kMIRROR && partnerOf p == e.1
    else if k = kPARITY ∨ k = kPARITYP then
      let g := t.keep fun _ w => (kindOf w == kPARITY || kindOf w == kPARITYP) && partnerOf w == partnerOf v
      kindOf p == kPARITYP && g.length == 16 &&
      (List.range 15).all fun i => (g.keep fun _ w => kindOf w == kPARITY && memberOf w == i).length == 1
    else true

/-- MEM_REGION_SET (R308, R333). `keepKind` holds the regions under the sequence table (12 R339). Regions whose kind changes
are zeroed and FORMING until REGION_FORMING_DONE. -/
def Mod.regionSet (m : Mod) (keepKind : List Nat) (blob : List Byte) : Nat × Mod :=
  if blob.length % 8 ≠ 0 ∨ 1024 < blob.length then (esTYPE, m)
  else if blob.length = 0 then (esRANGE, m)
  else
    let rs := recordsOf 8 blob
    let regs := rs.map fun r => bits r 63 53
    let changed := regs.filter fun r =>
      rs.any fun x => bits x 63 53 == r && bits x 31 29 != kindOf (m.region r)
    let after := applyRegions rs m.mem.regions
    if !(rs.all regionRecOk) || !regs.Nodup || !(regionMapOk after) || changed.any (fun r => keepKind.contains r) ||
        regs.any (fun r => formingOf (m.region r)) then (esSTATE, m)
    else
      let inChanged (line : Nat) : Bool := changed.contains (line / 2 ^ 23)
      let m := m.updMem fun e => { e with
        regions := changed.foldl (fun t r => t.upd r 0 (· ||| 0x10000000)) after,
        em := e.em.filter fun c => !changed.contains (regionOf c.1),
        emKey := (e.emKey.keep fun k _ => !inChanged k),
        emPoison := e.emPoison.keep fun k _ => !inChanged k }
      -- zeroed data is written under the key each frame has now
      (esRUNNING, m)

/-- REGION_FORMING_DONE: every change of kind in progress completes. -/
def execRegionFormingDone (s : State) : Out :=
  s.go fun m =>
    if m.mem.regions.any fun e => formingOf e.2 then
      (m.updMem fun e => { e with regions := e.regions.map fun x => (x.1, x.2 &&& 0xEFFFFFFF) }).acted pMemRegionSet esOK
    else m

/-! Training and test (R320-R324). -/

/-- Derailleur (R321, Table 11.8): substitute spares for weak lanes, data and check lanes in order by spares 72 to 75, one
weak CA lane by CA12; none where a channel has more weak lanes than spares. -/
def spareMapFor (weak weakCa : List Nat) : Option (BitVec 64) :=
  let ws := weak.filter (· < 72)
  if 4 < ws.length ∨ 1 < weakCa.length then none
  else
    let lanes := (ws.zipIdx).foldl (fun a p => a + (128 + p.1) * 2 ^ (8 * p.2)) 0
    let ca := match weakCa with
      | [] => 0
      | c :: _ => (16 + c % 16) * 2 ^ 40
    some (BitVec.ofNat 64 (lanes + ca))

/-- A channel declares its stack FAILED (R327). -/
def Mod.stackFail (m : Mod) (st : Nat) : Mod :=
  if (m.stack st).state == 4 then m
  else (m.updStack st fun k => { k with
    state := 4, failTick := m.ticks, selfRefresh := false, crit := false, refresh2x := false, rebuild := none,
    rebuilt := false, skipped := [], fresh := [], unplaced := [] }).raise evMemStackFail st noPart st

/-- Every channel of a stack has ended step 6 (Table 11.7). -/
def Mod.stackTrained (m : Mod) (st : Nat) : Bool := (List.range 16).all fun c => (m.chan st c).step == 6

/-- May the traffic generator of a stack run (R323)? -/
def tgAllowed (k : Stack) : Bool := k.state == 0 || k.state == 4 || k.drained

/-- MEM_TG_START: START under role SERVICE; FAIL and ERRORS clear (R323, Table 11.9). A reserved MODE or SIZE takes its reset
value (00 R14). -/
def execMemTgStart (st : SliceId) (ch : ChanId) (service : Bool) (s : State) : Out :=
  s.go fun m =>
    if service && tgAllowed (m.stack st) && !((m.chan st ch).tgStat.getLsbD 63) then
      m.updChan st ch fun c => { c with tgStat := 0x8000000000000000, tgLanes := 0 }
    else m

/-- MEM_TG_STOP: the run ends after the access in progress (Table 11.9). -/
def execMemTgStop (st : SliceId) (ch : ChanId) (s : State) : Out :=
  s.go fun m => m.updChan st ch fun c => { c with tgStat := c.tgStat &&& 0x7FFFFFFFFFFFFFFF }

/-- MEM_TG_DONE: the run ends with its miscompares (Table 11.10); the generator has overwritten the channel (R323). -/
def execMemTgDone (st : SliceId) (ch : ChanId) (errors first : Nat) (lanes : BitVec 76) (s : State) : Out :=
  s.go fun m =>
    let c := m.chan st ch
    if !c.tgStat.getLsbD 63 then m
    else
      let stat := (if errors = 0 then 0 else 2 ^ 62 + (first % 2 ^ 27) * 2 ^ 32) + min errors 0xFFFFFFFF
      let m := m.updChan st ch fun c => { c with tgStat := BitVec.ofNat 64 stat, tgLanes := lanes.setWidth 128 }
      -- with LOOPBACK or MIX = reads only the array is not written
      if c.tgCtl.getLsbD 52 ∨ bits c.tgCtl.toNat 57 56 = 1 then m
      else
        let mine (line : Nat) : Bool := m.stackOf (line * 128) == st.val && chanOf (line * 128) == ch.val
        m.updMem fun e => { e with
          emKey := (e.emKey.mapWhere (fun k _ => mine k) fun p => (p.1 + 256, p.2)) }

/-- A write to MEM_TG_CTL other than START and STOP (Table 11.9): reserved encodings of MODE and SIZE take the reset value. -/
def tgCtlWrite (v : BitVec 64) : BitVec 64 :=
  let x := v.toNat % 2 ^ 62
  let x := if bits x 61 60 = 3 then x - 3 * 2 ^ 60 else x
  let sz := bits x 55 54
  let x := if 2 ≤ sz then x - sz * 2 ^ 54 + 2 ^ 54 else x
  BitVec.ofNat 64 x

/-- STACK_CMD_TIMEOUT: a channel leaves a command unanswered for 10 us (R327). -/
def execStackCmdTimeout (st : SliceId) (_ch : ChanId) (s : State) : Out := s.go fun m => m.stackFail st

/-- Frames that hold the lines of a stack are those of every region; the lines of a durable kind. -/
def Mod.durableLine (m : Mod) (pa : Nat) : Bool := durableKind (kindOf (m.region (regionOf pa)))

/-- The next line, from an address up, of a durable-kind region that lies on a stack. -/
def Mod.nextDurable (m : Mod) (st : Nat) (pa : Nat) : Option Nat :=
  let rs := (m.mem.regions.keep fun k v => durableKind (kindOf v) && decide (regionOf pa ≤ k)).map Prod.fst
  match rs with
  | [] => none
  | r :: rest =>
    let inReg (r from' : Nat) : Nat :=
      -- lines of a stack in a region: field t = (st - ROT) mod 16, one line each 2 KiB
      let t := (st + 16 - rotOf (m.region r) % 16) % 16
      let b := from' / 2048 * 2048 + 128 * t
      if from' ≤ b then b else b + 2048
    let a := inReg r (max pa (r * 2 ^ 30))
    if a < (r + 1) * 2 ^ 30 then some a
    else match rest with
      | [] => none
      | r2 :: _ => some (inReg r2 (r2 * 2 ^ 30))

/-- REBUILD_START: a stack has been FAILED for 2 s; rebuild into stand-ins begins (R329). -/
def execRebuildStart (st : SliceId) (s : State) : Out :=
  s.go fun m =>
    let k := m.stack st
    if k.state == 4 && k.rebuild.isNone && !k.rebuilt then m.updStack st fun k => { k with rebuild := some 0 } else m

/-- What the redundancy of a line of a durable kind gives, without its own stack: the other line of a mirror, or the rest of its stripe. -/
def Mod.partners (m : Mod) (pa : Nat) : Option LineData :=
  let v := m.region (regionOf pa)
  let c := sameOffset (partnerOf v) pa
  if kindOf v = kMIRROR then (if m.lineUp c && m.poisoned c then none else m.member c)
  else if kindOf v = kMIRRORCOPY then m.member c
  else m.xorLines ((m.stripe (partnerOf v)).filter fun r => r != regionOf pa) pa
/-- What a durable line is rewritten from in RESYNC: its data, the line under whose key they stand, and its poison mark; none where another
member is unavailable (R330, R331). -/
def Mod.resyncSource (m : Mod) (pa : Nat) (eR : Ecc) : Option (LineData × Nat × Bool) :=
  let v := m.region (regionOf pa)
  let k := kindOf v
  let c := sameOffset (partnerOf v) pa
  let keyPa := if k = kMIRRORCOPY then c else pa
  let poison := if k = kMIRRORCOPY then m.poisoned c else false
  if dataDurable k && m.poisoned pa then some (m.emLine pa, pa, true)
  else if eR == .uncorrectable then none
  else match m.standinOf pa with
    | some a => some (m.emLine a, keyPa, poison)
    | none => (m.partners pa).map fun d => (d, keyPa, poison)
/-- Rewrite a line of a stack in RESYNC; its pointer passes it, and a line that cannot be rewritten is skipped (R331). -/
def Mod.resyncLine (m : Mod) (st pa : Nat) (eR : Ecc) : Mod :=
  if (m.stack st).fresh.has (pa / 128) then m
  else match m.resyncSource pa eR with
    | some x => (m.emStore pa x.2.1 x.1 x.2.2).count kMemRebuildLines st
    | none =>
      -- a durable write was lost with every member (R328): the line holds the poison code
      let m := if (m.stack st).poisonBlocks.has (blockOf pa) then m.setPoison pa true else m
      (m.updStack st fun k => { k with skipped := k.skipped.put (pa / 128) () }).count kMemRebuildSkip st

/-- What a durable line of a failed stack is placed in its stand-ins from (R329). -/
def Mod.standinSource (m : Mod) (pa : Nat) (eR : Ecc) : Option LineData :=
  if dataDurable (kindOf (m.region (regionOf pa))) && m.poisoned pa then some (m.emLine pa)
  else if eR == .uncorrectable then none else m.partners pa
/-- Place a line of a failed stack in its stand-ins; beyond the pool, or without a source, it is skipped (R329, R331). -/
def Mod.standinLine (m : Mod) (st pa : Nat) (eR : Ecc) : Mod :=
  let sins := m.standins st pa
  let put (m : Mod) (f : Tab Unit → Tab Unit) : Mod := m.updStack st fun k => { k with unplaced := f k.unplaced }
  if sins.length < 2 then ((put m fun t => t.put (pa / 128) ()).count kMemRebuildSkip st).raise evMemDegraded st noPart st
  else match m.standinSource pa eR with
    | some d => forEach sins (fun a m => (m.emStore a pa d (m.poisoned pa)).count kMemRebuildLines st) (put m fun t => t.del (pa / 128))
    | none => (m.updStack st fun k => { k with
        skipped := k.skipped.put (pa / 128) (), unplaced := k.unplaced.put (pa / 128) () }).count kMemRebuildSkip st

/-- A skipped line whose missing member has returned (R331). -/
def Mod.retryable (m : Mod) (st : Nat) (eR : Ecc) : Option Nat :=
  let down := (m.stack st).state == 4
  ((m.stack st).skipped.map Prod.fst).find? fun l =>
    if down then (m.standins st (128 * l)).length == 2 && (m.standinSource (128 * l) eR).isSome else (m.resyncSource (128 * l) eR).isSome

/-- REBUILD_STEP: the stripe owner retries a line it skipped, or places the next durable line in its stand-ins, or, in RESYNC, rewrites it in its
own stack (R329-R331). -/
def execRebuildStep (st : SliceId) (eR : Ecc) (s : State) : Out :=
  s.go fun m =>
    let k := m.stack st
    match (if k.state == 3 then none else m.retryable st eR) with
    | some l =>
      let m := m.updStack st fun k => { k with skipped := k.skipped.del l }
      if k.state == 4 then m.standinLine st (128 * l) eR else m.resyncLine st (128 * l) eR
    | none =>
      if k.state == 5 then
        match m.nextDurable st k.resync with
        | none => m
        | some pa => (m.resyncLine st pa eR).updStack st fun k => { k with resync := pa + 128 }
      else match k.rebuild with
        | none => m
        | some from' =>
          match m.nextDurable st from' with
          | none => m.updStack st fun k => { k with rebuild := none, rebuilt := true }
          | some pa => (m.standinLine st pa eR).updStack st fun k => { k with rebuild := some (pa + 128) }

/-- Entry into RESYNC (R330): on return from PARKED, every line in a marked block takes the poison code; on return from
FAILED, every non-durable line of the stack does. -/
def Mod.enterResync (m : Mod) (st : Nat) (fromFailed : Bool) : Mod :=
  let lost := (m.stack st).lostMap
  let hit (line : Nat) : Bool :=
    m.stackOf (line * 128) == st && !(durableKind (kindOf (m.region (regionOf (line * 128))))) &&
      (fromFailed || lost.has (blockOf (line * 128)))
  let m := m.updMem fun e => { e with emPoison := e.emPoison.keep fun l _ => !hit l }
  m.updStack st fun k => { k with
    state := 5, resync := 0, selfRefresh := false, fromFailed := fromFailed, lostMap := [], skipped := [], fresh := [],
    poisonAll := k.poisonAll || fromFailed,
    poisonBlocks := lost.foldl (fun t e => t.put e.1 ()) k.poisonBlocks }

/-- RESYNC_END: the rebuild pointer has passed every line; the stack is ONLINE again and its stand-ins are released
(R330). -/
def execResyncEnd (st : SliceId) (s : State) : Out :=
  s.go fun m =>
    let k := m.stack st
    if k.state == 5 ∧ (m.nextDurable st k.resync).isNone then
      m.updStack st fun k => { k with state := if k.refresh2x then 2 else 1, rebuild := none, rebuilt := false, fromFailed := false, resync := 0, fresh := [], unplaced := [] }
    else m

/-- MEM_TRAIN_STEP_DONE: one training step of a channel ends (Table 11.7, R320, R321, R324). A step that fails is tried
again, three attempts in all; then loop-back runs and MEM_TRAIN_FAIL reports its result. -/
def execMemTrainStepDone (st : SliceId) (ch : ChanId) (ok : Bool) (weak : List (Fin 76)) (weakCa : List (Fin 12))
    (loopback : Bool) (s : State) : Out :=
  s.go fun m =>
    let k := m.stack st
    let c := m.chan st ch
    if m.mod.mstate.val < 3 ∨ 5 < m.mod.mstate.val ∨ k.state ≠ 0 ∨ 6 ≤ c.step then m
    else
      let c := if c.step = 3 ∧ ok then { c with weak := weak.map (·.val), weakCa := weakCa.map (·.val) } else c
      let spared := if c.step = 4 then spareMapFor c.weak c.weakCa else some c.spareMap
      match ok && spared.isSome, spared with
      | true, some sm =>
        -- a warm BRINGUP runs steps 1 to 5 only (19 R555)
        let next := if m.mod.warm && c.step = 4 then 6 else c.step + 1
        let m := m.updChan st ch fun _ => { c with step := next, attempts := 0, spareMap := sm }
        if !(m.stackTrained st) then m
        else if k.was = 0 then m.updStack st fun k => { k with state := 1, fromFailed := false, selfRefresh := false }
        else (m.enterResync st (k.was == 2)).updStack st fun k => { k with was := 0 }
      | _, _ =>
        if c.attempts + 1 < 3 then m.updChan st ch fun _ => { c with attempts := c.attempts + 1 }
        else
          let m := m.updChan st ch fun _ => { c with attempts := 3 }
          (m.raise evMemTrainFail st noPart (st + 256 * ch + 65536 * b2n loopback)).stackFail st

end Sys2Proof.Machine
end

