-- ==== Sys2Proof/Machine/Mesh.lean ====
section
/-! DEFINITION. Paths of the on-chip networks (spec 09 R272-R276) and the credits of their ports (R278). Routers are named by
the tile they serve: half * 64 + row * 8 + column. -/

namespace Sys2Proof.Machine

/-! Seats of end nodes (Table 9.2, R274, R275). -/

/-- Router of an end node on a mesh, and the router's port to it. -/
def nodeSeat (node : Nat) : Option (Nat × Fin 5) :=
  if node < 1024 then some (node, 0)
  else if node < 1152 then some ((node - 1024) / 8 * 64 + (node - 1024) % 8 * 8, 4)
  else if 1200 ≤ node ∧ node < 1456 then
    let h := (node - 1200) / 16
    let b := (node - 1200) % 16
    some (if b < 8 then (h * 64 + b * 8 + 7, 2) else (h * 64 + 56 + (b - 8), 3))
  else none

/-- Router of gateway `q` of a compute die (R275). -/
def gateRouter (die q : Nat) : Nat := (2 * die + q % 2) * 64 + 2 * (q / 2)

/-- Compute die of an end node, or the I/O die it lies on or behind (07 Table 7.1, 17 R502); reserved numbers name none. -/
def nodeDie (node : Nat) : Option (Nat ⊕ Nat) :=
  if node < 1024 then some (.inl (node / 128))
  else if node < 1152 then some (.inl ((node - 1024) / 16))
  else if node < 1184 then some (.inr ((node - 1152) / 8))
  else if node < 1200 then some (.inr (if node < 1192 then 1 else 3))
  else if node < 1456 then some (.inl ((node - 1200) / 32))
  else if node < 1520 then some (.inl ((node - 1456) / 8))
  else none

/-- Node number of the slice bank that serves a line (R274). -/
def bankNode (slice line : Nat) : Nat := 1200 + 16 * slice + line / 16 % 16

/-! One hop (R273, R276). -/

/-- The port on which a router sends towards a router of its die, and the router behind it: columns first, then rows, over the
seam at the column reached; `last` is the port taken at the router itself. -/
def stepTo (router dst : Nat) (last : PortRef × Option Nat) : PortRef × Option Nat :=
  let port (i : Fin 5) : PortRef := .router (Fin.ofNat 1024 router) i
  let r := router / 8 % 8
  let r1 := dst / 8 % 8
  let c := router % 8
  let c1 := dst % 8
  if c < c1 then (port 2, some (router + 1))
  else if c1 < c then (port 4, some (router - 1))
  else if router / 64 ≠ dst / 64 then
    if r = 0 then
      (.seam (Fin.ofNat 8 (router / 128)) (Fin.ofNat 8 c) (Fin.ofNat 2 (router / 64)),
        some (if router / 64 % 2 = 0 then router + 64 else router - 64))
    else (port 1, some (router - 8))
  else if r < r1 then (port 3, some (router + 8))
  else if r1 < r then (port 1, some (router - 8))
  else last

/-- Gateway by which a compute die reaches a die: the one that serves it, and for another pair's I/O die the one that serves the pair's
even compute die (01 R21). -/
def gateTowards (die : Nat) : Nat ⊕ Nat → Nat
  | .inl d => d
  | .inr k => if iodOfDie die = k then die else 2 * k

/-- Gateway by which a flit leaves a compute die for another: the direct one, or while the link is away and its traffic runs by detour the
one towards the third die (17 R501). -/
def Mod.gateVia (m : Mod) (die q node : Nat) : Nat :=
  let l := m.link (8 * die + q)
  if l.detour && l.state != 4 then (m.detourVia (8 * die + q) node).getD q else q

/-- Next hop of a flit: port, and the router behind it, or none where it leaves the meshes. -/
def Mod.nextHop (m : Mod) (router node : Nat) : Option (PortRef × Option Nat) :=
  let die := router / 128
  let viaGate (q : Nat) (onward : Option Nat) : PortRef × Option Nat :=
    stepTo router (gateRouter die q) (.gateway (Fin.ofNat 8 die) (Fin.ofNat 8 q), onward)
  match nodeDie node with
  | none => none
  | some d =>
    if d = .inl die then
      match nodeSeat node with
      | some (t, i) => some (stepTo router t (.router (Fin.ofNat 1024 t) i, none))
      | none => some (viaGate ((node - 1456) % 8) none)
    else
      let q := gateTowards die d
      if q = die then some (viaGate q none)
      else let v := m.gateVia die q node; some (viaGate v (some (gateRouter v die)))

/-- Ports on the way from a router to an end node. -/
def Mod.nodePath (m : Mod) (node : Nat) : Nat → Nat → List PortRef
  | 0, _ => []
  | n + 1, router => match m.nextHop router node with
    | none => []
    | some (p, none) => [p]
    | some (p, some r) => p :: m.nodePath node n r
/-- Routers of a path: at most 15 in a mesh, two meshes on each of three dies (R273, R276; 17 R501). -/
def pathFuel : Nat := 96

/-! Credits (R278). -/

/-- Key of a link's credits: port, network, virtual channel. -/
def creditKey (p : PortRef) (n : Net) (vc : Nat) : Nat :=
  let base := match p with
    | .router t i => t.val * 5 + i.val
    | .seam d c s => 5120 + (d.val * 8 + c.val) * 2 + s.val
    | .gateway d g => 5248 + d.val * 8 + g.val
  let net := match n with
    | .bn => 0
    | .cn => 1
    | .sn => 2
  (base * 3 + net) * 3 + vc
/-- Buffer entries behind a link's credits. -/
def creditCap (n : Net) (vc : Nat) : Nat :=
  match n with
  | .bn => if vc = 1 then 4 else 8
  | .cn => 4
  | .sn => 8
/-- Has a port no credit left on a virtual channel of the bulk network? -/
def Mod.noCredit (m : Mod) (p : PortRef) (vc : Nat) : Bool :=
  decide (creditCap .bn vc ≤ m.net.spent.getD (creditKey p .bn vc) 0)
/-- A flit of a virtual channel of the bulk network spends a credit. -/
def Mod.spend (m : Mod) (p : PortRef) (vc : Nat) : Mod :=
  { m with net := { m.net with spent := m.net.spent.upd (creditKey p .bn vc) 0 (· + 1) } }
/-- The receiver of a link has freed a buffer entry: the credit is on its way back. -/
def Mod.vacate (m : Mod) (key : Option Nat) : Mod :=
  match key with
  | some k => { m with net := { m.net with freed := m.net.freed.upd k 0 (· + 1) } }
  | none => m
/-- First port without credit on the way from a router to an end node. -/
def Mod.stopOf (m : Mod) (router node vc : Nat) : Option PortRef :=
  (m.nodePath node pathFuel router).find? fun p => m.noCredit p vc

/-- Router that owns a port, for its counters. -/
def routerOf : PortRef → Nat
  | .router t _ => t.val
  | .seam d c s => (2 * d.val + s.val) * 64 + c.val
  | .gateway d g => gateRouter d.val g.val

end Sys2Proof.Machine
end

