-- ==== Sys2Proof/Machine/Cache.lean ====
section
/-! DEFINITION. The unified cache and the coherence protocol (specs 06, 07): homes, ways and victims, directory entries, the
message-level protocol, and whole accesses made of it. -/

namespace Sys2Proof.Machine

/-! Line keys, homes, sets (06 R185, R194). -/

def psKey : Nat := 2 ^ 34
def isPs (k : Nat) : Bool := decide (psKey ≤ k)
/-- The key of the line a command names. -/
def lineKey (r : LineRef) : Nat := if r.ps then psKey + (r.addr % 2 ^ 31) / 128 else (r.addr % 2 ^ 41) / 128
def emKeyOf (pa : Nat) : Nat := pa / 128
def psKeyOf (a : Nat) : Nat := psKey + a / 128
def linePa (k : Nat) : Nat := k * 128
def psAddr (k : Nat) : Nat := (k - psKey) * 128

/-- Home slice (R185 for EM, R194 for PS). -/
def homeOf (k : Nat) : Nat :=
  if isPs k then (k - psKey) % 16
  else ((List.range 9).foldl (fun h i => h ^^^ bits k (4 * i + 3) (4 * i)) 0) % 16
/-- Set within the slice. -/
def setOf (k : Nat) : Nat := if isPs k then bits (k - psKey) 19 4 else bits k 19 4
/-- Way slot of a PS line. -/
def slotOf (k : Nat) : Nat := bits (k - psKey) 23 20

/-! Pin extents (R195, R205). -/

def unitOf (a : Nat) : Nat := a / 2 ^ 21
/-- The extent that holds a pinned address. -/
def Mod.extentAt (m : Mod) (a : Nat) : Option Extent :=
  m.cache.extents.find? fun e => decide (e.base ≤ unitOf a ∧ unitOf a < e.base + e.units)
/-- May a partition access a pinned address (05 R161)? -/
def Mod.psOwned (m : Mod) (p a : Nat) : Bool := match m.extentAt a with
  | some e => e.part == p
  | none => false
/-- Backing physical address of a pinned address. -/
def backingPa (e : Extent) (a : Nat) : Option Nat :=
  let off := a - e.base * 2 ^ 21
  match e.backing[off / 65536]? with
  | some pg => some (pg * 65536 + off % 65536)
  | none => none

/-- Is a way of a set reserved for a pin extent (R189, R195)? -/
def Mod.wayReserved (m : Mod) (set way : Nat) : Bool :=
  decide (4 ≤ way) && m.cache.extents.any fun e =>
    e.demoted == 0 && decide (e.base ≤ (way - 4) * 64 + set / 1024 ∧ (way - 4) * 64 + set / 1024 < e.base + e.units)

/-- Ways dedicated to STRICT partitions (15 Table 15.3). -/
def Mod.strictWays (m : Mod) : BitVec 16 :=
  m.parts.parts.foldl (fun w e => if e.2.strict && e.2.st != .none then w ||| e.2.waymask else w) 0
/-- May an ordinary line of partition `p` be allocated in a way (R190)? -/
def Mod.wayAllowed (m : Mod) (p way : Nat) : Bool :=
  let x := m.part p
  if x.strict && x.st != .none then x.waymask.getLsbD way else !m.strictWays.getLsbD way

/-! Replacement (R189). -/

/-- The 15-bit tree after a use of a way: each node on the path points away from it. -/
def plruTouch (t way : Nat) : Nat :=
  let step (acc : Nat × Nat) (b : Nat) : Nat × Nat :=
    let d := (way / 2 ^ b) % 2
    let i := acc.2 - 1
    let cleared := acc.1 - (acc.1 / 2 ^ i % 2) * 2 ^ i
    (cleared + (1 - d) * 2 ^ i, 2 * acc.2 + d)
  ([3, 2, 1, 0].foldl step (t, 1)).1

/-- The way the tree points to among those permitted. -/
def plruVictim (t : Nat) (ok : Nat → Bool) : Option Nat :=
  let anyIn (lo n : Nat) : Bool := (List.range n).any fun i => ok (lo + i)
  let step (acc : Nat × Nat) (b : Nat) : Nat × Nat :=
    let half := 2 ^ b
    let d := t / 2 ^ (acc.1 - 1) % 2
    let d := if anyIn (acc.2 + d * half) half then d else 1 - d
    (2 * acc.1 + d, acc.2 + d * half)
  if anyIn 0 16 then some ([3, 2, 1, 0].foldl step (1, 0)).2 else none

def Mod.line? (m : Mod) (k : Nat) : Option Line := Tab.find k m.cache.lines
def Mod.setLine (m : Mod) (k : Nat) (l : Line) : Mod := m.updCache fun c => { c with lines := c.lines.put k l }
def Mod.dropLine (m : Mod) (k : Nat) : Mod := m.updCache fun c => { c with lines := c.lines.del k }
def plruKey (k : Nat) : Nat := homeOf k * 65536 + setOf k
def Mod.touch (m : Mod) (k way : Nat) : Mod :=
  m.updCache fun c => { c with plru := c.plru.upd (plruKey k) 0 fun t => plruTouch t way }

/-! Copies in caching agents. -/

def l1Key (a k : Nat) : Nat := a * 2 ^ 36 + k
def Mod.l1 (m : Mod) (a k : Nat) : Option L1Line := Tab.find (l1Key a k) m.cache.l1
def Mod.setL1 (m : Mod) (a k : Nat) (v : L1Line) : Mod := m.updCache fun c => { c with l1 := c.l1.put (l1Key a k) v }
def Mod.delL1 (m : Mod) (a k : Nat) : Mod := m.updCache fun c => { c with l1 := c.l1.del (l1Key a k) }
/-- Agents that hold a copy of a line. -/
def Mod.l1Holders (m : Mod) (k : Nat) : List Nat := (m.cache.l1.keep fun j _ => j % 2 ^ 36 == k).map fun e => e.1 / 2 ^ 36

/-- Caching agents: tile L1 portions, and expansion agents in mode CACHING (07 R220, Table 7.6). -/
def Mod.caching (m : Mod) (a : Nat) : Bool :=
  decide (a < 1024) || (decide (1184 ≤ a ∧ a < 1200) && m.cache.ncMode.getD a 0 == 2)
/-- Numbers that name an agent (07 Table 7.1). -/
def agentDefined (a : Nat) : Bool := decide (a < 1200) && !(decide (1152 ≤ a ∧ a < 1184) && decide (5 ≤ a % 8))
/-- Agents that write non-cachingly (07 Table 7.1). -/
def Mod.nonCaching (m : Mod) (a : Nat) : Bool := agentDefined a && decide (1024 ≤ a) && !m.caching a
/-- Half of an agent (07 Table 7.1); I/O-die and expansion agents lie in none. -/
def agentHalf (a : Nat) : Option Nat :=
  if a < 1024 then some (halfOfTile a) else if a < 1152 then some ((a - 1024) / 8) else none
/-- Agents whose requests carry a partition and are compared with the frame's key tag (19 R550). -/
def carriesPart (a : Nat) : Bool :=
  decide (a < 1152) || (decide (1152 ≤ a ∧ a < 1184) && (a % 8 == 3 || a % 8 == 4)) || decide (1184 ≤ a)
/-- Die of an agent, for its events. -/
def agentFaultCode (a : Nat) : BitVec 32 := if a < 1024 then evTileFault else evXsFault

/-! Directory entries (07 Table 7.3, R224). -/

/-- Agents an entry names as S holders; a coarse bit covers 32 tiles or an expansion site. -/
def Dir.sharers (d : Dir) : List AgentId :=
  if d.coarse then
    ((List.range 32).filter fun i => d.cvec.getLsbD i).flatMap (fun i => (List.range 32).map fun j => Fin.ofNat 2048 (32 * i + j)) ++
    ((List.range 2).filter fun s => d.xvec.getLsbD s).flatMap (fun s => (List.range 8).map fun j => Fin.ofNat 2048 (1184 + 8 * s + j))
  else d.ptrs

/-- Everyone an entry names. -/
def Dir.holders (d : Dir) : List AgentId :=
  match d.dstate.val with
  | 0 => []
  | 1 => d.sharers
  | 2 => d.fwd :: d.sharers.filter (· != d.fwd)
  | _ => [d.fwd]

/-- Coarse vectors that cover a list of agents. -/
def coarseOf (l : List AgentId) : BitVec 2 × BitVec 32 :=
  l.foldl (fun v a =>
    if a.val < 1024 then (v.1, v.2 ||| BitVec.ofNat 32 (2 ^ (a.val / 32)))
    else (v.1 ||| BitVec.ofNat 2 (2 ^ ((a.val - 1184) / 8)), v.2)) (0, 0)

/-- Add an S holder (R224): a fifth converts the entry to coarse form. -/
def Dir.addSharer (d : Dir) (a : AgentId) : Dir :=
  if d.coarse then
    let v := coarseOf [a]
    { d with xvec := d.xvec ||| v.1, cvec := d.cvec ||| v.2 }
  else if d.ptrs.contains a then d
  else if d.ptrs.length < 4 then { d with ptrs := d.ptrs ++ [a] }
  else
    let v := coarseOf (d.ptrs ++ [a])
    { d with coarse := true, ptrs := [], xvec := v.1, cvec := v.2 }

/-- Does an entry still name an agent as S or F holder (R231)? -/
def Dir.names (d : Dir) (a : AgentId) : Bool := (d.dstate == 1 || d.dstate == 2) && d.holders.contains a

/-- DI and DX, always in pointer form. -/
def dirDI : Dir := {}
def dirDX (a : AgentId) : Dir := { dstate := 3, fwd := a }

/-- The 64-bit entry of Table 7.3. -/
def Dir.word (d : Dir) : BitVec 64 :=
  let low := if d.coarse then d.xvec.toNat * 2 ^ 32 + d.cvec.toNat
    else (d.ptrs.zipIdx).foldl (fun a p => a + p.1.val * 2 ^ (11 * p.2)) 0
  BitVec.ofNat 64 (d.dstate.val * 2 ^ 61 + b2n d.busy * 2 ^ 60 + b2n d.coarse * 2 ^ 59 +
    (if 2 ≤ d.dstate.val then d.fwd.val * 2 ^ 48 else 0) + (if d.coarse then 0 else d.ptrs.length * 2 ^ 45) + low)

/-! Lookups and their counters (06 R201, R217, R219). -/

/-- The class a lookup counts in (06 R200, R219). -/
def countClass (k cls : Nat) : Nat := if isPs k then 3 else if cls = 3 then 7 else cls % 8

/-- Count a lookup of a line at its home; hits are lines present and not poisoned. -/
def Mod.lookup (m : Mod) (k cls part : Nat) : Mod :=
  let h := homeOf k
  let c := countClass k cls
  let hit := match m.line? k with
    | some l => !l.poison
    | none => false
  let m := m.count (kCchLkp0 + c) h
  let m := if hit then m.count (kCchHit0 + c) h else m
  let reserved := isPs k && m.wayReserved (setOf k) (4 + slotOf k)
  if reserved then m
  else m.updCache fun e => { e with
    win := let f (p : Nat × Nat) := (p.1 + 1, p.2 + b2n hit)
           (e.win.upd (h * 256 + 255) (0, 0) f).upd (h * 256 + part % 128) (0, 0) f }

/-! Lines at their home (06 R188, R191-R193, R205; 07 R233). -/

/-- The 128 bytes of a slice's bitmap that hold the bit of a frame, bit 0 of byte 0 first (log 72). -/
def Half.dirtyLine (x : Half) (f : Nat) : LineData :=
  BitVec.ofNat 1024 (x.dirtyFrames.foldl (fun n e => if e.1 / 1024 = f / 1024 then n ||| 2 ^ (e.1 % 1024) else n) 0)
/-- The bit of a frame is written through to EM, where the slice keeps its bitmap (18 R515). -/
def Mod.putDirtyBit (m : Mod) (h f : Nat) : Mod :=
  let pa := m.parN pFtDirtymapBase + 2 ^ 22 * h + 128 * (f / 1024)
  if paLimit < pa + 128 then m
  else
    let d := (m.half h).dirtyLine f
    let m := (m.memWriteLine pa d false).1
    match m.line? (emKeyOf pa) with
    | some l => m.setLine (emKeyOf pa) { l with data := d }
    | none => m
/-- Mark a frame dirty in the slice's bitmap before its first dirty line (18 R515). -/
def Mod.markDirtyFrame (m : Mod) (k : Nat) : Mod :=
  let f := linePa k / 65536
  if isPs k || m.parN pFtDirtymapBase == 0 || (m.half (homeOf k)).dirtyFrames.has f then m
  else (m.updHalf (homeOf k) fun h => { h with dirtyFrames := h.dirtyFrames.put f () }).putDirtyBit (homeOf k) f
/-- Frames of which a slice holds a dirty line, or an agent a modified copy. -/
def Mod.dirtyFramesOf (m : Mod) (h : Nat) : List Nat :=
  let mine (k : Nat) : Bool := !isPs k && homeOf k == h
  ((m.cache.lines.filter fun l => mine l.1 && l.2.dirty).map fun l => linePa l.1 / 65536) ++
    ((m.cache.l1 ++ m.cache.wbuf).filter fun l => mine (l.1 % 2 ^ 36) && l.2.st == .M).map fun l => linePa (l.1 % 2 ^ 36) / 65536
/-- The bitmaps of the sixteen slices as a whole, at their new place. -/
@[irreducible] def Mod.putDirtyMap (m : Mod) : Mod :=
  forEach (List.range 16) (fun h m => forEach (List.range 32768) (fun i m => m.putDirtyBit h (1024 * i)) m) m
/-- A change of FT_DIRTYMAP_BASE: the bitmaps start with the frames that are dirty now. -/
def Mod.moveDirtyMap (m : Mod) : Mod :=
  let m := forEach (List.range 16) (fun h m =>
    let fs := m.dirtyFramesOf h
    m.updHalf h fun x => { x with dirtyFrames := fs.foldl (fun t f => t.put f ()) [] }) m
  if m.parN pFtDirtymapBase == 0 then m else m.putDirtyMap
/-- Clear the bit of a frame. -/
def Mod.clearDirtyFrame (m : Mod) (h f : Nat) : Mod :=
  let n := m.updHalf h fun x => { x with dirtyFrames := x.dirtyFrames.del f }
  if m.parN pFtDirtymapBase == 0 then n else n.putDirtyBit h f

def Mod.setDir (m : Mod) (k : Nat) (d : Dir) : Mod := match m.line? k with
  | some l => m.setLine k { l with dir := d }
  | none => m

/-- The slice line takes new contents; those of a durable line go to the controllers, and where they are not performed every later read
meets poison (R191, R192, 11 R328). Answers whether the write was performed. -/
def Mod.lineTake (m : Mod) (k : Nat) (d : LineData) (poison : Bool) : Mod × Bool :=
  match m.line? k with
  | none => (m, true)
  | some l =>
    if !isPs k && m.durable (linePa k) then
      let r := m.memWriteLine (linePa k) d poison
      (r.1.setLine k { l with data := d, poison := poison || !r.2, dirty := false }, r.2)
    else ((m.setLine k { l with data := d, poison := poison, dirty := true }).markDirtyFrame k, true)

/-- The home takes the data of an M copy with its poison mark; a line that turns poisoned counts in CCH_UE (R193, 07 R233). -/
def Mod.takeData (m : Mod) (k : Nat) (d : LineData) (poison : Bool) : Mod :=
  let m := match m.line? k with
    | some l => if poison && !l.poison then m.count kCchUe (homeOf k) else m
    | none => m
  (m.lineTake k d poison).1

/-- The copy a forward to an agent is served from: the agent's copy, else its write-back buffer (07 R232). -/
def Mod.copyOf (m : Mod) (a k : Nat) : Option L1Line := match m.l1 a k with
  | some c => some c
  | none => Tab.find (l1Key a k) m.cache.wbuf
/-- A write-back buffer has given its data up: it waits for PUT_ACK with nothing to give. -/
def Mod.spendBuf (m : Mod) (a k : Nat) : Mod :=
  m.updCache fun c => { c with wbuf := c.wbuf.adj (l1Key a k) fun x => { x with st := .S } }

/-- The M copy of a line, where the directory names its holder (07 R222). -/
def Mod.ownerM (m : Mod) (k : Nat) : Option L1Line :=
  match m.line? k with
  | none => none
  | some l => if l.dir.dstate == 3 then (m.copyOf l.dir.fwd k).filter (·.st == .M) else none

/-- Remove every copy of a line from the caching agents at once, taking dirty data into the slice unless it is discarded. -/
def Mod.recall (m : Mod) (k : Nat) (discard : Bool) : Mod :=
  let m := m.countBy kCchInvSent (homeOf k) (match m.line? k with
    | some l => l.dir.holders.length
    | none => 0)
  let m := if discard then m else match m.ownerM k with
    | some c => m.takeData k c.data c.poison
    | none => m
  (m.updCache fun c => { c with
    l1 := c.l1.keep fun j _ => j % 2 ^ 36 != k,
    wbuf := c.wbuf.mapWhere (fun j _ => j % 2 ^ 36 == k) fun x => { x with st := .S } }).setDir k dirDI

/-! Backing lines of demoted extents, coherent with the EM line (R197, R205). -/

/-- Read a backing line: the M copy, else the slice, else memory. -/
def Mod.backRead (m : Mod) (pa : Nat) (e : Ecc) : LineRes × Mod :=
  let k := emKeyOf pa
  match m.ownerM k, m.line? k with
  | some c, _ => (⟨c.data, c.poison⟩, m)
  | none, some l => (⟨l.data, l.poison⟩, m)
  | none, none => m.memReadLine pa e .ok 0
/-- Write a backing line: copies go, and a slice that holds the line takes the write. -/
def Mod.backWrite (m : Mod) (pa : Nat) (d : LineData) (poison : Bool) : Mod :=
  let k := emKeyOf pa
  if (m.line? k).isSome then ((m.recall k true).lineTake k d poison).1 else (m.memWriteLine pa d poison).1
/-- A line of an extent has left its way for its backing line. -/
def Mod.markGone (m : Mod) (a : Nat) : Mod :=
  let mark (e : Extent) : Extent :=
    if e.base ≤ unitOf a ∧ unitOf a < e.base + e.units then { e with gone := e.gone.put (a / 128) () } else e
  m.updCache fun c => { c with extents := c.extents.map mark }

/-- A line without copies leaves its slice: dirty data is written to EM, or to the backing of a demoted extent. -/
def Mod.evictNow (m : Mod) (k : Nat) : Mod :=
  match m.line? k with
  | none => m
  | some l =>
    let m := m.dropLine k
    let out := l.dirty || l.poison
    if isPs k then
      match m.extentAt (psAddr k) with
      | some e => match backingPa e (psAddr k) with
        | some pa => (if out then m.backWrite pa l.data l.poison else m).markGone (psAddr k)
        | none => m
      | none => m
    else if out then (m.memWriteLine (linePa k) l.data l.poison).1 else m

/-- Key of the PS line that a way of a set holds under R194. -/
def psLineAt (h set way : Nat) : Nat := psKey + (way - 4) * 2 ^ 20 + set * 16 + h
/-- The demoted extent whose line of zeros, not listed, stands in a way of a set. -/
def Mod.zeroAt (m : Mod) (h set way : Nat) : Option Extent :=
  if way < 4 then none
  else
    let k := psLineAt h set way
    match m.extentAt (psAddr k) with
    | some e => if e.demoted ≠ 0 && e.zeroed && !e.gone.has (psAddr k / 128) && (m.line? k).isNone then some e else none
    | none => none

/-- Where a new line of a set goes (R189, R190). -/
inductive WayFor where
  /-- A way that holds nothing. -/
  | free (way : Nat)
  /-- A way that holds the unlisted line of zeros of a demoted extent. -/
  | zeros (way : Nat)
  /-- The way of a victim line. -/
  | victim (key : Nat)
  /-- Every way the partition may use is reserved or BUSY: the line waits. -/
  | wait
  deriving DecidableEq, Repr

/-- Choose a place: the reserved way of a line of a live extent; else an invalid way, the oldest evictable-first line, the tree's victim. -/
def Mod.place (m : Mod) (k part : Nat) : WayFor :=
  let h := homeOf k
  let set := setOf k
  if isPs k && m.wayReserved set (4 + slotOf k) then .free (4 + slotOf k)
  else
    let mine := m.cache.lines.keep fun j _ => homeOf j == h && setOf j == set
    let lineAt (w : Nat) : Option (Nat × Line) := mine.find? fun e => e.2.way.val == w
    let cands := (List.range 16).filter fun w => m.wayAllowed part w && !m.wayReserved set w && (match lineAt w with
      | some e => !e.2.dir.busy
      | none => true)
    match cands.find? fun w => (lineAt w).isNone && (m.zeroAt h set w).isNone with
    | some w => .free w
    | none =>
      let marked : List (Nat × Nat) := cands.filterMap fun w => match lineAt w with
        | some e => if e.2.evictFirst = 0 then none else some (e.2.evictFirst, w)
        | none => (m.zeroAt h set w).map fun e => (e.demoted, w)
      let way : Option Nat := match marked with
        | x :: r => some (r.foldl (fun b y => if y.1 < b.1 then y else b) x).2
        | [] => plruVictim (m.cache.plru.getD (h * 65536 + set) 0) fun w => cands.contains w
      match way with
      | none => .wait
      | some w => match lineAt w with
        | some e => .victim e.1
        | none => .zeros w

/-- Put a line into a way of its set. -/
def Mod.install (m : Mod) (k way cls : Nat) (d : LineData) (dirty poison : Bool) : Mod :=
  let tag : BitVec 8 := if isPs k then 0xFE else m.tagOf (linePa k)
  let l : Line := { way := Fin.ofNat 16 way, cls := Fin.ofNat 8 cls, dirty := dirty, poison := poison, keyTag := tag, data := d }
  let m := (m.setLine k l).touch k way
  if dirty then m.markDirtyFrame k else m

/-- What a PS line of an extent that the slice does not list holds: zeros (none), or its backing line (R196, R205, R206). -/
def Mod.psAbsent (m : Mod) (k : Nat) : Option (Option Nat) :=
  match m.extentAt (psAddr k) with
  | none => none
  | some e => if e.zeroed && !e.gone.has (psAddr k / 128) then some none else some (backingPa e (psAddr k))

/-- The write of a request into a line of the slice (R191-R193, 07 R240). -/
def mergeLine (be : BitVec 128) (old new : LineData) : LineData :=
  lineOf (((bytesOf old).zip (bytesOf new)).zipIdx.map fun p => if be.getLsbD p.2 then p.1.2 else p.1.1)
def fullLine (be : BitVec 128) : Bool := be == BitVec.allOnes 128

/-! Fostered lines (18 R513, R514, R516). -/

/-- The foster home of a line whose slice has failed. -/
def Mod.foster (m : Mod) (k : Nat) : Option SliceId := (m.half (homeOf k)).foster

/-- Is a PS line lost with its slice (18 R517)? -/
def Mod.psLost (m : Mod) (k : Nat) : Bool :=
  isPs k && ((m.half (homeOf k)).state == 4 || (match m.extentAt (psAddr k) with
    | some e => e.lost
    | none => false))

/-- Is a fostered line lost (18 R516)? -/
def Mod.fosterLost (m : Mod) (k : Nat) : Bool :=
  let h := m.half (homeOf k)
  !(m.durable (linePa k)) && (m.parN pFtDirtymapBase == 0 || h.lostFrames.has (linePa k / 65536)) && !(h.rewritten.has k)

/-- A read of a fostered line: a fresh EM read (18 R514). -/
def Mod.fosterRead (m : Mod) (k cls : Nat) : LineRes × Mod :=
  let m := (m.count (kCchLkp0 + countClass k cls) (homeOf k)).count kFtFosterAcc (homeOf k)
  let r := m.memReadLine (linePa k) .ok .ok 0
  (⟨r.1.data, r.1.poison || m.fosterLost k⟩, r.2)

/-- A write of a fostered line: read, merge, write at the controllers (18 R514); whether it was performed. -/
def Mod.fosterWrite (m : Mod) (k cls : Nat) (be : BitVec 128) (d : LineData) : Mod × Bool :=
  let r := m.fosterRead k cls
  let w := r.2.memWriteLine (linePa k) (mergeLine be r.1.data d) (r.1.poison && !fullLine be)
  (if fullLine be then w.1.updHalf (homeOf k) fun h => { h with rewritten := h.rewritten.put k () } else w.1, w.2)

/-! The partition comparison (19 R550). -/

/-- Is an access by an agent for a partition accepted? -/
def Mod.tagAccepts (m : Mod) (a p k : Nat) (write : Bool) : Bool :=
  if !carriesPart a || isPs k then true
  else
    let t := (m.tagOf (linePa k)).toNat
    t == p || (decide (0x81 ≤ t ∧ t ≤ 0x8F) &&
      (!write || (p == 0 && (match Tab.find (t - 0x80) m.parts.shr with
        | some v => v.1 == 1
        | none => false))))

/-! The protocol. -/

def reqKey (a k : Nat) : Nat := a * 2 ^ 36 + k
def Mod.req? (m : Mod) (a k : Nat) : Option Req := Tab.find (reqKey a k) m.cache.reqs
def Mod.setReq (m : Mod) (k : Nat) (r : Req) : Mod := m.updCache fun c => { c with reqs := c.reqs.put (reqKey r.agent k) r }
def Mod.delReq (m : Mod) (a k : Nat) : Mod := m.updCache fun c => { c with reqs := c.reqs.del (reqKey a k) }
def Mod.send (m : Mod) (x : Msg) : Mod := m.updCache fun c => { c with net := c.net ++ [x] }
def Mod.busy (m : Mod) (k : Nat) : Bool := m.cache.txns.has k
def Mod.setBusy (m : Mod) (k : Nat) (t : Txn) : Mod :=
  let m := m.updCache fun c => { c with txns := c.txns.put k t }
  match m.line? k with
  | some l => m.setLine k { l with dir := { l.dir with busy := true } }
  | none => m
def Mod.clearBusy (m : Mod) (k : Nat) : Mod :=
  let m := m.updCache fun c => { c with txns := c.txns.del k }
  match m.line? k with
  | some l => m.setLine k { l with dir := { l.dir with busy := false } }
  | none => m
/-- Forget a line's tag in the dead-tag filter (R211). -/
def Mod.undead (m : Mod) (k : Nat) : Mod :=
  m.updCache fun c => { c with deadTags := c.deadTags.upd (homeOf k) [] fun l => l.filter (· != k) }

/-- Write bytes of the slice line (R191, R192); whether the write was performed. The line is present. -/
def Mod.sliceWrite (m : Mod) (k : Nat) (be : BitVec 128) (d : LineData) : Mod × Bool :=
  match m.line? k with
  | none => (m, true)
  | some l => (m.undead k).lineTake k (mergeLine be l.data d) (l.poison && !fullLine be)

/-- Drop a line that is marked dead (R208, R212). -/
def Mod.dropDead (m : Mod) (k : Nat) : Mod :=
  match m.line? k with
  | none => m
  | some l =>
    let h := homeOf k
    let m := if l.poison then m.count kCchPoisonDrop h else m
    (m.dropLine k).updCache fun c => { c with
      deadTags := c.deadTags.upd h [] fun q =>
        let q := q.filter (· != k) ++ [k]
        q.drop (q.length - 4096) }

/-- Start a fill (R213, R215): a new miss-status entry with its first reader, or none yet for a write. -/
def Mod.startFill (m : Mod) (k : Nat) (r : List Req) : Mod :=
  let h := homeOf k
  let m := m.count kCchDraftFills h
  let dead := (m.cache.deadTags.getD h []).contains k
  let m := if dead && !r.isEmpty then (m.count kCchDeadread h).undead k else m
  m.updCache fun c => { c with mshr := c.mshr.upd k [] fun l => l ++ [{ readers := r }] }

/-- A whole-line write allocates its line without a read (06 R191): it waits for a way with the line BUSY to others. -/
def Mod.allocate (m : Mod) (k : Nat) (r : Req) : Mod :=
  m.updCache fun c => { c with mshr := c.mshr.put k [{ readers := [r], data := some (0, false), alloc := true }] }

/-- A write or a request for ownership starts a fill and waits behind it. -/
def Mod.fillFor (m : Mod) (k : Nat) (r : Req) : Mod :=
  (m.startFill k []).updCache fun c => { c with waitq := c.waitq.upd k [] (· ++ [{ r with starter := true }]) }

/-- Send INV to a set of holders; the line is BUSY until they have answered (07 R228). -/
def Mod.sendInv (m : Mod) (k : Nat) (r : Req) (hs : List AgentId) (kd : MsgKind) : Mod :=
  let m := (m.countBy kCchInvSent (homeOf k) hs.length).setBusy k { req := r, await := hs }
  forEach hs (fun x m => m.send { kind := kd, agent := x, line := k, fwdTo := r.agent }) m

/-- The home forwards a request to the holder the entry names (07 R230, R231, R239). -/
def Mod.forward (m : Mod) (k : Nat) (r : Req) (holder : AgentId) (kd : MsgKind) : Mod :=
  (m.setBusy k { req := r, await := [holder], direct := kd != .fwdNc }).send { kind := kd, agent := holder, line := k, fwdTo := r.agent }

/-- The home answers a requester with the line. -/
def Mod.grant (m : Mod) (k : Nat) (a : AgentId) (l : Line) (kd : MsgKind) : Mod :=
  m.send { kind := kd, agent := a, line := k, fwdTo := a, data := some l.data, poison := l.poison }

/-- The eviction of an F, E or M copy is recorded, or discarded as stale, and answered (07 R232). -/
def Mod.recordPut (m : Mod) (k : Nat) (a : AgentId) : Mod :=
  let ack : Msg := { kind := .putAck, agent := a, line := k, fwdTo := a }
  let m := m.delReq a k
  match m.line? k, Tab.find (l1Key a k) m.cache.wbuf with
  | some l, some c =>
    if l.dir.dstate.val < 2 || l.dir.fwd != a then m.send ack
    else
      let m := if c.st == .M then m.takeData k c.data c.poison else m
      (m.setDir k (if l.dir.dstate == 2 then (if l.dir.sharers.isEmpty then dirDI else { l.dir with dstate := 1, fwd := 0 })
        else dirDI)).send ack
  | _, _ => m.send ack

/-- The home performs a non-caching write, answers it, and under mode HINT offers the line to the tile named (07 R240, R241). NCACK
tells a durable write that was not performed by its poison mark (06 R192, log 136). -/
def Mod.ncPerform (m : Mod) (k : Nat) (r : Req) : Mod :=
  let w := m.sliceWrite k r.byteen r.data
  let m := w.1.send { kind := .ncack, agent := r.agent, line := k, fwdTo := r.agent, poison := !w.2 }
  match r.kind, r.target, m.line? k with
  | .ncwh, some t, some l =>
    if m.ownsTile r.part t.val then
      (m.setBusy k { req := r, await := [⟨t.val, by omega⟩], pushed := true }).send
        { kind := .push, agent := ⟨t.val, by omega⟩, line := k, fwdTo := r.agent, data := some l.data, poison := l.poison }
    else m
  | _, _, _ => m

/-- Is a dead mark ignored (06 R209, 07 R237)? -/
def Mod.deadIgnored (m : Mod) (k : Nat) (r : Req) : Bool :=
  isPs k || m.durable (linePa k) || decide (0x81 ≤ (m.tagOf (linePa k)).toNat ∧ (m.tagOf (linePa k)).toNat ≤ 0x8F) ||
    !(m.tagAccepts r.agent r.part k true)

/-- Admission at the home (07 R227, R230, R231, R237, R239, R240); the line is neither BUSY nor filling. -/
def Mod.admitReq (m : Mod) (k : Nat) (r : Req) : Mod :=
  let a := r.agent
  let m := match m.line? k with
    | some l => m.touch k l.way
    | none => m
  match r.kind, m.line? k with
  | .put, _ => m.recordPut k a
  | .evict, _ => m
  | .dead, none => m.delReq a k
  | .dead, some l =>
    if m.deadIgnored k r then m.delReq a k
    else if l.dir.holders.isEmpty then (m.dropDead k).delReq a k
    else m.sendInv k r l.dir.holders .invd
  | .gets, none => m.startFill k [r]
  | .ncrd, none => m.startFill k [r]
  | .gets, some l =>
    match l.dir.dstate.val with
    | 0 => (m.setDir k (dirDX a)).grant k a l .dataE
    | 1 => (m.setDir k { l.dir with dstate := 2, fwd := a, ptrs := l.dir.ptrs.filter (· != a) }).grant k a l .dataF
    | 2 =>
      if l.dir.fwd == a then m.grant k a l .dataF
      else if agentHalf a == agentHalf l.dir.fwd && (agentHalf a).isSome && agentHalf a != some (homeOf k) then
        m.forward k r l.dir.fwd .fwdS
      else (m.setDir k (l.dir.addSharer a)).grant k a l .dataS
    | _ => m.forward k r l.dir.fwd .fwdS
  | .ncrd, some l => if l.dir.dstate == 3 then m.forward k r l.dir.fwd .fwdNc else m.grant k a l .ncdata
  | .getx, none => (m.undead k).fillFor k r
  | .upg, none => (m.undead k).fillFor k r
  | .ncwi, none => if fullLine r.byteen then m.allocate k r else m.fillFor k r
  | .ncwh, none => if fullLine r.byteen then m.allocate k r else m.fillFor k r
  | .getx, some l =>
    let m := m.undead k
    let hs := l.dir.holders.filter (· != a)
    if l.dir.dstate == 3 && l.dir.fwd != a then m.forward k r l.dir.fwd .fwdX
    else if hs.isEmpty then (m.setDir k (dirDX a)).grant k a l .dataM
    else m.sendInv k r hs .inv
  | .upg, some l =>
    let m := m.undead k
    let hs := l.dir.holders.filter (· != a)
    if l.dir.names a then
      if hs.isEmpty then (m.setDir k (dirDX a)).send { kind := .grantM, agent := a, line := k, fwdTo := a } else m.sendInv k r hs .inv
    else if l.dir.dstate == 3 && l.dir.fwd != a then m.forward k { r with kind := .getx } l.dir.fwd .fwdX
    else if hs.isEmpty then (m.setDir k (dirDX a)).grant k a l .dataM
    else m.sendInv k { r with kind := .getx } hs .inv
  | .ncwi, some l => if l.dir.holders.isEmpty then m.ncPerform k r else m.sendInv k r l.dir.holders .inv
  | .ncwh, some l => if l.dir.holders.isEmpty then m.ncPerform k r else m.sendInv k r l.dir.holders .inv

/-! Ways for lines that arrive (06 R188-R190; 07 R238). -/

/-- The eviction of a victim with copies: a transaction of the home that invalidates them first (R238). -/
def Mod.startEvict (m : Mod) (v : Nat) : Mod :=
  match m.line? v with
  | some l => if m.busy v then m else m.sendInv v { kind := .evict, agent := 0 } l.dir.holders .inv
  | none => m

/-- A way for a line of a set, once its victim is gone. -/
def Mod.wayFor (m : Mod) (k part : Nat) : Option Nat × Mod :=
  match m.place k part with
  | .free w => (some w, m)
  | .zeros w =>
    let z := psLineAt (homeOf k) (setOf k) w
    match m.zeroAt (homeOf k) (setOf k) w with
    | some e => (some w, match backingPa e (psAddr z) with
      | some pa => (m.backWrite pa 0 false).markGone (psAddr z)
      | none => m)
    | none => (none, m)
  | .victim v =>
    match m.line? v with
    | some l => if l.dir.holders.isEmpty then (some l.way.val, m.evictNow v) else (none, m.startEvict v)
    | none => (none, m)
  | .wait => (none, m)

/-- Branches of a fill that have not reached their requesters (06 R210). -/
def Mod.undelivered (m : Mod) (k : Nat) : Bool :=
  let fill (x : Msg) : Bool := x.line == k && (x.kind == .dataF || x.kind == .dataS || x.kind == .ncdata)
  m.cache.net.any fill || m.net.again.any (·.2.any fill) || m.net.hold.any (·.2.any fun b => match b with
    | .fill x => fill x
    | .copy _ _ => false)

/-- Send one branch of a fill: it is held at a port without credit, in the port's branch-hold buffer while that has room; the home repeats
another by unicast (06 R216, 09 R287, R289). `lacks` names requesters whose last port lacks credit. -/
def Mod.sendBranch (m : Mod) (lacks : List AgentId) (x : Msg) : Mod :=
  let start := match nodeSeat (bankNode (homeOf x.line) (x.line % 2 ^ 34)) with
    | some s => s.1
    | none => 0
  let path := m.nodePath x.agent.val pathFuel start
  let stop := match path.find? fun p => m.noCredit p 2 with
    | some p => some p
    | none => if lacks.contains x.agent then path.getLast? else none
  match stop with
  | none => m.send x
  | some p =>
    let key := creditKey p .bn 0
    let l := m.net.hold.getD key []
    if l.length < 4 then ({ m with net := { m.net with hold := m.net.hold.put key (l ++ [Branch.fill x]) } }).count kTilRtrMcHold (routerOf p)
    else ({ m with net := { m.net with again := m.net.again.upd key [] (· ++ [x]) } }).count kTilRtrMcFail (routerOf p)

/-- The readers of a fill are served from the line (06 R213, R214). -/
def Mod.serveFill (m : Mod) (k : Nat) (rs : List Req) (lacks : List AgentId) : Mod :=
  match m.line? k with
  | none => m
  | some l =>
    let serve (acc : Dir × List Msg) (r : Req) : Dir × List Msg :=
      let a := r.agent
      let msg (kd : MsgKind) : Msg := { kind := kd, agent := a, line := k, fwdTo := a, data := some l.data, poison := l.poison }
      if r.kind == .ncrd then (acc.1, acc.2 ++ [msg .ncdata])
      else if acc.1.dstate == 0 ∨ acc.1.dstate == 1 then
        ({ acc.1 with dstate := 2, fwd := a, ptrs := acc.1.ptrs.filter (· != a) }, acc.2 ++ [msg .dataF])
      else (acc.1.addSharer a, acc.2 ++ [msg .dataS])
    let r := rs.foldl serve (l.dir, [])
    forEach r.2 (fun x m => m.sendBranch lacks x) (m.setDir k r.1)

/-- Go on with a line: place the data of its oldest fill and serve the fill, or admit the next request that waited (07 R229). -/
def Mod.advance (m : Mod) (k : Nat) (lacks : List AgentId) : Nat → Mod
  | 0 => m
  | n + 1 =>
    if m.busy k then m
    else match m.cache.mshr.getD k [] with
      | e :: rest => match e.data with
        | none => m
        | some d =>
          let first := (e.readers ++ m.cache.waitq.getD k []).head?
          let part := (first.map fun r => r.part.val).getD 0
          let cls := (first.map fun r => r.cls.val).getD 7
          let room : Option Nat × Mod := match m.line? k with
            | some l => (some l.way.val, m)
            | none => m.wayFor k part
          (match room.1 with
          | none => room.2
          | some w =>
            let m := match m.line? k with
              | some _ => room.2
              | none => room.2.install k w cls d.1 false d.2
            let m := m.updCache fun c => { c with mshr := if rest.isEmpty then c.mshr.del k else c.mshr.put k rest }
            let owned := match m.line? k with
              | some l => l.dir.dstate == 3
              | none => false
            let m := if e.alloc then forEach e.readers (fun r m => m.admitReq k r) m
              else if owned then m.updCache fun c => { c with
                waitq := c.waitq.upd k [] ((e.readers.map fun r => { r with starter := true }) ++ ·) }
              else m.serveFill k e.readers lacks
            Mod.advance m k lacks n)
      | [] => match m.cache.waitq.getD k [] with
        | [] => m
        | r :: q =>
          if r.kind == .dead && m.undelivered k then m
          else
            let m := m.updCache fun c => { c with waitq := if q.isEmpty then c.waitq.del k else c.waitq.put k q }
            let r := match m.req? r.agent k with
              | some x => { r with kind := x.kind }
              | none => r
            let m := if r.kind == .dead || r.starter then m else m.lookup k r.cls r.part
            Mod.advance (m.admitReq k r) k lacks n

/-- Steps of `advance` that a line can need: its fills and the requests that waited behind them. -/
def advanceFuel : Nat := 64

/-- Fills whose data waits for a way of a set try again. -/
def Mod.retryFills (m : Mod) (set : Nat) : Mod :=
  forEach ((m.cache.mshr.keep fun j es => plruKey j == set && es.any (·.data.isSome)).map Prod.fst) (fun j m =>
    m.advance j [] advanceFuel) m

/-- The home answers NACK; the eighth NACK of a request carries a ticket, and the home keeps the request (R234-R236, R244). -/
def Mod.nackReq (m : Mod) (k : Nat) (r : Req) : Mod :=
  let h := homeOf k
  let m := (m.count kCchNack h).setReq k r
  let fenced := decide (r.agent.val < 1024) && (m.tile r.agent).fenced
  let held := m.cache.tickets.any fun t => t.1.val == h && t.2.1 == r.agent
  let nack : Msg := { kind := .nack, agent := r.agent, line := k, fwdTo := r.agent }
  if 8 ≤ r.nacks + 1 ∧ !held ∧ !fenced then
    ((m.count kCchTicket h).updCache fun c => { c with tickets := c.tickets ++ [(Fin.ofNat 16 h, r.agent, k)] }).send
      { nack with ticket := true }
  else m.send nack

/-- A read that meets an outstanding fill joins its newest entry, up to 64 requesters (R213, R215). -/
def Mod.joinFill (m : Mod) (k : Nat) (r : Req) (fills : List Mshr) : Mod :=
  let m := (m.setReq k r).lookup k r.cls r.part
  match fills.getLast? with
  | some e =>
    if e.readers.length < 64 then
      (m.count kCchDraftMerged (homeOf k)).updCache fun c => { c with
        mshr := c.mshr.put k (fills.dropLast ++ [{ e with readers := e.readers ++ [r] }]) }
    else m.startFill k [r]
  | none => m

/-- A PS line of zeros that the slice does not list is listed, dirty, in the way it stands in (R194, R196, R205). -/
def Mod.prepPs (m : Mod) (k : Nat) : Mod :=
  if isPs k && (m.line? k).isNone then
    match m.psAbsent k with
    | some none =>
      let m := m.install k (4 + slotOf k) 3 0 true false
      (match m.extentAt (psAddr k), m.line? k with
        | some e, some l => if e.demoted = 0 then m else m.setLine k { l with evictFirst := e.demoted }
        | _, _ => m)
    | _ => m
  else m

def ReqKind.write : ReqKind → Bool
  | .getx => true
  | .upg => true
  | .ncwi => true
  | .ncwh => true
  | _ => false

/-- Is a request a violation of pinned storage: for a line of no extent, or of another partition's (05 R161, 06 R199)? -/
def Mod.psRefused (m : Mod) (k : Nat) (r : Req) : Bool :=
  isPs k && r.kind != .dead && r.kind != .put &&
    (if carriesPart r.agent then !(m.psOwned r.part (psAddr k)) else (m.extentAt (psAddr k)).isNone)

/-- Does a request bring data with it: a write, or the eviction of an M copy? -/
def Mod.reqData (m : Mod) (k : Nat) (r : Req) : Bool :=
  match r.kind with
  | .ncwi => true
  | .ncwh => true
  | .put => match Tab.find (l1Key r.agent k) m.cache.wbuf with
    | some c => c.st == .M
    | none => false
  | _ => false
/-- A request reaches its home (R213-R215, R227, R229, R235, R244; 19 R550), with its stamp where it has no data (23 R634). -/
def Mod.reqArrive (m : Mod) (k : Nat) (r : Req) : Mod :=
  let m := if m.reqData k r then m else m.stampTo (agentDie r.agent) (homeOf k / 2)
  let write := r.kind.write
  if decide (r.agent.val < 1024) && (m.tile r.agent).fenced && r.kind != .put then m.nackReq k r
  else if r.kind != .dead && r.kind != .put && !(m.tagAccepts r.agent r.part k write) then
    (((m.count kSafLeakTrip (homeOf k)).violate r.part).delReq r.agent k)
  else if m.psRefused k r then (m.violate r.part).delReq r.agent k
  else if !isPs k && (m.foster k).isSome then
    -- no copy of a fostered line is granted (18 R514)
    let m := if write then (m.fosterWrite k r.cls r.byteen r.data).1 else if r.kind == .put then m else (m.fosterRead k r.cls).2
    m.delReq r.agent k
  else if m.psLost k then m.delReq r.agent k
  else
    let m := m.prepPs k
    let fills := m.cache.mshr.getD k []
    let tickets := m.cache.tickets.any fun t => t.2.2 == k
    if m.busy k || tickets || fills.any (·.alloc) then m.nackReq k r
    else if !fills.isEmpty && !((r.kind == .gets || r.kind == .ncrd) && (m.line? k).isSome) then
      match r.kind with
      | .gets => m.joinFill k r fills
      | .ncrd => m.joinFill k r fills
      | .put => m.nackReq k r
      | .dead => (m.setReq k r).updCache fun c => { c with waitq := c.waitq.upd k [] (· ++ [r]) }
      | _ =>
        let q := (m.cache.waitq.getD k []).filter fun x => x.kind != .dead && !x.starter
        if q.length < 4 * fills.length then (m.setReq k r).updCache fun c => { c with waitq := c.waitq.upd k [] (· ++ [r]) }
        else m.nackReq k r
    else if r.kind == .dead && m.undelivered k then
      (m.setReq k r).updCache fun c => { c with waitq := c.waitq.upd k [] (· ++ [r]) }
    else
      let m := if r.kind == .dead || r.kind == .put then m else m.lookup k r.cls r.part
      ((m.setReq k r).admitReq k r).advance k [] advanceFuel

/-- SCRUB (11 R319): the scrub also clears the dirty-frame bit of a slice that holds no dirty line of the frame (18 R515), and writes
the poison code into a fostered line that is lost, which is then counted (R516). -/
def execScrub (pa : Nat) (e eR : Ecc) (lane : Fin 76) (s : State) : Out :=
  if paLimit ≤ pa then .fault (.noSuchAddress pa)
  else s.go fun m =>
    let m := m.scrubLine pa e eR lane
    let k := emKeyOf pa
    let h := homeOf k
    let f := pa / 65536
    if (m.foster k).isSome then
      (if m.fosterLost k then
        ((m.writePoison (linePa k)).updHalf h fun x => { x with rewritten := x.rewritten.put k () }).count kFtLostLines h
       else m)
    else if (m.half h).dirtyFrames.has f &&
        !((m.dirtyFramesOf h).contains f) then
      m.clearDirtyFrame h f
    else m

end Sys2Proof.Machine
end

