-- ==== Sys2Proof/Machine/Coherence.lean ====
section
/-! DEFINITION. The coherence protocol carried out (spec 07): delivery of each message, completion of transactions, fills;
whole accesses made of them; pins and the thrash guard (spec 06); the meanings of the cache and coherence commands. -/

namespace Sys2Proof.Machine

/-! The home's side. -/

/-- A transaction has every acknowledgement it awaits: its request takes effect (07 R228, R230, R231, R238-R240, 06 R208). -/
def Mod.concludeTxn (m : Mod) (k : Nat) (t : Txn) : Mod :=
  let r := t.req
  let a := r.agent
  let m := m.clearBusy k
  match m.line? k with
  | none => m.delReq a k
  | some l =>
    match r.kind with
    | .evict => (m.setDir k dirDI).evictNow k
    | .put => m
    | .gets =>
      let old := l.dir.fwd
      let d : Dir :=
        if l.dir.dstate == 2 then ({ l.dir with fwd := a, ptrs := l.dir.ptrs.filter (· != a) } : Dir).addSharer old
        else { dstate := 2, fwd := a, ptrs := if old == a then [] else [old] }
      let m := m.setDir k d
      if t.direct then m else m.grant k a l .dataF
    | .getx =>
      let m := m.setDir k (dirDX a)
      if t.direct then m else m.grant k a l .dataM
    | .upg => (m.setDir k (dirDX a)).send { kind := .grantM, agent := a, line := k, fwdTo := a }
    | .ncrd => m.grant k a l .ncdata
    | .dead => ((m.setDir k dirDI).dropDead k).delReq a k
    | .ncwi => (m.setDir k dirDI).ncPerform k r
    | .ncwh => (m.setDir k dirDI).ncPerform k r

/-- The same, and what waited for it goes on: requests behind a fill of the line, fills that want a way of the set. -/
def Mod.finishTxn (m : Mod) (k : Nat) (t : Txn) : Mod :=
  ((m.concludeTxn k t).advance k [] advanceFuel).retryFills (plruKey k)

/-- An acknowledgement reaches the home, with the data of an M copy; data counts from the holder that DX names (07 R228, R233). -/
def Mod.ackAt (m : Mod) (k : Nat) (a : AgentId) (data : Option LineData) (poison : Bool) : Mod :=
  match Tab.find k m.cache.txns with
  | none => m
  | some t =>
    if t.pushed || !t.await.contains a then m
    else
      let m := match data, m.line? k with
        | some d, some l => if l.dir.dstate == 3 && l.dir.fwd == a then m.takeData k d poison else m
        | _, _ => m
      let t := { t with await := t.await.filter (· != a) }
      let m := m.updCache fun c => { c with txns := c.txns.put k t }
      if t.await.isEmpty then m.finishTxn k t else m

/-- The answer to a PUSH: DX names a tile that accepted; a declined push counts and leaves DI (07 R240). -/
def Mod.pushAnswer (m : Mod) (k : Nat) (a : AgentId) (accepted : Bool) : Mod :=
  match Tab.find k m.cache.txns with
  | none => m
  | some t =>
    if !(t.pushed && t.await.contains a) then m
    else
      let m := m.clearBusy k
      let m := if accepted then m.setDir k (dirDX a) else m.count kCchPushNak (homeOf k)
      (m.advance k [] advanceFuel).retryFills (plruKey k)

/-- A fill's data arrives (06 R213): EM, or the backing of a pin extent. `lacks` names requesters whose branch meets a port without
credit. -/
def Mod.fillLine (m : Mod) (k : Nat) (e : Ecc) (lacks : List AgentId) : Mod :=
  match m.cache.mshr.getD k [] with
  | [] => m
  | ent :: rest =>
    if ent.data.isSome then m.advance k lacks advanceFuel
    else
      let src := if isPs k then (match m.psAbsent k with
        | some p => p
        | none => none) else some (linePa k)
      let r : LineRes × Mod := match src with
        | some pa => if isPs k then m.backRead pa e else m.memReadLine pa e .ok 0
        | none => (⟨0, false⟩, m)
      (r.2.updCache fun c => { c with mshr := c.mshr.put k ({ ent with data := some (r.1.data, r.1.poison) } :: rest) }).advance k lacks
        advanceFuel

/-- Admit the oldest ticket of a line when R227 allows (07 R235). -/
def Mod.admitTicket (m : Mod) (k : Nat) : Mod :=
  match m.cache.tickets.find? fun t => t.2.2 == k with
  | none => m
  | some t =>
    if m.busy k || !(m.cache.mshr.getD k []).isEmpty || !(m.cache.waitq.getD k []).isEmpty then m
    else
      let m := m.updCache fun c => { c with tickets := c.tickets.erase t }
      match m.req? t.2.1 k with
      | some r =>
        let m := if r.kind == .put || r.kind == .dead then m else m.lookup k r.cls r.part
        ((m.setReq k { r with ticket := false, nacks := 0 }).admitReq k { r with ticket := false, nacks := 0 }).advance k [] advanceFuel
      | none => m

/-! The agent's side (07 Table 7.5). -/

/-- An agent loses its copy; an UPG it has outstanding goes on as a GETX. -/
def Mod.loseCopy (m : Mod) (a : AgentId) (k : Nat) : Mod :=
  let m := match m.l1 a k with
    | some _ => m.delL1 a k
    | none => m.spendBuf a k
  match m.req? a k with
  | some r => if r.kind == .upg then m.setReq k { r with kind := .getx } else m
  | none => m

/-- A forward or an invalidation reaches the agent it names; it is served from the write-back buffer where the copy is there
(R225, R232). -/
def Mod.forwardAt (m : Mod) (x : Msg) : Mod :=
  let a := x.agent
  let k := x.line
  let answer (kd : MsgKind) (d : Option LineData) (p : Bool) : Msg :=
    { kind := kd, agent := a, line := k, fwdTo := x.fwdTo, data := d, poison := p }
  let supply (kd : MsgKind) (c : L1Line) : Msg :=
    { kind := kd, agent := x.fwdTo, line := k, fwdTo := x.fwdTo, data := some c.data, poison := c.poison }
  match x.kind, m.copyOf a k with
  | .inv, none => m.send (answer .invAck none false)
  | .invd, none => m.send (answer .invAck none false)
  | .inv, some c => (m.loseCopy a k).send (answer .invAck (if c.st == .M then some c.data else none) (c.st == .M && c.poison))
  | .invd, some _ => (m.loseCopy a k).send (answer .invAck none false)
  | .fwdS, some c =>
    let m := match m.l1 a k with
      | some _ => m.setL1 a k { c with st := .S }
      | none => m
    (m.send (supply .dataF c)).send (answer .fwdAck (if c.st == .M then some c.data else none) (c.st == .M && c.poison))
  | .fwdX, some c => ((m.loseCopy a k).send (supply .dataM c)).send (answer .fwdAck none false)
  | .fwdNc, some c =>
    if c.st == .M then
      (match m.l1 a k with
        | some _ => m.setL1 a k { c with st := .E }
        | none => m).send (answer .fwdAck (some c.data) c.poison)
    else m.send (answer .fwdAck none false)
  | _, none =>
    -- nothing is held: the home serves the requester itself
    (m.updCache fun c => { c with txns := c.txns.adj k fun t => { t with direct := false } }).send (answer .fwdAck none false)
  | _, _ => m

/-- An agent evicts a copy it has no request outstanding for: an S copy is dropped, another goes to the write-back buffer and its PUT
to the home (R225, R232). -/
def Mod.putCopy (m : Mod) (a : AgentId) (k : Nat) (st : L1St) : Mod :=
  match m.l1 a k with
  | none => m
  | some c =>
    if c.st != st || (m.req? a k).isSome || (Tab.find (l1Key a k) m.cache.wbuf).isSome then m
    else if st == .S then m.delL1 a k
    else ((m.delL1 a k).updCache fun x => { x with wbuf := x.wbuf.put (l1Key a k) c }).reqArrive k { kind := .put, agent := a }

/-- Sets of a tile's L1 portion (03 R83). -/
def Mod.l1Sets (m : Mod) (t : Nat) : Nat := (8 - (m.tile t).split.val) * 512

/-- Make room for a line in a tile's L1 portion of eight ways: the victim among the copies of the set without a request outstanding is a
free value (03 R83, log 60). -/
def Mod.l1Room (m : Mod) (a : AgentId) (k : Nat) : Mod :=
  if 1024 ≤ a.val then m
  else
    let sets := m.l1Sets a.val
    let mine := m.cache.l1.keep fun j _ => j / 2 ^ 36 == a.val && j % 2 ^ 36 % sets == k % sets && j % 2 ^ 36 != k
    if mine.length < 8 then m
    else
      let cands := mine.keep fun j _ => !(m.cache.reqs.has j) && !(m.cache.wbuf.has j)
      let q := m.draw
      match cands[q.1 % cands.length]? with
      | some e => q.2.putCopy a (e.1 % 2 ^ 36) e.2.st
      | none => m

/-- A grant reaches its requester; the request ends. -/
def Mod.grantAt (m : Mod) (x : Msg) (st : L1St) : Mod :=
  let m := m.delReq x.agent x.line
  let m := match x.data with
    | some d => (m.l1Room x.agent x.line).setL1 x.agent x.line { st := st, data := d, poison := x.poison }
    | none => m
  m.advance x.line [] advanceFuel

/-- A PUSH reaches the tile it offers the line to: a tile in I with no request outstanding to the line accepts it in E. -/
def Mod.pushAt (m : Mod) (x : Msg) : Mod :=
  let a := x.agent
  let k := x.line
  let answer (kd : MsgKind) : Msg := { kind := kd, agent := a, line := k, fwdTo := a }
  match (m.copyOf a k).isNone && (m.req? a k).isNone && !(m.tile a).fenced, x.data with
  | true, some d => ((m.l1Room a k).setL1 a k { st := .E, data := d, poison := x.poison }).send (answer .pushAck)
  | _, _ => m.send (answer .pushNak)

/-- A NACK reaches its requester: one with a ticket ends its retries, another starts the back-off of 8 * 2^min(n, 4) CLK_N cycles plus 0
to 7 (R234, R235). -/
def Mod.nackAt (m : Mod) (x : Msg) : Mod :=
  match m.req? x.agent x.line with
  | none => m
  | some r =>
    let n := r.nacks + 1
    if x.ticket then m.setReq x.line { r with nacks := n, ticket := true }
    else
      let q := m.draw
      q.2.setReq x.line { r with nacks := n, backoff := true, delay := 8 * 2 ^ min n 4 + q.1 % 8 }

/-! Delivery (07 R226, Table 7.4). -/

def MsgKind.isGrant : MsgKind → Bool
  | .dataS => true
  | .dataF => true
  | .dataE => true
  | .dataM => true
  | .grantM => true
  | _ => false
/-- Responses that a home or a holder sends to a requester. -/
def MsgKind.toRequester : MsgKind → Bool
  | .ncdata => true
  | .ncack => true
  | .putAck => true
  | .nack => true
  | k => k.isGrant
def MsgKind.isForward : MsgKind → Bool
  | .fwdS => true
  | .fwdX => true
  | .fwdNc => true
  | .inv => true
  | .invd => true
  | .push => true
  | _ => false

/-- Must a message wait for an earlier one? To one agent and line, responses arrive in order, and a forward after the grants sent before
it (log 137). -/
def Msg.after (x y : Msg) : Bool :=
  x.agent == y.agent && x.line == y.line &&
    ((x.kind.isForward && y.kind.isGrant) || (x.kind.toRequester && y.kind.toRequester))

/-- Take the first message in flight that satisfies a test and waits for none before it. -/
def takeMsg (p : Msg → Bool) (before : List Msg) : List Msg → Option (Msg × List Msg)
  | [] => none
  | x :: r => if p x && !before.any x.after then some (x, r) else (takeMsg p (x :: before) r).map fun q => (q.1, x :: q.2)

/-- Does a message go to the home? -/
def MsgKind.toHome : MsgKind → Bool
  | .invAck => true
  | .fwdAck => true
  | .pushAck => true
  | .pushNak => true
  | _ => false
/-- A message without data stamps the dies it reaches (23 R634). -/
def Mod.hearMsg (m : Mod) (x : Msg) : Mod :=
  if x.data.isSome then m
  else if x.kind.toHome then m.stampTo (agentDie x.agent) (homeOf x.line / 2)
  else m.stampTo (homeOf x.line / 2) (agentDie x.agent)
/-- One message in flight is delivered. -/
def Mod.deliver (m : Mod) (x : Msg) : Mod :=
  match x.kind with
  | .fwdS => m.forwardAt x
  | .fwdX => m.forwardAt x
  | .fwdNc => m.forwardAt x
  | .inv => m.forwardAt x
  | .invd => m.forwardAt x
  | .push => m.pushAt x
  | .dataS => m.grantAt x .S
  | .dataF => m.grantAt x .F
  | .dataE => m.grantAt x .E
  | .dataM => m.grantAt x .M
  | .grantM =>
    match m.l1 x.agent x.line with
    | some c => (m.delReq x.agent x.line).setL1 x.agent x.line { c with st := .M }
    | none => m
  | .ncdata => (m.delReq x.agent x.line).advance x.line [] advanceFuel
  | .ncack => m.delReq x.agent x.line
  | .invAck => m.ackAt x.line x.agent x.data x.poison
  | .fwdAck => m.ackAt x.line x.agent x.data x.poison
  | .pushAck => m.pushAnswer x.line x.agent true
  | .pushNak => m.pushAnswer x.line x.agent false
  | .putAck => m.updCache fun c => { c with wbuf := c.wbuf.del (l1Key x.agent x.line) }
  | .nack => m.nackAt x

/-- Deliver the first message in flight that satisfies a test, if any may come. -/
def Mod.deliverOne (m : Mod) (p : Msg → Bool) : Mod :=
  match takeMsg p [] m.cache.net with
  | none => m
  | some q => (({ m with cache := { m.cache with net := q.2 } } : Mod).hearMsg q.1).deliver q.1

/-- Let the held branches of a line's fills go. -/
def Mod.unhold (m : Mod) (k : Nat) : Mod :=
  let mine (b : Branch) : Bool := match b with
    | .fill x => x.line == k
    | .copy _ _ => false
  let held := m.net.hold.flatMap fun e => e.2.filter mine
  let again := m.net.again.flatMap fun e => e.2.filter (·.line == k)
  let m := { m with net := { m.net with
    hold := m.net.hold.mapVals fun l => l.filter fun b => !mine b,
    again := m.net.again.mapVals fun l => l.filter (·.line != k) } }
  let m := forEach held (fun b m => match b with
    | .fill x => m.send x
    | .copy _ _ => m) m
  forEach again (fun x m => m.send x) m
/-- Has a line branches of fills held for want of credit? -/
def Mod.heldFill (m : Mod) (k : Nat) : Bool :=
  m.net.again.any (·.2.any (·.line == k)) || m.net.hold.any (·.2.any fun b => match b with
    | .fill x => x.line == k
    | .copy _ _ => false)

/-- Carry every message and fill of a line to its end: the rest of the module waits for a line that is in transit. -/
def Mod.settle (m : Mod) (k : Nat) : Nat → Mod
  | 0 => m
  | n + 1 =>
    if m.cache.net.any fun x => x.line == k then Mod.settle (m.deliverOne (fun x => x.line == k)) k n
    else if m.heldFill k then Mod.settle (m.unhold k) k n
    else match m.cache.mshr.getD k [] with
      | e :: _ =>
        if e.data.isNone then Mod.settle (m.fillLine k .ok []) k n
        else (match m.cache.net.find? fun x => plruKey x.line == plruKey k with
          | some x => Mod.settle (m.deliverOne (fun y => y.line == x.line)) k n
          | none => m)
      | [] => if (m.cache.tickets.any fun t => t.2.2 == k) && !m.busy k then Mod.settle (m.admitTicket k) k n else m

def settleFuel : Nat := 5000

/-! Whole accesses. -/

/-- The value of a line that every observer agrees on: the M copy, else the slice, else memory (07 R222, 06 R188). -/
def Mod.peekLine (m : Mod) (k : Nat) : LineRes :=
  match m.ownerM k with
  | some c => ⟨c.data, c.poison⟩
  | none => match m.line? k with
    | some l => ⟨l.data, l.poison⟩
    | none =>
      if m.psLost k then ⟨0, true⟩
      else if isPs k then match m.psAbsent k with
        | some (some pa) => (m.backRead pa .ok).1
        | _ => ⟨0, false⟩
      else if (m.foster k).isSome then (m.fosterRead k 7).1
      else (m.memReadLine (linePa k) .ok .ok 0).1

/-- A request an agent makes and sees through; an eviction of its own still unrecorded comes first. -/
def Mod.runReq (m : Mod) (k : Nat) (r : Req) : Mod :=
  let m := m.settle k settleFuel
  let m := match m.req? r.agent k with
    | some x => if x.kind == ReqKind.put then (m.reqArrive k { x with backoff := false }).settle k settleFuel else m
    | none => m
  (m.reqArrive k r).settle k settleFuel

/-- A read by a non-caching agent. -/
def Mod.ncRead (m : Mod) (a : AgentId) (k part cls : Nat) : LineRes × Mod :=
  if !(m.tagAccepts a part k false) then (⟨0, false⟩, (m.count kSafLeakTrip (homeOf k)).violate part)
  else if !isPs k && (m.foster k).isSome then m.fosterRead k cls
  else
    let m := m.runReq k { kind := .ncrd, agent := a, part := Fin.ofNat 128 part, cls := Fin.ofNat 8 cls }
    (m.peekLine k, m)

/-- A write by a non-caching agent under its mode (07 R240): the module after it, and whether it was performed (11 R328). -/
def Mod.ncWrite (m : Mod) (a : AgentId) (k part cls : Nat) (be : BitVec 128) (d : LineData) (target : Option TileId) :
    Mod × Bool :=
  if !(m.tagAccepts a part k true) then ((m.count kSafLeakTrip (homeOf k)).violate part, true)
  else if !isPs k && (m.foster k).isSome then m.fosterWrite k cls be d
  else
    let ok := isPs k || !(m.durable (linePa k)) || (m.memWriteLine (linePa k) 0 false).2
    let kind := if m.cache.ncMode.getD a 0 = 1 then ReqKind.ncwh else ReqKind.ncwi
    (m.runReq k { kind := kind, agent := a, part := Fin.ofNat 128 part, cls := Fin.ofNat 8 cls, byteen := be, data := d,
                  target := target }, ok)

/-- A read by a tile through its L1 portion: a hit, or a GETS seen through. -/
def Mod.cohRead (m : Mod) (t : TileId) (k part cls : Nat) : LineRes × Mod :=
  match m.l1 t.val k with
  | some c => (⟨c.data, c.poison⟩, m)
  | none =>
    if !(m.tagAccepts t.val part k false) then (⟨0, false⟩, (m.count kSafLeakTrip (homeOf k)).violate part)
    else if !isPs k && (m.foster k).isSome then m.fosterRead k cls
    else
      let m := m.runReq k { kind := .gets, agent := ⟨t.val, by omega⟩, part := Fin.ofNat 128 part, cls := Fin.ofNat 8 cls }
      match m.l1 t.val k with
      | some c => (⟨c.data, c.poison⟩, m)
      | none => (m.peekLine k, m)

/-- A write by a tile through its L1 portion: E becomes M; S and F send UPG; I sends GETX (07 Table 7.5). -/
def Mod.cohWrite (m : Mod) (t : TileId) (k part cls : Nat) (be : BitVec 128) (d : LineData) : Mod :=
  let a : AgentId := ⟨t.val, by omega⟩
  let apply (m : Mod) : Mod := match m.l1 t.val k with
    | some c => m.setL1 t.val k { c with st := .M, data := mergeLine be c.data d, poison := c.poison && !fullLine be }
    | none => m
  if !(m.tagAccepts a part k true) then (m.count kSafLeakTrip (homeOf k)).violate part
  else if !isPs k && (m.foster k).isSome then (m.fosterWrite k cls be d).1
  else match m.l1 t.val k with
    | some c =>
      if c.st == .M || c.st == .E then apply m
      else apply (m.runReq k { kind := .upg, agent := a, part := Fin.ofNat 128 part, cls := Fin.ofNat 8 cls })
    | none => apply (m.runReq k { kind := .getx, agent := a, part := Fin.ofNat 128 part, cls := Fin.ofNat 8 cls })

/-- An agent gives up a line: what it has under way there ends, a clean S copy is dropped, another copy is written back (07 R232,
R244). -/
def Mod.letGo (m : Mod) (a : AgentId) (k : Nat) : Mod :=
  let put (m : Mod) : Mod := match m.req? a k with
    | some x => if x.kind == ReqKind.put then (m.reqArrive k { x with backoff := false }).settle k settleFuel else m.delReq a k
    | none => m
  let m := put (m.settle k settleFuel)
  match m.l1 a k with
  | some c => put ((m.putCopy a k c.st).settle k settleFuel)
  | none => m

/-- A slice evicts a line whole: its transactions end, its copies go, dirty data is written (06 R188). -/
def Mod.flushLine (m : Mod) (k : Nat) : Mod := ((m.settle k settleFuel).recall k false).evictNow k

/-- Put a whole line in memory past the cache: copies and the slice line go, the controllers take the line. -/
def Mod.putLine (m : Mod) (k : Nat) (d : LineData) (poison : Bool) : Mod :=
  let m := (m.settle k settleFuel).recall k true
  ((m.dropLine k).memWriteLine (linePa k) d poison).1

/-! Pins (06 R195-R199). -/

/-- Units a partition holds, demoted extents included. -/
def Mod.pinUsed (m : Mod) (p : Nat) : Nat :=
  m.cache.extents.foldl (fun n e => if e.part.val = p then n + e.units else n) 0

/-- The lowest base of `n` consecutive free units a partition may use (R196). -/
def Mod.freeRun (m : Mod) (p n : Nat) : Option Nat :=
  let free (u : Nat) : Bool :=
    m.wayAllowed p (4 + u / 64) && !(m.cache.extents.any fun e => decide (e.base ≤ u ∧ u < e.base + e.units))
  (List.range (769 - n)).find? fun b => (List.range n).all fun i => free (b + i)

/-- Lines of a slice's ways that a run of units covers. -/
def coversWay (base units : Nat) (k : Nat) (l : Line) : Bool :=
  let u := (l.way.val - 4) * 64 + setOf k / 1024
  decide (4 ≤ l.way.val ∧ base ≤ u ∧ u < base + units)

/-- Evict the lines that stand in the slots of a run of units. -/
def Mod.clearSlots (m : Mod) (base units : Nat) : Mod :=
  let ks := (m.cache.lines.keep fun k l => coversWay base units k l).map Prod.fst
  forEach ks (fun k m => m.flushLine k) m

/-- Outcome of a PIN: the base, or QUOTA (0) or SPACE (1). -/
def Mod.pin (m : Mod) (p n : Nat) (backing : List Nat) (load : Bool) : (Nat ⊕ Nat) × Mod :=
  if m.parN (pCchPinQuota + p) < m.pinUsed p + n then (.inr 0, m)
  else if 1024 ≤ m.cache.extents.length then (.inr 1, m)
  else match m.freeRun p n with
    | none => (.inr 1, m)
    | some b =>
      let m := m.clearSlots b n
      let e : Extent := { base := b, units := n, part := Fin.ofNat 128 p, backing := backing, order := m.cache.extentSeq + 1, zeroed := !(load && !backing.isEmpty) }
      let m := m.updCache fun c => { c with extents := c.extents ++ [e], extentSeq := c.extentSeq + 1 }
      if load && !backing.isEmpty then
        -- every line of the extent is read from its backing line
        (.inl b, forEach (List.range (n * 16384)) (fun i m =>
          let a := b * 2 ^ 21 + 128 * i
          match backingPa e a with
          | some pa =>
            let r := m.ncRead ⟨1152, by omega⟩ (emKeyOf pa) p 3
            r.2.install (psKeyOf a) (4 + slotOf (psKeyOf a)) 3 r.1.data false r.1.poison
          | none => m) m)
      else (.inl b, m)

/-- Lines of an extent on which something is under way. -/
def Mod.busyInside (m : Mod) (inside : Nat → Bool) : List Nat :=
  ((m.cache.net.map Msg.line) ++ (m.cache.mshr.map Prod.fst) ++ (m.cache.txns.map Prod.fst) ++ (m.cache.waitq.map Prod.fst) ++
    (m.cache.tickets.map fun (t : SliceId × AgentId × Nat) => t.2.2) ++
    (m.cache.reqs.map fun (q : Nat × Req) => q.1 % 2 ^ 36)).filter inside

/-- Release an extent: accesses that reached their home before are performed; with STORE every line goes to its backing line, poison
with it (R199). -/
def Mod.unpin (m : Mod) (e : Extent) (store : Bool) : Mod :=
  let inside (k : Nat) : Bool := isPs k && decide (e.base ≤ unitOf (psAddr k) ∧ unitOf (psAddr k) < e.base + e.units)
  let m := forEach (m.busyInside inside).eraseDups (fun k m => m.settle k settleFuel) m
  let m := if store && !e.backing.isEmpty then
      forEach (List.range (e.units * 16384)) (fun i m =>
        let a := e.base * 2 ^ 21 + 128 * i
        match backingPa e a with
        | some pa =>
          let r := m.peekLine (psKeyOf a)
          m.putLine (emKeyOf pa) r.data r.poison
        | none => m) m
    else m
  m.updCache fun c => { c with
    extents := c.extents.filter (·.base != e.base),
    lines := c.lines.keep fun k _ => !inside k,
    l1 := c.l1.keep fun k _ => !inside (k % 2 ^ 36),
    wbuf := c.wbuf.keep fun k _ => !inside (k % 2 ^ 36),
    mshr := c.mshr.keep fun k _ => !inside k,
    waitq := c.waitq.keep fun k _ => !inside k,
    txns := c.txns.keep fun k _ => !inside k,
    reqs := c.reqs.keep fun k _ => !inside (k % 2 ^ 36),
    tickets := c.tickets.filter fun t => !inside t.2.2,
    net := c.net.filter fun x => !inside x.line }

/-! The thrash guard (06 R201-R206). -/

/-- Hit rate in 1/1024 of a window, or none where it is void (R201). -/
def Mod.winRate (m : Mod) (key : Nat) : Option Nat :=
  let w := m.cache.win.getD key (0, 0)
  if w.1 < m.parN pCchGuardMinLookups then none else if w.1 = 0 then none else some (w.2 * 1024 / w.1)

/-- Demote an extent at the end of window `w`: its slots are released, its resident lines stay, marked evictable-first (R204, R205). -/
def Mod.demote (m : Mod) (e : Extent) (w : Nat) : Mod :=
  let n := m.cache.evictSeq + 1
  m.updCache fun c => { c with
    evictSeq := n,
    extents := c.extents.map fun x => if x.base = e.base then { x with demoted := n, demWin := w } else x,
    lines := c.lines.mapWhere
      (fun k _ => isPs k && decide (e.base ≤ unitOf (psAddr k) ∧ unitOf (psAddr k) < e.base + e.units))
      fun l => { l with evictFirst := n } }

/-- Restore a demoted extent (R206): other lines leave its slots, its own lines move into them. -/
def Mod.restore (m : Mod) (e : Extent) : Mod :=
  let inside (k : Nat) : Bool := isPs k && decide (e.base ≤ unitOf (psAddr k) ∧ unitOf (psAddr k) < e.base + e.units)
  let others := (m.cache.lines.keep fun k l => !inside k && coversWay e.base e.units k l).map Prod.fst
  let m := forEach others (fun k m => m.flushLine k) m
  m.updCache fun c => { c with
    extents := c.extents.map fun x => if x.base = e.base then { x with demoted := 0 } else x,
    lines := c.lines.map fun q => if inside q.1 then (q.1, { q.2 with way := Fin.ofNat 16 (4 + slotOf q.1), evictFirst := 0 }) else q }

/-- The first of a list by a measure. -/
def firstBy (f : Extent → Nat) : List Extent → Option Extent
  | [] => none
  | e :: r => some (r.foldl (fun b x => if f x < f b then x else b) e)

/-- Has a whole window that was not void passed since a demotion, in every slice, at the threshold plus 64 or more (R206)? -/
def Mod.recovered (m : Mod) (p thr since : Nat) : Bool :=
  (List.range 16).all fun i =>
    let g := m.cache.guardP.getD (i * 128 + p) (0, false, 0)
    g.2.1 && decide (since < g.2.2) && decide (thr + 64 ≤ g.1)

/-- One partition at the end of window `w` of a slice (R202-R206). -/
def Mod.guardPart (m : Mod) (h w p : Nat) : Mod :=
  let rate := m.winRate (h * 256 + (if (m.part p).strict then p else 255))
  let thr := m.parN (pCchThrashThr + p)
  let m := m.updCache fun c => { c with guardP := c.guardP.put (h * 128 + p) (rate.getD 0, rate.isSome, w) }
  let named (m : Mod) : Mod := m.updCache fun c => { c with guard := c.guard.upd h {} fun g => { g with lastPart := Fin.ofNat 128 p } }
  let mine := m.cache.extents.filter fun e => e.part.val == p
  match rate with
  | none => m
  | some r =>
    if thr ≠ 0 ∧ r < thr then
      let yield := m.parN (pCchThrashPolicy + p) == 1
      let oldest := firstBy (·.order) (mine.filter fun e => e.demoted == 0 && !e.backing.isEmpty)
      let m := (m.raise evCchThrash h p (h + 2 ^ 8 * p + 2 ^ 16 * r + 2 ^ 32 * (w % 4096) + 2 ^ 64 * b2n (yield && oldest.isNone))).count
        kCchThrashEvt h
      let m := (named m).updCache fun c => { c with guard := c.guard.upd h {} fun g => { g with thrash := true } }
      match yield && m.cache.winDem.getD p 0 != w + 1, oldest with
      | true, some e =>
        (((m.demote e w).raise evCchPinDemote h p (e.base + 2 ^ 32 * e.units)).count kCchPinDemote h).updCache fun c =>
          { c with winDem := c.winDem.put p (w + 1) }
      | _, _ => m
    else match firstBy (fun e => m.cache.evictSeq - e.demoted) (mine.filter fun e => e.demoted != 0) with
      | none => m
      | some e =>
        if m.recovered p thr e.demWin && m.cache.winRes.getD p 0 != w + 1 then
          (named ((m.restore e).raise evCchPinRestore h p (e.base + 2 ^ 32 * e.units))).updCache fun c =>
            { c with winRes := c.winRes.put p (w + 1) }
        else m

/-- GUARD_WINDOW_END: a slice's window of 2^20 CLK_N cycles ends (R201-R206, Table 6.2). -/
def execGuardWindowEnd (h : SliceId) (s : State) : Out :=
  s.go fun m =>
    let rate := m.winRate (h.val * 256 + 255)
    let w := (m.cache.guard.getD h {}).windows
    let m := m.updCache fun c => { c with
      guard := c.guard.upd h {} fun g => { g with rate := rate.getD 0, valid := rate.isSome, thrash := false } }
    let ps := (List.range 128).filter fun p => m.cache.extents.any fun e => e.part.val == p
    let m := forEach ps (fun p m => m.guardPart h w p) m
    m.updCache fun c => { c with
      guard := c.guard.upd h {} fun g => { g with windows := w + 1 },
      win := c.win.keep fun k _ => k / 256 != h.val }

/-! Meanings of the coherence commands. A message command delivers that message where it is in flight; a request command
sends the request where the agent may send it. -/

/-- Errors of the slice's arrays on an access (06 R193). -/
def Mod.sliceEcc (m : Mod) (k : Nat) (e : Ecc) : Mod :=
  match e, m.line? k with
  | .ok, _ => m
  | _, none => m
  | .corrected, some _ => m.count kCchCe (homeOf k)
  | .uncorrectable, some l =>
    let m := m.count kCchUe (homeOf k)
    if l.dirty then m.setLine k { l with poison := true }
    else
      -- a clean line goes with its copies and is fetched again; an M copy's data is newer than the slice's
      let m := (m.settle k settleFuel).recall k false
      match m.line? k with
      | some l2 => if l2.dirty then m else m.dropLine k
      | none => m

/-- The dies whose seam lies between an agent and a line's home (09 R273, R276); an agent of an I/O die enters at the gateway of the home's
own die, or of the even die of its pair. -/
def Mod.seamsOf (m : Mod) (a k : Nat) : List Nat :=
  let home := homeOf k / 2
  let start := match nodeSeat a, nodeDie a with
    | some s, _ => s.1
    | none, some (.inr i) => if iodOfDie home = i then gateRouter home home else gateRouter (2 * i) (2 * i)
    | none, _ => gateRouter home home
  (m.nodePath (bankNode (homeOf k) (k % 2 ^ 34)) pathFuel start).filterMap fun p => match p with
    | .seam d _ _ => some d.val
    | _ => none
/-- Is the way between an agent and a line's home paused by a seam ratio change (06 R187, 09 R295)? -/
def Mod.seamHeld (m : Mod) (a k : Nat) : Bool := (m.seamsOf a k).any fun d => (m.die d).seamPaused

/-- A request that the agent has not outstanding reaches the home. -/
def Mod.sendReq (m : Mod) (k : Nat) (r : Req) (may : Bool) (e : Ecc) : Mod :=
  if may && (m.req? r.agent k).isNone && !(m.seamHeld r.agent k) then (if m.busy k then m else m.sliceEcc k e).reqArrive k r else m

/-- GETS: a caching agent without a copy asks for one (07 R230). -/
def execGets (a : AgentId) (l : LineRef) (p : PartId) (c : Fin 8) (e : Ecc) (s : State) : Out :=
  s.go fun m => m.atUnit (unitOfSlice (homeOf (lineKey l))) fun m => m.sendReq (lineKey l) { kind := .gets, agent := a, part := p, cls := c }
    (m.caching a && (m.l1 a (lineKey l)).isNone) e

/-- GETX: a caching agent without a copy asks for ownership (07 R231). -/
def execGetx (a : AgentId) (l : LineRef) (p : PartId) (c : Fin 8) (e : Ecc) (s : State) : Out :=
  s.go fun m => m.atUnit (unitOfSlice (homeOf (lineKey l))) fun m => m.sendReq (lineKey l) { kind := .getx, agent := a, part := p, cls := c }
    (m.caching a && (m.l1 a (lineKey l)).isNone) e

/-- UPG: an S or F holder asks for ownership of its copy (07 R231). -/
def execUpg (a : AgentId) (l : LineRef) (p : PartId) (c : Fin 8) (s : State) : Out :=
  s.go fun m => m.atUnit (unitOfSlice (homeOf (lineKey l))) fun m => m.sendReq (lineKey l) { kind := .upg, agent := a, part := p, cls := c }
    (match m.l1 a (lineKey l) with
      | some x => x.st == .S || x.st == .F
      | none => false) .ok

/-- An eviction sets out for the home. -/
def Mod.sendPut (m : Mod) (a : AgentId) (k : Nat) (st : L1St) : Mod := if m.seamHeld a k then m else m.putCopy a k st
/-- PUTF: eviction of an F copy. -/
def execPutf (a : AgentId) (l : LineRef) (s : State) : Out := s.go fun m => m.atUnit (unitOfSlice (homeOf (lineKey l))) fun m => m.sendPut a (lineKey l) .F
/-- PUTE: eviction of an E copy. -/
def execPute (a : AgentId) (l : LineRef) (s : State) : Out := s.go fun m => m.atUnit (unitOfSlice (homeOf (lineKey l))) fun m => m.sendPut a (lineKey l) .E
/-- PUTM: eviction of an M copy, with its data. -/
def execPutm (a : AgentId) (l : LineRef) (s : State) : Out := s.go fun m => m.atUnit (unitOfSlice (homeOf (lineKey l))) fun m => m.sendPut a (lineKey l) .M

/-- NCRD: a non-caching agent reads (07 R239). -/
def execNcrd (a : AgentId) (l : LineRef) (p : PartId) (c : Fin 8) (e : Ecc) (s : State) : Out :=
  s.go fun m => m.atUnit (unitOfSlice (homeOf (lineKey l))) fun m => m.sendReq (lineKey l) { kind := .ncrd, agent := a, part := p, cls := c } (m.nonCaching a) e

/-- NCWI: a non-caching agent writes under mode INVAL (07 R240). -/
def execNcwi (a : AgentId) (l : LineRef) (p : PartId) (c : Fin 8) (be : BitVec 128) (d : LineData) (s : State) : Out :=
  s.go fun m => m.atUnit (unitOfSlice (homeOf (lineKey l))) fun m => m.sendReq (lineKey l) { kind := .ncwi, agent := a, part := p, cls := c, byteen := be, data := d }
    (m.nonCaching a && m.cache.ncMode.getD a 0 == 0) .ok

/-- Agents whose writes may name a hint target: fabric ingress and expansion agents; others name the home only (07 R241). -/
def mayHint (a : Nat) : Bool := decide (1184 ≤ a) || (decide (1152 ≤ a ∧ a < 1184) && (a % 8 == 3 || a % 8 == 4))

/-- NCWH: a non-caching agent writes under mode HINT (07 R240, R241). -/
def execNcwh (a : AgentId) (l : LineRef) (p : PartId) (c : Fin 8) (be : BitVec 128) (d : LineData) (t : Option TileId)
    (s : State) : Out :=
  s.go fun m => m.atUnit (unitOfSlice (homeOf (lineKey l))) fun m => m.sendReq (lineKey l)
    { kind := .ncwh, agent := a, part := p, cls := c, byteen := be, data := d, target := if mayHint a then t else none }
    (m.nonCaching a && m.cache.ncMode.getD a 0 == 1) .ok

/-- DEAD: a dead mark of an agent reaches the home (06 R208-R212, 07 R237). -/
def execDead (a : AgentId) (l : LineRef) (p : PartId) (s : State) : Out :=
  s.go fun m => m.atUnit (unitOfSlice (homeOf (lineKey l))) fun m =>
    m.sendReq (lineKey l) { kind := .dead, agent := a, part := p } (agentDefined a) .ok

/-- Deliver one message of a kind to or from an agent. -/
def Mod.message (m : Mod) (kd : MsgKind) (a : AgentId) (l : LineRef) : Mod :=
  if m.seamHeld a (lineKey l) then m else m.deliverOne (fun x => x.kind == kd && x.agent == a && x.line == lineKey l)

/-- FWD_S: the holder supplies data and keeps S (07 Table 7.5). -/
def execFwdS (a : AgentId) (l : LineRef) (s : State) : Out := s.go fun m => m.atUnit (unitOfAgent a.val) fun m => m.message .fwdS a l
/-- FWD_X: the holder supplies data and goes to I. -/
def execFwdX (a : AgentId) (l : LineRef) (s : State) : Out := s.go fun m => m.atUnit (unitOfAgent a.val) fun m => m.message .fwdX a l
/-- FWD_NC: the M holder returns its data and keeps E. -/
def execFwdNc (a : AgentId) (l : LineRef) (s : State) : Out := s.go fun m => m.atUnit (unitOfAgent a.val) fun m => m.message .fwdNc a l
/-- INV: a holder goes to I and returns M data. -/
def execInv (a : AgentId) (l : LineRef) (s : State) : Out := s.go fun m => m.atUnit (unitOfAgent a.val) fun m => m.message .inv a l
/-- INVD: a holder goes to I and discards its data. -/
def execInvd (a : AgentId) (l : LineRef) (s : State) : Out := s.go fun m => m.atUnit (unitOfAgent a.val) fun m => m.message .invd a l
/-- PUSH: the home offers a written line to the hinted tile, in E. -/
def execPush (t : TileId) (l : LineRef) (home : SliceId) (s : State) : Out :=
  s.go fun m => m.atUnit t.val fun m => if homeOf (lineKey l) != home.val then m else m.message .push ⟨t.val, by omega⟩ l
/-- DATA_S: a grant of S. -/
def execDataS (a : AgentId) (l : LineRef) (s : State) : Out := s.go fun m => m.atUnit (unitOfAgent a.val) fun m => m.message .dataS a l
/-- DATA_F: a grant of F. -/
def execDataF (a : AgentId) (l : LineRef) (s : State) : Out := s.go fun m => m.atUnit (unitOfAgent a.val) fun m => m.message .dataF a l
/-- DATA_E: a grant of E. -/
def execDataE (a : AgentId) (l : LineRef) (s : State) : Out := s.go fun m => m.atUnit (unitOfAgent a.val) fun m => m.message .dataE a l
/-- DATA_M: a grant of ownership with data. -/
def execDataM (a : AgentId) (l : LineRef) (s : State) : Out := s.go fun m => m.atUnit (unitOfAgent a.val) fun m => m.message .dataM a l
/-- GRANT_M: ownership of a held copy. -/
def execGrantM (a : AgentId) (l : LineRef) (s : State) : Out := s.go fun m => m.atUnit (unitOfAgent a.val) fun m => m.message .grantM a l
/-- NCDATA: read data reaches a non-caching agent. -/
def execNcdata (a : AgentId) (l : LineRef) (s : State) : Out := s.go fun m => m.atUnit (unitOfAgent a.val) fun m => m.message .ncdata a l
/-- NCACK: a non-caching write has been performed. -/
def execNcack (a : AgentId) (l : LineRef) (s : State) : Out := s.go fun m => m.atUnit (unitOfAgent a.val) fun m => m.message .ncack a l
/-- INV_ACK: a copy has been removed. -/
def execInvAck (a : AgentId) (l : LineRef) (s : State) : Out := s.go fun m => m.atUnit (unitOfSlice (homeOf (lineKey l))) fun m => m.message .invAck a l
/-- FWD_ACK: a forward has been served. -/
def execFwdAck (a : AgentId) (l : LineRef) (s : State) : Out := s.go fun m => m.atUnit (unitOfSlice (homeOf (lineKey l))) fun m => m.message .fwdAck a l
/-- PUSH_ACK: the tile accepted the line; DX names it. -/
def execPushAck (t : TileId) (l : LineRef) (s : State) : Out :=
  s.go fun m => m.atUnit (unitOfSlice (homeOf (lineKey l))) fun m => m.message .pushAck ⟨t.val, by omega⟩ l
/-- PUSH_NAK: the tile declined; CCH_PUSH_NAK counts. -/
def execPushNak (t : TileId) (l : LineRef) (s : State) : Out :=
  s.go fun m => m.atUnit (unitOfSlice (homeOf (lineKey l))) fun m => m.message .pushNak ⟨t.val, by omega⟩ l
/-- PUT_ACK: the eviction is recorded; the write-back buffer is freed. -/
def execPutAck (a : AgentId) (l : LineRef) (s : State) : Out := s.go fun m => m.atUnit (unitOfAgent a.val) fun m => m.message .putAck a l
/-- NACK: the requester backs off, or waits with its ticket (07 R234, R235). -/
def execNack (a : AgentId) (l : LineRef) (s : State) : Out := s.go fun m => m.atUnit (unitOfAgent a.val) fun m => m.message .nack a l

/-- NACK_BACKOFF_EXPIRY: the request is sent again (07 R234). -/
def execNackBackoffExpiry (a : AgentId) (l : LineRef) (s : State) : Out :=
  s.go fun m => m.atUnit (unitOfAgent a.val) fun m => match m.req? a (lineKey l) with
    | some r => if r.backoff && !(m.seamHeld a (lineKey l)) then m.reqArrive (lineKey l) { r with backoff := false } else m
    | none => m

/-- TICKET_ADMIT: the oldest ticketed request to a line is admitted as soon as R227 allows (07 R235). -/
def execTicketAdmit (l : LineRef) (s : State) : Out := s.go fun m => m.atUnit (unitOfSlice (homeOf (lineKey l))) fun m => m.admitTicket (lineKey l)

/-- Does a request to a line wait for its channel, which is being retrained (18 R536)? A durable line is served the while (log 148). -/
def Mod.awaitsRetrain (m : Mod) (pa : Nat) : Bool :=
  !m.durable pa && (match m.ft.retrain with
    | some (st, c :: _) => m.stackOf pa == st.val && chanOf pa == c
    | _ => false)

/-- FILL_RETURN: a fill's data arrives and is sent to its requesters (06 R213-R216); `lacks` names requesters whose last port lacks
credit. -/
def execFillReturn (l : LineRef) (e : Ecc) (lacks : List AgentId) (s : State) : Out :=
  s.go fun m => m.atUnit (unitOfSlice (homeOf (lineKey l))) fun m =>
    if !isPs (lineKey l) && m.awaitsRetrain (linePa (lineKey l)) then m else m.fillLine (lineKey l) e lacks

/-- An entry without the holders that satisfy a test: a DX entry goes to DI, F and S holders are dropped (07 R243). -/
def Dir.without (d : Dir) (gone : AgentId → Bool) : Dir :=
  let ptrs := d.ptrs.filter fun a => !gone a
  let none' : Dir := { dirDI with busy := d.busy }
  let rest : Dir := if ptrs.isEmpty && !d.coarse then none' else { d with ptrs := ptrs, dstate := 1, fwd := 0 }
  match d.dstate.val with
  | 0 => d
  | 1 => rest
  | 2 => if gone d.fwd then rest else { d with ptrs := ptrs }
  | _ => if gone d.fwd then none' else d

/-- A home counts an agent's copies as dropped and poisons the lines it held dirty (07 R243). -/
def Mod.dropAgent (m : Mod) (h : Nat) (a : AgentId) : Mod :=
  let held := (m.cache.lines.keep fun j l => homeOf j == h && l.dir.dstate == 3 && l.dir.fwd == a).map Prod.fst
  let m := forEach held (fun j m =>
    match m.line? j, m.copyOf a j with
    | some l, some c => if c.st == .M then m.setLine j { l with poison := true } else m
    | some l, none => m.setLine j { l with poison := true }
    | _, _ => m) m
  let here (j : Nat) : Bool := j / 2 ^ 36 == a.val && homeOf (j % 2 ^ 36) == h
  m.updCache fun c => { c with
    lines := c.lines.mapWhere (fun j _ => homeOf j == h) fun l => { l with dir := l.dir.without (· == a) },
    l1 := c.l1.keep fun j _ => !here j,
    wbuf := c.wbuf.keep fun j _ => !here j }

/-- AGENT_UNRESPONSIVE: a home has awaited one agent for 1 ms (07 R243). An offer by PUSH ends with the line in DI. -/
def Mod.unresponsive (m : Mod) (k : Nat) (a : AgentId) : Mod :=
  match Tab.find k m.cache.txns with
  | none => m
  | some t =>
    if !t.await.contains a then m
    else
      let h := homeOf k
      let m := (m.count kCchUnresp h).raise (agentFaultCode a) a.val noPart a.val
      let m := if t.pushed && (match m.copyOf a k with
          | some c => c.st == .M
          | none => false) then (match m.line? k with
            | some l => m.setLine k { l with poison := true }
            | none => m) else m
      let m := (m.dropAgent h a).updCache fun c => { c with
        txns := c.txns.adj k fun t => { t with direct := false },
        net := c.net.filter fun x => !(x.agent == a && x.line == k) }
      if t.pushed then ((m.clearBusy k).advance k [] advanceFuel).retryFills (plruKey k) else m.ackAt k a none false

/-- An agent is declared unresponsive at every home (17 R506): what is awaited of it counts as received, its copies as dropped. -/
def Mod.declareGone (m : Mod) (a : AgentId) : Mod :=
  let m := forEach ((m.cache.txns.filter fun e => e.2.await.contains a).map Prod.fst) (fun k m => m.unresponsive k a) m
  forEach (List.range 16) (fun h m => m.dropAgent h a) m

/-- AGENT_UNRESPONSIVE. -/
def execAgentUnresponsive (l : LineRef) (a : AgentId) (s : State) : Out := s.go fun m => if m.braked then m else m.unresponsive (lineKey l) a

/-- NC_MODE_CHANGE: a change between INVAL and HINT takes effect once the agent has no request outstanding (07 R242). -/
def execNcModeChange (a : AgentId) (s : State) : Out :=
  s.go fun m => match Tab.find a.val m.cache.ncPend with
    | none => m
    | some v =>
      if v = 2 ∨ m.cache.ncMode.getD a 0 = 2 ∨ m.cache.reqs.any (fun q => q.1 / 2 ^ 36 == a.val) then m
      else m.updCache fun c => { c with ncMode := c.ncMode.put a v, ncPend := c.ncPend.del a }

end Sys2Proof.Machine
end

