-- ==== Sys2Proof/Machine/Spaces.lean ====
section
/-! DEFINITION. Address spaces (spec 05): the device MMU, scratchpad windows, and byte accesses to TS, PS, EM and HM with
their violations and poison. -/

namespace Sys2Proof.Machine

/-- Who makes an access: a tile through its L1 portion, or a non-caching agent. -/
inductive Who where
  | tile (t : TileId)
  | nc (a : AgentId)
  deriving DecidableEq, Repr

/-- A right a translation needs. -/
inductive Right where
  | read | write | fetch
  deriving DecidableEq, Repr

/-- What a byte access gives: the bytes, a violation (zeros read, nothing written), poison, poison of an unmirrored shared
line (05 R179), and a durable write that was not performed (11 R328). -/
structure BRes where
  bytes : List Byte := []
  viol : Bool := false
  poison : Bool := false
  shared : Bool := false
  unperformed : Bool := false
  deriving DecidableEq, Repr

/-- Byte enables of `n` bytes from an offset. -/
def enables (off n : Nat) : BitVec 128 := BitVec.ofNat 128 ((2 ^ n - 1) * 2 ^ off)
/-- Bytes placed at an offset of a line. -/
def placed (off : Nat) (bs : List Byte) : LineData := lineOf (List.replicate off 0 ++ bs)

/-- The half whose translation cache an agent uses: none for agents of the I/O dies (log 31). -/
def Who.half : Who → Option Nat
  | .tile t => some (halfOfTile t.val)
  | .nc a => agentHalf a.val

def Mod.readLine (m : Mod) (w : Who) (k p cls : Nat) : LineRes × Mod :=
  match w with
  | .tile t => m.cohRead t k p cls
  | .nc a => m.ncRead a k p cls
def Mod.writeLine (m : Mod) (w : Who) (k p cls : Nat) (be : BitVec 128) (d : LineData) (t : Option TileId) : Mod × Bool :=
  match w with
  | .tile x => (m.cohWrite x k p cls be d, true)
  | .nc a => m.ncWrite a k p cls be d t

/-- The agent that stands for table walkers and for the front end of I/O die `k`; neither carries a partition (19 R550). -/
def feAgent (k : Nat) : AgentId := Fin.ofNat 2048 (1152 + 8 * (k % 4))
def seqAgent (k : Nat) : AgentId := Fin.ofNat 2048 (1153 + 8 * (k % 4))

/-! The device MMU (R165-R168). -/

/-- Outcome of a translation. -/
inductive Xlat where
  | ok (pa : Nat)
  | fail
  | poison
  deriving DecidableEq, Repr

/-- Read one page-table entry through the cache, in class OTHER. -/
def Mod.readPte (m : Mod) (pa : Nat) : (Nat × Bool) × Mod :=
  let r := m.ncRead (feAgent 0) (emKeyOf pa) 0 7
  ((leField (bytesOf r.1.data) (pa % 128) 8, r.1.poison), r.2)

def pteLeaf (e : Nat) : Bool := e.testBit 1
/-- Reserved bits of Table 5.4 are zero. -/
def pteClean (e : Nat) : Bool := bits e 63 48 == 0 && bits e 43 41 == 0 && bits e 7 6 == 0
def pteAddr (e : Nat) : Nat := bits e 40 8 * 256

/-- Is a region of an address mappable (11 R309)? -/
def Mod.mappable (m : Mod) (pa : Nat) : Bool :=
  let k := kindOf (m.region (regionOf pa))
  !(k == kMIRRORCOPY || k == kPARITYP || k == kSPARE)

/-- State of a shared slot: 0 FREE, 1 LOADING, 2 SEALED. -/
def Mod.shrState (m : Mod) (n : Nat) : Nat := match Tab.find n m.parts.shr with
  | some v => v.1.val
  | none => 0

/-- The rights, key and alignment checks of a leaf (R166, R167, 11 R315, 15 R437). -/
def Mod.leafOk (m : Mod) (p e size pa : Nat) (need : Right) : Bool :=
  let key := bits e 47 44
  let sh := e.testBit 5
  let right := match need with
    | .read => e.testBit 2
    | .write => e.testBit 3 && !sh
    | .fetch => e.testBit 4
  let tag := (m.tagOf pa).toNat
  pteClean e && bits e 15 8 == 0 && pteAddr e % size == 0 && right && m.mappable pa &&
  (if sh then key != 0 && m.shrState key != 0 && tag == 0x80 + key
   else if key = 0 then tag == p
   else p == 0 && m.shrState key == 1 && tag == 0x80 + key)

/-! The translation caches (R168). -/

/-- The cached leaf of an address. -/
def Mod.tlbFind (m : Mod) (h p va : Nat) : Option TlbEnt :=
  (m.half h).tlb.find? fun e => e.part.val == p && decide (e.page ≤ va ∧ va < e.page + e.size)
/-- Cache a leaf; which entry makes room in a full cache is a free value (log 31). -/
def Mod.tlbPut (m : Mod) (h : Nat) (e : TlbEnt) : Mod :=
  let l := (m.half h).tlb
  if l.length < 4096 then m.updHalf h fun x => { x with tlb := e :: l }
  else
    let q := m.draw
    q.2.updHalf h fun x => { x with tlb := e :: l.eraseIdx (q.1 % 4096) }
/-- Remove the entries that satisfy a test from every cache. -/
def Mod.tlbDrop (m : Mod) (gone : TlbEnt → Bool) : Mod :=
  { m with halves := m.halves.mapVals fun x => { x with tlb := x.tlb.filter fun e => !gone e } }

/-- Walk the tables of a partition for an address: the leaf with its page size, or none, or poison. -/
def Mod.walkTables (m : Mod) (p va : Nat) : Option (Nat × Nat) × Bool × Mod :=
  let root := (m.part p).ptroot * 4096
  let r1 := m.readPte (root + 8 * bits va 47 39)
  let e1 := r1.1.1
  if r1.1.2 then (none, true, r1.2)
  else if !e1.testBit 0 || !pteClean e1 || pteLeaf e1 || bits e1 11 8 != 0 then (none, false, r1.2)
  else
    let r2 := r1.2.readPte (pteAddr e1 + 8 * bits va 38 30)
    let e2 := r2.1.1
    if r2.1.2 then (none, true, r2.2)
    else if !e2.testBit 0 || !pteClean e2 then (none, false, r2.2)
    else if pteLeaf e2 then (some (e2, 2 ^ 30), false, r2.2)
    else if bits e2 11 8 != 0 then (none, false, r2.2)
    else
      let r3 := r2.2.readPte (pteAddr e2 + 8 * bits va 29 21)
      let e3 := r3.1.1
      if r3.1.2 then (none, true, r3.2)
      else if !e3.testBit 0 || !pteClean e3 then (none, false, r3.2)
      else if pteLeaf e3 then (some (e3, 2 ^ 21), false, r3.2)
      else
        let r4 := r3.2.readPte (pteAddr e3 + 8 * bits va 20 16)
        let e4 := r4.1.1
        if r4.1.2 then (none, true, r4.2)
        else if !e4.testBit 0 || !pteClean e4 || !pteLeaf e4 then (none, false, r4.2)
        else (some (e4, 65536), false, r4.2)

/-- Translate an address: by the half's cache, else by a walk, whose leaf the cache keeps where it serves the access (R166-R168). -/
def Mod.translate (m : Mod) (half : Option Nat) (p va : Nat) (need : Right) : Xlat × Mod :=
  match half.bind fun h => m.tlbFind h p va with
  | some e => (if m.leafOk p e.pte e.size (pteAddr e.pte + va % e.size) need then .ok (pteAddr e.pte + va % e.size) else .fail, m)
  | none => match m.walkTables p va with
    | (_, true, m) => (.poison, m)
    | (none, false, m) => (.fail, m)
    | (some (e, size), false, m) =>
      let pa := pteAddr e + va % size
      if m.leafOk p e size pa need then
        (.ok pa, match half with
          | some h => m.tlbPut h ⟨Fin.ofNat 128 p, va - va % size, size, e⟩
          | none => m)
      else (.fail, m)

/-- Is a physical line of an unmirrored shared region? -/
def Mod.plainShared (m : Mod) (pa : Nat) : Bool :=
  let t := (m.tagOf pa).toNat
  decide (0x81 ≤ t ∧ t ≤ 0x8F) && !(m.durable pa)

/-- Poison read from a line: an unmirrored shared line raises SHR_FAULT and gives SHARED_FAULT (15 R439). -/
def Mod.poisonRead (m : Mod) (k : Nat) (bs : List Byte) : BRes × Mod :=
  if !isPs k && m.plainShared (linePa k) then
    (⟨bs, false, true, true, false⟩,
      m.raise evShrFault ((m.tagOf (linePa k)).toNat - 0x80) noPart (linePa k + 2 ^ 64 * ((m.tagOf (linePa k)).toNat - 0x80)))
  else (⟨bs, false, true, false, false⟩, m)

/-- Read bytes that lie in one line of a key. -/
def Mod.lineBytes (m : Mod) (w : Who) (k off n p cls : Nat) : BRes × Mod :=
  let r := m.readLine w k p cls
  let bs := ((bytesOf r.1.data).drop off).take n
  if r.1.poison then r.2.poisonRead k bs else (⟨bs, false, false, false, false⟩, r.2)

/-- Zeros, as a violation reads (15 R444); the count is the caller's. -/
def zerosViol (n : Nat) : BRes := ⟨List.replicate n 0, true, false, false, false⟩

/-- Read bytes of one line of EM by virtual address. -/
def Mod.emReadVa (m : Mod) (w : Who) (p va n cls : Nat) : BRes × Mod :=
  if 2 ^ 48 ≤ va then (zerosViol n, m)
  else match m.translate w.half p va .read with
    | (.fail, m) => (zerosViol n, m)
    | (.poison, m) => (⟨List.replicate n 0, false, true, false, false⟩, m)
    | (.ok pa, m) => m.lineBytes w (emKeyOf pa) (pa % 128) n p cls

/-- Write bytes of one line of EM by virtual address. -/
def Mod.emWriteVa (m : Mod) (w : Who) (p va : Nat) (bs : List Byte) (cls : Nat) (t : Option TileId) : BRes × Mod :=
  if 2 ^ 48 ≤ va then (zerosViol 0, m)
  else match m.translate w.half p va .write with
    | (.fail, m) => (zerosViol 0, m)
    | (.poison, m) => (⟨[], false, true, false, false⟩, m)
    | (.ok pa, m) =>
      let r := m.writeLine w (emKeyOf pa) p cls (enables (pa % 128) bs.length) (placed (pa % 128) bs) t
      (⟨[], false, false, false, !r.2⟩, r.1)

/-- Read and write bytes of one line of PS (R161, R194). -/
def Mod.psRead (m : Mod) (w : Who) (p a n : Nat) : BRes × Mod :=
  if 2 ^ 31 ≤ a || !(m.psOwned p a) then (zerosViol n, m)
  else if m.psLost (psKeyOf a) then (⟨List.replicate n 0, false, true, false, false⟩, m) else m.lineBytes w (psKeyOf a) (a % 128) n p 3
def Mod.psWrite (m : Mod) (w : Who) (p a : Nat) (bs : List Byte) : BRes × Mod :=
  if 2 ^ 31 ≤ a || !(m.psOwned p a) then (zerosViol 0, m)
  else if m.psLost (psKeyOf a) then (⟨[], false, true, false, false⟩, m)
  else
    let r := m.writeLine w (psKeyOf a) p 3 (enables (a % 128) bs.length) (placed (a % 128) bs) none
    (⟨[], false, false, false, !r.2⟩, r.1)

/-! Scratchpads (03 R80-R87). -/

/-- Bank and row of a scratchpad byte under a split, as one address (R82). -/
def tsPhys (split s : Nat) : Nat :=
  let b := s / 64 % (4 * split)
  let row := s / (256 * split)
  b * 2 ^ 17 + row * 64 + s % 64
/-- Scratchpad bytes of a tile (R81). -/
def tsSize (split : Nat) : Nat := split * 524288
/-- Poison mark of a granule. -/
def granule (phys : Nat) : Nat := phys / 64

/-- Read bytes of one granule of a tile's scratchpad. -/
def Mod.tsRead (m : Mod) (t s n : Nat) : BRes :=
  let x := m.tile t
  if tsSize x.split < s + n then zerosViol n
  else
    let a := tsPhys x.split s
    ⟨Mem.rds x.ts a n, false, x.poison.has (granule a), false, false⟩
/-- Write bytes of one granule: a write of the whole granule clears its poison (R84). -/
def Mod.tsWrite (m : Mod) (t s : Nat) (bs : List Byte) : BRes × Mod :=
  let x := m.tile t
  if tsSize x.split < s + bs.length then (zerosViol 0, m)
  else
    let a := tsPhys x.split s
    (⟨[], false, false, false, false⟩, m.setTile t { x with
      ts := Mem.wrs a bs x.ts,
      poison := if bs.length = 64 then x.poison.del (granule a) else x.poison })
/-- Mark a granule poisoned. -/
def Mod.tsPoison (m : Mod) (t s : Nat) : Mod :=
  m.updTile t fun x => { x with poison := x.poison.put (granule (tsPhys x.split s)) () }

/-- Outcome of the tile array's error code for a granule of the scratchpad (03 R84). -/
def Mod.tsEcc (m : Mod) (t b : Nat) (e : Ecc) : Mod :=
  match e with
  | .ok => m
  | .corrected => m.count kTilArrayCe t
  | .uncorrectable => m.tsPoison t b

/-- Scratchpad byte of an offset in a saddle's window, or none outside it (R87, Table 3.3). -/
def Mod.winByte (m : Mod) (t s off n : Nat) : Option Nat :=
  let w := (m.tile t).win.getD s (0, 0)
  if off + n ≤ w.2 * 65536 then some (w.1 * 65536 + off) else none

/-- Cut an access into pieces that lie in one aligned unit of `u` bytes each. -/
def pieces (u a n : Nat) : Nat → List (Nat × Nat)
  | 0 => []
  | f + 1 => if n = 0 then [] else
    let k := min n (u - a % u)
    (a, k) :: pieces u (a + k) (n - k) f

/-- Join results of pieces. -/
def BRes.join (a b : BRes) : BRes :=
  ⟨a.bytes ++ b.bytes, a.viol || b.viol, a.poison || b.poison, a.shared || b.shared, a.unperformed || b.unperformed⟩

/-- Read pieces one after another. -/
def readPieces (l : List (Nat × Nat)) (f : Nat → Nat → Mod → BRes × Mod) (m : Mod) : BRes × Mod :=
  l.foldl (fun r p => let q := f p.1 p.2 r.2; (r.1.join q.1, q.2)) ({}, m)
/-- Write pieces one after another. -/
def writePieces (l : List (Nat × Nat)) (base : Nat) (bs : List Byte) (f : Nat → List Byte → Mod → BRes × Mod) (m : Mod) :
    BRes × Mod :=
  l.foldl (fun r p => let q := f p.1 ((bs.drop (p.1 - base)).take p.2) r.2; (r.1.join q.1, q.2)) ({}, m)

/-- Read `n` bytes of virtual EM, of PS, of a tile's scratchpad, any alignment. -/
def Mod.emReadN (m : Mod) (w : Who) (p va n cls : Nat) : BRes × Mod :=
  readPieces (pieces 128 va n (n + 1)) (fun a k m => m.emReadVa w p a k cls) m
def Mod.emWriteN (m : Mod) (w : Who) (p va : Nat) (bs : List Byte) (cls : Nat) : BRes × Mod :=
  writePieces (pieces 128 va bs.length (bs.length + 1)) va bs (fun a b m => m.emWriteVa w p a b cls none) m
def Mod.psReadN (m : Mod) (w : Who) (p a n : Nat) : BRes × Mod :=
  readPieces (pieces 128 a n (n + 1)) (fun a k m => m.psRead w p a k) m
def Mod.psWriteN (m : Mod) (w : Who) (p a : Nat) (bs : List Byte) : BRes × Mod :=
  writePieces (pieces 128 a bs.length (bs.length + 1)) a bs (fun a b m => m.psWrite w p a b) m
def Mod.tsReadN (m : Mod) (t s n : Nat) : BRes :=
  (readPieces (pieces 64 s n (n + 1)) (fun a k m => (m.tsRead t a k, m)) m).1
def Mod.tsWriteN (m : Mod) (t s : Nat) (bs : List Byte) : BRes × Mod :=
  writePieces (pieces 64 s bs.length (bs.length + 1)) s bs (fun a b m => m.tsWrite t a b) m

/-- Provider structures by physical address, through the cache, by the front end. -/
def Mod.physRead (m : Mod) (pa n cls : Nat) : BRes × Mod :=
  readPieces (pieces 128 pa n (n + 1)) (fun a k m => m.lineBytes (.nc (feAgent 0)) (emKeyOf a) (a % 128) k 0 cls) m
/-- The same written by an agent. -/
def Mod.physWriteBy (m : Mod) (by' : AgentId) (pa : Nat) (bs : List Byte) (cls : Nat) : Mod :=
  (writePieces (pieces 128 pa bs.length (bs.length + 1)) pa bs (fun a b m =>
    ({}, (m.ncWrite by' (emKeyOf a) 0 cls (enables (a % 128) b.length) (placed (a % 128) b) none).1)) m).2
def Mod.physWrite (m : Mod) (pa : Nat) (bs : List Byte) (cls : Nat) : Mod := m.physWriteBy (feAgent 0) pa bs cls

/-! Areas of EM that a unit keeps for its own records: no other unit uses their lines. -/

/-- Write bytes of one line, coherently with a slice that holds it. -/
def Mod.areaPiece (m : Mod) (pa : Nat) (bs : List Byte) : Mod :=
  let a := pa / 128 * 128
  if bs.length = 128 then m.backWrite a (lineOf bs) false
  else
    let r := m.backRead a .ok
    r.2.backWrite a (mergeLine (enables (pa % 128) bs.length) r.1.data (placed (pa % 128) bs)) r.1.poison
/-- Write bytes of an area; there is none past the end of memory. -/
def Mod.areaWrite (m : Mod) (pa : Nat) (bs : List Byte) : Mod :=
  if paLimit < pa + bs.length then m
  else (pieces 128 pa bs.length (bs.length + 1)).foldl (fun m p => m.areaPiece p.1 ((bs.drop (p.1 - pa)).take p.2)) m
/-- What an area holds, or none where a line of it is poison. -/
def Mod.areaRead (m : Mod) (pa n : Nat) : Option (List Byte) :=
  if paLimit < pa + n then none
  else (pieces 128 pa n (n + 1)).foldl (fun r p =>
    let d := (m.backRead (p.1 / 128 * 128) .ok).1
    r.bind fun bs => if d.poison then none else some (bs ++ ((bytesOf d.data).drop (p.1 % 128)).take p.2)) (some [])

/-! Core addresses (04 R124, R125). -/

/-- EM bytes moved for the task in a saddle. -/
def Mod.emMoved (m : Mod) (t s n : Nat) : Mod :=
  match (m.ctx t s).task with
  | some k => m.workDone k.cmd n 0 0 0
  | none => m

/-- Read up to a line at a tagged address, for the context of a saddle. Violations are counted here. -/
def Mod.coreRead (m : Mod) (t : TileId) (s : SaddleId) (p : Nat) (addr : Nat) (n cls : Nat) : BRes × Mod :=
  let low := addr % 2 ^ 62
  let r : BRes × Mod := match addr / 2 ^ 62 with
    | 0 => match m.winByte t s low n with
      | some b => (m.tsReadN t b n, m)
      | none => (zerosViol n, m)
    | 1 => m.psReadN (.tile t) p low n
    | _ => (m.emMoved t s n).emReadN (.tile t) p low n cls
  if r.1.viol then (r.1, r.2.violate p) else r

/-- Write at a tagged address. -/
def Mod.coreWrite (m : Mod) (t : TileId) (s : SaddleId) (p : Nat) (addr : Nat) (bs : List Byte) (cls : Nat) : BRes × Mod :=
  let low := addr % 2 ^ 62
  let r : BRes × Mod := match addr / 2 ^ 62 with
    | 0 => match m.winByte t s low bs.length with
      | some b => m.tsWriteN t b bs
      | none => (zerosViol 0, m)
    | 1 => m.psWriteN (.tile t) p low bs
    | _ => (m.emMoved t s bs.length).emWriteN (.tile t) p low bs cls
  if r.1.viol then (r.1, r.2.violate p) else r

/-! Host memory (R163, 15 R428, R433, R434). -/

/-- Set the bits of the pages a write touches in the active dirty-page bitmap (15 R434). -/
def Mod.migLog (m : Mod) (fn addr n : Nat) : Mod :=
  if !(m.parB (pMigLogOn + fn)) || n = 0 then m
  else
    let lo := m.parN (pMigHmlo + fn)
    let cnt := 2 ^ m.parN (pMigLog2 + fn)
    let base := m.parN (pMigLogBase + fn) + (if (m.part fn).migB then cnt / 8 else 0)
    let first := addr / 4096
    let last := (addr + n - 1) / 4096
    forEach (List.range (last + 1 - first)) (fun i m =>
      let pg := (first + i) * 4096
      if pg < lo ∨ cnt ≤ (pg - lo) / 4096 then m.updPart fn fun x => { x with migOvf := true }
      else
        let bit := (pg - lo) / 4096
        let r := m.physRead (base + bit / 8) 1 7
        r.2.physWrite (base + bit / 8) [BitVec.ofNat 8 (leNat r.1.bytes ||| 2 ^ (bit % 8))] 7) m

/-- A byte of host memory as a function names it: requester ID and bus address (05 R163). -/
def hmKey (fn addr : Nat) : Nat := fn * 2 ^ 64 + addr % 2 ^ 64

/-- A write to host memory with a function's requester ID, tagged with a generation: discarded once the generation has
moved on (15 R428, 14 R400). -/
def Mod.hmWrite (m : Mod) (fn : Nat) (gen : BitVec 16) (addr : Nat) (bs : List Byte) : Mod :=
  if (m.part fn).gen ≠ gen then m
  else
    let m := m.migLog fn addr bs.length
    m.updMem fun e => { e with hm := (bs.zipIdx).foldl (fun t b => t.put (hmKey fn (addr + b.2)) b.1) e.hm }

/-- A read of host memory with a function's requester ID: what the host delivers is its own (log 6). -/
def Mod.hmRead (m : Mod) (fn addr n : Nat) : List Byte × Mod :=
  ((List.range n).map fun i => Config.hostByte m.free (hmKey fn (addr + i)), { m with free := m.free + 1 })

end Sys2Proof.Machine
end

