-- ==== Sys2Proof/Machine/Sync.lean ====
section
/-! DEFINITION. Contexts as the waits see them, semaphores and barriers, and the synchronisation network (spec 04 R145-R148,
09 R290-R293, 13 R373). -/

namespace Sys2Proof.Machine

/-! Registers and the state of a context. -/

/-- Integer register; x0 reads zero (04 R121). -/
def Ctx.getX (c : Ctx) (r : Reg) : W64 := if r = 0 then 0 else c.x.getD r.val 0
/-- Write an integer register; x0 discards. -/
def Ctx.setX (c : Ctx) (r : Reg) (v : W64) : Ctx := if r = 0 then c else { c with x := c.x.put r.val v }
/-- The next instruction: pc after one of `n` bytes, one more retired. -/
def Ctx.advance (c : Ctx) (n : Nat) : Ctx := { c with pc := c.pc + BitVec.ofNat 64 n, instret := c.instret + 1 }

/-- Can the core run a context (13 R366)? -/
def Ctx.runnable (c : Ctx) : Bool := c.st == .run && c.ending.isNone

/-- The core goes on to another context when its own blocks, halts or ends (13 R366). -/
def Mod.pickCur (m : Mod) (t : Nat) : Mod :=
  let cur := (m.tile t).cur
  if (m.ctx t cur.val).runnable then m
  else match [1, 2, 3].find? fun i => (m.ctx t ((cur.val + i) % 4)).runnable with
    | some i => m.updTile t fun x => { x with cur := Fin.ofNat 4 (cur.val + i) }
    | none => m

/-- The saddle of the resident context with a uid. -/
def Mod.ctxOf (m : Mod) (uid : Nat) : Option Nat :=
  (m.ctxs.find? fun e => e.2.uid == uid && e.2.st != .empty).map Prod.fst
/-- The handle of the saved context with a uid. -/
def Mod.savedOf (m : Mod) (uid : Nat) : Option Nat :=
  (m.sched.saved.find? fun e => e.2.ctx.uid == uid).map Prod.fst
def Mod.updSched (m : Mod) (f : SchedS → SchedS) : Mod := { m with sched := f m.sched }
def Mod.updSaved (m : Mod) (h : Nat) (f : Saved → Saved) : Mod :=
  m.updSched fun s => { s with saved := s.saved.adj h f }
def Mod.updNet (m : Mod) (f : NetS → NetS) : Mod := { m with net := f m.net }

/-- A context stalls in a wait (04 R148). -/
def Mod.block (m : Mod) (t s : Nat) (w : Wait) : Mod :=
  (m.updCtx t s fun c => { c with st := .blocked, wait := some w, blockedAt := m.ticks, evictable := false }).pickCur t

/-- The wait is over: the instruction retires. -/
def Ctx.endWait (c : Ctx) (rd : Option (Reg × W64)) : Ctx :=
  let c := match rd with
    | some p => c.setX p.1 p.2
    | none => c
  { c.advance 4 with wait := none, st := if c.st == .blocked then .run else c.st, evictable := false }

/-- Update the context with a uid, wherever it is; a parked context whose wait is over joins the runnable ones by
PARKED_WAIT_DONE (13 R373). -/
def Mod.updUid (m : Mod) (uid : Nat) (f : Ctx → Ctx) : Mod :=
  match m.ctxOf uid with
  | some k => (m.updCtx (k / 4) (k % 4) f).pickCur (k / 4)
  | none => match m.savedOf uid with
    | some h => m.updSaved h fun s => { s with ctx := f s.ctx }
    | none => m

/-! Semaphores. -/

def Mod.sem (m : Mod) (s : Nat) : Sem := m.net.sems.getD s {}
def Mod.setSem (m : Mod) (s : Nat) (v : Sem) : Mod := m.updNet fun n => { n with sems := n.sems.put s v }

/-- Add to a semaphore: it saturates, sets OVF and counts (09 R291). -/
def Mod.addSem (m : Mod) (s n : Nat) : Mod :=
  let v := m.sem s
  if 0xFFFFFFFF < v.value + n then (m.setSem s { value := 0xFFFFFFFF, ovf := true }).count kTilSemOvf (s / 64)
  else m.setSem s { v with value := v.value + n }

/-- Is a waiter queued on a semaphore: recorded at the home, told to resend, to be resent, or resent (04 R146)? -/
def Mod.semQueued (m : Mod) (s : Nat) : Bool :=
  m.net.waits.any (fun w => w.sem == s) || m.net.resend.any (fun f => f.num == s) ||
  m.net.sn.any fun f => f.num == s && (f.op == .retry || (f.op == .wait && f.again))

/-- A satisfied SEM.WAIT or SEM.TRY of the context with a uid receives the value after subtraction. -/
def Ctx.granted (v : Nat) (c : Ctx) : Ctx :=
  match c.wait with
  | some (.sem _ _ rd) => c.endWait (some (rd, BitVec.ofNat 64 v))
  | some (.try _ rd) => c.endWait (some (rd, BitVec.ofNat 64 v))
  | _ => c

/-- The partition of a context that is in a saddle or saved. -/
def Mod.partOfUid (m : Mod) (uid : Nat) : Option PartId :=
  match m.ctxOf uid with
  | some k => some (m.ctx (k / 4) (k % 4)).part
  | none => (m.sched.saved.find? fun e => e.2.ctx.uid == uid).map fun e => e.2.ctx.part
/-- The acquire of a semaphore is traced at a tile: the context's own, for a parked wait its semaphore's home (23 Table 23.5, log 149). -/
def Mod.traceAcq (m : Mod) (t sem uid : Nat) : Mod :=
  match m.partOfUid uid with
  | some p => m.trace (halfOfTile t) 5 t p.val 0 sem
  | none => m
/-- Answer a wait record: a GRANT for a resident context, the value for a parked one, a grant to the sequence engine. -/
def Mod.answerGrant (m : Mod) (w : WaitRec) (v : Nat) : Mod :=
  if w.uid = 0 then m.updNet fun n => { n with selGrants := n.selGrants ++ [w.key] }
  else match m.ctxOf w.uid with
    | some k => m.updNet fun n => { n with sn := n.sn ++ [⟨.grant, w.sem, v, 0, k, w.uid, false⟩] }
    | none => (m.traceAcq (w.sem / 64) w.sem w.uid).updUid w.uid (Ctx.granted v)

/-- Serve the waiters of a semaphore in order; one whose count exceeds the value holds back those behind it (04 R146). -/
def Mod.grantWaiters (m : Mod) (s : Nat) : Nat → Mod
  | 0 => m
  | f + 1 =>
    match m.net.waits.find? fun w => w.sem == s with
    | none => m
    | some w =>
      let v := m.sem s
      if w.count ≤ v.value then
        let m := (m.setSem s { v with value := v.value - w.count }).updNet fun n => { n with waits := n.waits.erase w }
        (m.answerGrant w (v.value - w.count)).grantWaiters s f
      else m

/-- SIG at the home (04 R146). -/
def Mod.semSignal (m : Mod) (s n : Nat) : Mod := (m.addSem s n).grantWaiters s (m.net.waits.length + 1)
/-- SIG of an agent whose sending has no row of its own: it comes from the agent's die. -/
def Mod.signalFrom (m : Mod) (a s n : Nat) : Mod := (m.stampTo (agentDie a) (s / 8192)).semSignal s n

/-- A wait arrives at the home (09 R292). -/
def Mod.semWait (m : Mod) (w : WaitRec) : Mod :=
  let v := m.sem w.sem
  if !(m.net.waits.any fun x => x.sem == w.sem) && decide (w.count ≤ v.value) then
    (m.setSem w.sem { v with value := v.value - w.count }).answerGrant w (v.value - w.count)
  else m.updNet fun n => { n with waits := n.waits ++ [w] }

/-- Wait records in use at a home. -/
def Mod.homeRecords (m : Mod) (home : Nat) : Nat := (m.net.waits.filter fun w => w.sem / 64 == home).length

/-! Barriers (04 R147, 09 R293). -/

def Mod.bar (m : Mod) (b : Nat) : Bar := m.net.bars.getD b {}
def Mod.setBar (m : Mod) (b : Nat) (v : Bar) : Mod := m.updNet fun n => { n with bars := n.bars.put b v }

/-- Has a phase completed, by modular difference (log 15)? -/
def phaseDone (cur p : Nat) : Bool := let d := (cur + 65536 - p % 65536) % 65536; decide (1 ≤ d ∧ d < 32768)

/-- A barrier wait of a context is over: BAR.AW writes the phase of its arrival, BAR.W the barrier's current phase. -/
def Ctx.released (p cur : Nat) (c : Ctx) : Ctx :=
  match c.wait with
  | some (.bar _ _ rd arrive) => c.endWait (some (rd, BitVec.ofNat 64 (if arrive then p else cur)))
  | _ => c

/-- A BAR.A is registered at a phase. -/
def Ctx.arrived (p : Nat) (c : Ctx) : Ctx :=
  match c.wait with
  | some (.arrive _ rd) => c.endWait (some (rd, BitVec.ofNat 64 p))
  | _ => c

/-- RELEASE to one waiter: a flit to a resident context, completion of a parked one. -/
def Mod.answerRelease (m : Mod) (b uid p : Nat) : Mod :=
  match m.ctxOf uid with
  | some k => m.updNet fun n => { n with sn := n.sn ++ [⟨.release, b, p, 0, k, uid, false⟩] }
  | none => m.updUid uid (Ctx.released p (m.bar b).phase)

/-- An arrival at the root: the phase completes when arrivals equal the member count, and every waiter whose phase has
completed is released. -/
def Mod.barArrive (m : Mod) (b : Nat) : Mod :=
  let x := m.bar b
  if x.arrived + 1 < x.count1 + 1 then m.setBar b { x with arrived := x.arrived + 1 }
  else
    let ph := (x.phase + 1) % 65536
    let out := x.waiters.filter fun w => phaseDone ph w.2.2
    let m := m.setBar b { x with phase := ph, arrived := 0, waiters := x.waiters.filter fun w => !phaseDone ph w.2.2 }
    forEach out (fun w m => m.answerRelease b w.1 w.2.2) m

/-! Flits. -/

/-- A flit between a saddle's tile and the home of its semaphore or barrier stamps the dies it reaches (23 R634). -/
def Mod.hearSn (m : Mod) (f : SnFlit) : Mod :=
  match f.op with
  | .sig => m.stampTo (f.src / 128) (f.num / 8192)
  | .wait => m.stampTo (f.src / 128) (f.num / 8192)
  | .try => m.stampTo (f.src / 128) (f.num / 8192)
  | .barA => m.stampTo (f.src / 128) (f.num / 512)
  | .barAw => m.stampTo (f.src / 128) (f.num / 512)
  | .barW => m.stampTo (f.src / 128) (f.num / 512)
  | .release => m.stampTo (f.num / 512) (f.key / 512)
  | .grant => m.stampTo (f.num / 8192) (f.key / 512)
  | .fail => m.stampTo (f.num / 8192) (f.key / 512)
  | .retry => m.stampTo (f.num / 8192) (f.key / 512)
/-- Take the first flit that satisfies a test. -/
def Mod.takeSn (m : Mod) (p : SnFlit → Bool) : Option (SnFlit × Mod) :=
  match m.net.sn.find? p with
  | none => none
  | some f => some (f, (m.updNet fun n => { n with sn := n.sn.erase f }).hearSn f)
def Mod.sendSn (m : Mod) (f : SnFlit) : Mod := m.updNet fun n => { n with sn := n.sn ++ [f] }

/-- The key of a saddle. -/
def saddleKey (t : TileId) (s : SaddleId) : Nat := ctxKey t.val s.val

/-- SN_SIG: a flit that a tile sent arrives; a signal of an expansion agent or an I/O-die agent has no row for its sending. -/
def execSnSig (sem count : BitVec 16) (src : AgentId) (s : State) : Out :=
  s.go fun m => m.atUnit (sem.toNat / 64) fun m =>
    if src.val < 1024 then
      match m.takeSn fun f => f.op == .sig && f.num == sem.toNat && f.count == count.toNat && f.src == src.val with
      | some (_, m) => m.semSignal sem.toNat count.toNat
      | none => m
    else m.signalFrom src.val sem.toNat count.toNat

/-- SN_WAIT. -/
def execSnWait (sem count : BitVec 16) (t : TileId) (sd : SaddleId) (s : State) : Out :=
  s.go fun m => m.atUnit (sem.toNat / 64) fun m =>
    match m.takeSn fun f => f.op == .wait && f.num == sem.toNat && f.count == count.toNat && f.key == saddleKey t sd with
    | none => m
    | some (f, m) =>
      if 512 ≤ m.homeRecords (f.num / 64) then m.sendSn { f with op := .retry }
      else m.semWait ⟨f.num, f.count, f.uid, f.key⟩

/-- SN_TRY (04 R146). -/
def execSnTry (sem count : BitVec 16) (t : TileId) (sd : SaddleId) (s : State) : Out :=
  s.go fun m => m.atUnit (sem.toNat / 64) fun m =>
    match m.takeSn fun f => f.op == .try && f.num == sem.toNat && f.count == count.toNat && f.key == saddleKey t sd with
    | none => m
    | some (f, m) =>
      let v := m.sem f.num
      if f.count = 0 then m.sendSn { f with op := .grant, count := v.value }
      else if m.semQueued f.num || decide (v.value < f.count) then m.sendSn { f with op := .fail }
      else (m.setSem f.num { v with value := v.value - f.count }).sendSn { f with op := .grant, count := v.value - f.count }

/-- SN_BAR_A: an arrival is registered at the present phase, which a BAR.A gets (04 R147); one of another agent has no register. -/
def execSnBarA (bar : BitVec 12) (src : AgentId) (s : State) : Out :=
  s.go fun m => m.atUnit (bar.toNat / 4) fun m =>
    if src.val < 1024 then
      match m.takeSn fun f => f.op == .barA && f.num == bar.toNat && f.src == src.val with
      | some (f, m) => (m.updUid f.uid (Ctx.arrived (m.bar bar.toNat).phase)).barArrive bar.toNat
      | none => m
    else (m.stampTo (agentDie src.val) (bar.toNat / 512)).barArrive bar.toNat

/-- SN_BAR_AW. -/
def execSnBarAw (bar : BitVec 12) (t : TileId) (sd : SaddleId) (s : State) : Out :=
  s.go fun m => m.atUnit (bar.toNat / 4) fun m =>
    match m.takeSn fun f => f.op == .barAw && f.num == bar.toNat && f.key == saddleKey t sd with
    | none => m
    | some (f, m) =>
      let x := m.bar f.num
      (m.setBar f.num { x with waiters := x.waiters ++ [(f.uid, f.key, x.phase)] }).barArrive f.num

/-- SN_BAR_W. -/
def execSnBarW (bar : BitVec 12) (phase : BitVec 16) (t : TileId) (sd : SaddleId) (s : State) : Out :=
  s.go fun m => m.atUnit (bar.toNat / 4) fun m =>
    match m.takeSn fun f => f.op == .barW && f.num == bar.toNat && f.count == phase.toNat && f.key == saddleKey t sd with
    | none => m
    | some (f, m) =>
      let x := m.bar f.num
      if phaseDone x.phase f.count then m.answerRelease f.num f.uid f.count
      else m.setBar f.num { x with waiters := x.waiters ++ [(f.uid, f.key, f.count)] }

/-- SN_GRANT. -/
def execSnGrant (t : TileId) (sd : SaddleId) (s : State) : Out :=
  s.go fun m => m.atUnit t.val fun m =>
    match m.takeSn fun f => f.op == .grant && f.key == saddleKey t sd with
    | none => m
    | some (f, m) => (m.traceAcq t.val f.num f.uid).updUid f.uid (Ctx.granted f.count)

/-- A SEM.TRY that fails writes -1. -/
def Ctx.tryFailed (c : Ctx) : Ctx :=
  match c.wait with
  | some (.try _ rd) => c.endWait (some (rd, BitVec.allOnes 64))
  | _ => c

/-- SN_FAIL. -/
def execSnFail (t : TileId) (sd : SaddleId) (s : State) : Out :=
  s.go fun m => m.atUnit t.val fun m =>
    match m.takeSn fun f => f.op == .fail && f.key == saddleKey t sd with
    | none => m
    | some (f, m) => m.updUid f.uid Ctx.tryFailed

/-- SN_RETRY: the core will resend its WAIT after 64 CLK_N cycles (09 R292). -/
def execSnRetry (t : TileId) (sd : SaddleId) (s : State) : Out :=
  s.go fun m => m.atUnit t.val fun m =>
    match m.takeSn fun f => f.op == .retry && f.key == saddleKey t sd with
    | none => m
    | some (f, m) => m.updNet fun n => { n with resend := n.resend ++ [{ f with op := .wait, again := true }] }

/-- WAIT_RESEND. -/
def execWaitResend (t : TileId) (sd : SaddleId) (s : State) : Out :=
  s.go fun m => m.atUnit t.val fun m =>
    match m.net.resend.find? fun f => f.key == saddleKey t sd with
    | none => m
    | some f => (m.updNet fun n => { n with resend := n.resend.erase f }).sendSn f

/-- SN_RELEASE. -/
def execSnRelease (t : TileId) (sd : SaddleId) (s : State) : Out :=
  s.go fun m => m.atUnit t.val fun m =>
    match m.takeSn fun f => f.op == .release && f.key == saddleKey t sd with
    | none => m
    | some (f, m) => m.updUid f.uid (Ctx.released f.count (m.bar f.num).phase)

end Sys2Proof.Machine
end

