-- ==== Sys2Proof/Machine/Tasks.lean ====
section
/-! DEFINITION. Commands and tasks as every unit sees them: statuses, fault detail, how a task ends and what its command
learns (spec 03 R116, 04 R129, 13 R379, 14 R397-R402). -/

namespace Sys2Proof.Machine

/-! Completion statuses (14 Table 14.10). -/

def stOK : Nat := 0
def stPARTIAL : Nat := 1
def stPOISON : Nat := 2
def stSHARED : Nat := 3
def stARITH : Nat := 4
def stTIMEOUT : Nat := 5
def stCOLLABORT : Nat := 6
def stPINQUOTA : Nat := 7
def stDETACHED : Nat := 8
def stUNCERTAIN : Nat := 9

/-- Rank of a status in the list of R399 (first is 0). -/
def statusRank (s : Nat) : Nat :=
  match s with
  | 3 => 0 | 2 => 1 | 6 => 2 | 4 => 3 | 5 => 4 | 9 => 5 | 8 => 6 | 7 => 7 | 1 => 8
  | _ => 9
/-- The status that is reported when both apply. -/
def worse (a b : Nat) : Nat := if statusRank b < statusRank a then b else a

/-- Kinds of fault detail (14 Table 14.9). -/
def fkPROGRAM : Nat := 0
def fkFIELD : Nat := 1
def fkOPCODE : Nat := 2
def fkCHECKSUM : Nat := 3
def fkNAN : Nat := 4
def fkLAUNCH : Nat := 5
def fkRESOURCE : Nat := 6
def fkISSUE : Nat := 7

/-- Fault detail (14 Table 14.9). -/
def faultDetail (kind tile field task mcause mtval : Nat) : BitVec 128 :=
  BitVec.ofNat 128 (task % 65536 + (field % 65536) * 2 ^ 16 + kind * 2 ^ 32 + (tile % 1024) * 2 ^ 46 +
    (mcause % 256) * 2 ^ 56 + (mtval % 2 ^ 64) * 2 ^ 64)

def Mod.updHost (m : Mod) (f : HostS → HostS) : Mod := { m with host := f m.host }
def Mod.cmd? (m : Mod) (c : Nat) : Option HCmd := Tab.find c m.host.cmds
def Mod.updCmd (m : Mod) (c : Nat) (f : HCmd → HCmd) : Mod := m.updHost fun h => { h with cmds := h.cmds.adj c f }

/-- A command gets a status, ranked with what it has; the first fault detail stands (R398, R399). -/
def HCmd.mark (c : HCmd) (st : Nat) (detail : BitVec 128) : HCmd :=
  { c with status := worse c.status st,
           detail := if st = stARITH && c.detail.isNone then some detail else c.detail }

/-! Copies of a context. -/

/-- Have all copies pushed by a context completed? -/
def Mod.copiesDone (m : Mod) (uid : Nat) : Bool := !(m.copies.any fun e => e.2.owner == some uid && e.2.status.isNone)
/-- Number of pushed copies that have not completed (04 R144). -/
def Mod.nout (m : Mod) (uid : Nat) : Nat := (m.copies.filter fun e => e.2.owner == some uid && e.2.status.isNone).length

/-- Do unresolved synchronisation requests of a context leave with it? They do when its task ends. -/
def Mod.dropWaits (m : Mod) (uid : Nat) : Mod :=
  m.updNet fun n => { n with
    waits := n.waits.filter (·.uid != uid),
    resend := n.resend.filter (·.uid != uid),
    sn := n.sn.filter fun f => !(f.uid == uid && (f.op == .wait || f.op == .try || f.op == .barW || f.op == .grant ||
      f.op == .fail || f.op == .retry || f.op == .release)),
    bars := n.bars.map fun b => (b.1, { b.2 with waiters := b.2.waiters.filter (·.1 != uid) }) }

/-- A context whose task is being ended: nothing of it starts any more (04 R129). -/
def Ctx.ended (c : Ctx) (status kind mcause : Nat) (mtval : W64) : Ctx :=
  if c.ending.isSome || c.st == .empty then c
  else { c with ending := some status, endKind := kind, endMcause := mcause, endMtval := mtval, iq := [], vq := 0, wait := none,
                st := if c.st == .loading || c.st == .saving then c.st else .run, evictable := false, handle := none }

/-- End the task in a saddle. -/
def Mod.endTask (m : Mod) (t s status kind mcause : Nat) (mtval : W64) : Mod :=
  let uid := (m.ctx t s).uid
  let m := (m.updCtx t s fun c => c.ended status kind mcause mtval).dropWaits uid
  (m.updDbg fun d => { d with halted := d.halted.keep fun _ u => u != uid }).pickCur t

/-- End a task whose NANP is FAULT (02 R69, 03 R102): the write-outs it has not made are withheld. -/
def Mod.endNan (m : Mod) (t s : Nat) : Mod :=
  (m.updTile t fun x => { x with running := x.running.filter fun r => r.sd.val != s }).endTask t s stARITH fkNAN 0 0

/-! What the command learns. -/

/-- A task of a command is over: status, fault detail, exit code of a TASK.END, flags (R398, R404). -/
def Mod.taskOver (m : Mod) (k : Task) (st : Nat) (detail : BitVec 128) (exit : Option Nat) (fl : BitVec 4) : Mod :=
  let m := match k.item with
    | none => m
    | some i => if st = stPOISON || st = stSHARED then
        { m with seq := { m.seq with steps := m.seq.steps.adj k.cmd fun r =>
          { r with items := r.items.zipIdx.map fun (q : StepItem × Nat) =>
            if q.2 = i then { q.1 with poisoned := true } else q.1 } } }
      else m
  m.updCmd k.cmd fun c =>
    let c := if k.item.isSome && (st = stPOISON || st = stSHARED) then c else c.mark st detail
    { c with tasksEnded := c.tasksEnded + 1, aflags := c.aflags ||| fl,
             exit := match exit with
               | some e => max c.exit e
               | none => c.exit,
             tasksNonzero := if exit.getD 0 = 0 then c.tasksNonzero else c.tasksNonzero + 1 }

/-- Copies that have completed and belong to a context that is gone. -/
def Mod.forgetCopies (m : Mod) (uid : Nat) : Mod :=
  { m with copies := m.copies.keep fun _ c => !(c.owner == some uid && c.status.isSome) }

/-- The saddle is EMPTY; its triggers and machine registers are the saddle's own. -/
def Mod.emptySaddle (m : Mod) (t s : Nat) : Mod :=
  let c := m.ctx t s
  let m := (m.setCtx t s { trig := c.trig, mcsr := c.mcsr }).updTile t fun x => { x with win := x.win.put s (0, 0) }
  ((m.forgetCopies c.uid).dropWaits c.uid).pickCur t

/-- End the task of a saved context: its saddle is long gone, so the command learns of it at once. -/
def Mod.endSaved (m : Mod) (h status : Nat) (detail : BitVec 128) : Mod :=
  match Tab.find h m.sched.saved with
  | none => m
  | some v =>
    let m := (m.updSched fun s => { s with saved := s.saved.del h }).dropWaits v.ctx.uid
    let m := m.forgetCopies v.ctx.uid
    match v.ctx.task with
    | some k => m.taskOver k status detail none v.ctx.tflags
    | none => m

/-- End the task of a context, wherever it is. -/
def Mod.endTaskUid (m : Mod) (uid status kind : Nat) : Mod :=
  match m.ctxOf uid with
  | some k => m.endTask (k / 4) (k % 4) status kind 0 0
  | none => match m.savedOf uid with
    | some h => m.endSaved h status (faultDetail kind 0 0 0 0 0)
    | none => m

/-- Die of the affinity directory entry a task leaves (13 R379). -/
def Mod.keepTag (m : Mod) (t : TileId) (p : PartId) (tag : BitVec 32) : Mod :=
  let d := dieOfTile t.val
  m.updSched fun s =>
    let l := s.dir.getD d []
    let same (e : DirEnt) : Bool := e.part == p && e.tag == tag && e.tile == t
    let new : DirEnt := { part := p, tag := tag, tile := t }
    let l := if l.any same then l.map fun e => if same e then new else e
      else if l.length < 65536 then l ++ [new]
      else
        let old := l.foldl (fun a e => max a e.age) 0
        match l.find? (·.age == old) with
        | some e => l.erase e ++ [new]
        | none => l
    { s with dir := s.dir.put d l }

/-- Entries of a tile leave the directory of its die. -/
def Mod.dropTags (m : Mod) (t : Nat) : Mod :=
  m.updSched fun s => { s with dir := s.dir.adj (dieOfTile t) fun l => l.filter (·.tile.val != t) }

/-- A task's end has reached the scheduler (CN_TASKEND, 04 R152). -/
def Mod.reapTask (m : Mod) (t : TileId) (sd : SaddleId) : Mod :=
  let c := m.ctx t.val sd.val
  match c.task, c.ending with
  | some k, some st =>
    let d := k.desc.toNat
    let m := if st = stOK then
        forEach [0, 1, 2, 3] (fun i m =>
          if d.testBit (316 + i) then m.keepTag t c.part (BitVec.ofNat 32 (bits d (351 + 32 * i) (320 + 32 * i))) else m) m
      else m
    let m := m.workDone k.cmd 0 0 ((m.ticks - c.launchTick) / (m.half (halfOfTile t.val)).div) 0
    let m := m.taskOver k st (faultDetail c.endKind t.val 0 k.index c.endMcause c.endMtval.toNat)
      (if st = stOK then some c.endExit.toNat else none) c.tflags
    m.emptySaddle t.val sd.val
  | _, _ => m

/-- The owning quarter of a context's command. -/
def Mod.iodOfTask (m : Mod) (k : Task) : Nat := match m.cmd? k.cmd with
  | some c => c.iod.val
  | none => 0

/-- Report the end of a task to the scheduler: a checksum mismatch as FAULT, any other as TASKEND. -/
def Mod.reportEnd (m : Mod) (t s : Nat) : Mod :=
  let c := m.ctx t s
  match c.task with
  | none => m
  | some k =>
    let op := if c.ending == some stARITH && c.endKind = fkCHECKSUM then CnOp.fault else .taskend
    let m := m.updCtx t s fun c => { c with reported := true }
    m.updNet fun n => { n with cn := n.cn ++ [{ op := op, dst := m.iodOfTask k, a := ctxKey t s, b := c.uid, src := some (t / 128) }] }

/-- An ended task has nothing under way: no copy, no issue in the matrix engine. -/
def Mod.drained (m : Mod) (t s : Nat) : Bool :=
  m.copiesDone (m.ctx t s).uid && (m.tile t).running.all fun r => r.sd.val != s

/-- TASK_FAULT_DRAINED: the ended task's copies have completed; its end is reported (04 R129). -/
def execTaskFaultDrained (t : TileId) (sd : SaddleId) (s : State) : Out :=
  s.go fun m =>
    let c := m.ctx t.val sd.val
    if c.ending.isSome && !c.reported && m.drained t.val sd.val then m.reportEnd t.val sd.val else m

/-- Take the first control flit that satisfies a test, at a die; one from another die stamps those it reaches (23 R634). -/
def Mod.takeCn (m : Mod) (die : Nat) (p : CnFlit → Bool) : Option (CnFlit × Mod) :=
  match m.net.cn.find? p with
  | none => none
  | some f => some (f, (m.updNet fun n => { n with cn := n.cn.erase f }).stampTo (f.src.getD die) die)
def Mod.sendCn (m : Mod) (f : CnFlit) : Mod := m.updNet fun n => { n with cn := n.cn ++ [f] }

end Sys2Proof.Machine
end

