-- ==== Sys2Proof/Machine/FabricTx.lean ====
section
/-! DEFINITION. The sending side of the optical fabric (spec 16): routes, end-to-end tokens and sequence numbers,
unreachable destinations, aborted collectives. -/

namespace Sys2Proof.Machine

def Mod.updFab (m : Mod) (f : FabS → FabS) : Mod := { m with fab := f m.fab }

/-- Ports fitted: on order code S the first quad of each I/O die (00 R3). -/
def portFitted (order i : Nat) : Bool := if order = 1 then (i / 4) % 2 == 0 else true

def Mod.port (m : Mod) (i : Nat) : Port := m.fab.ports.getD i {}
def Mod.updPort (m : Mod) (i : Nat) (f : Port → Port) : Mod := m.updFab fun b => { b with ports := b.ports.put i (f (m.port i)) }

/-- The STRICT partition that a port is dedicated to (15 Table 15.1). -/
def Mod.strictPort (m : Mod) (i : Nat) : Option Nat :=
  (m.parts.parts.find? fun e => e.2.st != .none && e.2.strict && e.2.portmask.getLsbD i).map Prod.fst

/-- The port on which a packet for a destination leaves, among those it may use: the primary when it is UP, else the
alternate (R458). -/
def Mod.portFor (m : Mod) (ok : Nat → Bool) (dst : Nat) : Option PortId :=
  let up (p : PortId) : Bool := (m.port p.val).state == 4 && ok p.val
  match Tab.find dst m.fab.routes with
  | none => none
  | some r =>
    if up r.primary then some r.primary
    else match r.alt with
      | some a => if up a then some a else none
      | none => none

/-- The port for an answer, a hint or an abort. -/
def Mod.routePort (m : Mod) (dst : Nat) : Option PortId := m.portFor (fun _ => true) dst

/-- The port for a partition's packet: no port dedicated to another partition (R459). -/
def Mod.partPort (m : Mod) (part dst : Nat) : Option PortId :=
  m.portFor (fun i => match m.strictPort i with
    | none => true
    | some q => q == part) dst

/-- The port for transit that reached I/O die `src`: no dedicated port, and one whose die the die links reach (R459, 01 R21). -/
def Mod.transitPort (m : Mod) (order src dst : Nat) : Option PortId :=
  m.portFor (fun i => (m.strictPort i).isNone && m.iodReach order src (i / 8)) dst

/-- The port of a resend: the alternate where the route has one that may be used (R464). -/
def Mod.altPort (m : Mod) (part dst : Nat) : Option PortId :=
  match Tab.find dst m.fab.routes with
  | some r => match r.alt with
    | some a => if (m.port a.val).state == 4 && (match m.strictPort a.val with
        | none => true
        | some q => q == part) then some a else m.partPort part dst
    | none => m.partPort part dst
  | none => none

def txKey (iod dst : Nat) : Nat := iod * 65536 + dst
def Mod.e2e (m : Mod) (iod dst : Nat) : E2eTx := m.fab.tx.getD (txKey iod dst) {}
def Mod.setE2e (m : Mod) (iod dst : Nat) (v : E2eTx) : Mod := m.updFab fun b => { b with tx := b.tx.put (txKey iod dst) v }

/-- This module's ID. -/
def Mod.moduleId (m : Mod) : Nat := m.parN pFabModuleId

/-- A packet of this module (Table 16.4); the port is set when it leaves. -/
def Mod.packet (m : Mod) (iod dst : Nat) (win offset : Nat) (op fmt : Nat) (key : BitVec 64) (payload : List Byte) : Packet :=
  { port := 0, dst := BitVec.ofNat 16 dst, src := BitVec.ofNat 16 m.moduleId, hops := 7, win := BitVec.ofNat 8 win,
    offset := BitVec.ofNat 40 offset, eseq := 0, group := 0, op := Fin.ofNat 16 op, fmt := Fin.ofNat 16 fmt, afl := 0,
    len := payload.length, key := key, siod := Fin.ofNat 4 iod, malformed := false, credit := true, payload := payload }

/-- A packet leaves on a port. -/
def Mod.transmit (m : Mod) (p : Packet) (port : PortId) : Mod := m.countBy kFabTxBytes port.val p.payload.length

/-- A packet that spends no token: an answer, a hint, an abort, an OPEN (log 17). -/
def Mod.emit (m : Mod) (type : Nat) (p : Packet) : Mod :=
  match m.routePort p.dst.toNat with
  | none => m
  | some i => (m.updFab fun b => { b with sent := (type, { p with port := i }) :: b.sent }).transmit p i

/-! Collectives: neighbours and abort. -/

def grpChild (e : BitVec 256) (i : Nat) : Nat := bits e.toNat (143 + 16 * i) (128 + 16 * i)
def grpParent (e : BitVec 256) : Nat := bits e.toNat 127 112
def grpNchild (e : BitVec 256) : Nat := bits e.toNat 111 108
def grpMembers (e : BitVec 256) : Nat := bits e.toNat 107 96 + 1
def grpRank (e : BitVec 256) : Nat := bits e.toNat 95 84
def grpIod (e : BitVec 256) : Nat := bits e.toNat 83 82
def grpPart (e : BitVec 256) : Nat := bits e.toNat 81 75
def grpChildren (e : BitVec 256) : List Nat := (List.range (min (grpNchild e) 8)).map (grpChild e)
def grpNeighbours (e : BitVec 256) : List Nat := (if grpParent e = 0 then [] else [grpParent e]) ++ grpChildren e

def Mod.updGroup (m : Mod) (g : Nat) (f : Group → Group) : Mod := m.updFab fun b => { b with groups := b.groups.adj g f }

/-- Abort the collective in progress on a group, except towards the neighbour that sent ABORT (R476). -/
def Mod.collAbort (m : Mod) (g : Nat) (from? : Option Nat) : Mod :=
  match Tab.find g m.fab.groups with
  | none => m
  | some x => match x.cur with
    | none => m
    | some c =>
      let m := forEach ((grpNeighbours x.entry).filter fun n => some n != from?) (fun n m =>
        m.emit 11 { m.packet (grpIod x.entry) n 0 (x.collSeq.toNat * 2 ^ 24) 0 0 0 [] with group := BitVec.ofNat 16 g }) m
      let m := m.updGroup g fun x => { x with cur := none, collSeq := x.collSeq + 1 }
      let m := m.updFab fun b => { b with out := b.out.filter fun o =>
        !((o.type == 1 || o.type == 9) && o.p.group == BitVec.ofNat 16 g && o.cmd == c.cmd) }
      m.updCmd c.cmd fun k => { k.mark stCOLLABORT 0 with ended := true }

/-! Unreachable destinations (R464). -/

/-- A destination is UNREACHABLE from an I/O die. -/
def Mod.unreachable (m : Mod) (iod dst : Nat) : Mod :=
  let mine (o : OutPkt) : Bool := o.iod.val == iod && o.p.dst.toNat == dst
  let gone := m.fab.out.filter mine
  let m := m.updFab fun b => { b with out := b.out.filter fun o => !mine o }
  let m := m.setE2e iod dst { unreach := true }
  let m := (m.count kFabUnreach iod).raise evFabUnreach iod noPart dst
  let m := forEach gone (fun o m =>
    match o.copy with
    | none => m
    | some c => match Tab.find c m.copies with
      | some cp =>
        if bits cp.desc.toNat 629 628 = 3 then
          { m with copies := m.copies.put c { cp with undeliv := cp.undeliv ||| BitVec.ofNat 64 (2 ^ o.target) } }
        else match o.owner with
          | some u => m.endTaskUid u stTIMEOUT 0
          | none => m.updCmd o.cmd fun k => k.mark stTIMEOUT 0
      | none => match o.owner with
        | some u => m.endTaskUid u stTIMEOUT 0
        | none => m.updCmd o.cmd fun k => k.mark stTIMEOUT 0) m
  forEach (m.fab.groups.filter fun g => (grpNeighbours g.2.entry).contains dst) (fun g m => m.collAbort g.1 none) m

/-- A packet that is given its ESEQ is traced at its I/O die (23 Table 23.5, log 149). -/
def Mod.traceTx (m : Mod) (o : OutPkt) : Mod :=
  m.trace (16 + o.iod.val) 6 (unitOfIod o.iod.val) o.part.val o.p.eseq.toNat o.p.dst.toNat
/-- Give tokens to packets that wait, in order (R461, R463). -/
def Mod.pump (m : Mod) (iod dst : Nat) : Mod :=
  let rec go : List OutPkt → E2eTx → List OutPkt × E2eTx
    | [], t => ([], t)
    | o :: r, t =>
      if o.waiting && o.iod.val == iod && o.p.dst.toNat == dst && decide (0 < t.tokens) then
        let q := go r { t with tokens := t.tokens - 1, next := t.next + 1 }
        ({ o with waiting := false, p := { o.p with eseq := t.next } } :: q.1, q.2)
      else
        let q := go r t
        (o :: q.1, q.2)
  let t := m.e2e iod dst
  if t.isOpen then
    let q := go m.fab.out t
    let given := ((m.fab.out.zip q.1).filter fun e => e.1.waiting && !e.2.waiting).map Prod.snd
    forEach given (fun o m => m.traceTx o) ((m.updFab fun b => { b with out := q.1 }).setE2e iod dst q.2)
  else m

/-- Send a packet that spends a token: OPEN goes first where the transport is not open (R460); with no route the destination
is UNREACHABLE at once (R458). -/
def Mod.sendPkt (m : Mod) (o : OutPkt) : Mod :=
  let dst := o.p.dst.toNat
  let m := m.updFab fun b => { b with out := b.out ++ [{ o with waiting := true }] }
  match m.partPort o.part.val dst with
  | none => m.unreachable o.iod.val dst
  | some i =>
    let m := m.transmit o.p i
    let t := m.e2e o.iod.val dst
    let m := if t.openSent then m
      else (m.setE2e o.iod.val dst { openSent := true }).emit 7 (m.packet o.iod.val dst 0 0 0 0 0 [])
    m.pump o.iod.val dst

/-! RDMA WRITEs to Ethernet partners (R484). -/

/-- The Ethernet queue pair bound to a partner module ID. -/
def Mod.ethOf (m : Mod) (dst : Nat) : Option (Nat × EthQp) :=
  (m.fab.eth.find? fun e => bits e.2.bind.toNat 511 496 == dst && !e.2.error)

/-- Send an RDMA WRITE for a copy. -/
def Mod.sendRoce (m : Mod) (owner : Option Nat) (cmd dst rkey addr : Nat) (payload : List Byte) : Mod :=
  match m.ethOf dst with
  | none => m
  | some e =>
    let port := e.1 / 2 ^ 24
    let m := m.updFab fun b => { b with
      roceSent := (port, e.1 % 2 ^ 24, rkey, addr, payload) :: b.roceSent,
      eth := b.eth.put e.1 { e.2 with spsn := e.2.spsn + 1,
                                      outst := if e.2.outst.contains (owner, cmd) then e.2.outst else e.2.outst ++ [(owner, cmd)] } }
    m.countBy kFabTxBytes port payload.length

/-- Have all packets of a context's copies been delivered (FENCE.FAB, 04 Table 4.7)? -/
def Mod.fabDelivered (m : Mod) (uid : Nat) : Bool :=
  !(m.fab.out.any fun o => o.owner == some uid) &&
  !(m.fab.eth.any fun e => e.2.outst.any fun c => c.1 == some uid)

/-- Have all packets of a command been delivered (14 R403)? -/
def Mod.fabDeliveredCmd (m : Mod) (cmd : Nat) : Bool :=
  !(m.fab.out.any fun o => o.cmd == cmd) &&
  !(m.fab.eth.any fun e => e.2.outst.any fun c => c.2 == cmd)

end Sys2Proof.Machine
end

