-- ==== Sys2Proof/Machine/Fence.lean ====
section
/-! DEFINITION. Strikes and fencing of tiles, relaunch of tasks from their launch state, abandoned waypoints (spec 03 R112-R117,
07 R244, 13 R376, 18 R528). -/

namespace Sys2Proof.Machine

def Mod.updFt (m : Mod) (f : FtS → FtS) : Mod := { m with ft := f m.ft }
def Mod.wp (m : Mod) (p : Nat) : Wp := m.ft.wps.getD p {}
def Mod.updWp (m : Mod) (p : Nat) (f : Wp → Wp) : Mod := m.updFt fun x => { x with wps := x.wps.put p (f (m.wp p)) }

/-- The partition that owns a tile. -/
def Mod.partOfTile (m : Mod) (t : Nat) : Option Nat :=
  (m.parts.parts.find? fun e => e.2.st != .none && m.ownsTile e.1 t).map Prod.fst

/-- Tiles of a partition. -/
def Mod.tilesOf (m : Mod) (p : Nat) : List TileId :=
  ((List.range 128).filter fun g => (m.part p).tgmask.getLsbD g).flatMap fun g =>
    (List.range 8).map fun i => Fin.ofNat 1024 (8 * g + i)
/-- Does a partition have an unfenced tile other than one that failed (03 R112)? -/
def Mod.otherTile (m : Mod) (p : Nat) (a : TileId) : Bool := (m.tilesOf p).any fun t => t != a && !(m.tile t.val).fenced

/-- Tasks of a partition that wait to be relaunched and have no tile left end ARITH, with the tile that failed (03 R112). -/
def Mod.endStranded (m : Mod) (p : Nat) : Mod :=
  forEach (m.sched.ready.filter fun k => k.part.val == p) (fun k m => match k.avoid with
    | [] => m
    | a :: _ =>
      if m.otherTile p a then m
      else (m.updSched fun s => { s with ready := s.ready.erase k }).taskOver k stARITH
        (faultDetail fkCHECKSUM a.val 0 k.index 0 0) none 0) m

/-- Abandon a waypoint that is being taken (18 R527, R528): the contexts continue, WP_SKIP counts. -/
def Mod.abandonWp (m : Mod) (p : Nat) : Mod :=
  if (m.wp p).taking then (m.updWp p fun w => { w with taking := false }).count kWpSkip p else m

/-- A tile writes back its M lines, gives up its F and E lines and invalidates its L1 portion (07 R244); its directory entries
go (13 R379). -/
def Mod.flushL1 (m : Mod) (t : Nat) : Mod :=
  let a : AgentId := Fin.ofNat 2048 t
  let ks := ((m.cache.l1 ++ m.cache.wbuf).keep fun j _ => j / 2 ^ 36 == t).map fun e => e.1 % 2 ^ 36
  let m := forEach ks.eraseDups (fun k m => m.letGo a k) m
  m.dropTags t

/-- A task is to start again from its launch state (03 R112, R113), away from a tile that failed. -/
def Mod.relaunch (m : Mod) (k : Task) (avoid : List TileId) : Mod :=
  m.updSched fun s => { s with ready := s.ready ++ [{ k with avoid := avoid ++ k.avoid.filter fun x => !avoid.contains x }] }

/-- Work that waited for an eviction goes back to wait (13 R370). -/
def Mod.requeue (m : Mod) (w : Work) : Mod :=
  match w with
  | .task k => m.updSched fun s => { s with ready := k :: s.ready }
  | .saved h => m.updSaved h fun v => { v with ready := some (v.ready.getD m.sched.readySeq) }

/-- The context in a saddle of a tile that is lost is relaunched elsewhere; an eviction or a restore under way ends (13 R376). A
task that has ended is left to its report. -/
def Mod.moveAway (m : Mod) (t : TileId) (sd : SaddleId) : Mod :=
  let key := saddleKey t sd
  let c := m.ctx t.val sd.val
  let m := match Tab.find key m.sched.evicting with
    | some w => (m.updSched fun s => { s with evicting := s.evicting.del key }).requeue w
    | none => m
  match Tab.find key m.sched.restoring with
  | some h =>
    let m := m.updSched fun s => { s with restoring := s.restoring.del key }
    let k? := match Tab.find h m.sched.saved with
      | some v => v.ctx.task
      | none => none
    let m := m.updSched fun s => { s with saved := s.saved.del h }
    let m := m.emptySaddle t.val sd.val
    match k? with
    | some k => m.relaunch k [t]
    | none => m
  | none =>
    if c.st == .empty || c.ending.isSome then m
    else
      let m := m.updNet fun n => { n with cn := n.cn.filter fun f => !(f.op == .launch && f.a == key) }
      let m := (m.updDbg fun d => { d with halted := d.halted.keep fun _ u => u != c.uid }).emptySaddle t.val sd.val
      match c.task with
      | some k => m.relaunch k [t]
      | none => m

/-- Fence a tile (03 R116): its contexts are relaunched, nothing more is issued to it. `orderly` says that it can still write back
its L1 portion. -/
def Mod.fenceTile (m : Mod) (t : TileId) (orderly : Bool) : Mod :=
  if (m.tile t.val).fenced then m
  else
    let m := match m.partOfTile t.val with
      | some p => m.abandonWp p
      | none => m
    let m := if orderly then m.flushL1 t.val else m.dropTags t.val
    let m := m.updTile t.val fun x => { x with fenced := true, running := [], changing := none }
    let owner := m.partOfTile t.val
    let m := forEach [0, 1, 2, 3] (fun (i : SaddleId) m => m.moveAway t i) m
    if orderly then
      (match owner with
        | some p => m.endStranded p
        | none => m).raise evTileFault t.val noPart t.val
    else m

/-- A strike on a tile; the second fences it (03 R115). -/
def Mod.strike (m : Mod) (t : TileId) : Mod :=
  let x := m.tile t.val
  let n := min 2 (x.strike.val + 1)
  let m := m.setTile t.val { x with strike := Fin.ofNat 3 n, strikeTick := m.ticks }
  if n = 2 then m.fenceTile t true else m

end Sys2Proof.Machine
end

