-- ==== Sys2Proof/Machine/Areas.lean ====
section
/-! DEFINITION. What the scheduler and the front end keep of their records in areas of EM: saved images (spec 13 R372), journals (14 R415) and
retained results (14 R420). Their place and size are the spec's, the order of their bytes is the model's (log 120). -/

namespace Sys2Proof.Machine

/-! Saved images (13 R372, 04 R131). -/

/-- Window bytes and declared live bytes of a task. -/
def taskWin (k : Task) : Nat := bits k.desc.toNat 301 296 * 65536
def taskLive (k : Task) : Nat := bits k.desc.toNat 311 302 * 4096
def Saved.win (v : Saved) : Nat := match v.ctx.task with
  | some k => taskWin k
  | none => 0
def Saved.live (v : Saved) : Nat := match v.ctx.task with
  | some k => taskLive k
  | none => 0

/-- The Lreg bytes of registers: x1 to x31 and pc, then the live vector registers. -/
def Ctx.regBytes (c : Ctx) : List Byte :=
  ((List.range 31).flatMap fun i => bytesOf (c.x.getD (i + 1) 0)) ++ bytesOf c.pc ++
    ((List.range 32).filter fun v => c.tvlive.getLsbD v).flatMap fun v => bytesOf (c.v.getD v 0)
/-- Tags of the copies of a context that have not completed. -/
def Mod.openTags (m : Mod) (c : Ctx) : List Nat :=
  (c.tags.filter fun e => match Tab.find e.2 m.copies with
    | some x => x.status.isNone
    | none => false).map Prod.fst
/-- A saved image: registers, scratchpad, the list of uncompleted copies by tag. -/
def Mod.imageBytes (m : Mod) (v : Saved) : List Byte :=
  let tags := m.openTags v.ctx
  v.ctx.regBytes ++ Mem.rds v.ts 0 v.live ++ leBytes tags.length 2 ++ tags.flatMap fun t => leBytes t 2
/-- The save slot of an image, where the partition has a save region. -/
def Mod.saveAddr (m : Mod) (v : Saved) : Option Nat :=
  let base := m.parN (pSchSaveBase + v.ctx.part.val)
  if base = 0 then none else some (base + 2 ^ 22 * v.slot)
/-- Write an image to its slot. -/
def Mod.putImage (m : Mod) (v : Saved) : Mod := match m.saveAddr v with
  | some a => m.areaWrite a (m.imageBytes v)
  | none => m
/-- A copy writes to the scratchpad of an image in its slot. -/
def Mod.putImageTs (m : Mod) (v : Saved) (off : Nat) (bs : List Byte) : Mod := match m.saveAddr v with
  | some a => m.areaWrite (a + v.ctx.regBytes.length + off) bs
  | none => m

/-! Journals (14 R415, Table 14.14): 4,096 places of 256 bytes for each queue pair, taken in the order of JSEQ. -/

/-- Write a journal entry to its place: the header first, as the ring has it. -/
def Mod.putJournal (m : Mod) (x : Qp) (j : JEntry) : Mod :=
  let base := m.parN (pHifJrnlBase + x.fn.val)
  if base = 0 then m
  else m.areaWrite (base + 2 ^ 20 * x.jslot + 256 * (j.jseq % 4096)) (j.entries.flatMap fun (e : BitVec 256) => bytesOf e)

/-! The retain area (14 R420). -/

/-- Parts of a partition's retain area that no retained result takes, lowest first. -/
def Mod.retainGaps (m : Mod) (p : PartId) : List (Nat × Nat) :=
  let used := sortBy (fun (c : Nat × Nat) => c.1) ((m.host.retained.filter fun r => r.fn == p).flatMap fun r => r.place)
  let r := used.foldl (fun (g : List (Nat × Nat) × Nat) c => (if g.2 < c.1 then g.1 ++ [(g.2, c.1 - g.2)] else g.1, c.1 + c.2)) ([], 0)
  let size := m.parN (pHifRetainSize + p.val) * 2 ^ 20
  if r.2 < size then r.1 ++ [(r.2, size - r.2)] else r.1
/-- The first `n` bytes of a list of parts. -/
def takeParts : Nat → List (Nat × Nat) → List (Nat × Nat)
  | _, [] => []
  | n, c :: cs => if n = 0 then [] else (c.1, min n c.2) :: takeParts (n - c.2) cs
/-- Write bytes of a retained result, from its byte `i` on, into the parts of the area that it takes. -/
def Mod.putRetained (m : Mod) (base i : Nat) (bs : List Byte) : List (Nat × Nat) → Mod
  | [] => m
  | c :: cs =>
    if c.2 ≤ i then m.putRetained base (i - c.2) bs cs
    else
      let n := min bs.length (c.2 - i)
      let m := if n = 0 then m else m.areaWrite (base + c.1 + i) (bs.take n)
      m.putRetained base 0 (bs.drop n) cs

end Sys2Proof.Machine
end

