-- ==== Sys2Proof/Machine/Copies.lean ====
section
/-! DEFINITION. Copy engines (spec 05 R158-R184): descriptors and their refusals, the shape walk, conversion, reduction,
multicast, completion. A copy is walked whole when it completes (log 18). -/

namespace Sys2Proof.Machine

/-- Field of a copy descriptor (Table 5.6). -/
def Copy.fld (c : Copy) (hi lo : Nat) : Nat := bits c.desc.toNat hi lo

def Copy.sspace (c : Copy) : Nat := c.fld 586 584
def Copy.dspace (c : Copy) : Nat := c.fld 589 587
def Copy.sfmt (c : Copy) : Nat := c.fld 593 590
def Copy.dfmt (c : Copy) : Nat := c.fld 597 594
def Copy.op (c : Copy) : Nat := c.fld 601 598
def Copy.mk' (c : Copy) : Nat := c.fld 629 628
def Copy.e0 (c : Copy) : Nat := c.fld 535 512 + 1
def Copy.e1 (c : Copy) : Nat := c.fld 551 536 + 1
def Copy.e2 (c : Copy) : Nat := c.fld 567 552 + 1
def Copy.e3 (c : Copy) : Nat := c.fld 583 568 + 1
def Copy.src (c : Copy) : Nat := c.fld 63 0
def Copy.dst (c : Copy) : Nat := c.fld 127 64
def Copy.ssc (c : Copy) : Nat := c.fld 191 128
def Copy.dsc (c : Copy) : Nat := c.fld 255 192
def Copy.crec (c : Copy) : Nat := c.fld 661 646

/-- Does a row of `n` elements of a format fill whole bytes and whole blocks (R172)? -/
def rowFits (fmt n : Nat) : Bool :=
  (fmtWidth fmt != 4 || n % 2 == 0) && (fmtWidth fmt != 6 || n % 32 == 0) && (fmtBlock fmt == 0 || n % fmtBlock fmt == 0)

/-- Bits of an address that must be zero, by space: whether they are not, and the lowest bit of the field (Tables 5.1, 5.2,
log 68). -/
def addrChecks (space base a : Nat) : List (Bool × Nat) :=
  match space with
  | 0 => [(bits a 31 22 != 0, base + 22), (bits a 63 43 != 0, base + 43)]
  | 1 => [(bits a 63 31 != 0, base + 31)]
  | 2 => [(bits a 63 48 != 0, base + 48)]
  | _ => []

/-- The refusals of R170, each with the lowest bit of the field it names (log 68). -/
def Copy.checks (c : Copy) : List (Bool × Nat) :=
  let ss := c.sspace
  let ds := c.dspace
  addrChecks ss 0 c.src ++ addrChecks ds 64 c.dst ++
  (if fmtBlock c.sfmt = 0 then [] else addrChecks ss 128 c.ssc) ++
  (if fmtBlock c.dfmt = 0 then [] else addrChecks ds 192 c.dsc) ++
  [(c.fld 511 496 != 0, 496), (!rowFits c.sfmt c.e0 || !rowFits c.dfmt c.e0, 512),
   (decide (4 < ss) || ((ss == 3 || ss == 4) && (ds == 3 || ds == 4)), 584),
   (decide (4 < ds) || (c.op != 0 && ds == 3) || ((c.mk' == 1 || c.mk' == 2) && (ds != 0 || c.dst.testBit 42)) ||
     (c.mk' == 3 && ds != 0 && ds != 4) || (c.mk' != 0 && (ds == 1 || ds == 2)), 587),
   (!fmtValid c.sfmt, 590),
   (!fmtValid c.dfmt || (c.dfmt == 12 && c.sfmt != 12) ||
     (decide (c.op ≤ 6) && !opPermits c.op c.sfmt c.dfmt), 594),
   (decide (6 < c.op) || (c.op != 0 && c.mk' != 0), 598), (c.fld 1023 662 != 0, 662)]

/-- Is the descriptor refused (R170)? -/
def Copy.refused (c : Copy) : Bool := c.checks.any Prod.fst

/-- Lowest bit, within the descriptor, of a field the refusal names. -/
def Copy.refusedBit (c : Copy) : Nat := (c.checks.filter Prod.fst).foldl (fun b x => min b x.2) 1024

/-! Places. -/

/-- A place a copy reads or writes: space, the fixed part of the address, and an offset that may run out of range. -/
structure Loc where
  space : Nat
  base : Nat
  off : Int
  deriving DecidableEq, Repr

/-- The place a descriptor address names: TS offset, PS, EM or HM address, PEER offset in a window. -/
def locOf (space addr : Nat) : Loc :=
  match space with
  | 0 => ⟨0, bits addr 42 32, (bits addr 21 0 : Nat)⟩
  | 4 => ⟨4, addr / 2 ^ 40, (addr % 2 ^ 40 : Nat)⟩
  | s => ⟨s, 0, (addr : Nat)⟩
def Loc.shift (l : Loc) (d : Int) : Loc := { l with off := l.off + d }

/-- Bytes read or outcome of bytes written: for each byte, whether it was refused and whether it is poisoned. -/
structure Run where
  bytes : List Byte := []
  bad : List Bool := []
  poi : List Bool := []
  shared : Bool := false
  detached : Bool := false
  deriving DecidableEq, Repr
def Run.join (a b : Run) : Run :=
  ⟨a.bytes ++ b.bytes, a.bad ++ b.bad, a.poi ++ b.poi, a.shared || b.shared, a.detached || b.detached⟩
def runBad (n : Nat) : Run := ⟨List.replicate n 0, List.replicate n true, List.replicate n false, false, false⟩
def runZero (n : Nat) : Run := ⟨List.replicate n 0, List.replicate n false, List.replicate n false, false, false⟩
def BRes.run (r : BRes) (n : Nat) : Run :=
  ⟨padTo r.bytes n, List.replicate n r.viol, List.replicate n r.poison, r.shared, false⟩

/-- The agent of a copy engine (07 Table 7.1). -/
def engineAgent (h : SliceId) (e : Fin 8) : AgentId := ⟨1024 + 8 * h.val + e.val, by omega⟩
def Copy.who (c : Copy) : Who := .nc (engineAgent c.half c.engine)
/-- Cache class of destination lines: DCLS, and HOSTCOPY for a command that copies from host memory (R176, 06 R219). -/
def Copy.dcls (c : Copy) : Nat := if c.owner.isNone && c.sspace == 3 then 6 else c.fld 607 605

/-- Where the pushing context's window is now (R159, R184). -/
inductive SelfAt where
  | resident (t s : Nat)
  | saved (h : Nat)
  | gone
  deriving DecidableEq, Repr
def Mod.selfAt (m : Mod) (c : Copy) : SelfAt :=
  match c.owner with
  | none => .gone
  | some u => match m.ctxOf u with
    | some k => .resident (k / 4) (k % 4)
    | none => match m.savedOf u with
      | some h => .saved h
      | none => .gone

/-- Is a SELF = 1 place of a context that no longer exists (R184)? It is bound to nothing. -/
def Mod.unbound (m : Mod) (c : Copy) (l : Loc) : Bool := l.space == 0 && l.base.testBit 10 && m.selfAt c == .gone

/-- Read a piece that lies in one granule or line, in a cache class. -/
def Mod.readPiece (m : Mod) (c : Copy) (l : Loc) (cls a n : Nat) : Run × Mod :=
  match l.space with
  | 0 =>
    if l.base.testBit 10 then
      match m.selfAt c with
      | .gone => (runZero n, m)
      | .saved h => match Tab.find h m.sched.saved with
        | none => (runZero n, m)
        | some v =>
          if v.win < a + n then (runBad n, m.violate c.part.val)
          else (⟨Mem.rds v.ts a n, List.replicate n false, List.replicate n (v.poison.has (a / 64)), false, false⟩, m)
      | .resident t s => match m.winByte t s a n with
        | none => (runBad n, m.violate c.part.val)
        | some b => ((m.tsRead t b n).run n, m)
    else
      let t := m.nameTile c.part.val (l.base % 1024)
      if !(m.ownsTile c.part.val t) || decide (tsSize (m.tile t).split < a + n) then (runBad n, m.violate c.part.val)
      else ((m.tsRead t a n).run n, m)
  | 1 =>
    let r := m.psRead c.who c.part.val a n
    (r.1.run n, if r.1.viol then r.2.violate c.part.val else r.2)
  | 2 =>
    let r := m.emReadVa c.who c.part.val a n cls
    (r.1.run n, if r.1.viol then r.2.violate c.part.val else r.2)
  | 3 =>
    if m.host.portState == 2 then ({ runBad n with detached := true }, m)
    else
      let r := m.hmRead c.part.val a n
      (⟨r.1, List.replicate n false, List.replicate n false, false, false⟩, r.2)
  | _ =>
    if (c.keys.any fun k => k.1 == l.base) && decide (a + n ≤ 2 ^ 40) then
      (⟨(List.range n).map fun i => c.peerIn.getD (l.base * 2 ^ 40 + a + i) 0, List.replicate n false,
        List.replicate n false, false, false⟩, m)
    else (runBad n, m.violate c.part.val)

/-- Length of the pieces of a space. -/
def pieceLen (space : Nat) : Nat := if space = 0 then 64 else if space = 3 then 64 else if space = 4 then 512 else 128

/-- Bytes of a run of `n` at an offset that lie below offset 0: an address of the host wraps, those of other spaces are no addresses
(log 138). -/
def Loc.below (l : Loc) (n : Nat) : Nat := if l.space ≠ 3 ∧ l.off < 0 then min n (-l.off).toNat else 0
/-- The offset as an address. -/
def Loc.addr (l : Loc) : Nat := if l.space = 3 then (l.off % 2 ^ 64).toNat else l.off.toNat

/-- Read bytes from a place in a cache class; bytes below offset 0 are refused. -/
def Mod.readLoc (m : Mod) (c : Copy) (l : Loc) (cls n : Nat) : Run × Mod :=
  if m.unbound c l then (runZero n, m)
  else
    let neg := l.below n
    let a := l.addr
    let m := if neg = 0 then m else m.violate c.part.val
    (pieces (pieceLen l.space) a (n - neg) (n + 1)).foldl
      (fun r p => let q := r.2.readPiece c l cls p.1 p.2; (r.1.join q.1, q.2)) (if neg = 0 then {} else runBad neg, m)

/-- Mark the line of a PS or EM address poisoned at its home (R179). -/
def Mod.poisonKey (m : Mod) (k : Nat) : Mod :=
  let m := m.settle k settleFuel
  match m.line? k with
  | some l => m.setLine k { l with poison := true }
  | none => if isPs k then m else
    let r := m.memReadLine (linePa k) .ok .ok 0
    (r.2.memWriteLine (linePa k) r.1.data true).1

/-- DNA: a destination line comes first in line for eviction (R176, 06 R190). -/
def Mod.evictableFirst (m : Mod) (k : Nat) : Mod :=
  match m.line? k with
  | some l => if l.evictFirst = 0 then
      (m.setLine k { l with evictFirst := m.cache.evictSeq + 1 }).updCache fun c => { c with evictSeq := c.evictSeq + 1 }
    else m
  | none => m

/-- Outcome of a write piece from an access. -/
def BRes.wrote (r : BRes) (n : Nat) : Run := 
  ⟨[], List.replicate n (r.viol || r.poison || r.unperformed), List.replicate n (r.poison || r.unperformed), false, false⟩

/-- A retained copy keeps what it writes to host memory (14 R420). -/
def Mod.retainBytes (m : Mod) (c : Copy) (a : Nat) (bs : List Byte) : Mod :=
  if c.owner.isSome then m
  else
    let base := m.parN (pHifRetainBase + c.part.val)
    let m := match m.host.retained.find? fun r => r.cmd == c.cmd with
      | some r => if base = 0 then m else m.putRetained base r.bytes.length bs r.place
      | none => m
    m.updHost fun h => { h with retained := h.retained.map fun r =>
      if r.cmd = c.cmd then { r with bytes := r.bytes ++ bs.zipIdx.map fun (b : Byte × Nat) => ((a + b.2) % 2 ^ 64, b.1) } else r }

/-- Write a piece; `poi` writes it poisoned. `tile` overrides the tile of a TS destination (multicast). -/
def Mod.writePiece (m : Mod) (c : Copy) (l : Loc) (tile : Option Nat) (a : Nat) (bs : List Byte) (poi : Bool) : Run × Mod :=
  let n := bs.length
  let done : Run := ⟨[], List.replicate n false, List.replicate n false, false, false⟩
  match l.space with
  | 0 =>
    if tile.isNone && l.base.testBit 10 then
      match m.selfAt c with
      | .gone => (done, m)
      | .saved h => match Tab.find h m.sched.saved with
        | none => (done, m)
        | some v =>
          if v.win < a + n then ({ done with bad := List.replicate n true }, m.violate c.part.val)
          else if a + n ≤ v.live then
            (done, (m.putImageTs v a bs).updSaved h fun v => { v with
              ts := Mem.wrs a bs v.ts,
              poison := if poi then v.poison.put (a / 64) () else if n = 64 then v.poison.del (a / 64) else v.poison })
          else (done, m)
      | .resident t s => match m.winByte t s a n with
        | none => ({ done with bad := List.replicate n true }, m.violate c.part.val)
        | some b =>
          let r := m.tsWrite t b bs
          (r.1.wrote n, if poi then r.2.tsPoison t b else r.2)
    else
      let t := tile.getD (m.nameTile c.part.val (l.base % 1024))
      if !(m.ownsTile c.part.val t) || decide (tsSize (m.tile t).split < a + n) then
        ({ done with bad := List.replicate n true }, m.violate c.part.val)
      else
        let r := m.tsWrite t a bs
        (r.1.wrote n, if poi then r.2.tsPoison t a else r.2)
  | 1 =>
    let r := m.psWrite c.who c.part.val a bs
    let m := if r.1.viol then r.2.violate c.part.val else if poi then r.2.poisonKey (psKeyOf a) else r.2
    (r.1.wrote n, if c.fld 609 609 = 1 && !r.1.viol then m.evictableFirst (psKeyOf a) else m)
  | 2 =>
    let r := m.emWriteVa c.who c.part.val a bs c.dcls none
    let k := match (r.2.translate c.who.half c.part.val a .write).1 with
      | .ok pa => some (emKeyOf pa)
      | _ => none
    let m := if r.1.viol then r.2.violate c.part.val else match k, poi with
      | some k, true => r.2.poisonKey k
      | _, _ => r.2
    (r.1.wrote n, match k with
      | some k => if c.fld 609 609 = 1 && !r.1.viol then m.evictableFirst k else m
      | none => m)
  | _ =>
    let m := if poi then m else m.retainBytes c a bs
    if m.host.portState == 2 then ({ done with bad := List.replicate n true, detached := true }, m)
    else if poi then ({ done with bad := List.replicate n true }, m)
    else (done, m.hmWrite c.part.val c.gen a bs)

/-- Is a piece of a destination refused? -/
def Mod.refuses (m : Mod) (c : Copy) (l : Loc) (tile : Option Nat) (a n : Nat) : Bool :=
  match l.space with
  | 0 =>
    if tile.isNone && l.base.testBit 10 then
      match m.selfAt c with
      | .gone => false
      | .saved h => (match Tab.find h m.sched.saved with
        | none => false
        | some v => decide (v.win < a + n))
      | .resident t s => (m.winByte t s a n).isNone
    else
      let t := tile.getD (m.nameTile c.part.val (l.base % 1024))
      !(m.ownsTile c.part.val t) || decide (tsSize (m.tile t).split < a + n)
  | 1 => decide (2 ^ 31 ≤ a) || !(m.psOwned c.part.val a)
  | 2 => decide (2 ^ 48 ≤ a) || (m.translate c.who.half c.part.val a .write).1 == .fail
  | _ => false

/-- Bytes between which no byte is skipped: first and length. -/
def runsOf (skip : List Bool) : List (Nat × Nat) :=
  (skip.zipIdx.foldl (fun (l : List (Nat × Nat)) (b : Bool × Nat) =>
    if b.1 then l
    else match l with
      | (s, n) :: r => if s + n = b.2 then (s, n + 1) :: r else (b.2, 1) :: (s, n) :: r
      | [] => [(b.2, 1)]) []).reverse

/-- Write bytes to TS, PS, EM or HM; `poi` says which bytes are derived from poison, `skip` which are not to be written. -/
def Mod.writeLoc (m : Mod) (c : Copy) (l : Loc) (tile : Option Nat) (bs : List Byte) (poi skip : List Bool) : Run × Mod :=
  let n := bs.length
  if tile.isNone && m.unbound c l then (⟨[], List.replicate n false, List.replicate n false, false, false⟩, m)
  else
    let neg := l.below n
    let a := l.addr
    let bs := bs.drop neg
    let poi := poi.drop neg
    let skip := skip.drop neg
    let m := if neg = 0 then m else m.violate c.part.val
    let write (q : Run × Mod) (i k : Nat) : Run × Mod :=
      let w := q.2.writePiece c l tile (a + i) ((bs.drop i).take k) (((poi.drop i).take k).any id)
      (q.1.join w.1, w.2)
    (pieces (pieceLen l.space) a bs.length (n + 1)).foldl
      (fun r p =>
        let i := p.1 - a
        let s := (skip.drop i).take p.2
        if !s.any id then write r i p.2
        else if r.2.refuses c l tile p.1 p.2 then write r i p.2
        else
          let q := (runsOf s).foldl (fun q x => write q (i + x.1) x.2) (({} : Run), r.2)
          (r.1.join { q.1 with bad := List.replicate p.2 false, poi := List.replicate p.2 (q.1.poi.any id) }, q.2))
      (if neg = 0 then {} else ⟨[], List.replicate neg true, List.replicate neg false, false, false⟩, m)

/-! One row. -/

/-- Bytes of a row that element `i` occupies: first and last. -/
def elemBytes (fmt i : Nat) : Nat × Nat :=
  if isTri fmt then (i / 5, i / 5) else (i * fmtWidth fmt / 8, ((i + 1) * fmtWidth fmt - 1) / 8)
/-- Does a mark over bytes touch element `i`? -/
def elemMark (fmt : Nat) (l : List Bool) (i : Nat) : Bool :=
  let p := elemBytes fmt i
  ((l.drop p.1).take (p.2 + 1 - p.1)).any id
/-- Marks over elements spread to the bytes of the destination. -/
def spread (fmt n len : Nat) (f : Nat → Bool) : List Bool :=
  let marks := (List.range n).filter f
  if marks.isEmpty then List.replicate len false
  else (List.range len).map fun b => marks.any fun i => decide ((elemBytes fmt i).1 ≤ b ∧ b ≤ (elemBytes fmt i).2)

/-- What a copy has done so far. -/
structure Walk where
  /-- Elements written, by target. -/
  counts : Tab Nat := []
  flags : Nat := 0
  poison : Bool := false
  shared : Bool := false
  detached : Bool := false
  hm : Bool := false
  /-- RED flits sent. -/
  reds : Nat := 0
  deriving DecidableEq, Repr
def Walk.add (w : Walk) (target n : Nat) : Walk := if n = 0 then w else { w with counts := w.counts.upd target 0 (· + n) }

/-- A row of the source, decoded: bytes and scales as read, values. -/
structure SrcRow where
  run : Run
  scales : Run
  vals : List Val
  deriving DecidableEq, Repr

/-- Scale bytes of a row: `row` is its number, (i3 * E2 + i2) * E1 + i1 (R172). -/
def scaleLoc (space addr fmt e0 row : Nat) : Loc :=
  (locOf space addr).shift ((row * (e0 / fmtBlock fmt) * scaleUnit fmt : Nat) : Int)
def scaleLen (fmt e0 : Nat) : Nat := if fmtBlock fmt = 0 then 0 else e0 / fmtBlock fmt * scaleUnit fmt

/-- A row's bytes with zeros for its marked elements (R178): a byte of TRI5 holds five zero weights. -/
def zeroElems (fmt n : Nat) (bs : List Byte) (bad : Nat → Bool) : List Byte :=
  if isTri fmt then bs.zipIdx.map fun (p : Byte × Nat) => if bad (5 * p.2) then 121 else p.1
  else
    let w := fmtWidth fmt
    padTo (packElems w ((List.range n).map fun i => if bad i then 0 else packedGet bs w i)) bs.length

/-- Read a row; an element whose read was refused, or whose scale's was, is zero (R178). -/
def Mod.readRow (m : Mod) (c : Copy) (l : Loc) (row : Nat) : SrcRow × Mod :=
  let cls := c.fld 604 602
  let r := m.readLoc c l cls (rowBytes c.sfmt c.e0)
  let sc : Run × Mod := if fmtBlock c.sfmt = 0 then ({}, r.2)
    else r.2.readLoc c (scaleLoc c.sspace c.ssc c.sfmt c.e0 row) cls (scaleLen c.sfmt c.e0)
  let u := scaleUnit c.sfmt
  let bad (i : Nat) : Bool := elemMark c.sfmt r.1.bad i ||
    (u != 0 && ((sc.1.bad.drop (i / fmtBlock c.sfmt * u)).take u).any id)
  if r.1.bad.any id || sc.1.bad.any id then
    let bs := zeroElems c.sfmt c.e0 r.1.bytes bad
    (⟨{ r.1 with bytes := bs }, sc.1, (decRow c.sfmt bs sc.1.bytes c.e0).zipIdx.map fun (p : Val × Nat) =>
      if bad p.2 then Val.fin false 0 0 else p.1⟩, sc.2)
  else (⟨r.1, sc.1, decRow c.sfmt r.1.bytes sc.1.bytes c.e0⟩, sc.2)

/-- Is source element `i` poisoned? -/
def SrcRow.poi (r : SrcRow) (fmt i : Nat) : Bool :=
  elemMark fmt r.run.poi i ||
    (scaleUnit fmt != 0 && ((r.scales.poi.drop (i / fmtBlock fmt * scaleUnit fmt)).take (scaleUnit fmt)).any id)

/-- NaN weights that a block scale makes set NAN_SEEN where the row is converted or reduced (R56). -/
def SrcRow.triFlags (r : SrcRow) (c : Copy) : Nat :=
  if isTri c.sfmt && c.sfmt != c.dfmt && r.vals.any Val.isNan then flNAN else 0

/-- Key and remote base of a peer window, as at push. -/
def Copy.rkey (c : Copy) (mw : Nat) : Option (BitVec 64 × BitVec 64) := (c.keys.find? fun k => k.1 == mw).map Prod.snd

/-- Parts of a row that go to a peer: bytes of a granule derived from poison, below offset 0 or beyond the window's 2^40 are left out
(R164, R179, log 138). First byte and length, at most 512. -/
def peerPieces (off : Int) (n : Nat) (poi : List Bool) : List (Nat × Nat) :=
  let below := if off < 0 then min n (-off).toNat else 0
  let a := off.toNat
  let fits := min (n - below) (2 ^ 40 - a)
  if !poi.any (· == true) then (pieces 512 0 fits (n + 1)).map fun p => (below + p.1, p.2)
  else ((pieces 64 a fits (n + 1)).map fun p => (below + (p.1 - a), p.2)).filter fun p => !((poi.drop p.1).take p.2).any id

/-- Send a row to a peer; bytes that have no address in the window are a violation. -/
def Mod.sendRow (m : Mod) (c : Copy) (id : Nat) (mw : Nat) (off : Int) (type target : Nat) (bs : List Byte) (poi : List Bool) :
    Run × Mod :=
  let dst := mw / 256
  let n := bs.length
  match c.rkey mw with
  | none => (⟨[], List.replicate n true, [], false, false⟩, m.violate c.part.val)
  | some key =>
    let iod := iodOfDie (dieOfHalf c.half.val)
    let ps := peerPieces off n poi
    let m := if off < 0 ∨ 2 ^ 40 < off + n then m.violate c.part.val else m
    let m := forEach ps (fun p m =>
      let b := (bs.drop p.1).take p.2
      let o := (off + p.1).toNat
      if 0xF000 ≤ dst then m.sendRoce c.owner c.cmd dst (key.1.toNat % 2 ^ 32) (key.2.toNat + o) b
      else
        let pk := m.packet iod dst (mw % 256) o c.op c.dfmt key.1 b
        m.sendPkt { iod := Fin.ofNat 4 iod, part := c.part, type := Fin.ofNat 16 type, p := pk, copy := some id,
                    owner := c.owner, cmd := c.cmd, target := target }) m
    (⟨[], (List.range n).map fun i => !ps.any fun p => decide (p.1 ≤ i ∧ i < p.1 + p.2), [], false, false⟩, m)

/-- Targets of a copy (R175): position, tile or module and window; one entry without a tile for a copy that is no multicast. -/
def Mod.targets (m : Mod) (c : Copy) : List (Nat × Option Nat × Option Nat) :=
  let t := c.dst / 2 ^ 32 % 1024
  let mask := c.fld 637 630
  let name (x : Nat) : Option Nat := some (m.nameTile c.part.val x)
  match c.mk' with
  | 0 => [(0, none, if c.dspace = 4 then some (c.dst / 2 ^ 40) else none)]
  | 1 => ((List.range 8).filter mask.testBit).map fun i => (i, name (t / 8 * 8 + i), none)
  | 2 => ((List.range 8).filter mask.testBit).map fun i => (i, name (t / 64 * 64 + i * 8 + t % 8), none)
  | _ => c.mset.zipIdx.map fun w =>
    if w.1.toNat / 2 ^ 62 = 1 then (w.2, name (w.1.toNat % 1024), none)
    else (w.2, none, some (bits w.1.toNat 47 24))

/-- Destination row bytes of a plain write: bytes, scales, flags, and the module after SR draws. A NaN that becomes an integer sets
NAN_TO_INT alone (log 126). -/
def Mod.convRow (m : Mod) (c : Copy) (r : SrcRow) : (List Byte × List Byte × Nat) × Mod :=
  if c.sfmt = c.dfmt then ((r.run.bytes, r.scales.bytes, 0), m)
  else
    let mode := bits c.arith.toNat 15 13
    let rs : List Nat × Mod := if mode = 4 then m.draws c.e0 else ([], m)
    (encRow c.dfmt mode (c.arith.toNat.testBit 12) rs.1 r.vals, rs.2)

/-- Number of elements whose bytes were all written. -/
def writtenElems (fmt n : Nat) (bad : List Bool) : Nat :=
  if bad.any id then ((List.range n).filter fun i => !elemMark fmt bad i).length else n

/-- Bytes of whole elements that a destination refuses in part (R178): none of them is written. -/
def Mod.refusedBytes (m : Mod) (c : Copy) (l : Loc) (tile : Option Nat) (fmt n len : Nat) : List Bool :=
  if m.unbound c l then []
  else
    let neg := l.below len
    let bad := List.replicate neg true ++ ((pieces (pieceLen l.space) l.addr (len - neg) (len + 1)).flatMap fun p =>
      List.replicate p.2 (m.refuses c l tile p.1 p.2))
    if bad.any id && !bad.all id then spread fmt n len (elemMark fmt bad) else []

/-- Write one row to one target. -/
def Mod.putRow (m : Mod) (c : Copy) (id : Nat) (l : Loc) (row : Nat) (tg : Nat × Option Nat × Option Nat)
    (d : List Byte × List Byte × Nat) (poi : List Bool) (w : Walk) : Walk × Mod :=
  let anyPoi := poi.any (· == true)
  let type := if c.mk' = 3 then 5 else 0
  let refused := if tg.2.2.isSome then [] else m.refusedBytes c l tg.2.1 c.dfmt c.e0 d.1.length
  let q : Run × Mod := match tg.2.2 with
    | some mw => m.sendRow c id mw l.off type tg.1 d.1 poi
    | none => m.writeLoc c l tg.2.1 d.1 poi refused
  let q2 : Run × Mod := if fmtBlock c.dfmt = 0 then ({}, q.2)
    else
      let sl := scaleLoc c.dspace c.dsc c.dfmt c.e0 row
      let marks := if anyPoi then List.replicate d.2.1.length true else []
      match tg.2.2 with
      | some mw => q.2.sendRow c id (if c.mk' = 3 then mw else sl.base) sl.off type tg.1 d.2.1 marks
      | none => q.2.writeLoc c sl tg.2.1 d.2.1 marks []
  let bad := (q.1.bad.zipIdx.map fun (p : Bool × Nat) => p.1 || refused.getD p.2 false)
  ({ w.add tg.1 (writtenElems c.dfmt c.e0 bad) with
      flags := w.flags ||| d.2.2,
      poison := w.poison || q.1.poi.any (· == true) || q2.1.poi.any (· == true),
      detached := w.detached || q.1.detached, hm := w.hm || (c.dspace == 3 && !q.1.detached) }, q2.2)

/-! Reduction (R173, R174; 09 R281). -/

/-- Rounding of a MAX or MIN into another format: the control word's (R72, R173); a source in the destination's format is
not converted (log 19). -/
def Copy.redMode (c : Copy) : Nat := if c.sfmt = c.dfmt then 0 else bits c.arith.toNat 15 13
def Copy.redSat (c : Copy) : Bool := c.sfmt != c.dfmt && c.arith.toNat.testBit 12
/-- The random words of a row that a MAX or MIN rounds stochastically. -/
def Mod.redDraws (m : Mod) (c : Copy) : List Nat × Mod :=
  if (c.op = 2 ∨ c.op = 3) ∧ c.dfmt ≠ 13 ∧ c.redMode = 4 then m.draws c.e0 else ([], m)

/-- Reduce one row into TS, PS or EM at once (R174): poisoned elements stay as they are. -/
def Mod.reduceRow (m : Mod) (c : Copy) (l : Loc) (r : SrcRow) (w : Walk) : Walk × Mod :=
  let wd := fmtWidth c.dfmt
  let len := rowBytes c.dfmt c.e0
  let rs := m.redDraws c
  let refused := rs.2.refusedBytes c l none c.dfmt c.e0 len
  let q := rs.2.readLoc c l c.dcls len
  let old := (List.range c.e0).map fun i => packedGet q.1.bytes wd i
  let stay (i : Nat) : Bool := elemMark c.dfmt q.1.poi i || elemMark c.dfmt q.1.bad i || elemMark c.dfmt refused i
  let res := (old.zip r.vals).zipIdx.map fun (p : (Nat × Val) × Nat) =>
    if stay p.2 then (p.1.1, 0)
    else if 4 ≤ c.op then combine c.op 13 p.1.1 (packedGet r.run.bytes 32 p.2)
    else reduceElemBy c.op c.dfmt c.redMode c.redSat (rs.1.getD p.2 0) p.1.1 p.1.2
  let bs := packElems wd (res.map Prod.fst)
  let v := q.2.writeLoc c l none bs (spread c.dfmt c.e0 len (r.poi c.sfmt)) (spread c.dfmt c.e0 len stay)
  ({ w.add 0 ((List.range c.e0).filter fun i => !stay i && !elemMark c.dfmt v.1.bad i).length with
      flags := res.foldl (fun a x => a ||| x.2) w.flags,
      poison := w.poison || q.1.poi.any (· == true) || v.1.poi.any (· == true), shared := w.shared || q.1.shared }, v.2)

/-- Convert a row to the destination format for a reduction at a peer: a MAX or MIN under the control word, a SUM and an INT32
destination to nearest even (log 19). -/
def Mod.redPeerBytes (m : Mod) (c : Copy) (r : SrcRow) : (List Byte × List Byte × Nat) × Mod :=
  if c.sfmt = c.dfmt then ((r.run.bytes, [], 0), m)
  else if c.op = 1 ∨ c.dfmt = 13 then (encRow c.dfmt 0 false [] r.vals, m)
  else
    let rs := m.redDraws c
    (encRow c.dfmt c.redMode c.redSat rs.1 r.vals, rs.2)

/-- Does every element of a source format convert exactly into a destination format (09 R281)? -/
def exactPair (s d : Nat) : Bool :=
  s == d || ((s == 10 || s == 11) && d == 13) || ((s == 2 || s == 3 || s == 4 || s == 5) && (d == 0 || d == 1)) || (s == 1 && d == 0)

/-- Where the elements of a row in one 128-byte line go: node, address in SPACE, or none where an access is refused. -/
def Mod.redPlace (m : Mod) (c : Copy) (l : Loc) (a : Nat) : Option (Nat × Nat) :=
  match l.space with
  | 0 => let t := m.nameTile c.part.val (l.base % 1024)
         if l.base.testBit 10 || !(m.ownsTile c.part.val t) then none else some (t, a)
  | 1 => some (bankNode (homeOf (psKeyOf a)) (a / 128), a)
  | 2 => match (m.translate c.who.half c.part.val a .write).1, (m.translate c.who.half c.part.val a .read).1 with
    | .ok pa, .ok _ => some (bankNode (homeOf (emKeyOf pa)) (pa / 128), pa)
    | _, _ => none
  | _ => none

/-- The RED flits of a row: its elements by destination line, in parts that a payload of 128 bytes holds (09 R281). None where the row
is one that the engine reduces itself (log 139): SELF = 1, a blocked source, an element that is refused, poisoned or not aligned. -/
def Mod.redFlits (m : Mod) (c : Copy) (id : Nat) (l : Loc) (r : SrcRow) : Option (List RedFlit) :=
  let sw := fmtWidth c.sfmt
  let dw := fmtWidth c.dfmt / 8
  let len := rowBytes c.dfmt c.e0
  let exact := exactPair c.sfmt c.dfmt
  let bytes := if c.sfmt = c.dfmt then r.run.bytes else if exact then (encRow c.dfmt 0 false [] r.vals).1 else r.run.bytes
  let w := if exact then fmtWidth c.dfmt else sw
  if fmtBlock c.sfmt != 0 || dw == 0 || fmtWidth c.dfmt % 8 != 0 || decide (l.off < 0) || (l.addr % (max dw 1) != 0) || r.run.poi.any (· == true) ||
      r.run.bad.any (· == true) || (pieces (pieceLen l.space) l.addr len (len + 1)).any (fun p => m.refuses c l none p.1 p.2) then none
  else
    -- first element and count of each flit
    let step := min (128 / dw) (1024 / w)
    let groups := (pieces (128 / dw) (l.addr / dw) c.e0 (c.e0 + 1)).flatMap fun p => pieces step (p.1 % (128 / dw)) p.2 (p.2 + 1) |>.map
      fun q => (p.1 - l.addr / dw + (q.1 - p.1 % (128 / dw)), q.2)
    groups.foldl (fun (acc : Option (List RedFlit)) (g : Nat × Nat) =>
      let a := l.addr + g.1 * dw
      match acc, m.redPlace c l a with
      | some fs, some d =>
        let base := if exact then d.2 / 128 * 128 else d.2
        let first := if exact then d.2 % 128 / dw else 0
        let payload := (List.range g.2).foldl (fun x i => x + packedGet bytes w (g.1 + i) * 2 ^ ((first + i) * w)) 0
        let be := ((List.range (g.2 * w / 8 + (if g.2 * w % 8 = 0 then 0 else 1))).map fun i => 2 ^ (first * w / 8 + i)).sum
        let f : RedFlit := {
          part := c.part, dst := d.1, space := Fin.ofNat 3 l.space, addr := base, op := Fin.ofNat 16 c.op,
          fmt := Fin.ofNat 16 c.dfmt, sfmt := Fin.ofNat 16 c.sfmt, nocomb := !exact, byteen := BitVec.ofNat 128 be,
          data := BitVec.ofNat 1024 payload, afl := 0, waited := 0, parts := [(id, BitVec.ofNat 128 be)] }
        some (fs ++ [f])
      | _, _ => none) (some [])

/-- Router at which a copy engine's flits enter the network (09 Table 9.2). -/
def Copy.router (c : Copy) : Nat := c.half.val * 64 + c.engine.val * 8

/-- Visit one row (R171). -/
def Mod.walkRow (m : Mod) (c : Copy) (id : Nat) (i1 i2 i3 : Nat) (w : Walk) : Walk × Mod :=
  let st (hi lo i : Nat) : Int := sext (c.fld hi lo) 40 * (i : Int)
  let sl := (locOf c.sspace c.src).shift (st 295 256 i1 + st 335 296 i2 + st 375 336 i3)
  let dl := (locOf c.dspace c.dst).shift (st 415 376 i1 + st 455 416 i2 + st 495 456 i3)
  let row := (i3 * c.e2 + i2) * c.e1 + i1
  let r := m.readRow c sl row
  let w := { w with flags := w.flags ||| r.1.triFlags c,
                    poison := w.poison || r.1.run.poi.any (· == true) || r.1.scales.poi.any (· == true),
                    shared := w.shared || r.1.run.shared || r.1.scales.shared,
                    detached := w.detached || r.1.run.detached }
  if r.1.run.detached then (w, r.2)
  else if c.op != 0 then
    if c.dspace = 4 then
      let p := r.2.redPeerBytes c r.1
      let d := p.1
      let q := p.2.sendRow c id (c.dst / 2 ^ 40) dl.off 1 0 d.1 (spread c.dfmt c.e0 d.1.length (r.1.poi c.sfmt))
      ({ w.add 0 (writtenElems c.dfmt c.e0 q.1.bad) with flags := w.flags ||| d.2.2 }, q.2)
    else match r.2.redFlits c id dl r.1 with
      | some fs =>
        let flits := fs.map fun f => (c.router, false, f)
        ({ w with reds := w.reds + fs.length }, { r.2 with net := { r.2.net with red := r.2.net.red ++ flits } })
      | none => r.2.reduceRow c dl r.1 w
  else
    let d := r.2.convRow c r.1
    let poi := spread c.dfmt c.e0 d.1.1.length (r.1.poi c.sfmt)
    (d.2.targets c).foldl (fun a tg =>
      if c.undeliv.getLsbD tg.1 then a
      else
        let kindBad := c.mk' = 3 && (if c.dspace = 0 then tg.2.1.isNone else tg.2.2.isNone)
        if kindBad then (a.1, a.2.violate c.part.val)
        else a.2.putRow c id dl row tg d.1 poi a.1) (w, d.2)

/-- Rows of a copy in visiting order: i1, i2, i3. -/
def Copy.rows (c : Copy) : List (Nat × Nat × Nat) :=
  (List.range c.e3).flatMap fun i3 => (List.range c.e2).flatMap fun i2 => (List.range c.e1).map fun i1 => (i1, i2, i3)
/-- Walk some rows. -/
def Mod.walkRows (m : Mod) (c : Copy) (id : Nat) (l : List (Nat × Nat × Nat)) : Walk × Mod :=
  l.foldl (fun a i => a.2.walkRow c id i.1 i.2.1 i.2.2 a.1) ({}, m)
/-- The whole walk. -/
def Mod.walk (m : Mod) (c : Copy) (id : Nat) : Walk × Mod := m.walkRows c id c.rows

/-! Dead lines (R176, 04 R149, 07 R237). -/

/-- Mark dead the EM lines that lie wholly in a range of virtual addresses. -/
def Mod.deadRange (m : Mod) (a : AgentId) (p va len : Nat) : Mod :=
  let first := (va + 127) / 128
  let last := (va + len) / 128
  forEach (List.range (last - first)) (fun i m =>
    let r := if (first + i) * 128 < 2 ^ 48 then m.translate (agentHalf a) p ((first + i) * 128) .write else (.fail, m)
    match r.1 with
    | .ok pa => r.2.runReq (emKeyOf pa) { kind := .dead, agent := a, part := Fin.ofNat 128 p }
    | _ => r.2) m

/-- Insert a range into ranges that rise, joining what touches. -/
def addRange (a n : Nat) : List (Nat × Nat) → List (Nat × Nat)
  | [] => [(a, n)]
  | (b, k) :: r =>
    if a + n < b then (a, n) :: (b, k) :: r
    else if b + k < a then (b, k) :: addRange a n r
    else addRange (min a b) (max (a + n) (b + k) - min a b) r

/-- Bytes of a row from an offset as a range of addresses, without those below 0. -/
def rowRange (a : Int) (n : Nat) (l : List (Nat × Nat)) : List (Nat × Nat) :=
  if a + n ≤ 0 then l else addRange a.toNat ((a + n).toNat - a.toNat) l

/-- Source rows of a copy as ranges of bytes. -/
def Copy.footprint (c : Copy) : List (Nat × Nat) :=
  let st (hi lo i : Nat) : Int := sext (c.fld hi lo) 40 * (i : Int)
  c.rows.foldl (fun l i => rowRange ((locOf c.sspace c.src).off + st 295 256 i.1 + st 335 296 i.2.1 + st 375 336 i.2.2)
    (rowBytes c.sfmt c.e0) l) []

/-! Push (04 R141, R142, 05 R169). -/

/-- The engine of a half with the fewest descriptors. -/
def Mod.leastLoaded (m : Mod) (h : Nat) : Fin 8 :=
  let l := (m.half h).engLoad
  Fin.ofNat 8 ((List.range 8).foldl (fun b i => if l.getD i 0 < l.getD b 0 then i else b) 0)

/-- Remote keys a copy may use, as they stand at push (16 R488). -/
def Mod.copyKeys (m : Mod) (part : Nat) (desc : BitVec 1024) (mset : List (BitVec 64)) : List (Nat × BitVec 64 × BitVec 64) :=
  let f (hi lo : Nat) : Nat := bits desc.toNat hi lo
  let mws := (if f 586 584 = 4 then [f 63 40, f 191 168] else []) ++ (if f 589 587 = 4 then [f 127 104, f 255 232] else []) ++
    ((mset.filter fun w => w.toNat / 2 ^ 62 == 2).map fun w => bits w.toNat 47 24)
  mws.eraseDups.filterMap fun mw => match Tab.find (part * 2 ^ 24 + mw) m.fab.rkeys with
    | some k => some (mw, k.key, k.rbase)
    | none => none

/-- READ packets for ranges of a peer's window (16 R461), in pieces of 512 bytes. -/
def Mod.sendReads (m : Mod) (c : Copy) (id mw : Nat) (ranges : List (Nat × Nat)) : Mod :=
  match c.rkey mw with
  | none => m
  | some key =>
    if 0xF000 ≤ mw / 256 then m
    else
      let iod := iodOfDie (dieOfHalf c.half.val)
      forEach ranges (fun rg m =>
        forEach (pieces 512 rg.1 (min rg.2 (2 ^ 40 - rg.1)) (rg.2 + 1)) (fun p m =>
          m.sendPkt { iod := Fin.ofNat 4 iod, part := c.part, type := 2,
                      p := { m.packet iod (mw / 256) (mw % 256) p.1 0 0 key.1 [] with len := p.2 },
                      copy := some id, owner := c.owner, cmd := c.cmd }) m) m

/-! Multicast branches (09 R286-R288). -/

/-- A branch to a target sets out: it fails at a fenced tile or at a full branch-hold buffer, waits at a port without credit, or
goes through. -/
def Mod.branchOut (m : Mod) (id : Nat) (c : Copy) (i t : Nat) : Mod :=
  let fail (r : Nat) : Mod := ({ m with net := { m.net with failed := m.net.failed ++ [(id, i)] } }).count kTilRtrMcFail r
  if (m.tile t).fenced then fail t
  else match m.stopOf c.router t 0 with
    | none => m
    | some q =>
      let key := creditKey q .bn 0
      let l := m.net.hold.getD key []
      if 4 ≤ l.length then fail (routerOf q)
      else ({ m with net := { m.net with hold := m.net.hold.put key (l ++ [Branch.copy id i]) } }).count kTilRtrMcHold (routerOf q)

/-- May a copy start? With ORD it waits for every copy its context pushed earlier (R177). -/
def Mod.mayStart (m : Mod) (c : Copy) : Bool :=
  !(c.fld 610 610 == 1 && c.owner.isSome && m.copies.any fun e =>
    e.2.owner == c.owner && decide (e.2.order < c.order) && e.2.status.isNone)

/-- A copy starts: its reads of peers leave, and its multicast branches. -/
def Mod.startCopy (m : Mod) (id : Nat) : Mod :=
  match Tab.find id m.copies with
  | none => m
  | some c =>
    if c.started || c.status.isSome || !(m.mayStart c) then m
    else
      let m := { m with copies := m.copies.adj id fun x => { x with started := true } }
      if c.refused then m
      else
        let m := if c.mk' != 0 then forEach (m.targets c) (fun tg m => match tg.2.1 with
            | some t => if m.ownsTile c.part.val t then m.branchOut id c tg.1 t else m
            | none => m) m
          else m
        if c.sspace != 4 then m
        else
          let m := m.sendReads c id (c.src / 2 ^ 40) c.footprint
          if fmtBlock c.sfmt = 0 then m
          else m.sendReads c id (c.ssc / 2 ^ 40) (rowRange (c.ssc % 2 ^ 40 : Nat) (c.e1 * c.e2 * c.e3 * scaleLen c.sfmt c.e0) [])

/-- Take a slot and an engine for a copy; its number. -/
def Mod.pushCopy (m : Mod) (owner : Option Nat) (cmd : Nat) (part : PartId) (h : SliceId) (desc : BitVec 1024)
    (arith : BitVec 16) : Nat × Mod :=
  let id := m.copySeq
  let e := m.leastLoaded h.val
  let mset := if bits desc.toNat 629 628 = 3 then
      m.parts.mcast.getD (part.val * 256 + bits desc.toNat 645 638) [] else []
  let c : Copy := { owner := owner, task := none, cmd := cmd, part := part, half := h, engine := e, desc := desc, arith := arith,
                    mset := mset, order := id, keys := m.copyKeys part.val desc mset, gen := (m.part part.val).gen }
  let m := { m with copies := m.copies.put id c, copySeq := id + 1 }
  let m := m.updHalf h.val fun x => { x with slots := x.slots - 1, engLoad := x.engLoad.upd e.val 0 (· + 1) }
  (id, m.startCopy id)

/-! Completion (R180-R182). -/

/-- Elements written, over the targets delivered (R178). -/
def Copy.written (c : Copy) : Nat := (c.counts.filter fun e => !c.undeliv.getLsbD e.1).foldl (fun n e => n + e.2) 0

/-- The first status of R180's list that applies. -/
def Copy.outcome (c : Copy) : Nat :=
  if c.wShared then stSHARED else if c.wPoison then stPOISON else if c.wUncertain then stUNCERTAIN
  else if c.wDetached then stDETACHED else if c.undeliv.toNat = 0 then stOK else stPARTIAL

/-- The 64-byte completion record (Table 5.8). -/
def crecBytes (c : Copy) : List Byte :=
  leBytes ((c.status.getD 0) % 256 + c.aflags.toNat * 2 ^ 20 + (c.elems % 2 ^ 40) * 2 ^ 24 + c.undeliv.toNat * 2 ^ 64) 64

/-- A copy is complete with its status: record, semaphore, flags, the ending of its task, the command, the slot. -/
def Mod.finishCopyCore (m : Mod) (id : Nat) (c : Copy) (st : Nat) : Mod :=
  let c := { c with status := some st, elems := c.written }
  let m := m.updHalf c.half.val fun x =>
    { x with slots := x.slots + 1, engLoad := x.engLoad.upd c.engine.val 0 (· - 1) }
  let m := { m with copies := m.copies.put id c }
  let alive := m.selfAt c != .gone
  let m := if alive && c.crec != 0 then
      (m.writeLoc c ⟨0, 1024, ((c.crec * 64 : Nat) : Int)⟩ none (crecBytes c) [] []).2 else m
  let m := if c.fld 611 611 = 1 then
      (let sem := m.nameSem c.part.val (c.fld 627 612)
       let a := (engineAgent c.half c.engine).val
       if m.ownsSem c.part.val sem then (m.trace c.half.val 4 a c.part.val 0 sem).signalFrom a sem 1 else m.violate c.part.val) else m
  match c.owner with
  | none =>
    let m := { m with copies := m.copies.del id }
    let m := match m.cmd? c.cmd with
      | some k => m.sendCn { op := .cmpl, dst := k.iod.val, a := c.cmd, src := some (c.half.val / 2) }
      | none => m
    m.updCmd c.cmd fun k =>
      { (k.mark st (faultDetail fkFIELD 0 c.refusedBit 0 0 0)) with
        ended := true, aflags := k.aflags ||| c.aflags,
        spec := if st = stARITH then k.spec else c.elems % 2 ^ 40 * 2 ^ 24 + c.undeliv.toNat * 2 ^ 64 }
  | some u =>
    let m := m.updUid u fun x => { x with tflags := x.tflags ||| c.aflags }
    let m := if st = stPOISON || st = stSHARED then m.endTaskUid u st 0 else m
    if m.selfAt c == .gone then { m with copies := m.copies.del id }
    else match m.ctxOf u with
      | none => m
      | some k =>
        let x := m.ctx (k / 4) (k % 4)
        match x.wait with
        | some (.copy tag rd) =>
          if Tab.find tag x.tags == some id then
            let m := (m.updCtx (k / 4) (k % 4) fun y =>
              { y.endWait (some (rd, BitVec.ofNat 64 st)) with tags := y.tags.del tag }).pickCur (k / 4)
            { m with copies := m.copies.del id }
          else m
        | _ => m

/-- The same; copies that waited for it under ORD start (R177). -/
def Mod.finishCopy (m : Mod) (id : Nat) (c : Copy) (st : Nat) : Mod :=
  let m := m.finishCopyCore id c st
  forEach ((m.copies.filter fun e => e.2.owner == c.owner && !e.2.started).map Prod.fst) (fun j m => m.startCopy j) m

/-- Has a copy packets that its port has not accepted, multicast packets or reads that are not delivered, or RED flits that are not
acknowledged? -/
def Mod.copyPending (m : Mod) (c : Copy) (id : Nat) : Bool :=
  c.reds != 0 || m.fab.out.any fun o => o.copy == some id && (o.waiting || c.mk' == 3 || o.type == 2)

/-- Does a copy reach the scratchpad of a tile that changes its split (03 R86)? -/
def Mod.tsBusy (m : Mod) (c : Copy) : Bool :=
  let at' (l : Loc) : Bool := l.space == 0 && (if l.base.testBit 10 then (match m.selfAt c with
      | .resident t _ => (m.tile t).changing.isSome
      | _ => false)
    else (m.tile (m.nameTile c.part.val (l.base % 1024))).changing.isSome)
  at' (locOf c.sspace c.src) || at' (locOf c.dspace c.dst) || (c.mk' != 0 && (m.targets c).any fun t => match t.2.1 with
    | some x => (m.tile x).changing.isSome
    | none => false)

/-- The error code of the tile array on the first granule a copy reads (03 R84). -/
def Mod.copyEcc (m : Mod) (c : Copy) (e : Ecc) : Mod :=
  let l := locOf c.sspace c.src
  if l.space ≠ 0 then m
  else if l.base.testBit 10 then
    (match m.selfAt c with
      | .resident t s => (match m.winByte t s l.addr 1 with
        | some b => m.tsEcc t b e
        | none => m)
      | _ => m)
  else
    let t := m.nameTile c.part.val (l.base % 1024)
    if m.ownsTile c.part.val t && decide (l.addr < tsSize (m.tile t).split) then m.tsEcc t l.addr e else m

/-- What a walk did goes into the copy's record. -/
def Mod.noteWalk (m : Mod) (id : Nat) (w : Walk) : Mod :=
  { m with copies := m.copies.adj id fun x => { x with
      counts := w.counts.foldl (fun t e => t.upd e.1 0 (· + e.2)) x.counts, aflags := x.aflags ||| BitVec.ofNat 4 w.flags,
      wShared := x.wShared || w.shared, wPoison := x.wPoison || w.poison, wDetached := x.wDetached || w.detached,
      reds := x.reds + w.reds } }

/-- Writes to host memory await a read flush, fabric writes their delivery: the task's fences and the command's scope know (R180). -/
def Mod.notePosted (m : Mod) (c : Copy) (hm : Bool) : Mod :=
  let m := if hm then
      (match c.owner with
        | some u => m.updUid u fun x => { x with hmPend := true, hmFlush := false }
        | none => m).updCmd c.cmd fun k => { k with hmUncertain := true, flushing := false }
    else m
  if c.dspace = 4 then
    (match c.owner with
      | some u => m.updUid u fun x => { x with fabPend := true }
      | none => m)
  else m

/-- The walk of a copy that may be walked: fenced targets are undelivered, elements are moved, SLU marks the lines read dead
(R171-R176). -/
def Mod.walkCopy (m : Mod) (id : Nat) (c : Copy) (e : Ecc) : Mod :=
  let fenced := ((m.targets c).filter fun t => match t.2.1 with
    | some x => (m.tile x).fenced && m.ownsTile c.part.val x
    | none => false).map Prod.fst
  let c : Copy := { c with undeliv := fenced.foldl (fun (b : BitVec 64) (i : Nat) => b ||| BitVec.ofNat 64 (2 ^ i)) c.undeliv }
  let m := ({ m with copies := m.copies.put id c }).copyEcc c e
  let r := m.walk c id
  let m := r.2.noteWalk id r.1
  let m := { m with copies := m.copies.adj id fun x => { x with walked := true } }
  let m := if c.fld 608 608 = 1 && c.sspace = 2 then
      forEach c.footprint (fun g m => m.deadRange (engineAgent c.half c.engine) c.part.val g.1 g.2) m else m
  let m := m.notePosted c r.1.hm
  let n := c.e0 * c.e1 * c.e2 * c.e3
  let moved (space : Nat) : Nat :=
    (if c.sspace = space then rowBytes c.sfmt n else 0) + (if c.dspace = space then rowBytes c.dfmt n else 0)
  m.workDone c.cmd (moved 2) (moved 3) 0 0

/-- A walked copy completes once nothing of it is pending (R180). -/
def Mod.tryFinish (m : Mod) (id : Nat) : Mod :=
  match Tab.find id m.copies with
  | none => m
  | some c => if !c.walked || c.status.isSome || m.copyPending c id then m else m.finishCopy id c c.outcome

/-- Has a copy multicast branches that are held or have failed (09 R287, R288)? -/
def Mod.branchesOut (m : Mod) (id : Nat) : Bool :=
  m.net.failed.any (·.1 == id) || m.net.hold.any fun e => e.2.any fun b => match b with
    | .copy x _ => x == id
    | .fill _ => false

/-- COPY_COMPLETE: a copy that has started is walked and completes (R171-R183). One from a peer waits for the data, one to peers for its
packets to be accepted (delivered, for a multicast), a multicast for its held branches (09 R287), a reduction for its REDACKs. -/
def Mod.copyComplete (m : Mod) (id : Nat) (e : Ecc) : Mod :=
  match Tab.find id m.copies with
  | none => m
  | some c =>
    if c.status.isSome || !c.started then m
    else if c.refused then m.finishCopy id c stARITH
    else if c.walked then m.tryFinish id
    else if c.wUncertain then m.finishCopy id c c.outcome
    else if (c.sspace = 4 && m.copyPending c id) || m.branchesOut id || m.tsBusy c then m
    else (m.walkCopy id c e).tryFinish id

/-- COPY_COMPLETE. -/
def execCopyComplete (c : EccCopy) (s : State) : Out := s.go fun m => m.copyComplete c.copy c.ecc

/-- The host port leaves ATTACHED: of each copy to host memory under way a free number of rows has been posted (R181). -/
def Mod.postPartly (m : Mod) : Mod :=
  forEach (m.copies.filter fun e => e.2.started && !e.2.walked && e.2.status.isNone && !e.2.refused && e.2.dspace == 3) (fun e m =>
    let q := m.draw
    let n := q.1 % (e.2.rows.length + 1)
    if n = 0 then q.2
    else
      let r := q.2.walkRows e.2 e.1 (e.2.rows.take n)
      let m := (r.2.noteWalk e.1 r.1).notePosted e.2 r.1.hm
      { m with copies := m.copies.adj e.1 fun x => { x with wUncertain := true } }) m

end Sys2Proof.Machine
end

