-- ==== Sys2Proof/Machine/Context.lean ====
section
/-! DEFINITION. How a context executes an instruction: what the core needs to run it, instruction fetch, exceptions, triggers and
halts (spec 04 R121-R129, R153-R155, 23 R625-R631). -/

namespace Sys2Proof.Machine

/-! Debug: Freewheel, the Brake, halted contexts. -/

/-- Is a partition in Freewheel (23 R627)? -/
def Mod.frozenPart (m : Mod) (p : Nat) : Bool := m.dbg.fwl.has p || m.dbg.fwl.has 255

/-- Start Freewheel on a scope. -/
def Mod.freewheel (m : Mod) (scope : Nat) : Mod :=
  if m.dbg.fwl.has scope then m
  else (m.count kDbgFreewheelCnt 0).updDbg fun d => { d with fwl := d.fwl.put scope false, fwlState := 1 }

/-- Is debug unlocked (22 R613)? -/
def Mod.unlocked (m : Mod) : Bool := m.sec.unlocked

/-- Start the Brake from a unit: stage 1, Freewheel on the module (23 R629). -/
def Mod.brakeStart (m : Mod) (u : Nat) : Mod :=
  if !m.unlocked || m.dbg.brake != 0 then m
  else ((m.count kDbgBrakeCnt 0).freewheel 255).updDbg fun d => { d with brake := 1, brakeUnit := u, brakeRecs := [] }

/-- Stop a context (04 R155): it keeps its handle when it stops again after one instruction (23 R626). -/
def Mod.halt (m : Mod) (t s : Nat) : Mod :=
  let c := m.ctx t s
  let h := c.handle.getD m.dbg.nextHandle
  let m := m.updCtx t s fun c => { c with st := .halted, handle := some h, single := false, stepOver := false }
  let m := m.updDbg fun d => { d with
    halted := d.halted.put h.toNat c.uid,
    nextHandle := if c.handle.isSome then d.nextHandle else if d.nextHandle = 0xFFFF then 1 else d.nextHandle + 1 }
  (m.raise evDbgHalt t c.part.val (t + s * 2 ^ 16 + h.toNat * 2 ^ 32)).pickCur t

/-! Triggers. -/

/-- Does a trigger match an access (R153)? `kind` is 1 load, 2 store; instruction triggers have no kind. -/
def Trig.matches (g : Trig) (kind : Option Nat) (addr : W64) : Bool :=
  let c := g.ctl.toNat
  let mask := bits c 25 20
  c.testBit 16 && decide (mask ≤ 48) && (addr.toNat / 2 ^ mask == g.adr.toNat / 2 ^ mask) &&
  (match kind with
    | none => bits c 27 26 == 0
    | some k => bits c 27 26 == 3 || bits c 27 26 == k)

/-- One trigger sees an access: it counts down SKIP, or fires and sets HIT. -/
def Mod.fire (m : Mod) (t s i : Nat) (kind : Option Nat) (addr : W64) : Mod :=
  let c := m.ctx t s
  let g := c.trig.getD i {}
  if !g.matches kind addr then m
  else
    let skip := bits g.ctl.toNat 15 0
    if skip ≠ 0 then m.updCtx t s fun c => { c with trig := c.trig.put i { g with ctl := g.ctl - 1 } }
    else
      let m := m.updCtx t s fun c => { c with trig := c.trig.put i { g with ctl := g.ctl ||| 0x80000000 } }
      match bits g.ctl.toNat 30 28 with
      | 0 => m.halt t s
      | 1 => m.trace (halfOfTile t) 1 t c.part.val addr.toNat i
      | 2 => m.freewheel 255
      | 3 => m.brakeStart t
      | _ => m

/-- Data triggers 2 and 3 see a load or store that was performed. -/
def Mod.dataTrig (m : Mod) (t s kind : Nat) (addr : W64) : Mod :=
  (m.fire t s 2 (some kind) addr).fire t s 3 (some kind) addr

/-! Executing. -/

/-- Does a tile execute instructions: module in service, its half in service, not fenced, not under test, not stopped by the
Brake? -/
def Mod.tileRuns (m : Mod) (t : Nat) : Bool :=
  let x := m.tile t
  let h := m.half (halfOfTile t)
  m.serving && !x.fenced && !x.testing && x.changing.isNone && decide (h.state.val ≤ 1) && !h.stopped && decide (m.dbg.brake.val ≤ 1)

/-- Can a context execute now? It is on the core, runs, and waits for nothing. -/
def Mod.canRun (m : Mod) (a : At) : Bool :=
  let c := m.ctx a.tile.val a.saddle.val
  m.tileRuns a.tile.val && c.runnable && c.wait.isNone && (m.tile a.tile.val).cur == a.saddle && !m.frozenPart c.part.val &&
    !(m.ft.wps.getD c.part.val {}).taking && (m.half (halfOfTile a.tile.val)).state == 0

/-- Result of the check of an instruction fetch (R127, 05 R168). -/
inductive Fetched where
  | ok | fault | poison
  deriving DecidableEq, Repr

/-- Check one fetched address of a context. -/
def Mod.fetchAt (m : Mod) (half : Nat) (c : Ctx) (pc : Nat) : Fetched × Mod :=
  match pc / 2 ^ 62 with
  | 1 => (if pc % 2 ^ 62 < 2 ^ 31 && m.psOwned c.part.val (pc % 2 ^ 62) then .ok else .fault, m)
  | 2 =>
    if 2 ^ 48 ≤ pc % 2 ^ 62 then (.fault, m)
    else match m.translate (some half) c.part.val (pc % 2 ^ 62) .fetch with
      | (.ok _, m) => (.ok, m)
      | (.fail, m) => (.fault, m)
      | (.poison, m) => (.poison, m)
  | _ => (.fault, m)

/-- Check the fetch of an instruction: of `short` the one address, of a 4-byte instruction that lies across two 64 KiB pages both, each with the address
that would fault (R127). -/
def Mod.fetch (m : Mod) (half : Nat) (c : Ctx) (short : Bool) : Fetched × W64 × Mod :=
  let r := m.fetchAt half c c.pc.toNat
  if r.1 != .ok || short || c.pc.toNat % 65536 != 65534 then (r.1, c.pc, r.2)
  else
    let q := r.2.fetchAt half c (c.pc + 2).toNat
    (q.1, c.pc + 2, q.2)

/-- What a trap leaves in the machine registers (R121): mepc, mcause, mtval; in mstatus MPP is the mode it came from, MPIE takes MIE, MIE is 0. -/
def Ctx.trapped (c : Ctx) (cause : Nat) (mtval : W64) : Ctx :=
  let ms := c.mcsr.getD 0x300 0
  let ms := (ms &&& ~~~(0x1888 : W64)) ||| (if ms.getLsbD 3 then 0x80 else 0) ||| (if c.mmode then 0x1800 else 0)
  { c with mcsr := (((c.mcsr.put 0x341 c.pc).put 0x342 (BitVec.ofNat 64 cause)).put 0x343 mtval).put 0x300 ms }

/-- An exception: in U-mode the machine registers record it and the firmware ends the task (R129); in M-mode the core goes to the handler of mtvec
(R121; log 133). -/
def Mod.coreFault (m : Mod) (t s cause : Nat) (mtval : W64) : Mod :=
  let u := !(m.ctx t s).mmode
  let m := m.updCtx t s fun c => c.trapped cause mtval
  if u then m.endTask t s stARITH fkPROGRAM cause mtval
  else m.updCtx t s fun c => { c with pc := c.mcsr.getD 0x305 0 &&& ~~~(3 : W64) }

/-- Execute an instruction of a context: where the core cannot run it, or it stalls without being a wait, nothing happens;
the fetch may fault; instruction triggers fire first; a single step stops after it. -/
def Mod.core (m : Mod) (a : At) (stalled : Mod → Ctx → Bool) (f : Mod → Mod) : Mod :=
  let t := a.tile.val
  let s := a.saddle.val
  let c := m.ctx t s
  if !m.canRun a || stalled m c then m
  else match m.fetch (halfOfTile a.tile.val) c a.compressed with
    | (.fault, pc, m) => m.coreFault t s 1 pc
    | (.poison, _, m) => m.endTask t s stPOISON 0 0 0
    | (.ok, _, m) =>
      let m := if c.stepOver then m.updCtx t s fun c => { c with stepOver := false }
        else (m.fire t s 0 none c.pc).fire t s 1 none c.pc
      if !m.canRun a then m
      else
        let m := f m
        let d := m.ctx t s
        if c.single && d.uid == c.uid && d.st == .run && d.ending.isNone then m.halt t s else m

/-- An instruction that never stalls. -/
def Mod.coreDo (m : Mod) (a : At) (f : Mod → Mod) : Mod := m.core a (fun _ _ => false) f

/-- Bytes of an instruction of the base set. -/
def atLen (a : At) : Nat := if a.compressed then 2 else 4

/-- Retire an instruction of `n` bytes with a change of the context. -/
def Mod.retire (m : Mod) (a : At) (n : Nat) (f : Ctx → Ctx) : Mod :=
  m.updCtx a.tile.val a.saddle.val fun c => (f c).advance n

def Mod.ctxAt (m : Mod) (a : At) : Ctx := m.ctx a.tile.val a.saddle.val
def Mod.fault (m : Mod) (a : At) (cause : Nat) (mtval : W64) : Mod := m.coreFault a.tile.val a.saddle.val cause mtval

/-- Illegal instruction: the spec gives mtval no value there, so it is a free value (log 61). -/
def Mod.illegal (m : Mod) (a : At) : Mod := m.draw.2.fault a 2 (BitVec.ofNat 64 m.draw.1)

/-- A context that consumed poison ends its task (03 R84, 05 R179). -/
def Mod.consumed (m : Mod) (a : At) (r : BRes) : Mod :=
  m.endTask a.tile.val a.saddle.val (if r.shared then stSHARED else stPOISON) 0 0 0

/-! Error code of the tile array (03 R84). -/

/-- Outcome of the error code for a scratchpad access or a line of the L1 portion. -/
def Mod.l1Ecc (m : Mod) (t k : Nat) (e : Ecc) : Mod :=
  match e with
  | .ok => m
  | .corrected => m.count kTilArrayCe t
  | .uncorrectable =>
    match m.l1 t k with
    | none => m
    | some c =>
      if c.st == .M then
        -- the line is poisoned at its home (06 R193)
        let m := m.setL1 t k { c with poison := true }
        (match m.line? k with
          | some l => if l.poison then m else (m.setLine k { l with poison := true }).count kCchUe (homeOf k)
          | none => m)
      else m.letGo (Fin.ofNat 2048 t) k
/-- The error outcome of a core access, at whatever its address names. -/
def Mod.accessEcc (m : Mod) (t : TileId) (sd : SaddleId) (part : Nat) (addr n : Nat) (e : Ecc) : Mod :=
  if e == .ok then m
  else
    let low := addr % 2 ^ 62
    match addr / 2 ^ 62 with
    | 0 => match m.winByte t sd low n with
      | some b => m.tsEcc t b e
      | none => m
    | 1 => if low < 2 ^ 31 then m.l1Ecc t (psKeyOf low) e else m
    | 2 => if low < 2 ^ 48 then match m.translate (some (halfOfTile t.val)) part low .read with
        | (.ok pa, m) => m.l1Ecc t (emKeyOf pa) e
        | (_, m) => m
      else m
    | _ => m

end Sys2Proof.Machine
end

