-- ==== Sys2Proof/Machine/Matrix.lean ====
section
/-! DEFINITION. The matrix engine and the checksum unit (spec 02 R58-R72, 03 R89-R120, 04 R133, R134, R657, R658). -/

namespace Sys2Proof.Machine

/-! Operand pairs (02 Table 2.5, 03 Table 3.4). -/

/-- Rate class of an ordered pair of formats: 0 FP64, 1 FP32, 2 16-bit, 3 8-bit, 4 4-bit, 5 TRI5. -/
def rateOf (a b : Nat) : Option (Fin 6) :=
  let in8 (x : Nat) : Bool := x == 4 || x == 5 || x == 6 || x == 7 || x == 9 || x == 10
  let in4 (x : Nat) : Bool := x == 8 || x == 11
  if a = 0 ∧ b = 0 then some 0
  else if a = 1 ∧ b = 1 then some 1
  else if (a = 2 ∨ a = 3) ∧ (b = 2 ∨ b = 3) then some 2
  else if in8 a && in8 b then some 3
  else if in4 a && in4 b then some 4
  else if (a = 11 ∧ b = 10) ∨ (a = 10 ∧ b = 11) then some 4
  else if (a = 12 ∧ b = 10) ∨ (a = 10 ∧ b = 12) then some 5
  else none

/-- Accumulator format of a pair: FP64, INT32 where both are INT8 or INT4, else FP32. -/
def accFmt (a b : Nat) : Nat :=
  if a = 0 then 0 else if (a = 10 ∨ a = 11) ∧ (b = 10 ∨ b = 11) then 13 else 1

/-- Output block, K step and elements of the accumulator file by rate class (Table 3.4). -/
def blockM (r : Nat) : Nat := if r = 0 then 8 else 16
def blockN (r : Nat) : Nat := if r = 0 then 4 else 8
def accElems (r : Nat) : Nat := if r = 0 then 8192 else 16384
def stepK (r : Nat) : Nat :=
  match r with
  | 0 => 1 | 1 => 2 | 2 => 16 | 3 => 32 | 4 => 64
  | _ => 128
/-- Products of a chunk (02 Table 2.6); INT32 accumulators take a K step (02 R61). -/
def chunkK (r acc : Nat) : Nat :=
  if acc = 13 then stepK r
  else match r with
    | 0 => 1 | 1 => 1 | 2 => 16 | 5 => 160
    | _ => 32

/-! The issue record (04 Table 4.6). -/

def Issue.fld (i : Issue) (hi lo : Nat) : Nat := bits i.record.toNat hi lo
def Issue.fa (i : Issue) : Nat := i.fld 371 368
def Issue.fb (i : Issue) : Nat := i.fld 375 372
def Issue.m (i : Issue) : Nat := i.fld 335 320 + 1
def Issue.n (i : Issue) : Nat := i.fld 351 336 + 1
def Issue.k (i : Issue) : Nat := i.fld 367 352 + 1
def Issue.ta (i : Issue) : Bool := i.fld 376 376 == 1
def Issue.tb (i : Issue) : Bool := i.fld 377 377 == 1
def Issue.tc (i : Issue) : Bool := i.fld 378 378 == 1

/-- Does a count of elements fill whole bytes in the packing of a format (R657)? -/
def fillsBytes (fmt n : Nat) : Bool :=
  if isTri fmt then n % 160 == 0
  else if fmt = 6 ∨ fmt = 7 then n % 32 == 0
  else if fmtWidth fmt = 4 then n % 2 == 0
  else true
/-- The stored row of an operand and its leading dimension meet R657; a TRI5 operand lies with K along its rows. -/
def layoutOk (fmt rowLen ld : Nat) (alongK : Bool) : Bool :=
  fillsBytes fmt rowLen && (ld == 0 || fillsBytes fmt ld) && (!isTri fmt || alongK)
/-- Bytes between stored rows. -/
def rowDist (fmt rowLen ld : Nat) : Nat := rowBytes fmt (if ld = 0 then rowLen else ld)

/-- Output format of a context (02 Table 2.7). -/
def outFmt (outf acc : Nat) : Nat :=
  match outf with
  | 1 => 2 | 2 => 3 | 3 => 4 | 4 => 10
  | _ => acc

/-- Is an issue refused (R89, R134)? `fa` and `fb` are the formats the task declares; `acc` are the accumulators left. -/
def Issue.refused (i : Issue) (fa fb : Nat) (acc : Option AccS) : Bool :=
  let blk (f : Nat) : Bool := fmtBlock f == 0 || i.k % fmtBlock f == 0
  let tag3 (hi lo : Nat) : Bool := i.fld hi lo / 2 ^ 62 == 3
  match rateOf i.fa i.fb with
  | none => true
  | some r =>
    !((i.fa == fa && i.fb == fb) || (i.fa == fb && i.fb == fa)) ||
    decide (accElems r.val < i.m * i.n) || !blk i.fa || !blk i.fb ||
    tag3 63 0 || tag3 127 64 || tag3 191 128 ||
    (fmtBlock i.fa != 0 && tag3 255 192) || (fmtBlock i.fb != 0 && tag3 319 256) ||
    !(layoutOk i.fa (if i.ta then i.m else i.k) (i.fld 415 384) !i.ta) ||
    !(layoutOk i.fb (if i.tb then i.k else i.n) (i.fld 447 416) i.tb) ||
    (i.acc && match acc with
      | none => true
      | some x =>
        !(x.m == i.m && x.n == i.n && ((x.fa == i.fa && x.fb == i.fb) || (x.fa == i.fb && x.fb == i.fa))))

/-! Reading operands. -/

/-- Read bytes at a tagged address for the engine, through the window or the L1 portion (R96); what lies outside reads zero. -/
def Mod.engRead (m : Mod) (t : TileId) (sd : SaddleId) (part cls addr n : Nat) : BRes × Mod :=
  let tag := addr / 2 ^ 62
  readPieces (pieces (if tag = 0 then 64 else 128) addr n (n + 1)) (fun a k m =>
    m.coreRead t sd part (if a / 2 ^ 62 = tag then a else tag * 2 ^ 62 + (2 ^ 62 - 1)) k cls) m
/-- Write bytes likewise. -/
def Mod.engWrite (m : Mod) (t : TileId) (sd : SaddleId) (part cls addr : Nat) (bs : List Byte) : BRes × Mod :=
  let tag := addr / 2 ^ 62
  writePieces (pieces (if tag = 0 then 64 else 128) addr bs.length (bs.length + 1)) addr bs (fun a b m =>
    m.coreWrite t sd part (if a / 2 ^ 62 = tag then a else tag * 2 ^ 62 + (2 ^ 62 - 1)) b cls) m

/-- An operand of the engine: the K-vectors of its outer index, as exact values. -/
structure Opnd where
  vecs : List (List Val)
  res : BRes
  deriving DecidableEq, Repr

/-- Element of a stored row before its scale. -/
def rawElem (fmt : Nat) (row : List Byte) (i : Nat) : Val :=
  if isTri fmt then Val.ofInt (triWeight (leNat ((row.drop (i / 5)).take 1)) (i % 5)) 0
  else decElem fmt (packedGet row (fmtWidth fmt) i)
/-- Apply the scale of a K-block (R658, 02 R51, R56): each weight is scaled before it is summed, also where its scale is infinite or NaN
(DESIGN CHOICE, log 124). -/
def scaled (fmt kTotal : Nat) (scales : List Byte) (o k : Nat) (v : Val) : Val :=
  if fmtBlock fmt = 0 then v
  else
    let j := (o * (kTotal / fmtBlock fmt) + k / fmtBlock fmt) * scaleUnit fmt
    if isTri fmt then Val.mul v (decFloat fmtBF16 (leNat ((scales.drop j).take 2)))
    else applyE8M0 (leNat ((scales.drop j).take 1)) v

/-- Read an operand: `outer` vectors of length `k`; `alongK` says that stored rows run along K. -/
def Mod.readOpnd (m : Mod) (t : TileId) (sd : SaddleId) (part cls fmt addr ld saddr outer k : Nat) (alongK : Bool) : Opnd × Mod :=
  let rows := if alongK then outer else k
  let len := if alongK then k else outer
  let dist := rowDist fmt len ld
  let r := (List.range rows).foldl (fun (q : List (List Byte) × BRes × Mod) i =>
    let x := q.2.2.engRead t sd part cls (addr + i * dist) (rowBytes fmt len)
    (q.1 ++ [x.1.bytes], q.2.1.join { x.1 with bytes := [] }, x.2)) (([] : List (List Byte)), ({} : BRes), m)
  let sc := if fmtBlock fmt = 0 then (({} : BRes), r.2.2)
    else r.2.2.engRead t sd part cls saddr (outer * (k / fmtBlock fmt) * scaleUnit fmt)
  let vecs := (List.range outer).map fun o => (List.range k).map fun i =>
    scaled fmt k sc.1.bytes o i (if alongK then rawElem fmt (r.1.getD o []) i else rawElem fmt (r.1.getD i []) o)
  (⟨vecs, r.2.1.join { sc.1 with bytes := [] }⟩, sc.2)

/-! Accumulation (02 R60-R63). -/

/-- Cut a list into chunks. -/
def chunks {α : Type} (c : Nat) : Nat → List α → List (List α)
  | 0, _ => []
  | f + 1, l => if l.isEmpty then [] else l.take c :: chunks c f (l.drop c)

/-- An exact value as an integer. -/
def valInt (v : Val) : Int :=
  match v with
  | .fin n m e => let x : Int := ((m * 2 ^ e.toNat : Nat) : Int); if n then -x else x
  | _ => 0

/-- Value and pattern of an accumulator. -/
def accVal (acc x : Nat) : Val := if acc = 0 then decFloat fmtFP64 x else ofF32 x
def accPat (acc : Nat) (v : Val) : Nat := if acc = 0 then toF64 v else toF32 v
def accRnd (acc : Nat) (v : Val) : Val := if acc = 0 then rnd64 v else rnd32 v

/-- Accumulate a row by a column: pattern after it, flags. -/
def accumulate (rate acc : Nat) (start : Nat) (a b : List Val) : Nat × Nat :=
  let cs := chunks (chunkK rate acc) (a.length + 1) (a.zip b)
  let sum (l : List (Val × Val)) : Val := Val.sum (l.map fun p => Val.mul p.1 p.2)
  if acc = 13 then
    let r := cs.foldl (fun (q : Int × Bool) l => let x := satAdd32 q.1 (valInt (sum l)); (x.1, q.2 || x.2)) (sext start 32, false)
    ((r.1 % 4294967296).toNat, if r.2 then flACCSAT else 0)
  else
    let r := cs.foldl (fun v l => accRnd acc (Val.add v (if rate = 5 then sum l else accRnd acc (sum l)))) (accVal acc start)
    (accPat acc r, if r.isNan then flNAN else 0)

/-- Exponent of the leading bit of a value. -/
def leadExp (v : Val) : Option Int :=
  match v with
  | .fin _ m e => if m = 0 then none else some ((bitLen m : Int) + e - 1)
  | _ => none

/-- Is a value a finite number other than zero, and is it smaller than FP32's normal numbers? -/
def Val.nonzero (v : Val) : Bool := match v with
  | .fin _ m _ => m != 0
  | _ => false
def Val.small (v : Val) : Bool := match leadExp v with
  | some e => decide (e < -126)
  | none => false

/-- Column sums of R105 for a column of a block: Q and P after another issue, and what the operands show. α_k is an FP32 sum for every pair;
its rows are added in ascending order, one rounding an addition (DESIGN CHOICE, log 128). An α_k that overflows, or that of an FP64 pair whose
terms FP32 holds only as subnormal numbers, marks the column (log 25). -/
def colSums (acc : Nat) (c : ColSum) (rows : List (List Val)) (b : List Val) : ColSum :=
  let wide := acc = 0
  let rnd (v : Val) : Val := if wide then rnd64 v else rnd32 v
  let dec (x : Nat) : Val := if wide then decFloat fmtFP64 x else ofF32 x
  let pat (v : Val) : Nat := if wide then toF64 v else toF32 v
  let at' (k : Nat) : List Val := rows.map fun r => r.getD k (.fin false 0 0)
  let terms := b.zipIdx.map fun (p : Val × Nat) =>
    let col := at' p.2
    let alpha := col.foldl (fun s v => rnd32 (Val.add s v)) (.fin false 0 0)
    let mag := Val.sum (col.map Val.abs)
    (Val.mul alpha p.1, Val.mul mag p.1.abs, p.1.nonzero && (alpha.isNan || alpha.isInf || (decide wide && mag.small)))
  let step (s : Val) (l : List Val) : Val := rnd (Val.add s (Val.sum l))
  let q := (chunks 32 (b.length + 1) (terms.map Prod.fst)).foldl step (dec c.q)
  let p := (chunks 32 (b.length + 1) (terms.map fun x => x.2.1)).foldl step (dec c.p)
  let ops := rows.flatten ++ b
  { c with q := pat q, p := pat p, nanOp := c.nanOp || ops.any Val.isNan, infOp := c.infOp || ops.any Val.isInf,
           narrow := c.narrow || terms.any fun x => x.2.2 }

/-- Key of a column of an output block: whether the engine works on the transpose, row of blocks, column of the engine's side. -/
def colKey (swap : Bool) (bi j : Nat) : Nat := (if swap then 2 ^ 40 else 0) + bi * 65536 + j
/-- Rows and columns of the engine's side. -/
def AccS.rows (x : AccS) : Nat := if x.fb = 12 then x.n else x.m
def AccS.colsN (x : AccS) : Nat := if x.fb = 12 then x.m else x.n
/-- Accumulator at a row and column of the engine's side. -/
def AccS.at' (x : AccS) (i j : Nat) : Nat := if x.fb = 12 then x.elems.getD (j * x.n + i) 0 else x.elems.getD (i * x.n + j) 0

/-- The K loop of an issue: the accumulators after it and the task's flags. -/
def kLoop (i : Issue) (rate : Nat) (old : Option AccS) (as bs : List (List Val)) : AccS × Nat :=
  let acc := accFmt i.fa i.fb
  let was := if i.acc then old else none
  let start (x : Nat) : Nat := match was with
    | some o => o.elems.getD x 0
    | none => 0
  let es := (List.range i.m).flatMap fun r => (List.range i.n).map fun c =>
    accumulate rate acc (start (r * i.n + c)) (as.getD r []) (bs.getD c [])
  let mb := blockM rate
  -- a TRI5 pair may be named in the other order by the next issue, which then needs the sums of the other side
  let sides := if rate = 5 then [false, true] else [false]
  let cols : Tab ColSum := sides.flatMap fun sw =>
    let ls := if sw then bs else as
    let rs := if sw then as else bs
    (chunks mb (ls.length + 1) ls).zipIdx.flatMap fun (q : List (List Val) × Nat) => rs.zipIdx.map fun (b : List Val × Nat) =>
      let o : ColSum := match was with
        | some x => x.cols.getD (colKey sw q.2 b.2) {}
        | none => {}
      (colKey sw q.2 b.2, colSums acc o q.1 b.1)
  let x : AccS := { m := i.m, n := i.n, fa := i.fa, fb := i.fb,
                    kTotal := i.k + (match was with
                      | some o => o.kTotal
                      | none => 0),
                    elems := es.map Prod.fst, cols := cols, held := !i.wr }
  let sat := es.zipIdx.filter fun e => e.1.2 == flACCSAT
  let x := { x with cols := sat.foldl (fun t e =>
    let r := e.2 / i.n
    let c := e.2 % i.n
    t.upd (colKey false (r / mb) c) {} fun s => { s with sat := true }) x.cols }
  let nan := (as ++ bs).any fun v => v.any Val.isNan
  (x, es.foldl (fun f e => f ||| e.2) (if nan then flNAN else 0))

/-! Taking an issue. -/

/-- Can the engine take an issue of a saddle (R93)? A half must be free; an issue that adds to accumulators waits for them. -/
def engineFree (x : Tile) (i : Issue) : Bool :=
  match x.running with
  | [] => true
  | [r] =>
    let rate := ((rateOf i.fa i.fb).getD 0).val
    let was := ((rateOf r.issue.fa r.issue.fb).getD 0).val
    !i.acc && decide (i.m * i.n ≤ accElems rate / 2) && decide (r.acc.elems.length ≤ accElems was / 2)
  | _ => false

/-- Start an issue of a saddle; `e` is the outcome of the tile array's error code where operand A begins (R84). -/
def Mod.startIssue (m : Mod) (t : TileId) (sd : SaddleId) (i : Issue) (e : Ecc) : Mod :=
  let c := m.ctx t.val sd.val
  let m := m.updCtx t.val sd.val fun c => { c with iq := c.iq.drop 1 }
  let m := m.updTile t.val fun x => { x with rr := sd + 1 }
  let d := (match c.task with
    | some k => k.desc
    | none => 0).toNat
  if i.refused (bits d 285 282) (bits d 289 286) c.acc then m.endTask t.val sd.val stARITH fkISSUE 0 0
  else
    let rate := ((rateOf i.fa i.fb).getD 0).val
    let cls := c.tcls.toNat
    let m := m.accessEcc t sd c.part.val (i.fld 63 0) 1 e
    let a := m.readOpnd t sd c.part.val cls i.fa (i.fld 63 0) (i.fld 415 384) (i.fld 255 192) i.m i.k !i.ta
    let b := a.2.readOpnd t sd c.part.val cls i.fb (i.fld 127 64) (i.fld 447 416) (i.fld 319 256) i.n i.k i.tb
    let m := b.2
    let res := a.1.res.join b.1.res
    if res.poison then m.endTask t.val sd.val (if res.shared then stSHARED else stPOISON) 0 0 0
    else
      let r := kLoop i rate c.acc a.1.vecs b.1.vecs
      let m := m.updCtx t.val sd.val fun c => { c with acc := some r.1, tflags := c.tflags ||| BitVec.ofNat 4 r.2 }
      let bad := (a.1.vecs ++ b.1.vecs).any fun v => v.any fun x => x.isNan || x.isInf
      let accNan := accFmt i.fa i.fb != 13 && r.1.elems.any fun x => (accVal (accFmt i.fa i.fb) x).isNan
      if bits c.tarith.toNat 11 10 = 1 && (bad || accNan) then m.endNan t.val sd.val
      else if i.wr then m.updTile t.val fun x => { x with running := x.running ++ [⟨sd, c.uid, i, r.1⟩] }
      else m

/-- MATRIX_ISSUE_START: the engine takes the oldest issue of the next saddle in round robin that has one (R97); the K loop of an
issue with WR = 0 ends with it (log 26). -/
def execMatrixIssueStart (u : EccTile) (s : State) : Out :=
  let t := u.tile
  s.go fun m =>
    let x := m.tile t.val
    if !m.serving || x.fenced || x.testing || x.changing.isSome || (m.half (halfOfTile t.val)).stopped ||
       decide (1 < m.dbg.brake.val) then m
    else
      match [0, 1, 2, 3].find? fun (j : Fin 4) => !(m.ctx t.val (x.rr + j).val).iq.isEmpty with
      | none => m
      | some j =>
        match (m.ctx t.val (x.rr + j).val).iq with
        | [] => m
        | i :: _ => if engineFree x i then m.startIssue t (x.rr + j) i u.ecc else m

/-! The check (R104-R107). -/

/-- An exact nonnegative number `num * 2^exp`. -/
structure Dyad where
  num : Nat
  exp : Int
  deriving DecidableEq, Repr
def dyad (v : Val) : Dyad :=
  match v with
  | .fin _ m e => ⟨m, e⟩
  | _ => ⟨0, 0⟩
def Dyad.mulN (d : Dyad) (n : Nat) : Dyad := ⟨d.num * n, d.exp⟩
def Dyad.shift (d : Dyad) (k : Int) : Dyad := ⟨d.num, d.exp + k⟩
def Dyad.add (a b : Dyad) : Dyad :=
  let e := min a.exp b.exp
  ⟨a.num * 2 ^ (a.exp - e).toNat + b.num * 2 ^ (b.exp - e).toNat, e⟩
def Dyad.lt (a b : Dyad) : Bool :=
  let e := min a.exp b.exp
  decide (a.num * 2 ^ (a.exp - e).toNat < b.num * 2 ^ (b.exp - e).toNat)

/-- m of R106. -/
def checkM (rate acc kTotal : Nat) : Nat :=
  let c := if acc = 13 then 0 else (kTotal + chunkK rate acc - 1) / chunkK rate acc
  c + 1 + (kTotal + 31) / 32 + 2 * blockM rate

/-- Outcome of the check of a column. -/
inductive Checked where
  | quiet | pass | loud | fail
  | skip (flags : Nat)
  deriving DecidableEq, Repr

/-- What the comparator of a column compares (R105, R106), both sides multiplied by 2^24 - m: S_j - Q_j and τ_j. -/
structure Compare where
  diff : Val
  tau : Dyad
  deriving DecidableEq, Repr

/-- The comparison: Δ_j is compared with τ_j, τ_j / 2 and τ_j / 8. -/
def Compare.outcome (c : Compare) : Checked :=
  let d := dyad c.diff
  if c.tau.lt d then .fail
  else if c.tau.lt (d.shift 1) then .loud
  else if c.tau.lt (d.shift 3) then .pass
  else .quiet
/-- Does the comparison pass with 4·τ_j added to Q_j (R118)? -/
def Compare.perturbed (c : Compare) : Bool :=
  !(c.tau.lt (dyad (Val.add c.diff (.fin true (4 * c.tau.num) c.tau.exp))))

/-- Both sides of the comparison of a column; m is that of R106. Δ_j and τ_j are formed and compared exactly; where m is 2^24 or more, γ_m has no
meaning and no column fails (DESIGN CHOICE, log 128). -/
def comparison (wide : Bool) (m : Nat) (t : Int) (s q p : Val) : Compare :=
  let top := [leadExp s, leadExp q, leadExp p].foldl (fun (a : Option Int) (b : Option Int) => match a, b with
    | some x, some y => some (max x y)
    | some x, none => some x
    | none, b => b) none
  let sc (v : Val) : Val := if wide then (match top with
    | some e => rnd32 (v.scale (-e))
    | none => v) else v
  let g := 2 ^ 24 - m
  { diff := Val.mul (Val.add (sc s) (sc q).negate) (.fin false g 0),
    tau := (((dyad (sc p)).mulN m).shift t).add ⟨m * g, -149⟩ }

/-- Check a column: its sums, the accumulators of its rows, the exponent t (R105-R107, R109); and whether its comparison would pass perturbed
(R118), false where none is made. S_j adds the rows in ascending order, one rounding an addition (DESIGN CHOICE, log 128). -/
def checkColumn (rate acc kTotal : Nat) (t : Int) (c : ColSum) (xs : List Nat) : Checked × Bool :=
  let wide := acc = 0
  let dec (x : Nat) : Val := if wide then decFloat fmtFP64 x else ofF32 x
  let rnd (v : Val) : Val := if wide then rnd64 v else rnd32 v
  let p := dec c.p
  let q := dec c.q
  let s := xs.foldl (fun s x => rnd (Val.add s (if acc = 13 then Val.ofInt (sext x 32) 0 else dec x))) (.fin false 0 0)
  let wild (v : Val) : Bool := v.isNan || v.isInf
  let untold := wild p || ((c.narrow || wild q) && !(wild s))
  if untold || c.nanOp || c.infOp || c.sat then
    (.skip ((if c.nanOp then flNAN else 0) ||| (if c.infOp || untold then flOVF else 0) ||| (if c.sat then flACCSAT else 0)), false)
  else if wild s then (.fail, false)
  else
    let x := comparison wide (checkM rate acc kTotal) t s q p
    (x.outcome, x.outcome != .fail && x.perturbed)

/-- CRC-32C (03 R111, polynomial of 17 R498). -/
def crcStep (c : Nat) (b : Byte) : Nat :=
  (List.range 8).foldl (fun c _ => if c % 2 = 1 then (c / 2) ^^^ 0x82F63B78 else c / 2) (c ^^^ b.toNat)
def crc32c (bs : List Byte) : BitVec 32 := BitVec.ofNat 32 (bs.foldl crcStep 0xFFFFFFFF ^^^ 0xFFFFFFFF)

/-- Digest of a block: its accumulators row by row, padded ones left out (log 25). -/
def blockDigest (rate acc : Nat) (x : AccS) (bi bj : Nat) : BitVec 32 :=
  let w := if acc = 0 then 8 else 4
  crc32c ((List.range (blockM rate)).flatMap fun i => (List.range (blockN rate)).flatMap fun j =>
    let r := bi * blockM rate + i
    let c := bj * blockN rate + j
    if r < x.rows ∧ c < x.colsN then leBytes (x.at' r c) w else [])

/-- Number of block columns. -/
def blockCols (rate : Nat) (x : AccS) : Nat := (x.colsN + blockN rate - 1) / blockN rate

/-- The check of a column: block, column within it, outcome; may the self-test use it, and does its comparison pass perturbed? -/
structure ColCheck where
  block : Nat
  col : Nat
  out : Checked
  perturbed : Bool
  deriving DecidableEq, Repr

/-- All column checks of an issue, block by block. -/
def checkAll (rate acc : Nat) (t : Int) (x : AccS) : List ColCheck :=
  let rows := (x.rows + blockM rate - 1) / blockM rate
  let nb := blockCols rate x
  (List.range rows).flatMap fun bi => (List.range nb).flatMap fun bj =>
    ((List.range (blockN rate)).filter fun j => decide (bj * blockN rate + j < x.colsN)).map fun j =>
      let col := bj * blockN rate + j
      let xs := ((List.range (blockM rate)).filter fun i => decide (bi * blockM rate + i < x.rows)).map fun i =>
        x.at' (bi * blockM rate + i) col
      let r := checkColumn rate acc x.kTotal t (x.cols.getD (colKey (x.fb == 12) bi col) {}) xs
      ⟨bi * nb + bj, j, r.1, r.2⟩

/-- t of a class rises, up to 4 (R109); a step down that has fallen due and not been made is cancelled first. -/
def Tile.raiseT (x : Tile) (rate n : Nat) : Tile :=
  let d := x.stepDown.getD rate 0
  if n ≤ d then { x with stepDown := x.stepDown.put rate (d - n) }
  else { x with stepDown := x.stepDown.put rate 0, tvals := x.tvals.put rate (min 4 (x.tvals.getD rate 0 + ((n - d : Nat) : Int))) }

/-- A quiet check completes a run of `n`, or joins one (R109): a step down falls due where t, less those that are due, is above the floor. A t below a
floor that was raised since stays as it is (DESIGN CHOICE, log 129). -/
def Tile.quietCheck (x : Tile) (rate n : Nat) (floor : Int) : Tile :=
  let q := x.quiet.getD rate 0 + 1
  if q < n then { x with quiet := x.quiet.put rate q }
  else
    let d := x.stepDown.getD rate 0
    { x with quiet := x.quiet.put rate 0,
             stepDown := x.stepDown.put rate (if floor < x.tvals.getD rate 0 - (d : Int) then d + 1 else d) }

/-- A check counts towards the self-test interval; once it is due, the first column of a passing check is perturbed (R118; log 131). -/
def Tile.selfCheck (x : Tile) (iv : Nat) (c : ColCheck) : Tile :=
  let x := { x with checksSince := x.checksSince + 1, selftestDue := x.selftestDue || decide (iv ≤ x.checksSince + 1) }
  if x.selftestDue && x.selftest.isNone && c.out != .fail then { x with selftest := some c.perturbed, checksSince := 0 } else x

/-- Count a check, and a failed one (Table 3.11), into a tile's adaptive threshold (R109) and its self-test interval (R118). -/
def Mod.countCheck (m : Mod) (t : TileId) (rate : Nat) (c : ColCheck) : Mod :=
  match c.out with
  | .skip _ => m.count kTilCsuSkip t.val
  | o =>
    let m := m.count kTilCsuChecks t.val
    let m := if o == .fail then m.count kTilCsuMismatch t.val else m
    m.updTile t.val fun x =>
      let x := x.selfCheck (m.parN pCsuSelftestInterval) c
      match o with
      | .quiet => x.quietCheck rate (m.parN pCsuQuietChecks) (m.par pCsuTMin)
      | .loud => { x with quiet := x.quiet.put rate 0 }.raiseT rate 1
      | _ => { x with quiet := x.quiet.put rate 0 }

/-- t rises by 2 on a false alarm. -/
def Mod.falseAlarm (m : Mod) (t : TileId) (rate : Nat) : Mod := m.updTile t.val fun x => x.raiseT rate 2

/-- Drop settled mismatches from a task (R114, R117). -/
def Mod.setRetry (m : Mod) (t : TileId) (sd : SaddleId) (l : List (TileId × MatRec)) : Mod :=
  m.updCtx t.val sd.val fun c => { c with task := c.task.map fun k => { k with retry := l } }

/-- Record a failed check, which the task's report carries too, and stop the task (R111). -/
def Mod.mismatch (m : Mod) (t : TileId) (sd : SaddleId) (rec : MatRec) : Mod :=
  let m := m.updTile t.val fun x =>
    { x with recValid := true, mrec := rec, running := x.running.filter fun r => r.sd != sd }
  let m := m.updCtx t.val sd.val fun c => { c with mrec := some rec }
  m.endTask t.val sd.val stARITH fkCHECKSUM 0 0

/-! Write-out. -/

/-- Convert the accumulators of an issue and write C (R92, 02 R64-R72). Table 2.9 has no row for OSCALE = 1 with an INT32 NATIVE output: σ times
the accumulator is rounded under RMODE, saturates with OVF, and a NaN becomes 0 with NAN_TO_INT (DESIGN CHOICE, log 127). -/
def Mod.writeC (m : Mod) (t : TileId) (r : RunIssue) : Mod :=
  let c := m.ctx t.val r.sd.val
  let i := r.issue
  let acc := accFmt i.fa i.fb
  let ar := c.tarith.toNat
  let mode := bits ar 15 13
  let fmt := outFmt (bits ar 9 7) acc
  let sigma := ofF32 (bits (match c.task with
    | some k => k.desc
    | none => 0).toNat 511 480)
  let rnd := if mode = 4 then m.draws r.acc.elems.length else ([], m)
  let m := rnd.2
  let outs := r.acc.elems.zipIdx.map fun (e : Nat × Nat) =>
    let v := if acc = 13 then Val.ofInt (sext e.1 32) 0 else accVal acc e.1
    let v := if ar.testBit 6 then Val.mul v sigma else v
    encElem fmt mode (ar.testBit 12) (rnd.1.getD e.2 0) v
  let m := m.updCtx t.val r.sd.val fun c =>
    { c with tflags := c.tflags ||| BitVec.ofNat 4 (outs.foldl (fun f o => f ||| o.2) 0) }
  let pats := outs.map Prod.fst
  let len := if i.tc then i.m else i.n
  let dist := rowDist fmt len (i.fld 479 448)
  forEach (List.range (if i.tc then i.n else i.m)) (fun row m =>
    let xs := (List.range len).map fun j => if i.tc then pats.getD (j * i.n + row) 0 else pats.getD (row * i.n + j) 0
    (m.engWrite t r.sd c.part.val c.tcls.toNat (i.fld 191 128 + row * dist) (packElems (fmtWidth fmt) xs)).2) m

/-- Accumulators with one element changed by a fault of the engine (R111). -/
def AccS.upset (x : AccS) (u : Option Upset) : AccS :=
  match u with
  | none => x
  | some u => if u.row < x.m ∧ u.col < x.n then
      { x with elems := x.elems.set (u.row * x.n + u.col) (u.value.toNat % (if x.fa = 0 then 2 ^ 64 else 2 ^ 32)) } else x

/-- The retry verdict of a block that a tile computed again (Table 3.8): the module after it, and whether the block is settled. -/
def Mod.verdict (m : Mod) (t first : TileId) (rate : Nat) (same passes : Bool) : Bool × Mod :=
  if same then (true, ((m.count kTilCsuFalsealarm first.val).falseAlarm first rate).falseAlarm t rate)
  else if passes then (true, m.strike first)
  else (false, m)

/-- Check an issue and write it out. Its check starts here, with the t of now (R110), also where t changed after its K loop ran; of several failing
columns the first in block order, then column order, is recorded (DESIGN CHOICE, log 129). -/
def Mod.writeOut (m : Mod) (t : TileId) (r : RunIssue) : Mod :=
  let i := r.issue
  let rate := ((rateOf i.fa i.fb).getD 0).val
  let acc := accFmt i.fa i.fb
  let all := checkAll rate acc ((m.tile t.val).tvals.getD rate 0) r.acc
  let c := m.ctx t.val r.sd.val
  let retry := match c.task with
    | some k => k.retry
    | none => []
  let m := forEach all (fun q m => m.countCheck t rate q) m
  let m := m.updCtx t.val r.sd.val fun c => { c with tflags := c.tflags ||| BitVec.ofNat 4 (all.foldl (fun f q => match q.out with
    | .skip x => f ||| x
    | _ => f) 0) }
  let failing := all.filter fun q => q.out == .fail
  let m := if failing.isEmpty then m else match c.task with
    | some k => m.workDone k.cmd 0 0 0 failing.length
    | none => m
  let nb := blockCols rate r.acc
  let digest (b : Nat) : BitVec 32 := blockDigest rate acc r.acc (b / nb) (b % nb)
  let fail (q : ColCheck) (m : Mod) : Mod :=
    m.mismatch t r.sd { issue := i.index, block := q.block, col := q.col, digest := digest q.block }
  -- a mismatch recorded at this issue on another tile is settled when its block is reached
  let due := retry.find? fun x => !x.2.residue && x.2.issue == i.index
  let done (m : Mod) : Mod := m.writeC t r
  match due with
  | none =>
    match failing with
    | [] => done m
    | q :: _ => fail q m
  | some d =>
    match failing.filter fun q => decide (q.block < d.2.block) with
    | q :: _ => fail q m
    | [] =>
      let v := m.verdict t d.1 rate (digest d.2.block == d.2.digest) (!(failing.any fun q => q.block == d.2.block))
      if v.1 then
        let m := v.2.setRetry t r.sd (retry.filter fun x => x != d)
        match failing.filter fun q => decide (d.2.block < q.block) with
        | [] => done m
        | q :: _ => fail q m
      else match failing with
        | [] => v.2
        | q :: _ => fail q v.2

/-- ISSUE_WRITE_OUT: the oldest issue whose K loop has run is checked, converted and written (R92, R104); while the split changes its accesses wait
(R86). -/
def execIssueWriteOut (t : TileId) (upset : Option Upset) (s : State) : Out :=
  s.go fun m =>
    match (m.tile t.val).running with
    | [] => m
    | r :: rest =>
      if (m.tile t.val).fenced || (m.tile t.val).changing.isSome || decide (1 < m.dbg.brake.val) then m
      else
        let m := m.updTile t.val fun x => { x with running := rest }
        let x := r.acc.upset upset
        let c := m.ctx t.val r.sd.val
        if c.uid != r.uid || c.st == .empty then m
        else
          let m := if upset.isSome && c.acc == some r.acc then m.updCtx t.val r.sd.val fun c => { c with acc := some x } else m
          m.writeOut t { r with acc := x }

/-- THRESHOLD_STEP_DOWN: a step down that has fallen due lowers the exponent of its class; the floor was read at the check that made it due (R109,
R120; log 129). -/
def execThresholdStepDown (t : TileId) (cls : Fin 6) (s : State) : Out :=
  s.go fun m =>
    let x := m.tile t.val
    let d := x.stepDown.getD cls.val 0
    if d = 0 then m
    else m.setTile t.val { x with stepDown := x.stepDown.put cls.val (d - 1), tvals := x.tvals.put cls.val (x.tvals.getD cls.val 0 - 1) }

/-- CSU_SELFTEST: the perturbed comparison of a live column must fail; a tile on which it passes, or whose comparator is at fault, is fenced at once
(R118). -/
def execCsuSelftest (t : TileId) (perturbedPasses : Bool) (s : State) : Out :=
  s.go fun m =>
    let x := m.tile t.val
    match x.selftest with
    | none => m
    | some p =>
      let bad := p || perturbedPasses
      let m := m.setTile t.val { x with selftestDue := false, selftest := none, selftestFail := x.selftestFail || bad }
      if bad then m.fenceTile t true else m

/-- STRIKE_LAPSE (R115). -/
def execStrikeLapse (t : TileId) (s : State) : Out :=
  s.go fun m => m.updTile t.val fun x => { x with strike := Fin.ofNat 3 (x.strike.val - 1) }

/-- The fixed order of requesters of a bank (R88). -/
def bankRank (r : BankReq) : Nat :=
  match r with
  | .ingress => 0 | .matrix => 1 | .vector => 2 | .core => 3 | .l1 => 4

/-- A requester joins the starved ones of a bank: after those that starved earlier, in the fixed order among those of its own tick. -/
def starve (now : Nat) (r : BankReq) : List (Nat × BankReq) → List (Nat × BankReq)
  | [] => [(now, r)]
  | x :: l => if x.1 = now ∧ bankRank r < bankRank x.2 then (now, r) :: x :: l else x :: starve now r l

/-- The requester a bank serves of those that contend in a cycle: the first starved one, else the first in the fixed order (R88). -/
def bankServes (starved : List (Nat × BankReq)) (reqs : List BankReq) : Option BankReq :=
  match starved.find? fun x => reqs.contains x.2 with
  | some x => some x.2
  | none => [BankReq.ingress, .matrix, .vector, .core, .l1].find? reqs.contains

/-- BANK_STARVED: the requester joins the bank's starved ones. -/
def execBankStarved (t : TileId) (bank : Fin 32) (req : BankReq) (s : State) : Out :=
  s.go fun m => m.updTile t.val fun x =>
    let l := x.starved.getD bank.val []
    if l.any (fun e => e.2 == req) then x else { x with starved := x.starved.put bank.val (starve m.ticks req l) }

/-- In a cycle each bank serves one requester; a starved one is served first and is starved no longer (R88). -/
def Tile.serveStarved (x : Tile) : Tile :=
  let serve (l : List (Nat × BankReq)) : List (Nat × BankReq) :=
    match bankServes l (l.map Prod.snd) with
    | some r => l.filter fun y => y.2 != r
    | none => l
  { x with starved := (x.starved.mapVals serve).keep fun _ l => !l.isEmpty }

end Sys2Proof.Machine
end

