-- ==== Sys2Proof/Machine/Sched.lean ====
section
/-! DEFINITION. The scheduler (spec 13): task descriptors, placement, eviction, save and restore, parked waits, task ends and
checksum faults as it learns of them (03 R112-R117), interference. -/

namespace Sys2Proof.Machine

/-- Command identifier (14 Table 14.7). -/
def HCmd.cid (c : HCmd) : Nat := bits (c.slots.getD 0 0).toNat 47 32

/-- Reserved fields and encodings of an arithmetic control word (02 Table 2.7). -/
def arithRefused (ar : Nat) : Bool :=
  bits ar 5 0 != 0 || decide (4 < bits ar 15 13) || decide (1 < bits ar 11 10) || decide (4 < bits ar 9 7)

/-- Fields of a task descriptor (Table 13.1). -/
def descSplit (d : BitVec 512) : Nat := bits d.toNat 295 293
def descWin (d : BitVec 512) : Nat := bits d.toNat 301 296
def descLive (d : BitVec 512) : Nat := bits d.toNat 311 302
def descPrio (d : BitVec 512) : Nat := bits d.toNat 292 290
def descTag (d : BitVec 512) (i : Nat) : BitVec 32 := BitVec.ofNat 32 (bits d.toNat (351 + 32 * i) (320 + 32 * i))

/-- The refusals of R363. -/
def taskRefused (desc : BitVec 512) : Bool :=
  let d := desc.toNat
  let fa := bits d 285 282
  let fb := bits d 289 286
  bits d 281 272 != 0 || bits d 255 192 != 0 || arithRefused (bits d 271 256) ||
  bits d 63 62 == 0 || bits d 63 62 == 3 ||
  decide (8 * descSplit desc < descWin desc) || decide (16 * descWin desc < descLive desc) ||
  ((rateOf fa fb).isNone && (rateOf fb fa).isNone) ||
  (fa == 0 && fb == 0 && bits d 265 263 != 0)

/-! Placement (R367, R370, R380, R381). -/

/-- The least element of a list by a key compared in order. -/
def leastBy {α : Type} (f : α → List Int) : List α → Option α
  | [] => none
  | a :: r => match leastBy f r with
    | none => some a
    | some b => if f b < f a then some b else some a

/-- The task a piece of work runs. -/
def Mod.workTask (m : Mod) (w : Work) : Option Task :=
  match w with
  | .task k => some k
  | .saved h => match Tab.find h m.sched.saved with
    | some v => v.ctx.task
    | none => none

/-- The task whose context a saddle holds or will hold. -/
def Mod.saddleTask (m : Mod) (t : TileId) (s : SaddleId) : Option Task :=
  match Tab.find (saddleKey t s) m.sched.restoring with
  | some h => m.workTask (.saved h)
  | none => (m.ctx t.val s.val).task

def saddles : List SaddleId := [0, 1, 2, 3]

/-- The lowest base of a window of `n` units under `limit` that overlaps none of a list (R367). -/
def lowestBase (ws : List (Nat × Nat)) (n limit : Nat) : Option Nat :=
  (List.range (limit + 1)).find? fun b =>
    decide (b + n ≤ limit) && ws.all fun w => n == 0 || w.2 == 0 || decide (b + n ≤ w.1) || decide (w.1 + w.2 ≤ b)

/-- The split a tile has or is changing to. -/
def Tile.toSplit (x : Tile) : Nat := (x.changing.getD x.split).val

/-- Dirty L1 lines of a tile. -/
def Mod.dirtyL1 (m : Mod) (t : Nat) : Nat := (m.cache.l1.filter fun e => e.1 / 2 ^ 36 == t && e.2.st == .M).length

/-- A way to place work: tile, saddle, window base, a split change, an eviction; whether the tile has it free (Ffree); C(t). -/
structure Place where
  tile : TileId
  saddle : SaddleId
  base : Nat
  change : Bool
  evict : Bool
  cost : Nat
  deriving DecidableEq, Repr

/-- Can a tile take a task in a saddle, the context of that saddle left out of account (R85, R367)? Window base and whether the
split changes. -/
def Mod.roomFor (m : Mod) (t : TileId) (s : SaddleId) (k : Task) : Option (Nat × Bool) :=
  let x := m.tile t.val
  let others := saddles.filter fun i => i != s && (m.ctx t.val i.val).st != .empty
  let ws := others.map fun i => x.win.getD i.val (0, 0)
  let sp := descSplit k.desc
  match lowestBase ws (descWin k.desc) (8 * sp) with
  | none => none
  | some b =>
    if x.toSplit = sp then some (b, false)
    else if x.changing.isNone && ws.all (fun w => decide (w.1 + w.2 ≤ 8 * sp)) &&
        others.all (fun i => match m.saddleTask t i with
          | some o => descLive o.desc == 0
          | none => true) then some (b, true)
    else none

/-- Cycles of a split change (R380). -/
def Mod.splitCost (m : Mod) (t : Nat) (change : Bool) : Nat := if change then 512 + 2 * m.dirtyL1 t else 0

/-- Placement without eviction. -/
def Mod.placeFree (m : Mod) (k : Task) (t : TileId) : Option Place :=
  match saddles.find? fun i => (m.ctx t.val i.val).st == .empty with
  | none => none
  | some s => (m.roomFor t s k).map fun r => ⟨t, s, r.1, r.2, false, m.splitCost t.val r.2⟩

/-- Ones of tvlive. -/
def onesOf (v : BitVec 32) : Nat := ((List.range 32).filter fun i => v.getLsbD i).length

/-- Cycles of a save or a restore of a context (R378). -/
def Mod.switchCost (m : Mod) (c : Ctx) : Nat :=
  let lreg := 256 + 256 * onesOf c.tvlive
  let lsp := match c.task with
    | some k => taskLive k
    | none => 0
  220 + (lreg + 31) / 32 + (lsp + 255) / 256 + 40 * m.nout c.uid

/-- Saved contexts of a partition and those being saved, which hold its save slots (R372). -/
def Mod.slotsUsed (m : Mod) (p : Nat) : Nat :=
  (m.sched.saved.filter fun e => e.2.ctx.part.val == p).length +
  (m.sched.evicting.filter fun e => (m.ctx (e.1 / 4) (e.1 % 4)).part.val == p).length
/-- Parked-waiter entries of an I/O die in use. -/
def Mod.parkedUsed (m : Mod) (iod : Nat) : Nat :=
  (m.sched.saved.filter fun e => e.2.parked && e.2.iod.val == iod).length +
  (m.sched.evicting.filter fun e =>
    let c := m.ctx (e.1 / 4) (e.1 % 4)
    c.wait.isSome && (match c.task with
      | some k => m.iodOfTask k == iod
      | none => false)).length

/-- Is a context halted (Table 13.2), wherever it is? -/
def Ctx.isHalted (c : Ctx) : Bool := c.handle.isSome && !c.single

/-- Could a context be evicted, slots and entries apart (R369)? -/
def Mod.victimOk (m : Mod) (t : TileId) (s : SaddleId) : Bool :=
  let c := m.ctx t.val s.val
  (c.st == .halted || (c.st == .blocked && c.evictable)) && c.ending.isNone &&
  !(m.sched.evicting.has (saddleKey t s)) && (match c.acc with
    | some a => !a.held
    | none => true)

/-- A save slot is free for a victim's partition; a parked entry is free for a victim that waits. -/
def Mod.slotFree (m : Mod) (p : Nat) : Bool := decide (m.slotsUsed p < m.parN (pSchSaveSlots + p))
def Mod.parkFree (m : Mod) (c : Ctx) : Bool :=
  c.wait.isNone || (match c.task with
    | some k => decide (m.parkedUsed (m.iodOfTask k) < 16384)
    | none => true)

/-- Placement by eviction: the tile's victim in the order of R370. -/
def Mod.placeEvict (m : Mod) (k : Task) (t : TileId) : Option Place :=
  let vs := saddles.filter fun i =>
    m.victimOk t i && (m.roomFor t i k).isSome && m.parkFree (m.ctx t.val i.val)
  let key (i : SaddleId) : List Int :=
    let c := m.ctx t.val i.val
    [if c.st == .halted then 0 else 1, (if c.st == .halted then 0 else c.blockedAt : Nat), i.val]
  match leastBy key vs with
  | none => none
  | some s => match m.roomFor t s k with
    | none => none
    | some r => some ⟨t, s, r.1, r.2, true, m.splitCost t.val r.2 + m.switchCost (m.ctx t.val s.val)⟩

/-- Tiles of a partition that work may be placed on (R381). -/
def Mod.usable (m : Mod) (p : Nat) : List TileId :=
  (m.tilesOf p).filter fun t =>
    !(m.tile t.val).fenced && !(m.tile t.val).testing && (m.half (halfOfTile t.val)).state == 0

/-- Tiles for a task: a retry keeps to the group of the tile that failed while the group has an unfenced tile that has not failed on
the task, and never returns to that tile (03 R112, R117). -/
def Mod.eligible (m : Mod) (k : Task) : List TileId :=
  let l := m.usable k.part.val
  match k.avoid with
  | [] => l
  | a :: _ =>
    let l := l.filter fun t => t != a
    let g := l.filter fun t => groupOfTile t.val == groupOfTile a.val
    if g.all fun t => k.avoid.contains t then l else g

/-- Tags of a task that the directory places on a tile (R380). -/
def Mod.nres (m : Mod) (k : Task) (t : TileId) : Nat :=
  let l := m.sched.dir.getD (dieOfTile t.val) []
  ([0, 1, 2, 3].filter fun i => k.desc.getLsbD (312 + i) &&
    l.any fun e => e.part == k.part && e.tag == descTag k.desc i && e.tile == t).length

/-- S(t) (R380). -/
def Mod.score (m : Mod) (k : Task) (p : Place) : Int :=
  256 * (m.nres k p.tile : Int) + (if p.evict then 0 else 32) - (((p.cost + 255) / 256 : Nat) : Int)

/-- Is a tile the one that another task failed a check on, its retry not settled yet (03 R117)? -/
def Mod.failing (m : Mod) (k : Task) (t : TileId) : Bool :=
  let on (j : Task) : Bool := j.uid != k.uid && j.retry.any fun x => x.1 == t
  m.sched.ready.any on || m.ctxs.any (fun e => (e.2.mrec.isSome && e.1 / 4 == t.val) || match e.2.task with
    | some j => on j
    | none => false) ||
  m.sched.saved.any fun e => match e.2.ctx.task with
    | some j => on j
    | none => false

/-- The placement of the highest score; ties to fewer occupied saddles, then the lower tile (R381). A retry prefers tiles it has
not failed on, then tiles with no strike, and among them tiles that no other task's retry is about (03 R112, R117). -/
def Mod.choose (m : Mod) (k : Task) (l : List Place) : Option Place :=
  let key (p : Place) : List Int :=
    [if k.avoid.contains p.tile then 1 else 0,
     if !k.avoid.isEmpty && (m.tile p.tile.val).strike != 0 then 1 else 0,
     if !k.avoid.isEmpty && m.failing k p.tile then 1 else 0,
     -(m.score k p), ((saddles.filter fun i => (m.ctx p.tile.val i.val).st != .empty).length : Int), (p.tile.val : Int)]
  leastBy key l

/-- May work of a partition be placed now? Not while it is disabled, frozen or taking a waypoint (15, 18 R526, 23 R627). -/
def Mod.mayPlace (m : Mod) (p : Nat) : Bool :=
  m.serving && (m.part p).st == .active && !(m.frozenPart p) && !(m.wp p).taking && decide (m.dbg.brake.val = 0)

/-- Work of a quarter in the order it is served (R375). -/
def Mod.workOf (m : Mod) (iod : Nat) : List Work :=
  let busy (h : Nat) : Bool := (m.sched.restoring.any fun e => e.2 == h) ||
    (m.sched.evicting.any fun e => e.2 == .saved h)
  let sv := sortBy (fun (e : Nat × Saved) => e.2.ready.getD 0)
    (m.sched.saved.filter fun e => e.2.iod.val == iod && e.2.ready.isSome && !busy e.1)
  (List.range 8).flatMap fun i =>
    ((sv.filter fun e => match e.2.ctx.task with
      | some k => descPrio k.desc == 7 - i
      | none => i == 7).map fun e => Work.saved e.1) ++
    ((m.sched.ready.filter fun k => m.iodOfTask k == iod && descPrio k.desc == 7 - i).map Work.task)

/-- Work leaves the list of ready tasks. -/
def Mod.takeWork (m : Mod) (w : Work) : Mod :=
  match w with
  | .task k => m.updSched fun s => { s with ready := s.ready.erase k }
  | .saved _ => m

/-- Work enters a saddle (R367, R374): the window is written, a split change starts, the launch is sent or the restore begins. -/
def Mod.occupy (m : Mod) (iod : Nat) (k : Task) (w : Work) (p : Place) : Mod :=
  let t := p.tile.val
  let s := p.saddle.val
  let m := if p.change then
      (m.updTile t fun x => { x with changing := some (Fin.ofNat 8 (descSplit k.desc)) }).count kSchSplitchg iod else m
  let hit := m.nres k p.tile
  let m := m.updTile t fun x => { x with win := x.win.put s (p.base, descWin k.desc) }
  let old := m.ctx t s
  match w with
  | .task k =>
    let uid := m.uidSeq
    let m := { m with uidSeq := uid + 1 }
    let m := m.setCtx t s { trig := old.trig, mcsr := old.mcsr, uid := uid, st := .loading, part := k.part,
                            task := some { k with uid := uid } }
    let m := m.updSched fun x => { x with dir := x.dir.adj (dieOfTile t) (List.map fun (e : DirEnt) =>
      { e with age := min 0x1FFFF (e.age + 1) }) }
    let m := m.count kSchLaunch iod
    let m := if hit = 0 then m else m.count kSchAffHit iod
    m.sendCn { op := .launch, dst := ctxKey t s, a := ctxKey t s, b := uid, src := some (8 + iod) }
  | .saved h =>
    let m := m.setCtx t s { trig := old.trig, mcsr := old.mcsr, st := .loading, part := k.part }
    m.updSched fun x => { x with restoring := x.restoring.put (ctxKey t s) h }

/-- Try to place one piece of work: none where it must wait. -/
def Mod.tryPlace (m : Mod) (iod : Nat) (w : Work) : Option Mod :=
  match m.workTask w with
  | none => none
  | some k =>
    if !(m.mayPlace k.part.val) then none
    else
      let el := m.eligible k
      match m.choose k (el.filterMap (m.placeFree k)) with
      | some p => some ((m.takeWork w).occupy iod k w p)
      | none =>
        match m.choose k (el.filterMap (m.placeEvict k)) with
        | none => none
        | some p =>
          if m.slotFree k.part.val then
            some ((m.takeWork w).updSched fun s => { s with evicting := s.evicting.put (saddleKey p.tile p.saddle) w })
          else none

/-- Evictions of one piece of work withheld for want of a save slot or a parked entry (R372). -/
def Mod.withheld (m : Mod) (iod : Nat) (w : Work) : Mod :=
  match m.workTask w with
  | none => m
  | some k =>
    if !(m.mayPlace k.part.val) then m
    else
      let cand := (m.eligible k).filter fun t => saddles.any fun i => m.victimOk t i && (m.roomFor t i k).isSome
      if cand.isEmpty then m
      else if (cand.filterMap (m.placeEvict k)).isEmpty then m.count kSchParkFull iod
      else m.count kSchSaveFull iod

/-- The first work that can be placed is placed. -/
def Mod.placeFirst (m : Mod) (iod : Nat) : List Work → Mod
  | [] => m
  | w :: r => match m.tryPlace iod w with
    | some m => m
    | none => (m.withheld iod w).placeFirst iod r

/-- TASK_LAUNCH: the quarter places the first work, in the order of R375, that a tile can take, directly or by an eviction. -/
def execTaskLaunch (iod : IodId) (s : State) : Out :=
  s.go fun m => m.atUnit (unitOfIod iod.val) fun m => m.placeFirst iod.val (m.workOf iod.val)

/-! Launch (04 R130). -/

/-- The registers of a launch: a relaunch re-arms the saddle's triggers (04 R155). -/
def Ctx.launched (c : Ctx) (k : Task) (tick : Nat) : Ctx :=
  { uid := c.uid, st := .run, task := some k, part := k.part,
    x := [(2, BitVec.ofNat 64 (taskWin k)), (10, k.a0), (11, k.a1)],
    pc := BitVec.ofNat 64 (bits k.desc.toNat 63 0), tcvt := 0,
    tarith := BitVec.ofNat 16 (bits k.desc.toNat 271 256), mcsr := c.mcsr,
    trig := if k.avoid.isEmpty then c.trig
      else c.trig.map fun g => (g.1, { g.2 with ctl := (g.2.ctl &&& 0xFFFFFFFFFFFF0000) ||| g.2.skip0.setWidth 64 }),
    launchTick := tick }

/-- CN_LAUNCH: accesses that arrive during a split change wait (03 R86). -/
def execCnLaunch (t : TileId) (sd : SaddleId) (s : State) : Out :=
  s.go fun m => m.atUnit t.val fun m =>
    if (m.tile t.val).changing.isSome || decide (1 < m.dbg.brake.val) then m
    else match m.takeCn (t.val / 128) fun f => f.op == .launch && f.a == saddleKey t sd with
    | none => m
    | some (f, m) =>
      let c := m.ctx t.val sd.val
      match c.task with
      | none => m
      | some k =>
        if c.uid != f.b || c.st != .loading || c.ending.isSome then m
        else
          let m := m.setCtx t.val sd.val (c.launched k m.ticks)
          let aux := match m.cmd? k.cmd with
            | some h => (h.qp.getD 0) % 65536 * 65536 + h.cid
            | none => 0
          (m.trace (halfOfTile t.val) 2 t.val k.part.val k.index aux).pickCur t.val

/-! Task ends as the scheduler learns of them. -/

/-- The I/O die whose scheduler the task in a saddle belongs to. -/
def Mod.taskIod (m : Mod) (t s : Nat) : Nat := match (m.ctx t s).task with
  | some k => m.iodOfTask k
  | none => 0

/-- CN_TASKEND: a task that ran to its end on another tile convicts the tiles whose vector unit failed on it (03 R103, R114). -/
def execCnTaskend (t : TileId) (sd : SaddleId) (s : State) : Out :=
  s.go fun m =>
    match m.takeCn (8 + m.taskIod t.val sd.val) fun f => f.op == .taskend && f.a == saddleKey t sd with
    | none => m
    | some (_, m) =>
      let c := m.ctx t.val sd.val
      let bad := if c.ending == some stOK then
          (match c.task with
            | some k => (k.retry.filter fun x => x.2.residue).map Prod.fst
            | none => [])
        else []
      forEach bad (fun x m => m.strike x) (m.reapTask t sd)

/-- CN_FAULT: a checksum failure reaches the scheduler (03 R112, R114, R117). A retry that fails before it settled the earlier
failure leaves it unresolved; another failure relaunches the task, where the partition has another tile. -/
def execCnFault (t : TileId) (sd : SaddleId) (s : State) : Out :=
  s.go fun m =>
    match m.takeCn (8 + m.taskIod t.val sd.val) fun f => f.op == .fault && f.a == saddleKey t sd with
    | none => m
    | some (_, m) =>
      let c := m.ctx t.val sd.val
      match c.task, c.mrec with
      | some k, some rec =>
        let fails (m : Mod) : Mod :=
          (m.taskOver k stARITH (faultDetail fkCHECKSUM t.val 0 k.index 0 0) none c.tflags).emptySaddle t.val sd.val
        if k.retry.isEmpty then
          let k2 := { k with retry := [(t, rec)] }
          if m.otherTile k.part.val t then (m.emptySaddle t.val sd.val).relaunch k2 [t]
          else fails m
        else
          forEach (t :: (k.retry.map Prod.fst).filter fun x => x != t) (fun x m => m.strike x) (fails m)
      | _, _ => m

/-! Eviction, save and restore. -/

/-- CONTEXT_EVICTABLE (R369). -/
def execContextEvictable (t : TileId) (sd : SaddleId) (s : State) : Out :=
  s.go fun m => m.atUnit t.val fun m => m.updCtx t.val sd.val fun c => if c.st == .blocked then { c with evictable := true } else c

/-- An eviction under way is given up: its work waits again. -/
def Mod.endEviction (m : Mod) (key : Nat) (w : Work) : Mod :=
  (m.updSched fun s => { s with evicting := s.evicting.del key }).requeue w

/-- EVICTION_RECEIVED (R371). -/
def execEvictionReceived (t : TileId) (sd : SaddleId) (s : State) : Out :=
  s.go fun m => m.atUnit t.val fun m =>
    let key := saddleKey t sd
    match Tab.find key m.sched.evicting with
    | none => m
    | some w =>
      let c := m.ctx t.val sd.val
      if (c.st == .blocked || c.st == .halted) && c.ending.isNone then
        (m.updCtx t.val sd.val fun c => { c with st := .saving }).pickCur t.val
      else m.endEviction key w

/-- Window offset of a scratchpad byte of a tile, from its bank and row (03 R82, R87). -/
def Tile.winOffset (x : Tile) (base phys : Nat) : Int :=
  let sp := x.split.val
  let log : Nat := (phys % 2 ^ 17 / 64) * (256 * sp) + (phys / 2 ^ 17) * 64 + phys % 64
  (log : Int) - ((base * 65536 : Nat) : Int)

/-- The declared-live scratchpad of a saddle as window offsets, and its poisoned granules (R372). -/
def Tile.liveImage (x : Tile) (base live : Nat) : Mem × Tab Unit :=
  (x.ts.foldl (fun i e =>
      let o := x.winOffset base e.1
      if 0 ≤ o ∧ o < live then Mem.wr o.toNat e.2 i else i) [],
   x.poison.foldl (fun i e =>
      let o := x.winOffset base (e.1 * 64)
      if 0 ≤ o ∧ o < live then i.put (o.toNat / 64) () else i) [])

/-- The lowest save slot of a partition that is free. -/
def Mod.freeSlot (m : Mod) (p : Nat) : Nat :=
  ((List.range (m.sched.saved.length + 1)).find? fun i =>
    !(m.sched.saved.any fun e => e.2.ctx.part.val == p && e.2.slot == i)).getD 0

/-- A context as it is kept in a save slot (R372): registers that are not live hold zero (04 R131), accumulators are not kept (03 R91); its
triggers go with it (23 R625). -/
def Ctx.saved (c : Ctx) : Ctx :=
  { c with v := c.v.keep (fun i _ => c.tvlive.getLsbD i), mcsr := [], evictable := false, acc := none,
           st := if c.isHalted then .halted else if c.wait.isSome then .blocked else .run }

/-- SAVE_DONE: the image is in its slot, the wait is parked, the saddle is EMPTY; the work that waited is placed there (R371, R372). -/
def execSaveDone (t : TileId) (sd : SaddleId) (s : State) : Out :=
  s.go fun m => m.atUnit t.val fun m =>
    let key := saddleKey t sd
    let c := m.ctx t.val sd.val
    match Tab.find key m.sched.evicting with
    | none => m
    | some w =>
      if c.st != .saving then m
      else if c.ending.isSome then (m.updCtx t.val sd.val fun c => { c with st := .run }).endEviction key w
      else if !c.iq.isEmpty || c.vq != 0 || (m.tile t.val).running.any (fun r => r.sd == sd) then m
      else match c.task with
      | none => m
      | some k =>
        let img := (m.tile t.val).liveImage ((m.tile t.val).win.getD sd.val (0, 0)).1 (taskLive k)
        let d := c.saved
        let iod := m.iodOfTask k
        let v : Saved := { ctx := d, ts := img.1, poison := img.2, slot := m.freeSlot c.part.val, iod := Fin.ofNat 4 iod,
                           parked := d.wait.isSome, ready := if d.st == .run then some m.sched.readySeq else none }
        let m := (m.putImage v).updSched fun x => { x with
          evicting := x.evicting.del key, saved := x.saved.put x.saved.fresh v, readySeq := x.readySeq + 1 }
        let m := m.count kSchEvict iod
        -- the saddle is emptied; the copies and waits of the context go on (05 R184, 04 R148)
        let m := (m.setCtx t.val sd.val { mcsr := c.mcsr }).updTile t.val fun x =>
          { x with win := x.win.put sd.val (0, 0) }
        let m := m.pickCur t.val
        match m.workTask w with
        | none => m.requeue w
        | some n =>
          match m.roomFor t sd n with
          | some r =>
            if m.mayPlace n.part.val && !(m.tile t.val).fenced then
              m.occupy (m.iodOfTask n) n w ⟨t, sd, r.1, r.2, true, 0⟩
            else m.requeue w
          | none => m.requeue w

/-- Declared-live bytes return to a window. -/
def Mod.loadImage (m : Mod) (t : Nat) (base live : Nat) (img : Mem) (poi : Tab Unit) : Mod :=
  m.updTile t fun x =>
    let inLive (phys : Nat) : Bool :=
      let o := x.winOffset base phys
      decide (0 ≤ o ∧ o < live) && decide (phys / 2 ^ 17 < 4 * x.split.val)
    let ts := x.ts.filter fun e => !inLive e.1
    let po := x.poison.keep fun g _ => !inLive (g * 64)
    { x with ts := img.foldl (fun a e => Mem.wr (tsPhys x.split.val (base * 65536 + e.1)) e.2 a) ts,
             poison := poi.foldl (fun a e => a.put (granule (tsPhys x.split.val (base * 65536 + e.1 * 64))) ()) po }

/-- RESTORE_DONE: the context continues after its wait, or a fence is evaluated again; an image that reads back poisoned ends the
task (R374, R376, 04 R151). -/
def execRestoreDone (t : TileId) (sd : SaddleId) (e : Ecc) (s : State) : Out :=
  s.go fun m => m.atUnit t.val fun m =>
    let key := saddleKey t sd
    match Tab.find key m.sched.restoring with
    | none => m
    | some h =>
      if (m.tile t.val).changing.isSome then m
      else
        let m := m.updSched fun x => { x with restoring := x.restoring.del key }
        match Tab.find h m.sched.saved with
        | none => m.emptySaddle t.val sd.val
        | some v =>
          if e == .uncorrectable then
            (m.endSaved h stPOISON (faultDetail fkPROGRAM t.val 0 0 0 0)).emptySaddle t.val sd.val
          else
            let old := m.ctx t.val sd.val
            let base := ((m.tile t.val).win.getD sd.val (0, 0)).1
            let m := m.loadImage t.val base v.live v.ts v.poison
            let m := m.setCtx t.val sd.val { v.ctx with
              mcsr := old.mcsr, blockedAt := m.ticks,
              st := if v.ctx.wait.isSome then .blocked else .run }
            let m := m.updSched fun x => { x with saved := x.saved.del h }
            (m.count kSchRestore v.iod.val).pickCur t.val

/-- Is the wait of a parked context over (R373)? The context with its wait ended, or as it is for a fence. -/
def Mod.parkedOver (m : Mod) (c : Ctx) : Option (Ctx × Option Nat) :=
  match c.wait with
  | none => some (c, none)
  | some (.copy tag rd) =>
    match Tab.find tag c.tags with
    | none => some (c.endWait (some (rd, 0)), none)
    | some id => match Tab.find id m.copies with
      | none => some (c.endWait (some (rd, 0)), none)
      | some cp => match cp.status with
        | none => none
        | some st => some ({ c.endWait (some (rd, BitVec.ofNat 64 st)) with tags := c.tags.del tag }, some id)
  | some (.fence _) => if m.copiesDone c.uid then some (c, none) else none
  | some (.taskEnd _) => if m.copiesDone c.uid then some (c, none) else none
  | _ => none

/-- PARKED_WAIT_DONE: the entry is freed and the context joins the saved runnable contexts (R373). -/
def execParkedWaitDone (handle : Nat) (s : State) : Out :=
  s.go fun m =>
    match Tab.find handle m.sched.saved with
    | none => m
    | some v =>
      if !v.parked then m
      else match m.parkedOver v.ctx with
      | none => m
      | some r =>
        let m := m.updSaved handle fun _ => { v with ctx := r.1, parked := false, ready := some m.sched.readySeq }
        let m := m.updSched fun x => { x with readySeq := x.readySeq + 1 }
        match r.2 with
        | some id => { m with copies := m.copies.del id }
        | none => m

/-! Interference (R383, R384). -/

/-- I_p of a window's counts; where the waiting exceeds the activity the spec states no value (log 28). -/
def Mod.interference (m : Mod) (a w : Nat) : Nat × Mod :=
  if a = 0 ∨ a = w then (0, m)
  else if a < w then
    let r := m.draw
    (r.1 % 2 ^ 32, r.2)
  else (min 0xFFFFFFFF (1024 * w / (a - w)), m)

/-- INTERF_WINDOW_END. -/
def execInterfWindowEnd (p : PartId) (active waited : Nat) (s : State) : Out :=
  s.go fun m =>
    let r := m.interference active waited
    let i := r.1
    let m := r.2.updSched fun x => { x with interf := x.interf.put p.val i }
    let thr := m.parN (pSchInterfThr + p.val)
    if thr ≠ 0 ∧ thr < i then m.raise evSchInterf 0 p.val i else m

end Sys2Proof.Machine
end

