-- ==== Sys2Proof/Machine/Host.lean ====
section
/-! DEFINITION. The host port and its queues (spec 14): doorbells, fetching, refusals, the order and time limits of commands,
completions, journals, detach and re-attach, and the commands that need no other unit. -/

namespace Sys2Proof.Machine

/-! Submission slots (Table 14.7) and opcodes (Table 14.11). -/

def HCmd.hdr (c : HCmd) : Nat := (c.slots.getD 0 0).toNat
def HCmd.opc (c : HCmd) : Nat := bits c.hdr 7 0
def HCmd.fscope (c : HCmd) : Nat := bits c.hdr 9 8
def HCmd.retain (c : HCmd) : Bool := c.hdr.testBit 10
def HCmd.cstat (c : HCmd) : Bool := c.hdr.testBit 11
def HCmd.pcont (c : HCmd) : Nat := bits c.hdr 13 12
def HCmd.ser (c : HCmd) : Bool := c.hdr.testBit 15
def HCmd.plen (c : HCmd) : Nat := bits c.hdr 24 16
def HCmd.cext (c : HCmd) : Nat := bits c.hdr 27 25
/-- Operand word Wi. -/
def HCmd.w (c : HCmd) (i : Nat) : Nat := bits c.hdr (64 * i + 191) (64 * i + 128)
def HCmd.wf (c : HCmd) (i hi lo : Nat) : Nat := bits (c.w i) hi lo
/-- Pannier bytes (R394). -/
def HCmd.pannier (c : HCmd) : List Byte :=
  (((bytesOf (c.slots.getD 0 0)).drop 32) ++ (c.slots.drop 1).flatMap fun l => bytesOf l).take c.plen
/-- Host-memory and fabric scopes (Table 8.4). -/
def HCmd.hostScope (c : HCmd) : Bool := c.fscope == 1 || c.fscope == 3
def HCmd.fabScope (c : HCmd) : Bool := c.fscope == 2 || c.fscope == 3

/-- Queues that take an opcode, 0 any, 1 I/O, 2 I/O of PF0 only, 3 admin, and its operand fields (word, high, low) (Table 14.11). -/
def opRow (op : Nat) : Option (Nat × List (Nat × Nat × Nat)) :=
  match op with
  | 0x00 => some (0, [])
  | 0x01 => some (1, [(0, 63, 0), (1, 15, 0)])
  | 0x02 => some (1, [(0, 7, 0), (0, 31, 16), (0, 47, 32), (1, 63, 0), (2, 63, 0), (3, 63, 0)])
  | 0x03 => some (1, [(0, 15, 0)])
  | 0x04 => some (1, [(0, 63, 0), (1, 3, 0), (1, 31, 16)])
  | 0x05 => some (1, [(0, 63, 0), (1, 26, 0), (1, 63, 32), (2, 15, 0)])
  | 0x10 => some (1, [(0, 7, 0), (2, 63, 0), (3, 63, 0), (4, 63, 0), (5, 63, 0), (6, 63, 0), (7, 63, 0), (8, 63, 0), (9, 63, 0)])
  | 0x11 => some (1, [(0, 7, 0)])
  | 0x12 => some (1, [(0, 10, 0), (0, 31, 16), (0, 55, 32), (1, 63, 0), (2, 23, 0), (3, 63, 0)])
  | 0x13 => some (1, [(0, 31, 0), (0, 55, 32), (1, 63, 0)])
  | 0x14 => some (1, [(0, 31, 0)])
  | 0x15 => some (1, [(0, 31, 0)])
  | 0x16 => some (1, [(0, 31, 0)])
  | 0x17 => some (1, [(0, 31, 0)])
  | 0x20 => some (1, [(0, 9, 0), (0, 17, 16), (1, 63, 0)])
  | 0x21 => some (1, [(0, 30, 0), (0, 32, 32)])
  | 0x22 => some (1, [(0, 11, 0), (0, 27, 16)])
  | 0x30 => some (2, [(0, 6, 0), (0, 8, 8), (1, 63, 0), (2, 63, 0)])
  | 0x31 => some (2, [(0, 24, 0), (1, 25, 0), (1, 39, 32)])
  | 0x38 => some (3, [(0, 63, 0), (1, 63, 0), (2, 12, 0), (2, 26, 16), (2, 55, 32)])
  | 0x39 => some (3, [(0, 15, 0)])
  | 0x3A => some (3, [(0, 15, 0), (1, 63, 0), (2, 63, 0), (3, 12, 0), (3, 26, 16), (3, 55, 32)])
  | 0x3B => some (3, [(0, 31, 0), (1, 63, 0)])
  | 0x3C => some (3, [(0, 31, 0)])
  | _ => none

/-- The lowest bit set of a 64-bit word. -/
def lowBit (v : Nat) : Option Nat := (List.range 64).find? fun i => v.testBit i
/-- The lowest bit of the gap between named fields that holds bit `b` of a word. -/
def gapLow (mask : Nat) : Nat → Nat
  | 0 => 0
  | b + 1 => if mask.testBit b then b + 1 else gapLow mask b

/-- Bits of an operand word that an opcode names. -/
def opMask (fs : List (Nat × Nat × Nat)) (i : Nat) : Nat :=
  fs.foldl (fun a (f : Nat × Nat × Nat) => if f.1 = i then a ||| ((2 ^ (f.2.1 + 1 - f.2.2) - 1) * 2 ^ f.2.2) else a) 0

/-- Refused field of a command by its lowest bit, the lowest of them (Table 14.9, R394, R395, R420): operand bits that the opcode does
not name are taken as reserved fields (log 30). -/
def HCmd.badField (c : HCmd) (fs : List (Nat × Nat × Nat)) : Option Nat :=
  let op := c.opc
  let hd (hi lo : Nat) : List Nat := if bits c.hdr hi lo = 0 then [] else [lo]
  let dspace := bits ((c.slots.getD 1 0).toNat) 589 587
  let l := hd 14 14 ++ hd 31 28 ++ hd 63 48 ++ hd 127 96 ++
    (if c.retain && !(op == 3 && dspace == 3 && c.hostScope) then [10] else []) ++
    (if c.cstat && c.cext == 0 then [11] else []) ++
    (if 480 < c.plen then [16] else []) ++
    (if op = 3 then (if c.plen ≠ 0 then [16] else []) ++ (if c.pcont ≠ 1 then [12] else [])
     else if op = 4 then (if c.pcont ≠ (c.plen - 96 + 127) / 128 then [12] else [])
     else (if c.plen ≠ 0 then [16] else []) ++ (if c.pcont ≠ 0 then [12] else [])) ++
    (List.range (if op = 4 then 2 else 14)).filterMap fun i =>
      (lowBit (c.w i - (c.w i &&& opMask fs i))).map fun b => 128 + 64 * i + gapLow (opMask fs i) b
  l.foldl (fun a b => match a with
    | some x => some (min x b)
    | none => some b) none

/-- The fault detail of a refused command, or none where it is accepted (R395). -/
def HCmd.refusal (c : HCmd) : Option (BitVec 128) :=
  match opRow c.opc with
  | none => some (faultDetail fkOPCODE 0 0 0 0 0)
  | some r =>
    let admin := c.qp.isNone
    if r.1 = 0 ∨ (r.1 = 1 ∧ !admin) ∨ (r.1 = 2 ∧ !admin ∧ c.fn = 0) ∨ (r.1 = 3 ∧ admin) then
      (c.badField r.2).map fun b => faultDetail fkFIELD 0 b 0 0 0
    else some (faultDetail fkOPCODE 0 0 0 0 0)

/-! Functions and ports. -/

def Mod.fn (m : Mod) (f : Nat) : Fn := m.host.fns.getD f {}
def Mod.updFn (m : Mod) (f : Nat) (g : Fn → Fn) : Mod := m.updHost fun h => { h with fns := h.fns.put f (g (m.fn f)) }
def Mod.qp? (m : Mod) (q : Nat) : Option Qp := Tab.find q m.host.qps
def Mod.updQp (m : Mod) (q : Nat) (g : Qp → Qp) : Mod := m.updHost fun h => { h with qps := h.qps.adj q g }
/-- I/O die of the active port (R388). -/
def Mod.portIod (m : Mod) : IodId := if m.host.portB then 2 else 0
/-- Does the active port present a function (24 Table 24.1, R414)? RECOVERY_ONLY presents PF0 alone (22 R605). -/
def Mod.portUp (m : Mod) (fn : Nat) : Bool :=
  m.host.portState != 2 && (m.mod.mstate == 3 || m.mod.mstate == 4 || m.mod.mstate == 5 || (m.mod.mstate == 6 && fn == 0))

/-! MSI-X (R411). The mask bit of a vector is set until it is written, as PCI Express has it (log 29). -/

def Mod.msi (m : Mod) (fn vec : Nat) : Mod :=
  if m.host.portState == 2 then m
  else if ((m.fn fn).msix.getD (4 * vec + 3) 1).getLsbD 0 then m.updFn fn fun x => { x with pba := x.pba.put vec () }
  else m.updHost fun h => { h with msixSent := (fn, vec) :: h.msixSent }

/-- `n` more entries of a completion ring are unannounced. -/
def Mod.announce (m : Mod) (q n : Nat) : Mod :=
  match m.qp? q with
  | none => m
  | some x =>
    if max 1 x.ncoal ≤ x.unann + n then (m.updQp q fun x => { x with unann := 0 }).msi x.fn.val x.vec
    else m.updQp q fun x => { x with unann := x.unann + n }

/-! Completion rings (R396, R397, R415). -/

/-- Write completion entries into a ring of `2 ^ log2` entries from a position, PHASE by the pass (R396). -/
def Mod.writeEntries (m : Mod) (fn : Nat) (gen : BitVec 16) (base log2 pos : Nat) (es : List (BitVec 256)) : Mod :=
  forEach es.zipIdx (fun (e : BitVec 256 × Nat) m =>
    let p := pos + e.2
    let ph : BitVec 256 := if (p / 2 ^ log2) % 2 = 0 then BitVec.ofNat 256 (2 ^ 255) else 0
    m.hmWrite fn gen ((base + 32 * (p % 2 ^ log2)) % 2 ^ 64) (bytesOf (e.1 ||| ph))) m

/-- Entries of a completion in ring order: the header, which is written last, comes first (R396). -/
def ringOrder (es : List (BitVec 256)) : List (BitVec 256) := es.drop (es.length - 1) ++ es.take (es.length - 1)

/-- Write held journal entries of a queue pair into its ring, in JSEQ order, while there is room (R396, R415). -/
def Mod.pumpRing (m : Mod) (q : Nat) : Nat → Mod
  | 0 => m
  | f + 1 =>
    match m.qp? q with
    | none => m
    | some x =>
      if m.host.portState == 2 || !x.bound then m
      else match x.journal.find? fun e => e.pos.isNone with
      | none => m
      | some e =>
        if 2 ^ x.cqLog2 < x.cqTail - x.cqHead + e.entries.length then m
        else
          let m := m.writeEntries x.fn.val (m.part x.fn.val).gen x.cqBase x.cqLog2 x.cqTail (ringOrder e.entries)
          let m := m.updQp q fun y => { y with
            cqTail := y.cqTail + e.entries.length,
            journal := y.journal.map fun d => if d = e then { d with pos := some y.cqTail } else d }
          ((m.count kHifCmpl x.iod.val).announce q e.entries.length).pumpRing q f

/-! Doorbells (R392, R393). -/

/-- Submission doorbell of a queue pair at its front end. -/
def Mod.sqDoorbell (m : Mod) (fn : PartId) (q tail : Nat) : Mod :=
  match m.qp? q with
  | none => m.violate fn.val
  | some x =>
    if x.fn != fn then m.violate fn.val
    else
      let size := 2 ^ x.sqLog2
      let off (p : Nat) : Nat := (p + size - x.sqHead % size) % size
      if off (tail % size) < off (x.sqTail % size) then m.count kHifDbBad x.iod.val
      else m.updQp q fun x => { x with sqTail := x.sqHead + off (tail % size) }

/-- Completion doorbell of a queue pair: entries and their journal entries are released, room may let held ones in. -/
def Mod.cqDoorbell (m : Mod) (fn : PartId) (q head : Nat) : Mod :=
  match m.qp? q with
  | none => m.violate fn.val
  | some x =>
    if x.fn != fn then m.violate fn.val
    else
      let size := 2 ^ x.cqLog2
      let adv := (head % size + size - x.cqHead % size) % size
      if x.cqTail - x.cqHead < adv then m.count kHifDbBad x.iod.val
      else
        let h := x.cqHead + adv
        let m := m.updQp q fun x => { x with
          cqHead := h,
          journal := x.journal.filter fun e => match e.pos with
            | some p => decide (h ≤ p)
            | none => true }
        m.pumpRing q 4096

/-- A doorbell is heard: the function is presented and not disabled (R419, 15 Table 15.2). -/
def Mod.hears (m : Mod) (fn : Nat) : Bool := m.portUp fn && !(m.fn fn).disabled

/-- Submission doorbell of a function at the port: it goes to the front end that serves the queue pair's number (R393, 01 R31). -/
def execSqDoorbell (fn : PartId) (qp tail : BitVec 16) (s : State) : Out :=
  s.go fun m =>
    if !(m.hears fn.val) then m
    else
      let iod := match m.qp? qp.toNat with
        | some x => x.iod
        | none => m.portIod
      if m.servedBy iod.val = some m.portIod.val then m.sqDoorbell fn qp.toNat tail.toNat
      else m.sendCn { op := .doorbell, dst := iod.val, a := qp.toNat, b := tail.toNat, c := 2 * fn.val, src := some (8 + m.portIod.val) }

/-- CQ_DOORBELL. -/
def execCqDoorbell (fn : PartId) (qp head : BitVec 16) (s : State) : Out :=
  s.go fun m =>
    if !(m.hears fn.val) then m
    else
      let iod := match m.qp? qp.toNat with
        | some x => x.iod
        | none => m.portIod
      if m.servedBy iod.val = some m.portIod.val then m.cqDoorbell fn qp.toNat head.toNat
      else m.sendCn { op := .doorbell, dst := iod.val, a := qp.toNat, b := head.toNat, c := 2 * fn.val + 1, src := some (8 + m.portIod.val) }

/-- CN_DOORBELL: a doorbell relayed to the I/O die that serves its queue pair (R393, 01 R31), by way of two compute dies (01 R21, R22):
without a route it stays in flight. -/
def execCnDoorbell (iod : IodId) (s : State) : Out :=
  s.go fun m => m.atUnit (unitOfIod iod.val) fun m =>
    if !(m.iodReach s.fuse.order.val m.portIod.val iod.val) then m else
    match m.takeCn (8 + iod.val) fun f => f.op == .doorbell && m.servedBy f.dst == some iod.val with
    | none => m
    | some (f, m) =>
      let fn : PartId := Fin.ofNat 128 (f.c / 2)
      if f.c % 2 = 0 then m.sqDoorbell fn f.a f.b else m.cqDoorbell fn f.a f.b

/-- ADMIN_SQ_DOORBELL. -/
def execAdminSqDoorbell (fn : PartId) (tail : BitVec 16) (s : State) : Out :=
  s.go fun m =>
    let x := m.fn fn.val
    if !(m.hears fn.val) || !x.aqEn then m
    else
      let size := 2 ^ x.sqLog2
      let off (p : Nat) : Nat := (p + size - x.sqHead % size) % size
      if off (tail.toNat % size) < off (x.sqTail % size) then m.count kHifDbBad m.portIod.val
      else m.updFn fn.val fun x => { x with sqTail := x.sqHead + off (tail.toNat % size) }

/-- ADMIN_CQ_DOORBELL. -/
def execAdminCqDoorbell (fn : PartId) (head : BitVec 16) (s : State) : Out :=
  s.go fun m =>
    let x := m.fn fn.val
    if !(m.hears fn.val) || !x.aqEn then m
    else
      let size := 2 ^ x.cqLog2
      let adv := (head.toNat % size + size - x.cqHead % size) % size
      if x.cqTail - x.cqHead < adv then m.count kHifDbBad m.portIod.val
      else m.updFn fn.val fun x => { x with cqHead := x.cqHead + adv }

/-! Fetching and starting (R391, R393, R401). -/

/-- Positions that a queue still has to fetch. -/
def Mod.unfetched (m : Mod) (fn : PartId) (qp : Option (BitVec 16)) : Nat :=
  match qp with
  | none => if (m.fn fn.val).aqEn then (m.fn fn.val).sqTail - (m.fn fn.val).sqHead else 0
  | some q => match m.qp? q.toNat with
    | some x => if x.fn = fn ∧ x.bound ∧ !x.deleting ∧ !x.halted ∧ m.served x.iod.val then x.sqTail - x.sqHead else 0
    | none => 0

/-! Command records (18 R522). -/

/-- Records of a front end's area. -/
def recordSlots : Nat := 65536
/-- Records that commands of a front end hold. -/
def Mod.cmdRecords (m : Mod) (k : Nat) : List Nat := (m.host.cmds.filter fun e => e.2.iod.val == k).filterMap fun e => e.2.recSlot
/-- The record of a command, 1 KiB: a head line, then its slots (DESIGN CHOICE, log 141). -/
def HCmd.recordBytes (c : HCmd) : List Byte :=
  leBytes (1 + c.fn.val * 2 + c.qp.getD 0 * 2 ^ 8 + b2n c.qp.isSome * 2 ^ 24 + c.gen.toNat * 2 ^ 32 + c.ord % 2 ^ 64 * 2 ^ 64) 128 ++
    c.slots.flatMap fun (d : LineData) => bytesOf d
/-- A front end writes the record of a command it has fetched, a durable write; with every record taken the command waits to start. With
FT_CFE_STATE_BASE at 0 there is no area to write to (log 141). -/
def Mod.recordCmd (m : Mod) (id : Nat) : Mod :=
  match m.cmd? id with
  | none => m
  | some c =>
    let used := m.cmdRecords c.iod.val
    if recordSlots ≤ used.length then m.updCmd id fun c => { c with unrecorded := true }
    else
      let n := ((List.range (used.length + 1)).find? fun i => !used.contains i).getD 0
      let m := m.updCmd id fun c => { c with recSlot := some n, unrecorded := false }
      let base := m.parN pFtCfeStateBase
      if base = 0 then m
      else m.physWriteBy (feAgent (m.actingIod c.iod.val)) (base + 2 ^ 26 * c.iod.val + 1024 * n) c.recordBytes 4
/-- Records are free: the oldest commands of a front end that wait for one are recorded. -/
def Mod.recordWaiting (m : Mod) (k : Nat) : Mod :=
  forEach ((m.host.cmds.filter fun e => e.2.iod.val == k && e.2.unrecorded).map Prod.fst) (fun id m => m.recordCmd id) m

/-- COMMAND_FETCH_DONE: the slots of the next command have been read; the front end checks it and hands it to its unit, or refuses
it (R393, R395). Commands are fetched only in READY and SERVICE (R391, 24 R642), and not in Freewheel (23 R627). -/
def execCommandFetchDone (fn : PartId) (qp : Option (BitVec 16)) (slots : List LineData) (s : State) : Out :=
  s.goIf (slotsOk slots) "COMMAND_FETCH_DONE" fun m =>
    if !m.serving || !(m.hears fn.val) || m.frozenPart fn.val || decide (m.unfetched fn qp < slots.length) then m
    else
      let id := m.host.cmdSeq
      let iod := match qp with
        | none => m.portIod
        | some q => match m.qp? q.toNat with
          | some x => x.iod
          | none => m.portIod
      let m := match qp with
        | none => m.updFn fn.val fun x => { x with sqHead := x.sqHead + slots.length }
        | some q => m.updQp q.toNat fun x => { x with sqHead := x.sqHead + slots.length }
      let c : HCmd := { fn := fn, qp := qp.map BitVec.toNat, iod := iod, gen := (m.part fn.val).gen, ord := id, slots := slots }
      let m := m.count kHifFetch iod.val
      match c.refusal with
      | some d => (m.updHost fun h => { h with cmds := h.cmds.put id { c.mark stARITH d with ended := true }, cmdSeq := id + 1 }).recordCmd id
      | none => ((m.updHost fun h => { h with cmds := h.cmds.put id c, cmdSeq := id + 1 }).recordCmd id).sendCn
          { op := .cmd, dst := iod.val, a := id }

/-- CN_CMD: a command reaches its unit, on the die that serves its queue pair (01 R31). -/
def execCnCmd (iod : IodId) (s : State) : Out :=
  s.go fun m => m.atUnit (unitOfIod iod.val) fun m =>
    match m.takeCn (8 + iod.val) fun f => f.op == .cmd && m.servedBy f.dst == some iod.val with
    | none => m
    | some (f, m) => m.updCmd f.a fun c => { c with handed := true }

/-- CN_CMPL: the unit's report of a command's end reaches the front end that serves its queue pair. -/
def execCnCmpl (iod : IodId) (s : State) : Out :=
  s.go fun m => m.atUnit (unitOfIod iod.val) fun m =>
    match m.takeCn (8 + iod.val) fun f => f.op == .cmpl && m.servedBy f.dst == some iod.val with
    | none => m
    | some (_, m) => m

/-- Quarters that a command needs: the one that homes the sequence it names, or for a STEP those with ready sequences of its slot. -/
def Mod.quartersFor (m : Mod) (c : HCmd) : List Nat :=
  if 0x13 ≤ c.opc ∧ c.opc ≤ 0x17 then [quarterOf (c.wf 0 31 0)]
  else if c.opc = 2 then [0, 1, 2, 3].filter fun k => !(m.seq.ready.getD (c.wf 0 7 0 * 4 + k) []).isEmpty
  else []

/-- A command that its unit may start (R401): dies serve its queue pair and the quarters it needs (18 R522, R523), it is handed over, every earlier command of its queue has started, and with SER every
earlier one has completed. -/
def Mod.startable (m : Mod) (id op : Nat) : Option HCmd :=
  match m.cmd? id with
  | none => none
  | some c =>
    let earlier := m.host.cmds.filter fun e => e.2.fn == c.fn && e.2.qp == c.qp && decide (e.2.ord < c.ord)
    if c.opc = op && m.served c.iod.val && (m.quartersFor c).all m.served && c.handed && !c.unrecorded && !c.started && !c.ended && m.serving && decide (m.dbg.brake.val ≤ 1) &&
        (if c.ser then earlier.isEmpty else earlier.all fun e => e.2.started || e.2.ended) then some c
    else none

/-- A command starts: with CSTAT the counter set of its queue pair is reset and counts for it (23 R624). -/
def Mod.begin (m : Mod) (id : Nat) (c : HCmd) : Mod :=
  let m := m.updCmd id fun c => { c with started := true }
  match c.cstat, c.qp with
  | true, some q =>
    let m := (((m.clearCtr kCmdEmbytes q).clearCtr kCmdTaskcyc q).clearCtr kCmdHmbytes q).clearCtr kCmdCsumis q
    let ep := (m.counter kCmdEmbytes q).epoch
    (m.updCmd id fun c => { c with epoch := ep }).updQp q fun x => { x with cset := some id }
  | _, _ => m

/-- Start a command of an opcode and run it; where it may not start nothing happens. -/
def Mod.runCmd (m : Mod) (id op : Nat) (f : HCmd → Mod → Mod) : Mod :=
  match m.startable id op with
  | none => m
  | some c => f c (m.begin id c)

/-- All work of a command is done: its report sets out for the front end. -/
def Mod.endCmd (m : Mod) (id : Nat) : Mod :=
  match m.cmd? id with
  | none => m
  | some c => (m.updCmd id fun c => { c with ended := true }).sendCn { op := .cmpl, dst := c.iod.val, a := id }
def Mod.markCmd (m : Mod) (id st : Nat) (d : BitVec 128) : Mod := m.updCmd id fun c => c.mark st d
/-- A command is refused by its unit: KIND FIELD with a bit number, or KIND RESOURCE. -/
def Mod.refuseCmd (m : Mod) (id bit : Nat) : Mod := (m.markCmd id stARITH (faultDetail fkFIELD 0 bit 0 0 0)).endCmd id
def Mod.noResource (m : Mod) (id : Nat) : Mod := (m.markCmd id stARITH (faultDetail fkRESOURCE 0 0 0 0 0)).endCmd id

/-! Commands. -/

/-- NOP. -/
def execNop (id : Nat) (s : State) : Out := s.go fun m => m.runCmd id 0 fun _ m => m.endCmd id

/-- LAUNCH (R404, 13 R362-R364): the descriptor is read once; tasks differ in a1 only. -/
def execLaunch (id : Nat) (s : State) : Out :=
  s.go fun m => m.runCmd id 1 fun c m =>
    let r := m.emReadN (.nc (feAgent (m.actingIod c.iod.val))) c.fn.val (c.w 0) 64 4
    let m := if r.1.viol then r.2.violate c.fn.val else r.2
    let desc := BitVec.ofNat 512 (leNat r.1.bytes)
    if r.1.poison then (m.markCmd id (if r.1.shared then stSHARED else stPOISON) 0).endCmd id
    else if taskRefused desc then (m.markCmd id stARITH (faultDetail fkLAUNCH 0 0 0 0 0)).endCmd id
    else
      let n := c.wf 1 15 0 + 1
      let a0 := BitVec.ofNat 64 (bits desc.toNat 127 64)
      let a1 := BitVec.ofNat 64 (bits desc.toNat 191 128)
      let tasks := (List.range n).map fun i =>
        ({ uid := 0, cmd := id, index := i, part := c.fn, desc := desc, a0 := a0, a1 := a1 + BitVec.ofNat 64 i } : Task)
      (m.updCmd id fun c => { c with tasks := n }).updSched fun x => { x with ready := x.ready ++ tasks }

/-- Bytes a copy descriptor writes at its destination. -/
def copyBytes (desc : BitVec 1024) : Nat :=
  let d := desc.toNat
  rowBytes (bits d 597 594) (bits d 535 512 + 1) * (bits d 551 536 + 1) * (bits d 567 552 + 1) * (bits d 583 568 + 1)

/-- The refused bit of a COPY command's descriptor or control word (R406). -/
def Mod.copyRefusal (m : Mod) (c : HCmd) : Option Nat :=
  let d := (c.slots.getD 1 0).toNat
  let ar := c.wf 0 15 0
  if bits ar 5 0 ≠ 0 then some 128
  else if 4 < bits ar 9 7 then some (128 + 7)
  else if 1 < bits ar 11 10 then some (128 + 10)
  else if 4 < bits ar 15 13 then some (128 + 13)
  else if bits d 586 584 = 0 ∧ d.testBit 42 then some 42
  else if bits d 589 587 = 0 ∧ d.testBit 106 then some 106
  else if d.testBit 610 then some 610
  else if d.testBit 611 ∧ !(m.ownsSem c.fn.val (m.nameSem c.fn.val (bits d 627 612))) then some 612
  else if bits d 661 646 ≠ 0 then some 646
  else none

/-- The half that performs a COPY: most free slots, lowest number on a tie (R406). -/
def Mod.copyHalf (m : Mod) (iod : Nat) : Option SliceId :=
  let hs := (List.range 4).map fun i => (Fin.ofNat 16 (4 * iod + i) : SliceId)
  leastBy (fun h => [-((m.half h.val).slots : Int), (h.val : Int)])
    (hs.filter fun h => (m.half h.val).state == 0 && decide (0 < (m.half h.val).slots))

/-- Retain area of a partition in use. -/
def Mod.retainUsed (m : Mod) (p : PartId) : Nat :=
  m.host.retained.foldl (fun n r => if r.fn = p then n + r.size else n) 0

/-- COPY (R406, R420). It waits for a free descriptor slot. -/
def execCopyCmd (id : Nat) (s : State) : Out :=
  s.go fun m =>
    match m.startable id 3 with
    | none => m
    | some c =>
      let desc := c.slots.getD 1 0
      match m.copyRefusal c with
      | some b => (m.begin id c).refuseCmd id b
      | none => match m.copyHalf c.iod.val with
        | none => m
        | some h =>
          let m := m.begin id c
          let n := copyBytes desc
          if c.retain && decide (m.parN (pHifRetainSize + c.fn.val) * 2 ^ 20 < m.retainUsed c.fn + n) then m.noResource id
          else
            let m := if c.retain then m.updHost fun x => { x with retained := x.retained ++
                [{ cmd := id, qp := c.qp.getD 0, fn := c.fn, size := n, place := takeParts n (m.retainGaps c.fn) }] } else m
            let r := m.pushCopy none id c.fn h desc (BitVec.ofNat 16 (c.wf 0 15 0))
            r.2.updCmd id fun c => { c with copy := some r.1 }

/-- PWRITE (R407). -/
def execPwrite (id : Nat) (s : State) : Out :=
  s.go fun m => m.runCmd id 4 fun c m =>
    let sp := c.wf 1 2 0
    if sp ≠ 1 ∧ sp ≠ 2 then m.refuseCmd id 192
    else
      let data := c.pannier
      let who : Who := .nc (feAgent (m.actingIod c.iod.val))
      let r := if data.isEmpty then (({} : BRes), m)
        else if sp = 1 then m.psWriteN who c.fn.val (c.w 0) data
        else m.emWriteN who c.fn.val (c.w 0) data 7
      let m := if r.1.viol then r.2.violate c.fn.val else r.2
      let m := if sp = 2 then m.workDone id data.length 0 0 0 else m
      let m := if r.1.poison || r.1.unperformed then m.markCmd id (if r.1.shared then stSHARED else stPOISON) 0 else m
      let m := if c.wf 1 3 3 = 1 then
          (let sem := m.nameSem c.fn.val (c.wf 1 31 16)
           if m.ownsSem c.fn.val sem then m.signalFrom (feAgent (m.actingIod c.iod.val)) sem 1 else m.violate c.fn.val) else m
      m.endCmd id

/-- Physical pages of a backing range, 64 KiB each; none where one fails translation (06 R197), or poison. -/
def Mod.backingPages (m : Mod) (p va : Nat) : Nat → Option (List Nat) × Bool × Mod
  | 0 => (some [], false, m)
  | n + 1 =>
    if 2 ^ 48 ≤ va then (none, false, m)
    else match m.translate none p va .write with
      | (.ok pa, m) =>
        let r := m.backingPages p (va + 65536) n
        (r.1.map fun l => pa / 65536 :: l, r.2.1, r.2.2)
      | (.fail, m) => (none, false, m)
      | (.poison, m) => (none, true, m)

/-- PIN (06 R196-R198). -/
def execPin (id : Nat) (s : State) : Out :=
  s.go fun m => m.runCmd id 0x20 fun c m =>
    let n := c.wf 0 9 0
    let backed := c.wf 0 17 17 = 1
    if n = 0 ∨ 768 < n then m.refuseCmd id 128
    else if backed ∧ c.wf 1 15 0 ≠ 0 then m.refuseCmd id 192
    else
      let b : Option (List Nat) × Bool × Mod := if backed then m.backingPages c.fn.val (c.w 1) (32 * n) else (some [], false, m)
      let m := b.2.2
      if b.2.1 then (m.markCmd id stPOISON 0).endCmd id
      else
        let m := if b.1.isNone then m.violate c.fn.val else m
        let pages := b.1.getD []
        let r := m.pin c.fn.val n pages (c.wf 0 16 16 = 1)
        let m := if c.wf 0 16 16 = 1 && !pages.isEmpty then r.2.workDone id (n * 2 ^ 21) 0 0 0 else r.2
        match r.1 with
        | .inl base => (m.updCmd id fun c => { c with spec := base * 2 ^ 21 }).endCmd id
        | .inr why => ((m.markCmd id stPINQUOTA 0).updCmd id fun c => { c with spec := why * 2 ^ 32 }).endCmd id

/-- UNPIN (06 R199). -/
def execUnpin (id : Nat) (s : State) : Out :=
  s.go fun m => m.runCmd id 0x21 fun c m =>
    let m := match m.cache.extents.find? fun e => e.base * 2 ^ 21 == c.wf 0 30 0 && e.part == c.fn with
      | none => m.violate c.fn.val
      | some e => (m.unpin e (c.wf 0 32 32 = 1)).workDone id
          (if c.wf 0 32 32 = 1 && !e.backing.isEmpty then e.units * 2 ^ 21 else 0) 0 0 0
    m.endCmd id

/-- BAR_ALLOC (R409, 13 R365). -/
def execBarAlloc (id : Nat) (s : State) : Out :=
  s.go fun m => m.runCmd id 0x22 fun c m =>
    let b := m.nameBar c.fn.val (c.wf 0 11 0)
    if !(m.ownsBar c.fn.val b) then (m.violate c.fn.val).endCmd id
    else if 0 < (m.bar b).arrived then m.refuseCmd id 144
    else (m.setBar b { m.bar b with count1 := c.wf 0 27 16 }).endCmd id

/-- MMU_INVAL (R410, 05 R168): no cached translation is left of a partition, or of a range of its addresses. -/
def execMmuInval (id : Nat) (s : State) : Out :=
  s.go fun m => m.runCmd id 0x30 fun c m =>
    (m.tlbDrop fun e => e.part.val == c.wf 0 6 0 &&
      (c.wf 0 8 8 == 1 || decide (e.page < c.w 1 + c.w 2 ∧ c.w 1 < e.page + e.size))).endCmd id

/-- Tags a frame may take (11 Table 11.5). -/
def tagValid (t : Nat) : Bool := decide (t ≤ 0x7F) || decide (0x81 ≤ t ∧ t ≤ 0x8F) || t == 0xFE

/-- Write back and remove every line of a range of frames with its L1 copies, then retag them (R410). -/
def Mod.retag (m : Mod) (first count : Nat) (tag : Nat) : Mod :=
  let inside (k : Nat) : Bool := !isPs k && decide (first ≤ linePa k / 65536 ∧ linePa k / 65536 < first + count)
  let m := forEach ((m.cache.lines.keep fun k _ => inside k).map Prod.fst) (fun k m => m.flushLine k) m
  m.updMem fun e => { e with frameTag :=
    let rest := e.frameTag.keep fun f _ => !decide (first ≤ f ∧ f < first + count)
    if tag = 0xFE then rest
    else (List.range (min count (2 ^ 25 - first))).foldl (fun t i => t.put (first + i) (BitVec.ofNat 8 tag)) rest }

/-- FRAME_TAG (R410, 15 R431). -/
def execFrameTag (id : Nat) (s : State) : Out :=
  s.go fun m => m.runCmd id 0x31 fun c m =>
    let first := c.wf 0 24 0
    let count := c.wf 1 25 0
    let tag := c.wf 1 39 32
    let fkt := m.parN pMemFktBase / 65536
    let leaving : Bool := (List.range 128).any fun p => (m.part p).st == .disabling && p != tag &&
      m.mem.frameTag.any fun e => e.2.toNat == p && decide (first ≤ e.1 ∧ e.1 < first + count)
    if !(tagValid tag) then m.refuseCmd id 224
    else if (fkt < first + count ∧ first < fkt + 512) ∨ leaving then m.refuseCmd id 128
    else (m.retag first count tag).endCmd id

/-! Queue pairs (R411, R412, R418). Numbers of I/O die k are 16,384 k to 16,384 k + 16,383. -/

/-- The lowest free number of a queue pair on one of a list of I/O dies. -/
def Mod.freeQp (m : Mod) (ks : List Nat) : Option Nat :=
  ks.findSome? fun k =>
    ((List.range (m.host.qps.length + 1)).map (16384 * k + ·)).find? fun q => !(m.host.qps.has q) && decide (q / 16384 = k)

/-- The lowest journal of a partition that is free. -/
def Mod.freeJournal (m : Mod) (p : PartId) : Nat :=
  ((List.range (m.host.qps.length + 1)).find? fun i => !(m.host.qps.any fun e => e.2.fn == p && e.2.jslot == i)).getD 0

/-- QP_CREATE. -/
def execQpCreate (id : Nat) (s : State) : Out :=
  s.go fun m => m.runCmd id 0x38 fun c m =>
    let sq := c.wf 2 4 0
    let cq := c.wf 2 9 5
    if sq < 6 ∨ 16 < sq then m.refuseCmd id 256
    else if cq < 6 ∨ 16 < cq then m.refuseCmd id 261
    else
      let held := (m.host.qps.filter fun e => e.2.fn == c.fn).length
      let ks := (if c.wf 2 12 12 = 1 then [0, 1, 2, 3] else [c.wf 2 11 10]).filter m.served
      if m.parN (pHifQpQuota + c.fn.val) ≤ held then m.noResource id
      else match m.freeQp ks with
        | none => m.noResource id
        | some q =>
          let x : Qp := { iod := Fin.ofNat 4 (q / 16384), fn := c.fn, sqBase := c.w 0, cqBase := c.w 1, sqLog2 := sq, cqLog2 := cq,
                          vec := c.wf 2 26 16, ncoal := c.wf 2 39 32, tcoal := c.wf 2 55 40, jslot := m.freeJournal c.fn }
          ((m.updHost fun h => { h with qps := h.qps.put q x }).updCmd id fun c => { c with spec := q }).endCmd id

/-- The queue pair a command names, where its function owns it; another is a violation that does nothing (R392). -/
def Mod.ownQp (m : Mod) (id : Nat) (c : HCmd) (f : Nat → Qp → Mod → Mod) : Mod :=
  let q := c.wf 0 15 0
  match m.qp? q with
  | some x => if x.fn = c.fn then f q x m else (m.violate c.fn.val).endCmd id
  | none => (m.violate c.fn.val).endCmd id

/-- QP_DELETE: fetching stops at once; the rest is done at COMMAND_COMPLETE. -/
def execQpDelete (id : Nat) (s : State) : Out :=
  s.go fun m => m.runCmd id 0x39 fun c m => m.ownQp id c fun q _ m =>
    (m.updQp q fun x => { x with deleting := true }).endCmd id

/-- QP_REBIND. -/
def execQpRebind (id : Nat) (s : State) : Out :=
  s.go fun m => m.runCmd id 0x3A fun c m => m.ownQp id c fun q x m =>
    let sq := c.wf 3 4 0
    let cq := c.wf 3 9 5
    if sq < 6 ∨ 16 < sq then m.refuseCmd id 320
    else if cq < 6 ∨ 16 < cq then m.refuseCmd id 325
    else
      let n := x.journal.length
      let m := m.updQp q fun x => { x with
        sqBase := c.w 1, cqBase := c.w 2, sqLog2 := sq, cqLog2 := cq, vec := c.wf 3 26 16, ncoal := c.wf 3 39 32,
        tcoal := c.wf 3 55 40, sqTail := 0, sqHead := 0, cqHead := 0, cqTail := 0, unann := 0, bound := true,
        journal := x.journal.map fun e => { e with pos := none } }
      let m := (m.countBy kHifJrnlReplay x.iod.val n).pumpRing q 4096
      (m.updCmd id fun c => { c with spec := n }).endCmd id

/-- RESULT_FETCH (R420): a result that is not retained has no bytes to rewrite. -/
def execResultFetch (id : Nat) (s : State) : Out :=
  s.go fun m => m.runCmd id 0x3B fun c m => m.ownQp id c fun q _ m =>
    match m.host.retained.find? fun r => r.qp == q && r.jseq == some (c.wf 0 31 16) with
    | none => m.endCmd id
    | some r =>
      if m.host.portState == 2 then (m.markCmd id stDETACHED 0).endCmd id
      else
        let m := forEach r.bytes (fun b m => m.hmWrite c.fn.val c.gen ((b.1 + c.w 1) % 2 ^ 64) [b.2]) m
        ((m.workDone id 0 r.bytes.length 0 0).updCmd id fun c => { c with hmUncertain := true, flushing := false }).endCmd id

/-- RESULT_ACK (R420). -/
def execResultAck (id : Nat) (s : State) : Out :=
  s.go fun m => m.runCmd id 0x3C fun c m => m.ownQp id c fun q _ m =>
    (m.updHost fun h => { h with retained := h.retained.filter fun r => !(r.qp == q && r.jseq == some (c.wf 0 31 16)) }).endCmd id

/-! Completion (R396-R400, R403, R415, R416, R422). -/

/-- Is the work of a command done (08 R261)? -/
def HCmd.workOver (c : HCmd) : Bool :=
  c.ended || (c.opc == 1 && c.started && decide (0 < c.tasks) && c.tasksEnded == c.tasks)

/-- SPEC of a completion (Table 14.8). -/
def HCmd.specOf (c : HCmd) : Nat :=
  if c.status = stARITH then (c.detail.getD 0).toNat
  else if c.opc = 1 then c.tasksNonzero % 2 ^ 32
  else c.spec

/-- Step records two to an entry (R398). -/
def recEntries : List (BitVec 128) → List (BitVec 256)
  | [] => []
  | [a] => [a.setWidth 256]
  | a :: b :: r => BitVec.ofNat 256 (a.toNat + b.toNat * 2 ^ 128) :: recEntries r

/-- The counter entry (Table 14.12). -/
def HCmd.ctrEntry (c : HCmd) : BitVec 256 :=
  BitVec.ofNat 256 ((c.emBytes % 2 ^ 56) * 2 ^ 192 + (c.taskCyc % 2 ^ 64) * 2 ^ 128 + (c.hmBytes % 2 ^ 64) * 2 ^ 64 +
    (min c.csumis 0xFFFFFFFF) * 2 ^ 32 + c.epoch.toNat)

/-- Entries of a completion, PHASE clear, header last (Table 14.8). -/
def HCmd.completion (c : HCmd) (sqhead jseq qpid : Nat) : List (BitVec 256) :=
  let cont := recEntries c.recs ++ (if c.cstat && c.cext != 0 then [c.ctrEntry] else [])
  cont ++ [BitVec.ofNat 256 (cont.length % 8 * 2 ^ 252 + (jseq % 65536) * 2 ^ 224 + (qpid % 65536) * 2 ^ 208 + c.cid * 2 ^ 192 +
    (sqhead % 65536) * 2 ^ 176 + (c.status % 256) * 2 ^ 168 + c.aflags.toNat * 2 ^ 164 + (c.seqrc % 16) * 2 ^ 160 +
    (c.exit % 65536) * 2 ^ 144 + c.specOf % 2 ^ 128)]

/-- A change to every context, resident or saved. -/
def Mod.mapContexts (m : Mod) (f : Ctx → Ctx) : Mod :=
  ({ m with ctxs := m.ctxs.mapVals f }).updSched fun s => { s with saved := s.saved.mapVals fun v => { v with ctx := f v.ctx } }

/-- The port issues a zero-length read flush: it covers every HM write posted so far, those that fences await among them (R403, R416, 08 R255). -/
def Mod.issueFlush (m : Mod) : Mod :=
  (m.mapContexts fun c => { c with hmFlush := c.hmPend }).updHost fun h => { h with
    flush := true,
    cmds := h.cmds.map fun e => (e.1, { e.2 with flushing := e.2.hmUncertain }),
    qps := h.qps.map fun e => (e.1, { e.2 with journal := e.2.journal.map fun j => { j with flushing := !j.certain } }) }

/-- A command leaves the front end; its record is free (18 R522). -/
def Mod.dropCmd (m : Mod) (id : Nat) : Mod :=
  let n := m.updHost fun h => { h with cmds := h.cmds.del id }
  match m.cmd? id with
  | some c => n.recordWaiting c.iod.val
  | none => n

/-- What a completed command leaves: a queue pair deleted (R412), a retained result freed or kept under its JSEQ (R420). -/
def Mod.settleCmd (m : Mod) (id : Nat) (c : HCmd) (jseq : Nat) : Mod :=
  let m := m.updHost fun h => { h with
    retained := (h.retained.filter fun r => !(r.cmd == id && c.status == stOK)).map fun r =>
      if r.cmd = id then { r with jseq := some (jseq % 65536) } else r }
  let q := c.wf 0 15 0
  if c.opc = 0x39 ∧ c.qp.isNone ∧ c.status = stOK then
    (match m.qp? q with
      | some x => if x.fn = c.fn ∧ x.deleting then
          m.updHost fun h => { h with qps := h.qps.del q, retained := h.retained.filter fun r => r.qp != q } else m
      | none => m)
  else m

/-- Has a command copies that are not complete (08 R261)? -/
def Mod.cmdCopies (m : Mod) (id : Nat) : Bool := m.copies.any fun e => e.2.cmd == id && e.2.status.isNone

/-- A command whose work is done, copies included, and whose fence scope is met, is completed (R396-R403, 08 R261-R263). With HM
writes that are not certain a command of scope HOST first has the port issue a read flush. -/
def Mod.completeCmd (m : Mod) (id : Nat) : Mod :=
    match m.cmd? id with
    | none => m
    | some c =>
      let deleting := c.opc == 0x39 && c.qp.isNone && c.status == stOK &&
        (m.host.cmds.any fun e => e.2.qp == some (c.wf 0 15 0) && e.2.fn == c.fn)
      if !c.workOver || m.cmdCopies id || !(m.served c.iod.val) || (m.net.cn.any fun f => f.op == .cmpl && f.a == id) || deleting then m
      else if (m.part c.fn.val).gen ≠ c.gen then
        (m.count kHifGenStale c.iod.val).dropCmd id
      else if c.fabScope && !(m.fabDeliveredCmd id) then m
      else if c.hostScope && c.hmUncertain then
        (if m.host.flush || m.host.portState == 2 then m else m.issueFlush)
      else match c.qp with
      | none =>
        let x := m.fn c.fn.val
        -- the admin queue has no journal: JSEQ and QPID of its completions are free (log 32)
        let fr := m.draws 2
        let es := c.completion (x.sqHead % 2 ^ x.sqLog2) (fr.1.getD 0 0) (fr.1.getD 1 0)
        if m.host.portState == 2 || !x.aqEn || decide (2 ^ x.cqLog2 < x.cqTail - x.cqHead + es.length) then m
        else
          let m := fr.2
          let m := m.writeEntries c.fn.val c.gen x.cqBase.toNat x.cqLog2 x.cqTail (ringOrder es)
          let m := m.updFn c.fn.val fun x => { x with cqTail := x.cqTail + es.length }
          (((m.count kHifCmpl c.iod.val).msi c.fn.val x.vec).settleCmd id c 0).dropCmd id
      | some q => match m.qp? q with
        | none => m.dropCmd id
        | some x =>
          if 4096 ≤ x.journal.length then m
          else
            let es := c.completion (x.sqHead % 2 ^ x.sqLog2) x.jseq q
            let j : JEntry := { jseq := x.jseq, entries := es, certain := !c.hmUncertain }
            let m := (m.putJournal x j).updQp q fun x => { x with
              jseq := (x.jseq + 1) % 65536,
              journal := x.journal ++ [j],
              cset := if x.cset == some id then none else x.cset }
            ((m.settleCmd id c x.jseq).dropCmd id).pumpRing q 4096

/-- FLUSH_RETURN: HM writes posted before the flush are certain, and fences await them no longer (R416, 04 Table 4.7). -/
def execFlushReturn (s : State) : Out :=
  s.go fun m =>
    if !m.host.flush then m
    else (m.mapContexts fun c => if c.hmFlush then { c with hmPend := false, hmFlush := false } else c).updHost fun h => { h with
      flush := false,
      cmds := h.cmds.map fun e => (e.1, if e.2.flushing then { e.2 with hmUncertain := false, flushing := false } else e.2),
      qps := h.qps.map fun e => (e.1, { e.2 with journal := e.2.journal.map fun j =>
        if j.flushing then { j with certain := true, flushing := false } else j }) }

/-- End the tasks of a command, launch none of those that wait, and discard its saved contexts (R402). -/
def Mod.stopTasks (m : Mod) (id st : Nat) : Mod :=
  let gone := m.sched.ready.filter fun k => k.cmd == id
  let m := m.updSched fun x => { x with ready := x.ready.filter fun k => k.cmd != id }
  let m := forEach gone (fun k m => m.taskOver k st (faultDetail fkPROGRAM 0 0 k.index 0 0) none 0) m
  let mine (w : Work) : Bool := match m.workTask w with
    | some k => k.cmd == id
    | none => false
  let ev := m.sched.evicting.filter fun e => mine e.2
  let m := forEach ev (fun e m =>
    let m := m.updSched fun x => { x with evicting := x.evicting.del e.1 }
    let m := m.updCtx (e.1 / 4) (e.1 % 4) fun c =>
      if c.st == .saving then { c with st := if c.isHalted then .halted else if c.wait.isSome then .blocked else .run } else c
    match e.2 with
    | .task k => m.taskOver k st (faultDetail fkPROGRAM 0 0 k.index 0 0) none 0
    | .saved _ => m) m
  let svs := m.sched.saved.filter fun e => match e.2.ctx.task with
    | some k => k.cmd == id
    | none => false
  let m := forEach svs (fun e m => m.endSaved e.1 st (faultDetail fkPROGRAM 0 0 0 0 0)) m
  let cs := m.ctxs.filter fun e => e.2.st != .empty && (match e.2.task with
    | some k => k.cmd == id
    | none => false)
  forEach cs (fun e m => m.endTask (e.1 / 4) (e.1 % 4) st fkPROGRAM 0 0) m

/-- TLIMIT_EXPIRY (R402). A command that has not started completes at once; a STEP still runs its step end (12 R353). -/
def execTlimitExpiry (id : Nat) (s : State) : Out :=
  s.go fun m =>
    match m.cmd? id with
    | none => m
    | some c =>
      if c.workOver || c.expired || decide (1 < m.dbg.brake.val) then m
      else
        let m := (m.markCmd id stTIMEOUT 0).updCmd id fun c => { c with expired := true }
        if !c.started then m.updCmd id fun c => { c with ended := true }
        else if m.seq.held.contains id then
          { m with seq := { m.seq with held := m.seq.held.filter (· != id) } }.endCmd id
        else if c.opc = 1 ∨ c.opc = 2 then m.stopTasks id stTIMEOUT
        else m

/-- MSIX_COALESCE_TIMER: TCOAL has passed since the oldest unannounced entry was written (R411). -/
def execMsixCoalesceTimer (qp : BitVec 16) (s : State) : Out :=
  s.go fun m =>
    match m.qp? qp.toNat with
    | none => m
    | some x => if x.unann = 0 then m else (m.updQp qp.toNat fun x => { x with unann := 0 }).msi x.fn.val x.vec

/-! Detach and re-attach (R387, R413-R420). -/

/-- STATUS of a completion header. -/
def entryStatus (e : BitVec 256) : Nat := bits e.toNat 175 168
def setEntryStatus (e : BitVec 256) (st : Nat) : BitVec 256 :=
  BitVec.ofNat 256 (e.toNat - entryStatus e * 2 ^ 168 + st * 2 ^ 168)

/-- A journal entry whose command's HM writes are not certain completes HOSTWRITE_UNCERTAIN where it said OK or PARTIAL (R417). -/
def JEntry.uncertain (j : JEntry) : JEntry :=
  if j.certain then j
  else { j with certain := true, flushing := false, entries := j.entries.take (j.entries.length - 1) ++
    (j.entries.drop (j.entries.length - 1)).map fun e =>
      if entryStatus e = stOK ∨ entryStatus e = stPARTIAL then setEntryStatus e stUNCERTAIN else e }

/-- Mailbox sessions of functions end (21 R581). -/
def Mod.endMailbox (m : Mod) (f : Nat → Bool) : Mod :=
  m.updKod fun k => { k with sessions := k.sessions.keep fun _ x => match x.transport with
    | .pf0 => !(f 0)
    | .vf p => !(f p.val)
    | _ => true }

/-- Entries that R417 rewrites are rewritten in their journals. -/
def Mod.rewriteJournals (m : Mod) : Mod :=
  forEach m.host.qps (fun e m => forEach (e.2.journal.filter fun j => !j.certain) (fun j m => m.putJournal e.2 j.uncertain) m) m
/-- The active port enters DETACHED (R413, R414, R417). -/
def Mod.detach (m : Mod) (cause : Fin 5) : Mod :=
  if m.host.portState == 2 then m
  else
    let m := m.count kHifDetach m.portIod.val
    let m := if cause == 1 || cause == 2 then m.endMailbox fun _ => true else m
    let m := m.postPartly.mapContexts fun c => { c with hmFlush := false }
    m.rewriteJournals.updHost fun h => { h with
      portState := 2, cause := cause, flush := false,
      cmds := h.cmds.map fun e => (e.1, if e.2.hmUncertain then
        { (e.2.mark stUNCERTAIN 0) with hmUncertain := false, flushing := false } else e.2),
      qps := h.qps.map fun e => (e.1, { e.2 with
        bound := false, sqTail := e.2.sqHead, journal := e.2.journal.map fun j => { j.uncertain with pos := none } }),
      fns := h.fns.map fun e => (e.1, { e.2 with aqEn := false, msix := [], pba := [] }) }

/-- PCIE_LINK_DOWN. -/
def execPcieLinkDown (s : State) : Out := s.go fun m => m.detach 1
/-- PCIE_HOT_RESET: only PCIe configuration state is reset (R389). -/
def execPcieHotReset (s : State) : Out := s.go fun m => m.detach 2
/-- PCIE_RECOVERY_TIMEOUT. -/
def execPcieRecoveryTimeout (s : State) : Out := s.go fun m => m.detach 3

/-- The functions move to a port (R387). -/
def Mod.portSelect (m : Mod) (port : Nat) : Mod :=
  let b := port == 1
  if m.host.portB == b then m else (m.detach 4).updHost fun h => { h with portB := b, cause := 4 }

/-- HIF_PORT_SELECT. -/
def execHifPortSelect (port : Nat) (s : State) : Out :=
  s.go fun m => m.perform pHifPortSelect fun m => if 1 < port then (esRANGE, m) else (esOK, m.portSelect port)

/-- A write of HIF_CTL.ATTACH; ignored on a VF (R419, Table 14.4). -/
def Mod.attach (m : Mod) (fn : Nat) : Mod :=
  if fn = 0 ∧ m.host.portState = 2 ∧ (m.mod.mstate = 3 ∨ m.serving) then
    m.updHost fun h => { h with portState := if h.portB then 1 else 0 }
  else m
/-- HIF_ATTACH. -/
def execHifAttach (fn : PartId) (s : State) : Out := s.go fun m => m.attach fn.val

/-- AQ_EN is set (R390). -/
def Mod.aqEnable (m : Mod) (fn : Nat) : Mod :=
  if !(m.portUp fn) || (m.fn fn).aqEn then m
  else m.updFn fn fun x => { x with aqEn := true, sqTail := 0, sqHead := 0, cqHead := 0, cqTail := 0 }

/-- HIF_AQ_EN. -/
def execHifAqEn (fn : PartId) (s : State) : Out := s.go fun m => m.aqEnable fn.val

end Sys2Proof.Machine
end

