-- ==== Sys2Proof/Machine/Operands.lean ====
section
/-! DEFINITION. Operand forms and results of the base instruction set (spec 04 R121: RV64I and M as RISC-V defines them). -/

namespace Sys2Proof.Machine

/-- Low word of a value, sign-extended. -/
def sextW (v : W64) : W64 := (v.truncate 32).signExtend 64

/-- Result of a register operation. -/
def aluResult (op : AluOp) (a b : W64) : W64 :=
  match op with
  | .add => a + b
  | .sub => a - b
  | .sll => a <<< (b.toNat % 64)
  | .slt => if a.slt b then 1 else 0
  | .sltu => if a.ult b then 1 else 0
  | .xor => a ^^^ b
  | .srl => a >>> (b.toNat % 64)
  | .sra => a.sshiftRight (b.toNat % 64)
  | .or => a ||| b
  | .and => a &&& b
  | .addw => sextW (a + b)
  | .subw => sextW (a - b)
  | .sllw => ((a.truncate 32 : W32) <<< (b.toNat % 32)).signExtend 64
  | .srlw => ((a.truncate 32 : W32) >>> (b.toNat % 32)).signExtend 64
  | .sraw => ((a.truncate 32 : W32).sshiftRight (b.toNat % 32)).signExtend 64
  | .mul => a * b
  | .mulh => BitVec.ofInt 64 (a.toInt * b.toInt / 2 ^ 64)
  | .mulhsu => BitVec.ofInt 64 (a.toInt * (b.toNat : Int) / 2 ^ 64)
  | .mulhu => BitVec.ofNat 64 (a.toNat * b.toNat / 2 ^ 64)
  | .mulw => sextW (a * b)

/-- The second operand of an immediate form. -/
def immOperand (imm : BitVec 12) : W64 := imm.signExtend 64

/-- Quotients and remainders: division by zero gives all ones and the dividend; overflow the dividend and 0. -/
def divResult (op : DivOp) (a b : W64) : W64 :=
  let aw : W32 := a.truncate 32
  let bw : W32 := b.truncate 32
  match op with
  | .div => if b = 0 then BitVec.allOnes 64 else BitVec.ofInt 64 (a.toInt.tdiv b.toInt)
  | .divu => if b = 0 then BitVec.allOnes 64 else a / b
  | .rem => if b = 0 then a else BitVec.ofInt 64 (a.toInt.tmod b.toInt)
  | .remu => if b = 0 then a else a % b
  | .divw => if bw = 0 then BitVec.allOnes 64 else (BitVec.ofInt 32 (aw.toInt.tdiv bw.toInt)).signExtend 64
  | .divuw => if bw = 0 then BitVec.allOnes 64 else (aw / bw).signExtend 64
  | .remw => if bw = 0 then aw.signExtend 64 else (BitVec.ofInt 32 (aw.toInt.tmod bw.toInt)).signExtend 64
  | .remuw => if bw = 0 then aw.signExtend 64 else (aw % bw).signExtend 64

/-- Does a branch condition hold? -/
def condHolds (c : Cond) (a b : W64) : Bool :=
  match c with
  | .eq => a == b
  | .ne => a != b
  | .lt => a.slt b
  | .ge => !a.slt b
  | .ltu => a.ult b
  | .geu => !a.ult b

/-- Bytes of a load and its value. -/
def loadBytes (wd : LoadW) : Nat :=
  match wd with
  | .b | .bu => 1
  | .h | .hu => 2
  | .w | .wu => 4
  | .d => 8
def loadValue (wd : LoadW) (bs : List Byte) : W64 :=
  let n := leNat bs
  match wd with
  | .b => (BitVec.ofNat 8 n).signExtend 64
  | .h => (BitVec.ofNat 16 n).signExtend 64
  | .w => (BitVec.ofNat 32 n).signExtend 64
  | _ => BitVec.ofNat 64 n
def storeBytes (wd : StoreW) : Nat :=
  match wd with
  | .b => 1
  | .h => 2
  | .w => 4
  | .d => 8

/-- Address of a load or store. -/
def effAddr (base : W64) (imm : BitVec 12) : W64 := base + imm.signExtend 64

/-! CSRs (Table 4.4, R123, R656). -/

/-- A control word as written to a trigger: reserved fields read as zero, a reserved encoding takes the field's reset value (00 R14);
ACTION FREEWHEEL and BRAKE need the role and the unlock (04 R154, 22 R613). Writing HIT as 1 clears it. -/
def trigWrite (i : Nat) (mayStop : Bool) (old : W64) (v adr : Nat) : Trig :=
  let act := bits v 30 28
  let act := if 3 < act ∨ (2 ≤ act ∧ !mayStop) then 0 else act
  let kind := if i < 2 then 0 else bits v 27 26
  let mask := if 48 < bits v 25 20 then 0 else bits v 25 20
  let hit := if v.testBit 31 then 0 else bits old.toNat 31 31
  { ctl := BitVec.ofNat 64 (hit * 2 ^ 31 + act * 2 ^ 28 + kind * 2 ^ 26 + mask * 2 ^ 20 + bits v 16 16 * 2 ^ 16 + bits v 15 0)
    adr := BitVec.ofNat 64 adr, skip0 := BitVec.ofNat 16 v }

/-- Machine-mode CSRs (Table 4.4): mstatus, mie, mtvec, mscratch, mepc, mcause, mtval, mip, and the triggers. -/
def csrMachine (n : Nat) : Bool := [0x300, 0x304, 0x305, 0x340, 0x341, 0x342, 0x343, 0x344].contains n || decide (0x7C0 ≤ n ∧ n ≤ 0x7C7)
/-- CSRs that a mode may read, and those it may write. -/
def csrReadable (machine : Bool) (n : Nat) : Bool :=
  [0x800, 0x801, 0x802, 0x803, 0x804, 0xCC1, 0xC00, 0xC02].contains n || (machine && csrMachine n)
def csrWritable (machine : Bool) (n : Nat) : Bool := [0x800, 0x801, 0x802].contains n || (machine && csrMachine n)
/-- Bits of a machine register that a write sets, as RISC-V defines them (PRESUMED, log 133): mstatus MIE, MPIE and MPP; mie the three machine
interrupts; mtvec but bit 1; mepc but bit 0; mip none. -/
def csrMask (n : Nat) : W64 :=
  match n with
  | 0x300 => 0x1888
  | 0x304 => 0x888
  | 0x305 => ~~~2
  | 0x341 => ~~~1
  | 0x344 => 0
  | _ => BitVec.allOnes 64

/-- Value of a CSR for the context in a saddle. -/
def Mod.csrRead (m : Mod) (t s n : Nat) : W64 :=
  let c := m.ctx t s
  match n with
  | 0x800 => c.tcls.setWidth 64
  | 0x801 => c.tvlive.setWidth 64
  | 0x802 => c.tcvt.setWidth 64
  | 0x803 => c.tarith.setWidth 64
  | 0x804 => c.tflags.setWidth 64
  | 0xCC1 => BitVec.ofNat 64 (m.tileName c.part.val t + s * 2 ^ 10 + c.part.val * 2 ^ 16)
  | 0xC00 => BitVec.ofNat 64 (m.cycleC (dieOfTile t))
  | 0xC02 => c.instret
  | _ =>
    if 0x7C0 ≤ n ∧ n ≤ 0x7C3 then (c.trig.getD (n - 0x7C0) {}).ctl
    else if 0x7C4 ≤ n ∧ n ≤ 0x7C7 then (c.trig.getD (n - 0x7C4) {}).adr
    else c.mcsr.getD n 0
/-- Write a CSR; bits that a register does not hold are not written. -/
def Ctx.csrWrite (c : Ctx) (n : Nat) (v : W64) : Ctx :=
  match n with
  | 0x800 => { c with tcls := v.truncate 3 }
  | 0x801 => { c with tvlive := v.truncate 32 }
  | 0x802 => { c with tcvt := v.truncate 10 }
  | _ =>
    if 0x7C0 ≤ n ∧ n ≤ 0x7C3 then
      let g := c.trig.getD (n - 0x7C0) {}
      { c with trig := c.trig.put (n - 0x7C0) (trigWrite (n - 0x7C0) false g.ctl v.toNat g.adr.toNat) }
    else if 0x7C4 ≤ n ∧ n ≤ 0x7C7 then
      { c with trig := c.trig.put (n - 0x7C4) { c.trig.getD (n - 0x7C4) {} with adr := v } }
    else { c with mcsr := c.mcsr.put n ((c.mcsr.getD n 0 &&& ~~~csrMask n) ||| (v &&& csrMask n)) }

end Sys2Proof.Machine
end

