-- ==== Sys2Proof/Machine/ControlCore.lean ====
section
/-! DEFINITION. Commands of the control core: base instructions, CSRs, breakpoints, engine issue, copies, synchronisation, hints,
fences and the end of a task (spec 04). The instruction that a command names is taken as the one fetched (log 20). -/

namespace Sys2Proof.Machine

/-- MRET: back to mepc in the mode of MPP; MIE takes MPIE, MPIE is 1, MPP is U (R121; log 133). -/
def Ctx.mret (c : Ctx) : Ctx :=
  let ms := c.mcsr.getD 0x300 0
  { c with pc := c.mcsr.getD 0x341 0, mmode := decide (bits ms.toNat 12 11 = 3), instret := c.instret + 1,
           mcsr := c.mcsr.put 0x300 ((ms &&& ~~~(0x1888 : W64)) ||| (if ms.getLsbD 7 then 8 else 0) ||| 0x80) }

/-- A word that spells no instruction: MRET and WFI in M-mode, else illegal instruction (R121, R132, R139). -/
def Mod.rawWord (m : Mod) (a : At) (w : BitVec 32) : Mod :=
  if !(m.ctxAt a).mmode then m.illegal a
  else if w = 0x30200073 then m.updCtx a.tile.val a.saddle.val Ctx.mret
  else if w = 0x10500073 then m.retire a 4 id
  else m.illegal a

/-- INTEGER_OP. -/
def execIntegerOp (a : At) (op : IntegerOp) (s : State) : Out :=
  s.goIf (integerOpOk a op) "INTEGER_OP" fun m => m.coreDo a fun m =>
    match op with
    | .word w => m.rawWord a w
    | op => m.retire a (atLen a) fun c => match op with
      | .word _ => c
      | .rr op rd rs1 rs2 => c.setX rd (aluResult op (c.getX rs1) (c.getX rs2))
      | .ri op rd rs1 imm => c.setX rd (aluResult op (c.getX rs1) (immOperand imm))
      | .lui rd imm => c.setX rd ((imm ++ (0 : BitVec 12)).signExtend 64)
      | .auipc rd imm => c.setX rd (c.pc + (imm ++ (0 : BitVec 12)).signExtend 64)

/-- BRANCH: conditional branches, JAL and JALR; the link is the address after the instruction. -/
def execBranch (a : At) (op : BranchOp) (s : State) : Out :=
  s.goIf (branchOk op) "BRANCH" fun m => m.coreDo a fun m =>
    m.updCtx a.tile.val a.saddle.val fun c =>
      let next := c.pc + BitVec.ofNat 64 (atLen a)
      let d := { c with instret := c.instret + 1 }
      match op with
      | .cond k rs1 rs2 off => { d with pc := if condHolds k (c.getX rs1) (c.getX rs2) then c.pc + off.signExtend 64 else next }
      | .jal rd off => { d.setX rd next with pc := c.pc + off.signExtend 64 }
      | .jalr rd rs1 imm => { d.setX rd next with pc := (c.getX rs1 + imm.signExtend 64) &&& ~~~(1 : W64) }

/-- DIV_REM. -/
def execDivRem (a : At) (op : DivOp) (rd rs1 rs2 : Reg) (s : State) : Out :=
  s.go fun m => m.coreDo a fun m =>
    m.retire a (atLen a) fun c => c.setX rd (divResult op (c.getX rs1) (c.getX rs2))

/-- LOAD (R124-R126). -/
def execLoad (a : At) (wd : LoadW) (rd rs1 : Reg) (imm : BitVec 12) (e : Ecc) (s : State) : Out :=
  s.go fun m => m.coreDo a fun m =>
    let c := m.ctxAt a
    let addr := effAddr (c.getX rs1) imm
    let n := loadBytes wd
    if addr.toNat % n ≠ 0 then m.fault a 4 addr
    else if addr.toNat / 2 ^ 62 = 3 then m.fault a 5 addr
    else
      let m := m.accessEcc a.tile a.saddle c.part.val addr.toNat n e
      let r := m.coreRead a.tile a.saddle c.part.val addr.toNat n c.tcls.toNat
      if r.1.poison then r.2.consumed a r.1
      else (r.2.retire a (atLen a) fun c => c.setX rd (loadValue wd r.1.bytes)).dataTrig a.tile.val a.saddle.val 1 addr

/-- STORE. -/
def execStore (a : At) (wd : StoreW) (rs1 rs2 : Reg) (imm : BitVec 12) (e : Ecc) (s : State) : Out :=
  s.go fun m => m.coreDo a fun m =>
    let c := m.ctxAt a
    let addr := effAddr (c.getX rs1) imm
    let n := storeBytes wd
    if addr.toNat % n ≠ 0 then m.fault a 6 addr
    else if addr.toNat / 2 ^ 62 = 3 then m.fault a 7 addr
    else
      let m := m.accessEcc a.tile a.saddle c.part.val addr.toNat n e
      let r := m.coreWrite a.tile a.saddle c.part.val addr.toNat (leBytes (c.getX rs2).toNat n) c.tcls.toNat
      if r.1.poison then r.2.consumed a r.1
      else (r.2.retire a (atLen a) id).dataTrig a.tile.val a.saddle.val 2 addr

/-- FENCE: accesses of the model are performed in order, so it only retires (R128). -/
def execFence (a : At) (_pred _succ : BitVec 4) (s : State) : Out := s.go fun m => m.coreDo a fun m => m.retire a (atLen a) id

/-- FENCE_I: fetches of the model see every earlier store, so it only retires (R127). -/
def execFenceI (a : At) (s : State) : Out := s.go fun m => m.coreDo a fun m => m.retire a (atLen a) id

/-- CSR_ACCESS (R123, R656): a CSR that the mode may not read or write raises illegal instruction. -/
def execCsrAccess (a : At) (op : CsrOp) (rd : Reg) (src : CsrSrc) (csr : BitVec 12) (s : State) : Out :=
  s.go fun m => m.coreDo a fun m =>
    let c := m.ctxAt a
    let n := csr.toNat
    let writes := op == .rw || (match src with
      | .reg rs1 => rs1 != 0
      | .imm u => u != 0)
    if !csrReadable c.mmode n || (writes && !csrWritable c.mmode n) then m.illegal a
    else
      let old := m.csrRead a.tile.val a.saddle.val n
      let v := match src with
        | .reg rs1 => c.getX rs1
        | .imm u => u.setWidth 64
      let new := match op with
        | .rw => v
        | .rs => old ||| v
        | .rc => old &&& ~~~v
      m.retire a 4 fun c => (if writes then c.csrWrite n new else c).setX rd old

/-- Is debug enabled for a context (23 R626)? -/
def Mod.debugOn (m : Mod) (c : Ctx) : Bool := m.parB (pDbgEnable + c.part.val)

/-- EBREAK (R155). -/
def execEbreak (a : At) (s : State) : Out :=
  s.go fun m =>
    let c := m.ctxAt a
    let stepped := c.stepOver
    m.coreDo a fun m =>
      if !m.debugOn c then m.fault a 3 c.pc
      else if stepped then m.retire a (atLen a) id
      else m.halt a.tile.val a.saddle.val

/-- ECALL: an environment call from U-mode ends the task (Table 4.3); from M-mode it is the exception RISC-V numbers 11 (log 133). -/
def execEcall (a : At) (s : State) : Out :=
  s.go fun m => m.coreDo a fun m => m.fault a (if (m.ctxAt a).mmode then 11 else 8) 0

/-- CONTEXT_ROTATE: after 256 CLK_C cycles the core goes on to the next runnable context (13 R366). -/
def execContextRotate (t : TileId) (s : State) : Out :=
  s.go fun m =>
    let cur := (m.tile t.val).cur
    match [1, 2, 3].find? fun i => (m.ctx t.val ((cur.val + i) % 4)).runnable with
    | some i => m.updTile t.val fun x => { x with cur := Fin.ofNat 4 (cur.val + i) }
    | none => m

/-- Read bytes of the context's window for an engine instruction; none raises ENG_OPERAND (Table 4.3). -/
def Mod.engBytes (m : Mod) (a : At) (addr : W64) (n : Nat) : Option BRes :=
  if addr.toNat % 64 ≠ 0 || addr.toNat / 2 ^ 62 ≠ 0 then none
  else match m.winByte a.tile.val a.saddle.val addr.toNat n with
    | none => none
    | some b => some (m.tsReadN a.tile.val b n)

/-- ENG_MM: the record is copied and queued; the instruction stalls while four issues are queued (R133, R135). -/
def execEngMm (x : EccAt) (wr acc : Bool) (rs1 : Reg) (s : State) : Out :=
  let a := x.ctx
  s.go fun m => m.core a (fun _ c => decide (4 ≤ c.iq.length)) fun m =>
    let c := m.ctxAt a
    let addr := c.getX rs1
    let m := m.accessEcc a.tile a.saddle c.part.val addr.toNat 64 x.ecc
    match m.engBytes a addr 64 with
    | none => m.fault a 24 addr
    | some r =>
      if r.poison then m.consumed a r
      else m.retire a 4 fun c =>
        { c with iq := c.iq ++ [⟨wr, acc, BitVec.ofNat 512 (leNat r.bytes), c.issues⟩], issues := c.issues + 1 }

/-- The next tag in turn that the context does not hold (R142). -/
def nextTag (held : Tab Nat) (n : Nat) : Nat → Nat
  | 0 => n
  | f + 1 => if held.has n then nextTag held (if n = 65535 then 1 else n + 1) f else n

/-- Can a copy be pushed: a tag and a slot are free? -/
def Mod.canPush (m : Mod) (t : Nat) (c : Ctx) : Bool :=
  decide (c.tags.length < 64) && decide (0 < (m.half (halfOfTile t)).slots)

/-- Push the descriptor at a TS offset (R141). -/
def Mod.cpyPush (m : Mod) (a : At) (rd rs1 : Reg) : Mod :=
  let c := m.ctxAt a
  let addr := c.getX rs1
  match m.engBytes a addr 128 with
  | none => m.fault a 24 addr
  | some r =>
    if r.poison then m.consumed a r
    else
      let cmd := match c.task with
        | some k => k.cmd
        | none => 0
      let q := m.pushCopy (some c.uid) cmd c.part (Fin.ofNat 16 (halfOfTile a.tile.val)) (BitVec.ofNat 1024 (leNat r.bytes)) c.tarith
      let tag := nextTag c.tags c.nextTag 65
      q.2.retire a 4 fun c => { c.setX rd (BitVec.ofNat 64 tag) with
        tags := c.tags.put tag q.1, nextTag := if tag = 65535 then 1 else tag + 1 }

/-- CPY_PUSH: stalls for want of a tag or a slot (R142). -/
def execCpyPush (a : At) (rd rs1 : Reg) (s : State) : Out :=
  s.go fun m => m.core a (fun m c => !m.canPush a.tile.val c) fun m => m.cpyPush a rd rs1

/-- CPY_PUSHNB: writes 0 and pushes nothing where CPY.PUSH would stall. -/
def execCpyPushnb (a : At) (rd rs1 : Reg) (s : State) : Out :=
  s.go fun m => m.coreDo a fun m =>
    let c := m.ctxAt a
    if !m.canPush a.tile.val c then
      (match m.engBytes a (c.getX rs1) 128 with
        | none => m.fault a 24 (c.getX rs1)
        | some _ => m.retire a 4 fun c => c.setX rd 0)
    else m.cpyPush a rd rs1

/-- Retire a tag: the copy's record goes with it. -/
def Mod.retireTag (m : Mod) (a : At) (tag id : Nat) (rd : Reg) (st : Nat) : Mod :=
  { m.retire a 4 (fun c => { c.setX rd (BitVec.ofNat 64 st) with tags := c.tags.del tag }) with copies := m.copies.del id }

/-- Status of a copy once it has completed. -/
def Mod.copyStatus (m : Mod) (id : Nat) : Option Nat := match Tab.find id m.copies with
  | some c => c.status
  | none => some stOK

/-- CPY_WAIT (R143). -/
def execCpyWait (a : At) (rd rs1 : Reg) (s : State) : Out :=
  s.go fun m => m.coreDo a fun m =>
    let c := m.ctxAt a
    let tag := (c.getX rs1).toNat
    match Tab.find tag c.tags with
    | none => m.retire a 4 fun c => c.setX rd (BitVec.ofInt 64 (-2))
    | some id => match m.copyStatus id with
      | some st => m.retireTag a tag id rd st
      | none => m.block a.tile.val a.saddle.val (.copy tag rd)

/-- CPY_TEST. -/
def execCpyTest (a : At) (rd rs1 : Reg) (s : State) : Out :=
  s.go fun m => m.coreDo a fun m =>
    let c := m.ctxAt a
    let tag := (c.getX rs1).toNat
    match Tab.find tag c.tags with
    | none => m.retire a 4 fun c => c.setX rd (BitVec.ofInt 64 (-2))
    | some id => match m.copyStatus id with
      | some st => m.retireTag a tag id rd st
      | none => m.retire a 4 fun c => c.setX rd (BitVec.allOnes 64)

/-! Synchronisation (R145-R147). -/

/-- Does an operand name a semaphore, or a barrier, that the partition owns? -/
def Mod.semOk (m : Mod) (c : Ctx) (v : W64) : Bool :=
  decide (v.toNat < 65536) && m.ownsSem c.part.val (m.nameSem c.part.val v.toNat)
def Mod.barOk (m : Mod) (c : Ctx) (v : W64) : Bool :=
  decide (v.toNat < 4096) && m.ownsBar c.part.val (m.nameBar c.part.val v.toNat)

/-- A synchronisation instruction that is a violation retires at once; forms with a result write zero. -/
def Mod.syncVoid (m : Mod) (a : At) (rd : Option Reg) : Mod :=
  (m.violate (m.ctxAt a).part.val).retire a 4 fun c => match rd with
    | some r => c.setX r 0
    | none => c

/-- SEM_SIG. -/
def execSemSig (a : At) (rs1 rs2 : Reg) (s : State) : Out :=
  s.go fun m => m.coreDo a fun m =>
    let c := m.ctxAt a
    let v := c.getX rs1
    if !m.semOk c v then m.syncVoid a none
    else
      let v := m.nameSem c.part.val v.toNat
      let m := m.sendSn ⟨.sig, v, bits (c.getX rs2).toNat 15 0, a.tile.val, saddleKey a.tile a.saddle, c.uid, false⟩
      (m.trace (halfOfTile a.tile.val) 4 a.tile.val c.part.val 0 v).retire a 4 id

/-- SEM_WAIT: the wait goes to the semaphore's home and the context blocks. -/
def execSemWait (a : At) (rd rs1 rs2 : Reg) (s : State) : Out :=
  s.go fun m => m.coreDo a fun m =>
    let c := m.ctxAt a
    let v := c.getX rs1
    if !m.semOk c v then m.syncVoid a (some rd)
    else
      let v := m.nameSem c.part.val v.toNat
      let n := bits (c.getX rs2).toNat 15 0
      (m.sendSn ⟨.wait, v, n, a.tile.val, saddleKey a.tile a.saddle, c.uid, false⟩).block a.tile.val a.saddle.val
        (.sem v n rd)

/-- SEM_TRY: the core holds until the home answers; this is not blocked time (R148). -/
def execSemTry (a : At) (rd rs1 rs2 : Reg) (s : State) : Out :=
  s.go fun m => m.coreDo a fun m =>
    let c := m.ctxAt a
    let v := c.getX rs1
    if !m.semOk c v then m.syncVoid a (some rd)
    else
      let v := m.nameSem c.part.val v.toNat
      let n := bits (c.getX rs2).toNat 15 0
      (m.sendSn ⟨.try, v, n, a.tile.val, saddleKey a.tile a.saddle, c.uid, false⟩).updCtx a.tile.val a.saddle.val fun c =>
        { c with wait := some (.try v rd) }

/-- BAR_AW. -/
def execBarAw (a : At) (rd rs1 : Reg) (s : State) : Out :=
  s.go fun m => m.coreDo a fun m =>
    let c := m.ctxAt a
    let v := c.getX rs1
    if !m.barOk c v then m.syncVoid a (some rd)
    else
      let v := m.nameBar c.part.val v.toNat
      let p := (m.bar v).phase
      (m.sendSn ⟨.barAw, v, p, a.tile.val, saddleKey a.tile a.saddle, c.uid, false⟩).block a.tile.val a.saddle.val
        (.bar v p rd true)

/-- BAR_A: the arrival goes to the barrier's root; the core holds until it is registered there, which is not blocked time (R148), and rd then gets the
phase it was registered at (log 134). -/
def execBarA (a : At) (rd rs1 : Reg) (s : State) : Out :=
  s.go fun m => m.coreDo a fun m =>
    let c := m.ctxAt a
    let v := c.getX rs1
    if !m.barOk c v then m.syncVoid a (some rd)
    else
      let v := m.nameBar c.part.val v.toNat
      (m.sendSn { op := .barA, num := v, src := a.tile.val, key := saddleKey a.tile a.saddle, uid := c.uid }).updCtx a.tile.val a.saddle.val fun c =>
        { c with wait := some (.arrive v rd) }

/-- BAR_W: retires at once when the phase has completed, and writes the barrier's current phase. -/
def execBarW (a : At) (rd rs1 rs2 : Reg) (s : State) : Out :=
  s.go fun m => m.coreDo a fun m =>
    let c := m.ctxAt a
    let v := c.getX rs1
    if !m.barOk c v then m.syncVoid a (some rd)
    else
      let v := m.nameBar c.part.val v.toNat
      let p := bits (c.getX rs2).toNat 15 0
      let cur := (m.bar v).phase
      if phaseDone cur p then m.retire a 4 fun c => c.setX rd (BitVec.ofNat 64 cur)
      else (m.sendSn ⟨.barW, v, p, a.tile.val, saddleKey a.tile a.saddle, c.uid, false⟩).block a.tile.val a.saddle.val
        (.bar v p rd false)

/-- Are the accesses that a context made before a hint performed: its earlier matrix issues and copies (R149; log 135)? -/
def Mod.hintReady (m : Mod) (h : DeadHint) : Bool :=
  !(m.ctxs.any fun e => e.2.uid == h.uid && e.2.iq.any fun i => decide (i.index < h.issue)) &&
  !((m.tile h.tile.val).running.any fun r => r.uid == h.uid && decide (r.issue.index < h.issue)) &&
  !(m.copies.any fun e => e.2.owner == some h.uid && e.2.status.isNone && decide (e.1 < h.copy))
/-- The range of a hint is marked. -/
def Mod.markHint (m : Mod) (h : DeadHint) : Mod := m.deadRange (Fin.ofNat 2048 h.tile.val) h.part.val h.va h.len
/-- The hints that have waited long enough are carried out, oldest first. -/
def Mod.settleHints (m : Mod) : Mod :=
  forEach m.cache.hints (fun h m =>
    if m.hintReady h then { m.markHint h with cache := { (m.markHint h).cache with hints := (m.markHint h).cache.hints.erase h } } else m) m

/-- HINT_DEAD (R149): the lines are marked once the context's earlier accesses are performed. -/
def execHintDead (a : At) (rs1 rs2 : Reg) (s : State) : Out :=
  s.go fun m => m.coreDo a fun m =>
    let c := m.ctxAt a
    let va := (c.getX rs1).toNat
    let h : DeadHint := { uid := c.uid, tile := a.tile, part := c.part, va := va % 2 ^ 62, len := min (c.getX rs2).toNat (64 * 2 ^ 20),
                          issue := c.issues, copy := m.copySeq }
    let m := if va / 2 ^ 62 ≠ 2 ∨ 2 ^ 48 ≤ va % 2 ^ 62 then m
      else if m.hintReady h then m.markHint h
      else { m with cache := { m.cache with hints := m.cache.hints ++ [h] } }
    m.retire a 4 id

/-! Fences (Table 4.7). Kinds: 0 E, 1 M, 2 H, 3 FAB, 4 ALL. -/

/-- Are all engine operations of a context complete: issues, vector operations and copies? -/
def Mod.enginesIdle (m : Mod) (t s : Nat) : Bool :=
  let c := m.ctx t s
  c.iq.isEmpty && c.vq == 0 && ((m.tile t).running.all fun r => r.sd.val != s) && m.copiesDone c.uid

/-- Does a fence wait for host-memory writes: a read flush issued after them has not returned? -/
def Ctx.awaitsFlush (kind : Nat) (c : Ctx) : Bool := (kind == 2 || kind == 4) && c.hmPend

/-- Does a fence's condition hold? -/
def Mod.fenceMet (m : Mod) (t s kind : Nat) : Bool :=
  let c := m.ctx t s
  m.enginesIdle t s && !(c.awaitsFlush kind) && ((kind != 3 && kind != 4) || m.fabDelivered c.uid)

/-- What a fence that has completed leaves pending. -/
def Ctx.fenced (kind : Nat) (c : Ctx) : Ctx :=
  { c with fabPend := if kind = 3 ∨ kind = 4 then false else c.fabPend }

/-- A fence for host-memory writes has the port issue a read flush once the context's copies have posted them, unless one is under way (08 R255). -/
def Mod.fenceFlush (m : Mod) (t s kind : Nat) : Mod :=
  if (m.ctx t s).awaitsFlush kind && m.enginesIdle t s && !m.host.flush && m.host.portState != 2 then m.issueFlush else m

/-- A fence: it retires where its condition holds, else the context blocks. -/
def Mod.fence (m : Mod) (a : At) (kind : Fin 5) : Mod :=
  if m.fenceMet a.tile.val a.saddle.val kind.val then m.retire a 4 (Ctx.fenced kind.val)
  else (m.fenceFlush a.tile.val a.saddle.val kind.val).block a.tile.val a.saddle.val (.fence kind)

/-- FENCE_E. -/
def execFenceE (a : At) (s : State) : Out := s.go fun m => m.coreDo a fun m => m.fence a 0
/-- FENCE_M. -/
def execFenceM (a : At) (s : State) : Out := s.go fun m => m.coreDo a fun m => m.fence a 1
/-- FENCE_H. -/
def execFenceH (a : At) (s : State) : Out := s.go fun m => m.coreDo a fun m => m.fence a 2
/-- FENCE_FAB. -/
def execFenceFab (a : At) (s : State) : Out := s.go fun m => m.coreDo a fun m => m.fence a 3
/-- FENCE_ALL. -/
def execFenceAll (a : At) (s : State) : Out := s.go fun m => m.coreDo a fun m => m.fence a 4

/-- The task ends OK with an exit code (R152). -/
def Mod.taskEnds (m : Mod) (t s : Nat) (exit : BitVec 16) : Mod :=
  let c := m.ctx t s
  let m := m.trace (halfOfTile t) 3 t c.part.val exit.toNat 0
  let m := m.updCtx t s fun c => { c with endExit := exit, wait := none }
  (m.endTask t s stOK 0 0 0).reportEnd t s

/-- FENCE_DONE: the condition of the fence that blocks a context holds; it retires, or its TASK.END ends the task. -/
def execFenceDone (t : TileId) (sd : SaddleId) (s : State) : Out :=
  s.go fun m =>
    let c := m.ctx t.val sd.val
    if c.st != .blocked then m
    else match c.wait with
      | some (.fence k) =>
        if m.fenceMet t.val sd.val k.val then
          (m.updCtx t.val sd.val fun c => (c.fenced k.val).endWait none).pickCur t.val
        else m.fenceFlush t.val sd.val k.val
      | some (.taskEnd e) => if m.fenceMet t.val sd.val 0 then m.taskEnds t.val sd.val e else m
      | _ => m

/-- DBG_TRACE (R156). -/
def execDbgTrace (a : At) (rs1 : Reg) (s : State) : Out :=
  s.go fun m => m.coreDo a fun m =>
    let c := m.ctxAt a
    (m.trace (halfOfTile a.tile.val) 0 a.tile.val c.part.val (c.getX rs1).toNat c.pc.toNat).retire a 4 id

/-- DBG_BRK: nothing while debug is disabled, else a stop (R155). -/
def execDbgBrk (a : At) (s : State) : Out :=
  s.go fun m =>
    let stepped := (m.ctxAt a).stepOver
    m.coreDo a fun m =>
      if !m.debugOn (m.ctxAt a) || stepped then m.retire a 4 id
      else m.halt a.tile.val a.saddle.val

/-- TASK_END: a FENCE.E, then the end of the task; in M-mode illegal instruction (R152). -/
def execTaskEnd (a : At) (rs1 : Reg) (s : State) : Out :=
  s.go fun m => m.coreDo a fun m =>
    if (m.ctxAt a).mmode then m.illegal a
    else
    let e : BitVec 16 := ((m.ctxAt a).getX rs1).truncate 16
    if m.fenceMet a.tile.val a.saddle.val 0 then m.taskEnds a.tile.val a.saddle.val e
    else m.block a.tile.val a.saddle.val (.taskEnd e)

end Sys2Proof.Machine
end

