-- ==== Sys2Proof/Machine/Clock.lean ====
section
/-! DEFINITION. What happens in a cycle in which no command waits (log 2): the clocks advance, and what the spec lets units do on their own goes one step
on. -/

namespace Sys2Proof.Machine

/-- One cycle of the 8.4 GHz root: every vector queue completes an operation (04 R136), every bank of a tile array serves a starved requester (03 R88),
the hints whose earlier accesses are performed take effect (04 R149). -/
def Mod.tick (m : Mod) : Mod :=
  Mod.settleHints { m with
    ticks := m.ticks + 1
    ctxs := m.ctxs.mapVals fun c => { c with vq := c.vq - 1 }
    tiles := m.tiles.mapVals Tile.serveStarved }

end Sys2Proof.Machine
end

