-- ==== Sys2Proof/Machine/Seq.lean ====
section
/-! DEFINITION. The sequence engine (spec 12): model slots, the active sequence table, the page pool, KV page tables and block
summaries, the step builder and step end, selections. The table caches hold every entry as data and write it through to EM (R338, log 37). -/

namespace Sys2Proof.Machine

def Mod.updSeq (m : Mod) (f : SeqS → SeqS) : Mod := { m with seq := f m.seq }

/-- Result codes (R334). -/
def scDONE : Nat := 0
def scNOSEQ : Nat := 1
def scBUSY : Nat := 2
def scFULL : Nat := 3
def scQUOTA : Nat := 4
def scPOOL : Nat := 5
def scLIMIT : Nat := 6
def scSTATE : Nat := 7

/-- A sequence command ends with its code (R334). -/
def Mod.seqEnd (m : Mod) (id code spec : Nat) : Mod :=
  (m.updCmd id fun c => { c with seqrc := code, spec := spec }).endCmd id
/-- NOSEQ (R335), answered and counted by a quarter. -/
def Mod.noSeqAt (m : Mod) (id k : Nat) : Mod := (m.count kSeqNoseq k).seqEnd id scNOSEQ 0
/-- NOSEQ for a command that names a slot, by the quarter of its queue pair. -/
def Mod.noSeq (m : Mod) (id : Nat) (c : HCmd) : Mod := m.noSeqAt id c.iod.val

/-! Slots (Table 12.3). -/

def Slot.fld (x : Slot) (hi lo : Nat) : Nat := bits x.desc.toNat hi lo
def Slot.layers (x : Slot) : Nat := x.fld 7 0 + 1
def Slot.h (x : Slot) : Nat := 2 ^ x.fld 10 8
def Slot.d (x : Slot) : Nat := 2 ^ x.fld 13 11
def Slot.kvf (x : Slot) : Nat := x.fld 17 14
def Slot.e (x : Slot) : Nat := fmtWidth x.kvf / 8
def Slot.qlog2 (x : Slot) : Nat := x.fld 20 18
def Slot.mode (x : Slot) : Nat := x.fld 22 21
def Slot.budget (x : Slot) : Nat := x.fld 39 24 + 1
def Slot.chunk (x : Slot) : Nat := x.fld 52 40 + 1
def Slot.pshare (x : Slot) : Nat := x.fld 56 53
def Slot.winb (x : Slot) : Nat := x.fld 79 64
def Slot.sinkb (x : Slot) : Nat := x.fld 87 80
def Slot.localb (x : Slot) : Nat := x.fld 95 88
def Slot.topk (x : Slot) : Nat := x.fld 107 96 + 1
def Slot.prog (x : Slot) : Nat := x.fld 143 128
/-- Block size in positions (R337). -/
def Slot.pb (x : Slot) : Nat := 32768 / (x.h * x.d * x.e)
/-- Query heads, and summaries to a summary page (R349, R357). -/
def Slot.hq (x : Slot) : Nat := x.h * 2 ^ x.qlog2
def Slot.sp (x : Slot) : Nat := 16384 / (x.h * x.d)

/-- The lowest bit of the field of a slot descriptor that is refused: a reserved field or encoding, or a case of R336. -/
def slotRefusal (desc : BitVec 512) : Option Nat :=
  let x : Slot := { part := 0, desc := desc }
  let low (hi lo : Nat) : List Nat := if x.fld hi lo = 0 then [] else [lo]
  let l := (if 4 < x.fld 10 8 then [8] else []) ++
    (if x.fld 13 11 < 6 ∨ 8 < x.fld 13 11 then [11] else []) ++
    (if x.kvf < 2 ∨ 5 < x.kvf then [14] else []) ++
    (if 4 < x.qlog2 then [18] else []) ++ (if x.mode = 3 then [21] else []) ++ low 23 23 ++ low 63 57 ++
    (if x.mode = 1 ∧ x.winb = 0 then [64] else []) ++ low 127 108 ++ low 511 144
  match l with
  | b :: _ => some b
  | [] =>
    if 512 < x.h * x.d * x.e then some 8
    else if 64 < x.hq then some 18
    else if x.chunk % x.pb ≠ 0 then some 40
    else if x.mode = 2 ∧ 4096 < x.sinkb + x.localb + x.topk then some 80
    else none

/-! Entries. A table index is quarter * 2^18 + entry (Table 12.4). -/

def Mod.ent (m : Mod) (i : Nat) : SeqEnt := m.seq.ents.getD i {}
def Mod.listOf (m : Mod) (slot k : Nat) : List Nat := m.seq.ready.getD (slot * 4 + k) []
/-- The neighbours of an entry in a ready list, 0 where it has none. -/
def neighbours (i : Nat) : List Nat → Nat × Nat
  | [] => (0, 0)
  | [_] => (0, 0)
  | a :: b :: l => if a = i then (0, b) else if b = i then (a, l.headD 0) else neighbours i (b :: l)
/-- An entry as it lies in EM (Table 12.5). -/
def SeqEnt.word (e : SeqEnt) (prev next : Nat) : Nat :=
  e.state.val + e.gen % 4096 * 2 ^ 3 + e.slot.val * 2 ^ 15 + e.part.val * 2 ^ 23 + e.prio.val * 2 ^ 30 + e.reason.val * 2 ^ 33 +
    e.pos % 2 ^ 25 * 2 ^ 39 + e.pend % 2 ^ 25 * 2 ^ 64 + e.pbase % 2 ^ 24 * 2 ^ 89 + e.last.toNat * 2 ^ 128 +
    e.generated % 2 ^ 24 * 2 ^ 160 + e.maxnew % 2 ^ 24 * 2 ^ 192 + e.dline % 2 ^ 16 * 2 ^ 216 + e.credit % 2 ^ 16 * 2 ^ 232 +
    e.root % 2 ^ 25 * 2 ^ 256 + e.nnpage % 2 ^ 25 * 2 ^ 281 + e.nnidx % 16 * 2 ^ 306 + e.pages % 2 ^ 26 * 2 ^ 320 +
    e.tokva % 2 ^ 48 * 2 ^ 384 + e.usertag.toNat * 2 ^ 448 + next % 2 ^ 20 * 2 ^ 512 + prev % 2 ^ 20 * 2 ^ 532
/-- The engine writes an entry to SEQ_AST_BASE + 128·i, a durable write of class SEQ (R338). -/
def Mod.putEnt (m : Mod) (i : Nat) : Mod :=
  if !m.seq.inService then m
  else
    let e := m.ent i
    let n := neighbours i (m.listOf e.slot.val (quarterOf i))
    m.physWriteBy (seqAgent (m.actingIod (quarterOf i))) (m.seq.base + 128 * i) (leBytes (e.word n.1 n.2) 128) 5
def Mod.setEnt (m : Mod) (i : Nat) (e : SeqEnt) : Mod := (m.updSeq fun s => { s with ents := s.ents.put i e }).putEnt i
def seqIdOf (i : Nat) (e : SeqEnt) : Nat := e.gen % 4096 * 2 ^ 20 + i
/-- In ADMITTED, PREFILL or DECODE. -/
def SeqEnt.live (e : SeqEnt) : Bool := e.state == 1 || e.state == 2 || e.state == 3

/-- The entry a command names, or NOSEQ from its homing quarter (R335): a sequence of another partition counts as a violation. -/
def Mod.named (m : Mod) (id : Nat) (c : HCmd) (f : Nat → SeqEnt → Mod → Mod) : Mod :=
  let sid := c.wf 0 31 0
  let i := sid % 2 ^ 20
  let e := m.ent i
  if !m.seq.inService || e.state == 0 || e.gen % 4096 != sid / 2 ^ 20 then m.noSeqAt id (quarterOf i)
  else if e.part != c.fn then (m.violate c.fn.val).noSeqAt id (quarterOf i)
  else f i e m

/-- Sequences of a partition that are not FREE. -/
def Mod.seqLive (m : Mod) (p : PartId) : Nat := (m.seq.ents.filter fun e => e.2.state != 0 && e.2.part == p).length
/-- Entries of a quarter that are not FREE. -/
def Mod.seqLiveQ (m : Mod) (k : Nat) : Nat := (m.seq.ents.filter fun e => e.2.state != 0 && quarterOf e.1 == k).length
/-- Does a slot hold a sequence that is not FREE (R336)? -/
def Mod.slotHeld (m : Mod) (n : Nat) : Bool := m.seq.ents.any fun e => e.2.state != 0 && e.2.slot.val == n

/-! Ready lists, by slot * 4 + quarter. -/

def readyKey (slot i : Nat) : Nat := slot * 4 + quarterOf i
/-- Entry `i` has left its place in a ready list or taken one at its end: the entries whose RPREV or RNEXT changed are written; `was` is the list
before. -/
def Mod.relink (m : Mod) (i slot : Nat) (was : List Nat) : Mod :=
  let now := m.listOf slot (quarterOf i)
  forEach ((i :: was ++ now).eraseDups.filter fun j => decide (j = i ∨ neighbours j was ≠ neighbours j now)) (fun j m => m.putEnt j) m
def Mod.unlist (m : Mod) (i : Nat) (e : SeqEnt) : Mod :=
  (m.updSeq fun s => { s with ready := s.ready.adj (readyKey e.slot.val i) fun l => l.filter (· != i) }).relink i e.slot.val
    (m.listOf e.slot.val (quarterOf i))
def Mod.enlist (m : Mod) (i : Nat) (e : SeqEnt) : Mod :=
  (m.updSeq fun s => { s with ready := s.ready.upd (readyKey e.slot.val i) [] fun l => l.filter (· != i) ++ [i] }).relink i e.slot.val
    (m.listOf e.slot.val (quarterOf i))

/-! The page pool (R345-R348). -/

def PoolExt.free (x : PoolExt) : Nat := x.count - x.used.length
/-- Free pages of a kind that a quarter has for a partition. -/
def Mod.poolFree (m : Mod) (p : PartId) (k : Nat) (table : Bool) : Nat :=
  m.seq.extents.foldl (fun n x => if x.part = p ∧ x.quarter.val = k ∧ x.table = table then n + x.free else n) 0
/-- The lowest free page of an extent. -/
def PoolExt.lowest (x : PoolExt) : Option Nat :=
  ((List.range (x.used.length + 1)).map (x.base + ·)).find? fun n => !(x.used.has n) && decide (n < x.base + x.count)
/-- Allocate the lowest free page of a kind. -/
def Mod.allocPage (m : Mod) (p : PartId) (k : Nat) (table : Bool) : Option (Nat × Mod) :=
  let l := (m.seq.extents.filter fun x => x.part == p && x.quarter.val == k && x.table == table).filterMap PoolExt.lowest
  match leastBy (fun (n : Nat) => [(n : Int)]) l with
  | none => none
  | some n => some (n, m.updSeq fun s => { s with extents := s.extents.map fun x =>
      if x.base ≤ n ∧ n < x.base + x.count then { x with used := x.used.put n () } else x })
/-- Return a page. -/
def Mod.freePage (m : Mod) (n : Nat) : Mod :=
  m.updSeq fun s => { s with extents := s.extents.map fun x => { x with used := x.used.del n } }

/-! Page tables (Table 12.8). -/

/-- An entry of a node: page * 16 + node, index. The flag says that the node read as poison. -/
def Mod.readNode (m : Mod) (node idx : Nat) : (Nat × Bool) × Mod :=
  let r := m.physRead (node / 16 * 65536 + node % 16 * 4096 + 8 * idx) 8 7
  ((leNat r.1.bytes, r.1.poison), r.2)
def Mod.writeNode (m : Mod) (node idx v : Nat) : Mod :=
  m.physWrite (node / 16 * 65536 + node % 16 * 4096 + 8 * idx) (leBytes v 8) 7
/-- A node entry that names a node. -/
def nodeEntry (node : Nat) : Nat := 2 ^ 63 + node % 16 * 2 ^ 58 + node / 16
def entryNode (v : Nat) : Nat := bits v 24 0 * 16 + bits v 61 58
def entryValid (v : Nat) : Bool := v.testBit 63

/-- An allocation under way for an item: the module, the entry, POOL or poison met. -/
structure Alloc where
  m : Mod
  e : SeqEnt
  short : Bool := false
  poison : Bool := false
  deriving DecidableEq, Repr

/-- Take the next free node, from a new node page where the last is full; it holds no valid entry (log 36). -/
def Alloc.node (a : Alloc) (q : Nat) : Nat × Alloc :=
  let fresh (a : Alloc) : Nat × Alloc :=
    let n := a.e.nnpage * 16 + a.e.nnidx
    (n, { a with e := { a.e with nnidx := a.e.nnidx + 1 },
                 m := a.m.physWrite (n / 16 * 65536 + n % 16 * 4096) (List.replicate 4096 0) 7 })
  if a.e.nnidx < 16 then fresh a
  else match a.m.allocPage a.e.part q true with
    | none => (0, { a with short := true })
    | some r => fresh { a with m := r.2, e := { a.e with nnpage := r.1, nnidx := 0, pages := a.e.pages + 1 } }

/-- Read a node entry. -/
def Alloc.get (a : Alloc) (node idx : Nat) : Nat × Alloc :=
  let r := a.m.readNode node idx
  (r.1.1, { a with m := r.2, poison := a.poison || r.1.2 })

/-- The node below an entry, made where it is not there. -/
def Alloc.child (a : Alloc) (q node idx : Nat) : Nat × Alloc :=
  let r := a.get node idx
  if r.2.poison then (0, r.2)
  else if entryValid r.1 then (entryNode r.1, r.2)
  else
    let n := r.2.node q
    if n.2.short then n else (n.1, { n.2 with m := n.2.m.writeNode node idx (nodeEntry n.1) })

/-- Make sure that block `b` of layer `l` has its nodes, its KV page and, in SUMMARY_TOPK, its summary page (R348, R349). -/
def Alloc.block (a : Alloc) (x : Slot) (q l b : Nat) : Alloc :=
  if a.short || a.poison then a
  else
    let r2 := a.child q (a.e.root * 16) l
    let r3 := if r2.2.short || r2.2.poison then r2 else r2.2.child q r2.1 (b / 512)
    if r3.2.short || r3.2.poison then r3.2
    else
      let v := r3.2.get r3.1 (b % 512)
      if v.2.poison || entryValid v.1 then v.2
      else match v.2.m.allocPage a.e.part q false with
      | none => { v.2 with short := true }
      | some kv =>
        let c : Alloc := { v.2 with m := kv.2, e := { v.2.e with pages := v.2.e.pages + 1 } }
        if x.mode ≠ 2 then { c with m := c.m.writeNode r3.1 (b % 512) (2 ^ 63 + kv.1) }
        else if b % x.sp = 0 then
          (match c.m.allocPage a.e.part q true with
            | none => { c with short := true }
            | some su => { c with m := su.2.writeNode r3.1 (b % 512) (2 ^ 63 + su.1 * 2 ^ 29 + kv.1),
                                  e := { c.e with pages := c.e.pages + 1 } })
        else
          let w := c.get r3.1 (b % 512 - b % x.sp)
          { w.2 with m := w.2.m.writeNode r3.1 (b % 512) (2 ^ 63 + bits w.1 53 29 * 2 ^ 29 + kv.1) }

/-- All pages for `n` positions from `pos`, layer by layer. -/
def Mod.allocItem (m : Mod) (x : Slot) (i : Nat) (e : SeqEnt) (pos n : Nat) : Alloc :=
  let b0 := pos / x.pb
  let b1 := (pos + n - 1) / x.pb
  (List.range x.layers).foldl (fun a l =>
    (List.range (b1 + 1 - b0)).foldl (fun a j => a.block x (quarterOf i) l (b0 + j)) a) { m := m, e := e }

/-- The level-3 node and the entry of a block, or none where there is none; poison in a node counts as none. -/
def Mod.findBlock (m : Mod) (e : SeqEnt) (l b : Nat) : Option (Nat × Nat) :=
  let r1 := (m.readNode (e.root * 16) l).1
  if r1.2 || !(entryValid r1.1) then none
  else
    let r2 := (m.readNode (entryNode r1.1) (b / 512)).1
    if r2.2 || !(entryValid r2.1) then none
    else
      let r3 := (m.readNode (entryNode r2.1) (b % 512)).1
      if r3.2 || !(entryValid r3.1) then none else some (entryNode r2.1, r3.1)

/-! Slot commands. -/

/-- SLOT_SET (R335, R336). -/
def execSlotSet (id : Nat) (s : State) : Out :=
  s.go fun m => m.runCmd id 0x10 fun c m =>
    let n := c.wf 0 7 0
    let desc := BitVec.ofNat 512 (bits c.hdr 767 256)
    match slotRefusal desc with
    | some b => m.refuseCmd id (256 + b)
    | none =>
      match Tab.find n m.seq.slots with
      | some o =>
        if o.part != c.fn then (m.violate c.fn.val).noSeq id c
        else if m.slotHeld n then m.seqEnd id scSTATE 0
        else (m.updSeq fun s => { s with slots := s.slots.put n ⟨c.fn, desc⟩ }).seqEnd id scDONE 0
      | none => (m.updSeq fun s => { s with slots := s.slots.put n ⟨c.fn, desc⟩ }).seqEnd id scDONE 0

/-- SLOT_CLEAR. -/
def execSlotClear (id : Nat) (s : State) : Out :=
  s.go fun m => m.runCmd id 0x11 fun c m =>
    let n := c.wf 0 7 0
    match Tab.find n m.seq.slots with
    | none => m.seqEnd id scDONE 0
    | some o =>
      if o.part != c.fn then (m.violate c.fn.val).noSeq id c
      else if m.slotHeld n then m.seqEnd id scSTATE 0
      else (m.updSeq fun s => { s with slots := s.slots.del n }).seqEnd id scDONE 0

/-! Sequence commands. -/

/-- The head of a quarter's entry free list (log 35). -/
def Mod.freeEntry (m : Mod) (k : Nat) : Option Nat :=
  let n := m.seq.fresh.getD k 0
  if n < 2 ^ 18 then some (k * 2 ^ 18 + n)
  else match m.seq.freed.getD k [] with
    | [] => none
    | i :: _ => some i
def Mod.takeEntry (m : Mod) (k : Nat) : Mod :=
  let n := m.seq.fresh.getD k 0
  m.updSeq fun s => if n < 2 ^ 18 then { s with fresh := s.fresh.put k (n + 1) }
    else { s with freed := s.freed.adj k (List.drop 1) }

/-- SEQ_ADMIT (R341), among the quarters that a die serves (log 123). Another partition's slot is NOSEQ in every case (R335), then an OFFLINE table is FULL (R339). -/
def execSeqAdmit (id : Nat) (s : State) : Out :=
  s.go fun m => m.runCmd id 0x12 fun c m =>
    let n := c.wf 0 7 0
    let len := c.wf 2 23 0
    if len = 0 then m.refuseCmd id 256
    else match Tab.find n m.seq.slots with
    | none => if m.seq.inService then m.noSeq id c else m.seqEnd id scFULL 0
    | some o =>
      if o.part != c.fn then (m.violate c.fn.val).noSeq id c
      else if !m.seq.inService then m.seqEnd id scFULL 0
      else
        let ks := [0, 1, 2, 3].filter fun k => m.served k && (m.freeEntry k).isSome
        match leastBy (fun (k : Nat) => [-((m.poolFree c.fn k false : Nat) : Int), (k : Int)]) ks with
        | none => m.seqEnd id scFULL 0
        | some k =>
          if m.parN (pSeqQuota + c.fn.val) ≤ m.seqLive c.fn then m.seqEnd id scQUOTA 0
          else match m.freeEntry k, m.allocPage c.fn k true with
          | some i, some r =>
            let e : SeqEnt := { state := 1, gen := (m.ent i).gen, slot := Fin.ofNat 256 n, part := c.fn,
                                prio := Fin.ofNat 8 (c.wf 0 10 8), dline := c.wf 0 31 16, maxnew := c.wf 0 55 32, pend := len,
                                root := r.1, nnpage := r.1, nnidx := 1, pages := 1, tokva := bits (c.w 1) 47 0,
                                usertag := BitVec.ofNat 64 (c.w 3) }
            let m := (r.2.takeEntry k).physWrite (r.1 * 65536) (List.replicate 4096 0) 7
            ((((m.setEnt i e).enlist i e).count kSeqAdmits k)).seqEnd id scDONE (seqIdOf i e)
          | _, _ => m.seqEnd id scPOOL 0

/-- Has a sequence an item in a running step (R343)? -/
def Mod.inStep (m : Mod) (i : Nat) : Bool := m.seq.steps.any fun r => r.2.items.any fun t => t.ent == i

/-- SEQ_APPEND applied (R342). -/
def Mod.seqAppend (m : Mod) (id : Nat) (c : HCmd) : Mod :=
  m.named id c fun i e m =>
    if e.state == 2 then m.seqEnd id scBUSY 0
    else if e.state != 3 then m.seqEnd id scSTATE 0
    else
      let pend := e.pos + c.wf 0 55 32
      if 16777215 < pend then m.seqEnd id scLIMIT 0
      else (m.setEnt i { e with state := 2, pbase := e.pos, pend := pend, tokva := bits (c.w 1) 47 0, last := 0 }).seqEnd id scDONE 0

/-- SEQ_PARK applied. -/
def Mod.seqPark (m : Mod) (id : Nat) (c : HCmd) : Mod :=
  m.named id c fun i e m =>
    if e.live then ((m.setEnt i { e with state := 4 }).unlist i e).seqEnd id scDONE 0
    else m.seqEnd id scSTATE 0

/-- A sequence becomes RETIRING for a reason. -/
def Mod.retireSeq (m : Mod) (i : Nat) (e : SeqEnt) (reason : Fin 16) : Mod :=
  (m.setEnt i { e with state := 5, reason := reason }).unlist i e

/-- SEQ_RETIRE applied: it completes when the entry is FREE. -/
def Mod.seqRetire (m : Mod) (id : Nat) (c : HCmd) : Mod :=
  m.named id c fun i e m =>
    let m := if e.state == 5 then m else m.retireSeq i e 4
    m.updSeq fun s => { s with retiring := s.retiring ++ [(i, id)] }

/-- A command that waits for the end of a step that serves its sequence (R343), or is applied at once. -/
def Mod.seqHold (m : Mod) (id : Nat) (c : HCmd) (f : Mod → Mod) : Mod :=
  let i := c.wf 0 31 0 % 2 ^ 20
  let e := m.ent i
  if e.state != 0 && e.gen % 4096 == c.wf 0 31 0 / 2 ^ 20 && e.part == c.fn && m.inStep i then
    m.updSeq fun s => { s with held := s.held ++ [id] }
  else f m

/-- SEQ_APPEND. -/
def execSeqAppend (id : Nat) (s : State) : Out :=
  s.go fun m => m.runCmd id 0x13 fun c m => m.seqHold id c fun m => m.seqAppend id c
/-- SEQ_PARK. -/
def execSeqPark (id : Nat) (s : State) : Out :=
  s.go fun m => m.runCmd id 0x14 fun c m => m.seqHold id c fun m => m.seqPark id c
/-- SEQ_RETIRE. -/
def execSeqRetire (id : Nat) (s : State) : Out :=
  s.go fun m => m.runCmd id 0x16 fun c m => m.seqHold id c fun m => m.seqRetire id c

/-- SEQ_RESUME (Table 12.6). -/
def execSeqResume (id : Nat) (s : State) : Out :=
  s.go fun m => m.runCmd id 0x15 fun c m => m.named id c fun i e m =>
    if e.state != 4 then m.seqEnd id scSTATE 0
    else
      let e : SeqEnt := { e with state := if e.pos = 0 then 1 else if e.pos < e.pend then 2 else 3 }
      ((m.setEnt i e).enlist i e).seqEnd id scDONE 0

/-- SEQ_QUERY (14 Table 14.11). -/
def execSeqQuery (id : Nat) (s : State) : Out :=
  s.go fun m => m.runCmd id 0x17 fun c m => m.named id c fun _ e m =>
    m.seqEnd id scDONE (e.state.val + e.reason.val * 2 ^ 3 + e.pos * 2 ^ 7 + e.pend * 2 ^ 32 + e.generated * 2 ^ 64 +
      e.pages * 2 ^ 88)

/-! Retirement (R340, R344). -/

/-- Pages a sequence holds: every page its table names, and its node pages. -/
def Mod.seqPages (m : Mod) (e : SeqEnt) : List Nat :=
  let level1 := (List.range 256).filterMap fun l =>
    let r := (m.readNode (e.root * 16) l).1
    if entryValid r.1 then some (entryNode r.1) else none
  let level2 := level1.flatMap fun n => (List.range 512).filterMap fun j =>
    let r := (m.readNode n j).1
    if entryValid r.1 then some (entryNode r.1) else none
  let leaves := level2.flatMap fun n => (List.range 512).filterMap fun j =>
    let r := (m.readNode n j).1
    if entryValid r.1 then some r.1 else none
  let summary := match Tab.find e.slot.val m.seq.slots with
    | some x => x.mode == 2
    | none => false
  e.root :: e.nnpage :: (level1.map (· / 16)) ++ (level2.map (· / 16)) ++ (leaves.map fun v => bits v 24 0) ++
    (if summary then leaves.map fun v => bits v 53 29 else [])

/-- The entry becomes FREE with its next generation. -/
def Mod.freeEnt (m : Mod) (i : Nat) : Mod :=
  let e := m.ent i
  let m := forEach (m.seqPages e) (fun n m => m.freePage n) m
  let g := if (e.gen + 1) % 4096 = 0 then 1 else (e.gen + 1) % 4096
  let k := quarterOf i
  (((m.unlist i e).setEnt i { gen := g }).updSeq fun s => { s with freed := s.freed.upd k [] (· ++ [i]) }).count kSeqRetires k

/-- RETIRE_DONE. -/
def execRetireDone (index : BitVec 20) (s : State) : Out :=
  s.go fun m =>
    let i := index.toNat
    if (m.ent i).state != 5 || m.inStep i || !(m.finishes (quarterOf i)) then m
    else
      let m := m.freeEnt i
      let mine := m.seq.retiring.filter fun r => r.1 == i
      let m := m.updSeq fun s => { s with retiring := s.retiring.filter fun r => r.1 != i }
      forEach mine (fun r m => m.seqEnd r.2 scDONE 0) m

/-! The table and the pool. -/

/-- SEQ_AST_INIT (R339). -/
def Mod.astInit (m : Mod) : Nat × Mod :=
  let base := m.parN pSeqAstBase
  let fkt := m.parN pMemFktBase
  let size := 2 ^ 27
  let overlap (a n : Nat) : Bool := decide (a < base + size ∧ base < a + n)
  let frames := List.range 2048
  if m.seq.inService || m.seq.initing || base % size != 0 || decide (paLimit < base + size) ||
      overlap fkt (2 ^ 25) || m.seq.extents.any (fun x => overlap (x.base * 65536) (x.count * 65536)) ||
      !(frames.all fun i => kindOf (m.region (regionOf (base + i * 65536))) == kMIRROR && m.tagOf (base + i * 65536) == 0xFE)
    then (esSTATE, m)
  else (esRUNNING, m.updSeq fun s => { s with initing := true, base := base })

/-- SEQ_AST_INIT. -/
def execSeqAstInit (s : State) : Out := s.go fun m => m.perform pSeqAstInit fun m => m.astInit

/-- Every entry of the table is written, 2^20 durable writes. -/
@[irreducible] def Mod.putTable (m : Mod) : Mod := forEach (List.range (2 ^ 20)) (fun i m => m.putEnt i) m

/-- SEQ_AST_INIT_DONE: every entry is written FREE with GEN 1, and the table is in service. -/
def execSeqAstInitDone (s : State) : Out :=
  s.go fun m =>
    if !m.seq.initing then m
    else (m.updSeq fun s => { s with
      initing := false, inService := true, ents := [], freed := [], fresh := [], ready := [] }).putTable.acted pSeqAstInit esOK

/-- One record of SEQ_POOL_SET applied (Table 12.7), or none where it is refused (R346). Reserved bits are ignored (00 R14). -/
def Mod.poolRecord (m : Mod) (r : Nat) : Option Mod :=
  let base := bits r 24 0
  let count := bits r 56 32
  let part := bits r 70 64
  let fkt := m.parN pMemFktBase / 65536
  let meets (a n : Nat) : Bool := decide (a < base + count ∧ base < a + n)
  if r.testBit 74 then
    match m.seq.extents.find? fun x => x.base == base with
    | none => none
    | some x => if x.used.isEmpty then some (m.updSeq fun s => { s with extents := s.extents.erase x }) else none
  else if count = 0 ∨ 2 ^ 25 < base + count ∨ 256 ≤ m.seq.extents.length then none
  else if m.seq.extents.any (fun x => meets x.base x.count) || meets fkt 512 ||
      ((m.seq.inService || m.seq.initing) && meets (m.seq.base / 65536) 2048) ||
      (List.range count).any (fun i => (m.tagOf ((base + i) * 65536)).toNat != part || !(m.mappable ((base + i) * 65536)))
    then none
  else some (m.updSeq fun s => { s with extents := s.extents ++
    [{ base := base, count := count, part := Fin.ofNat 128 part, quarter := Fin.ofNat 4 (bits r 72 71), table := r.testBit 73 }] })

/-- SEQ_POOL_SET, whole or not at all (R346). -/
def Mod.poolSet (m : Mod) (blob : List Byte) : Nat × Mod :=
  if blob.length % 16 ≠ 0 ∨ blob.length = 0 ∨ 1024 < blob.length then (esTYPE, m)
  else match (recordsOf 16 blob).foldl (fun (a : Option Mod) r => a.bind fun m => m.poolRecord r) (some m) with
    | none => (esSTATE, m)
    | some n => (esOK, n)

/-- SEQ_POOL_SET. -/
def execSeqPoolSet (blob : List Byte) (s : State) : Out := s.go fun m => m.perform pSeqPoolSet fun m => m.poolSet blob

/-- MEM_REGION_SET (11 R308, R333): the regions under the table keep their kind (R339). -/
def Mod.regionsSet (m : Mod) (blob : List Byte) : Nat × Mod :=
  m.regionSet (if m.seq.inService || m.seq.initing then [regionOf m.seq.base, regionOf (m.seq.base + 2 ^ 27 - 1)] else []) blob

/-- MEM_REGION_SET. -/
def execMemRegionSet (blob : List Byte) (s : State) : Out := s.go fun m => m.perform pMemRegionSet fun m => m.regionsSet blob

/-! The step builder (R351, R352). -/

/-- A ready sequence with its class (0 due, 1 decode, 2 prefill), priority, quarter and demand. -/
structure Demand where
  ent : Nat
  cls : Fin 3
  prio : Fin 8
  q : Fin 4
  need : Nat
  deriving DecidableEq, Repr

def Mod.demands (m : Mod) (x : Slot) (slot : Nat) : List Demand :=
  [0, 1, 2, 3].flatMap fun (k : Fin 4) => (m.listOf slot k.val).map fun i =>
    let e := m.ent i
    if e.state == 3 then ⟨i, if e.dline ≠ 0 ∧ e.dline ≤ e.credit then 0 else 1, e.prio, k, 1⟩
    else ⟨i, 2, e.prio, k, min x.chunk (e.pend - e.pos)⟩

/-- Grants so far, by class * 32 + priority * 4 + quarter. -/
abbrev Grants := Tab Nat

def grantKey (cls prio q : Nat) : Nat := cls * 32 + prio * 4 + q

/-- Grant a class up to `cap` tokens: in proportion to what its quarters still ask, the remainder one token at a time in ascending
order. Gives the tokens granted. -/
def grantClass (ds : List Demand) (cls prio cap : Nat) (g : Grants) : Nat × Grants :=
  let want (q : Nat) : Nat :=
    ds.foldl (fun n d => if d.cls.val = cls ∧ d.prio.val = prio ∧ d.q.val = q then n + d.need else n) 0 - g.getD (grantKey cls prio q) 0
  let total := want 0 + want 1 + want 2 + want 3
  let give := min cap total
  if give = 0 then (0, g)
  else
    let base (q : Nat) : Nat := give * want q / total
    let rest := give - (base 0 + base 1 + base 2 + base 3)
    let r := [0, 1, 2, 3].foldl (fun (a : Nat × Grants) q =>
      let extra := if 0 < a.1 ∧ base q < want q then 1 else 0
      (a.1 - extra, a.2.put (grantKey cls prio q) (a.2.getD (grantKey cls prio q) 0 + base q + extra))) (rest, g)
    (give, r.2)

/-- The division of the budget (R351). -/
def divideBudget (x : Slot) (ds : List Demand) : Grants :=
  let reserve := if ds.any (fun d => d.cls == 2 && decide (0 < d.need)) then x.budget * x.pshare / 16 else 0
  let pass (cls keep : Nat) (a : Nat × Grants) : Nat × Grants :=
    [7, 6, 5, 4, 3, 2, 1, 0].foldl (fun a p =>
      let r := grantClass ds cls p (a.1 - keep) a.2
      (a.1 - r.1, r.2)) a
  (pass 1 0 (pass 2 0 (pass 1 reserve (pass 0 0 (x.budget, []))))).2

/-- The step as it is built. -/
structure Build where
  m : Mod
  items : List StepItem := []
  order : List (Bool × Nat) := []
  npois : List Nat := []
  /-- SUMMARY_TOPK items of the quarter in hand; POOL has been raised for it. -/
  sel : Nat := 0
  low : Bool := false
  /-- Grant left of the class in hand. -/
  left : Nat := 0
  deriving DecidableEq, Repr

/-- What a STEP names. -/
structure StepArgs where
  id : Nat
  c : HCmd
  slot : Nat
  x : Slot

def StepArgs.semBase (a : StepArgs) : Nat := a.c.wf 0 31 16
def StepArgs.semCount (a : StepArgs) : Nat := a.c.wf 0 47 32

/-- One sequence of a class in its turn. -/
def Build.one (b : Build) (a : StepArgs) (i : Nat) : Build :=
  let e := b.m.ent i
  let x := a.x
  let selOut := x.mode == 2 && (decide (a.semCount < 2 * (b.items.length + 1)) || decide (4096 ≤ b.sel))
  if b.left = 0 || selOut then b
  else
    let dec := e.state == 3
    let n0 := min (min x.chunk (e.pend - e.pos)) b.left
    let cut := (e.pos + n0) / x.pb * x.pb
    let n := if dec then 1 else if e.pos + n0 < e.pend ∧ e.pos < cut then cut - e.pos else n0
    if n = 0 then b
    else
      let q := quarterOf i
      let al := b.m.allocItem x i e e.pos n
      if al.poison then { b with npois := b.npois ++ [i] }
      else if al.short then
        let m := b.m.count kSeqPoolSkip q
        { b with m := if b.low then m else m.raise evSeqPoolLow q a.c.fn.val a.slot, low := true, order := b.order ++ [(true, i)] }
      else
        let j := b.items.length
        let kind : Fin 4 := if dec then 0 else if e.pos + n = e.pend then 2 else 1
        let fr := al.m.draw
        let e2 : SeqEnt := { al.e with state := if e.state == 1 then 2 else e.state }
        let it : StepItem := { ent := i, gen := e.gen, kind := kind, pos := e.pos, ntok := n,
                               result := fr.1 % 2 ^ 45 * 8,
                               sel := if x.mode = 2 then some j else none,
                               semq := a.semBase + 2 * j, sems := a.semBase + 2 * j + 1,
                               selbuf := if x.mode = 2 then (a.c.w 2 + j * (65536 + 16384 * x.hq)) % 2 ^ 64 else 0 }
        let m := ((fr.2.setEnt i e2).enlist i e2).count kSeqItems q
        { b with m := m, items := b.items ++ [it], order := b.order ++ [(false, j)], sel := b.sel + 1, left := b.left - n }

/-- Work item (Table 12.9). The spec does not say where result words lie: the VA is free (log 33). -/
def itemBytes (a : StepArgs) (voff : Nat) (e : SeqEnt) (t : StepItem) : List Byte :=
  let v := seqIdOf t.ent { e with gen := t.gen } + (if t.kind = 0 then e.last.toNat else 0) * 2 ^ 32 + voff % 2 ^ 64 * 2 ^ 64 +
    t.pos * 2 ^ 128 + (t.ntok - 1) * 2 ^ 153 + e.root * 2 ^ 192 + t.kind.val * 2 ^ 217 + a.x.mode * 2 ^ 219 + a.slot * 2 ^ 221 +
    (if t.sel.isSome then t.semq % 65536 * 2 ^ 256 + t.sems % 65536 * 2 ^ 272 else 0) +
    (if t.kind = 0 then 0 else (e.tokva + 4 * (t.pos - e.pbase)) % 2 ^ 64) * 2 ^ 320 + t.result * 2 ^ 384 + t.selbuf * 2 ^ 448
  leBytes v 64

/-- An access of the engine for a command: violations count, poison ends the command POISON (05 R168). -/
def Mod.seqAccess (m : Mod) (id : Nat) (p : Nat) (r : BRes) : Mod :=
  let m := if r.viol then m.violate p else m
  if r.poison || r.unperformed then m.markCmd id (if r.shared then stSHARED else stPOISON) 0 else m
def Mod.seqWrite (m : Mod) (id : Nat) (p q va : Nat) (bs : List Byte) (cls : Nat) : Mod :=
  let r := (m.workDone id bs.length 0 0 0).emWriteN (.nc (seqAgent (m.actingIod q))) p va bs cls
  r.2.seqAccess id p r.1
def Mod.seqRead (m : Mod) (id : Nat) (p q va n : Nat) : BRes × Mod :=
  let r := (m.workDone id n 0 0 0).emReadN (.nc (seqAgent (m.actingIod q))) p va n 7
  (r.1, r.2.seqAccess id p r.1)

/-- Emit the items of every quarter within its grants; quarters in ascending order (log 34). -/
def emitAll (a : StepArgs) (ds : List Demand) (g : Grants) (m : Mod) : Build :=
  [0, 1, 2, 3].foldl (fun b (q : Nat) =>
    [0, 1, 2].foldl (fun b (cls : Nat) => [7, 6, 5, 4, 3, 2, 1, 0].foldl (fun b (p : Nat) =>
      let mine := ds.filter fun d => d.cls.val == cls && d.prio.val == p && d.q.val == q
      mine.foldl (fun b d => b.one a d.ent) { b with left := g.getD (grantKey cls p q) 0 }) b)
      { b with sel := 0, low := false }) { m := m }

/-- Key of an item's wait on SEMQ. -/
def selKey (id item : Nat) : Nat := id * 65536 + item

/-- Build a step: items are written, their waits armed and their tasks made ready. -/
def Mod.buildStep (m : Mod) (a : StepArgs) : Mod :=
  let p := a.c.fn
  let ds := if m.seq.inService then m.demands a.x a.slot else []
  let b := emitAll a ds (divideBudget a.x ds) m
  let voff := m.parN (pSeqVoff + p.val)
  let m := forEach b.items.zipIdx (fun (t : StepItem × Nat) m =>
    let q := quarterOf t.1.ent
    let m := m.seqWrite a.id p.val q (a.c.w 1 + 64 * t.2) (itemBytes a voff (m.ent t.1.ent) t.1) 4
    if t.1.sel.isSome then m.semWait ⟨m.nameSem p.val t.1.semq, 1, 0, selKey a.id t.2⟩ else m) b.m
  let run : StepRun := { slot := Fin.ofNat 256 a.slot, part := p, items := b.items, order := b.order, npois := b.npois,
                         quarters := [0, 1, 2, 3].filter fun k => ds.any fun d => d.q.val == k, resva := a.c.w 3 }
  let m := m.updSeq fun s => { s with steps := s.steps.put a.id run }
  if b.items.isEmpty then m
  else
    let r := m.emReadN (.nc (feAgent (m.actingIod a.c.iod.val))) p.val (m.parN (pSchTaskTable + p.val) + 64 * a.x.prog) 64 4
    let m := if r.1.viol then r.2.violate p.val else r.2
    let desc := BitVec.ofNat 512 (leNat r.1.bytes)
    if r.1.poison then m.markCmd a.id (if r.1.shared then stSHARED else stPOISON) 0
    else if taskRefused desc then m.markCmd a.id stARITH (faultDetail fkLAUNCH 0 0 0 0 0)
    else
      let tasks := (List.range b.items.length).map fun j =>
        ({ uid := 0, cmd := a.id, index := j, part := p, desc := desc, a0 := BitVec.ofNat 64 (a.c.w 1 + 64 * j),
           a1 := BitVec.ofNat 64 j, item := some j } : Task)
      (m.updCmd a.id fun c => { c with tasks := tasks.length }).updSched fun x => { x with ready := x.ready ++ tasks }

/-- Does a step of a slot run (R37)? -/
def Mod.slotBusy (m : Mod) (n : Nat) : Bool := m.seq.steps.any fun r => r.2.slot.val == n

/-- STEP. It does not start while a step of its slot runs (01 R37), nor in Freewheel (23 R627). -/
def execStepCmd (id : Nat) (s : State) : Out :=
  s.go fun m =>
    match m.startable id 2 with
    | none => m
    | some c =>
      let n := c.wf 0 7 0
      if m.slotBusy n || m.frozenPart c.fn.val then m
      else
        let m := m.begin id c
        let sb := c.wf 0 31 16
        if c.w 3 = 0 then m.refuseCmd id 320
        else if (List.range (c.wf 0 47 32)).any (fun i => !(m.ownsSem c.fn.val (m.nameSem c.fn.val (sb + i)))) then m.refuseCmd id 144
        else match Tab.find n m.seq.slots with
        | some x =>
          if x.part != c.fn then (m.violate c.fn.val).noSeq id c
          else m.buildStep { id := id, c := c, slot := n, x := x }
        | none => if m.seq.inService then m.noSeq id c
          else m.buildStep { id := id, c := c, slot := n, x := { part := c.fn, desc := 0 } }

/-! Step end (R350, R353, R354, R356). -/

/-- One summary element: the largest or smallest key element over a block, to BF16 rounding outward (R350). -/
def summaryElem (ks : List Val) (up : Bool) : Nat :=
  if ks.any Val.isNan then 0x7FC0
  else
    let best := ks.foldl (fun (a : Option Val) v => match a with
      | none => some v
      | some w => some (if up then (if Val.below w v then v else w) else (if Val.below v w then v else w))) none
    (encFloat fmtBF16 (if up then 3 else 2) false 0 (best.getD (.fin false 0 0))).1

/-- Compute and write the summary of a block of a layer; poisoned keys leave it poisoned. -/
def Mod.summarise (m : Mod) (x : Slot) (i : Nat) (e : SeqEnt) (l b : Nat) : Mod :=
  match m.findBlock e l b with
  | none => m
  | some f =>
    let page := bits f.2 24 0 * 65536
    let row := x.d * x.e
    let r := m.physRead page 32768 2
    let keys (j : Nat) : List (List Val) := (List.range x.pb).map fun p =>
      decRow x.kvf ((r.1.bytes.drop ((j * x.pb + p) * row)).take row) [] x.d
    let out := (List.range x.h).flatMap fun j =>
      let ks := keys j
      let col (el : Nat) : List Val := ks.map fun v => v.getD el (.fin false 0 0)
      ((List.range x.d).flatMap fun el => leBytes (summaryElem (col el) true) 2) ++
      (List.range x.d).flatMap fun el => leBytes (summaryElem (col el) false) 2
    let at' := bits f.2 53 29 * 65536 + b % x.sp * (4 * x.h * x.d)
    let m := r.2.physWrite at' out 2
    let m := if r.1.poison then forEach (List.range (out.length / 128)) (fun n m => m.poisonKey (emKeyOf (at' + 128 * n))) m else m
    (m.writeNode f.1 (b % 512) (f.2 ||| 2 ^ 62)).count kSeqSumm (quarterOf i)

/-- Blocks filled between two positions are summarised in every layer (R350). -/
def Mod.summaries (m : Mod) (x : Slot) (i : Nat) (e : SeqEnt) (old : Nat) : Mod :=
  if x.mode ≠ 2 then m
  else
    let b0 := old / x.pb
    forEach (List.range x.layers) (fun l m =>
      forEach (List.range (e.pos / x.pb - b0)) (fun j m => m.summarise x i e l (b0 + j)) m) m

/-- Pages of blocks that a window has passed are freed (R356). -/
def Mod.freeWindow (m : Mod) (x : Slot) (i : Nat) (old : Nat) : Mod :=
  let e := m.ent i
  if x.mode ≠ 1 then m
  else
    let b0 := max x.sinkb (old / x.pb - x.winb)
    let b1 := e.pos / x.pb - x.winb
    forEach (List.range x.layers) (fun l m =>
      forEach (List.range (b1 - b0)) (fun j m =>
        match m.findBlock e l (b0 + j) with
        | none => m
        | some f =>
          let m := (m.writeNode f.1 ((b0 + j) % 512) (f.2 % 2 ^ 63)).freePage (bits f.2 24 0)
          m.setEnt i { m.ent i with pages := (m.ent i).pages - 1 }) m) m

/-- A step record (Table 12.11). -/
def stepRec (seqid token pos : Nat) (sampled noadv pool : Bool) (reason : Nat) : BitVec 128 :=
  BitVec.ofNat 128 (seqid + token * 2 ^ 32 + pos * 2 ^ 64 + b2n sampled * 2 ^ 89 + b2n noadv * 2 ^ 90 + b2n pool * 2 ^ 91 +
    reason * 2 ^ 92)

/-- End processing of one item (R353 steps 1 to 4, R354): its record and the module. -/
def Mod.endItem (m : Mod) (id : Nat) (p : Nat) (x : Slot) (t : StepItem) : BitVec 128 × Mod :=
  let i := t.ent
  let e := m.ent i
  let q := quarterOf i
  let sid := seqIdOf i { e with gen := t.gen }
  if e.gen ≠ t.gen || !e.live then (stepRec sid 0 t.pos false true false 0, m.count kSeqItemNoadv q)
  else if t.poisoned then
    let m := ((m.setEnt i { e with state := 4, reason := 5, credit := 0 }).unlist i e).count kSeqItemNoadv q
    (stepRec sid 0 e.pos false true false 5, m)
  else
    let r := m.seqRead id p q t.result 8
    let w := if r.1.poison then 0 else leNat r.1.bytes
    let m := r.2
    if !(w.testBit 34) then
      (stepRec sid 0 e.pos false true false 0, (m.setEnt i { e with credit := 0 }).count kSeqItemNoadv q)
    else
      let e1 : SeqEnt := { e with pos := e.pos + t.ntok, credit := 0 }
      let sampled := t.kind == 0 || t.kind == 2
      let e2 : SeqEnt := if sampled then { e1 with last := BitVec.ofNat 32 w, generated := e1.generated + 1, state := 3 } else e1
      let reason : Fin 16 := if !sampled then 0 else if w.testBit 33 then 1
        else if e2.maxnew ≠ 0 ∧ e2.generated = e2.maxnew then 2 else if e2.pos = 16777216 then 3 else 0
      let m := (m.setEnt i e2).summaries x i e2 e.pos
      let m := m.freeWindow x i e.pos
      let m := if reason = 0 then m else m.retireSeq i (m.ent i) reason
      (stepRec sid (if sampled then w % 2 ^ 32 else 0) e2.pos sampled false false reason.val, m)

/-- Commands held for the end of a step are applied in order (R343, R353 step 5). -/
def Mod.applyHeld (m : Mod) : Mod :=
  let l := m.seq.held
  let m := m.updSeq fun s => { s with held := [] }
  forEach l (fun id m => match m.cmd? id with
    | none => m
    | some c => m.seqHold id c fun m =>
      if c.opc = 0x13 then m.seqAppend id c else if c.opc = 0x14 then m.seqPark id c else m.seqRetire id c) m

/-- STEP_END: every task of the step has ended, and the quarters that took part can carry it through (18 R523). -/
def execStepEnd (id : Nat) (s : State) : Out :=
  s.go fun m =>
    match m.cmd? id, Tab.find id m.seq.steps with
    | some c, some r =>
      if c.ended || c.tasksEnded != c.tasks || !((c.iod.val :: r.quarters).all m.finishes) then m
      else
        let x : Slot := (Tab.find r.slot.val m.seq.slots).getD { part := r.part, desc := 0 }
        let res := r.order.foldl (fun (a : List (BitVec 128) × Mod) o =>
          if o.1 then
            let e := a.2.ent o.2
            (a.1 ++ [stepRec (seqIdOf o.2 e) 0 e.pos false false true 0], a.2)
          else match r.items[o.2]? with
            | none => a
            | some t =>
              let q := a.2.endItem id r.part.val x t
              (a.1 ++ [q.1], q.2)) ([], m)
        let m := forEach r.npois (fun i m =>
          let e := m.ent i
          if e.live then (m.setEnt i { e with state := 4, reason := 5 }).unlist i e else m) res.2
        let served := r.items.map (·.ent)
        let others := ([0, 1, 2, 3].flatMap fun k => m.listOf r.slot.val k).filter fun i => !served.contains i
        let m := forEach others (fun i m => m.setEnt i { m.ent i with credit := min 65535 ((m.ent i).credit + 1) }) m
        let m := forEach r.quarters (fun k m => m.count kSeqSteps k) m
        -- waits of selections still armed end with the step (R358)
        let m := m.updNet fun n => { n with
          waits := n.waits.filter fun w => !(w.uid == 0 && w.key / 65536 == id),
          selGrants := n.selGrants.filter fun k => k / 65536 != id }
        let m := m.updSeq fun s => { s with steps := s.steps.del id }
        let m := m.applyHeld
        let recs := res.1
        let n := recs.length
        if n ≤ 2 * (c.cext - b2n c.cstat) then
          (m.updCmd id fun c => { c with recs := recs, spec := n + 2 ^ 32 }).endCmd id
        else
          let m := m.seqWrite id r.part.val c.iod.val r.resva (recs.flatMap fun (b : BitVec 128) => bytesOf b) 7
          (m.updCmd id fun c => { c with spec := n }).endCmd id
    | _, _ => m

/-! Selections (R357-R359). -/

def Mod.updItem (m : Mod) (id item : Nat) (f : StepItem → StepItem) : Mod :=
  m.updSeq fun s => { s with steps := s.steps.adj id fun r =>
    { r with items := r.items.zipIdx.map fun (t : StepItem × Nat) => if t.2 = item then f t.1 else t.1 } }

/-- SELECTION_START: header and queries are read (Table 12.13 step 2). Poison ends the command POISON and no selection is made. -/
def execSelectionStart (id item : Nat) (s : State) : Out :=
  s.go fun m =>
    match Tab.find id m.seq.steps with
    | none => m
    | some r => match r.items[item]? with
    | none => m
    | some t =>
      if !(m.net.selGrants.contains (selKey id item)) || t.selecting.isSome || !(m.finishes (quarterOf t.ent)) then m
      else
        let x : Slot := (Tab.find r.slot.val m.seq.slots).getD { part := r.part, desc := 0 }
        let m := m.updNet fun n => { n with selGrants := n.selGrants.erase (selKey id item) }
        let q := quarterOf t.ent
        let h := m.seqRead id r.part.val q t.selbuf 64
        let b := h.2.seqRead id r.part.val q (t.selbuf + 64) (2 * x.d * x.hq)
        if h.1.poison || b.1.poison then b.2
        else b.2.updItem id item fun t => { t with selecting := some (leField h.1.bytes 0 1, b.1.bytes) }

/-- The score of a block for a query head, exact value rounded in FP32; none stands for +infinity (R359). -/
def scoreOf (q : List Val) (mx mn : List Val) : Option Val :=
  if (mx ++ mn).any Val.isNan then none
  else
    let ts := (q.zip (mx.zip mn)).map fun (t : Val × Val × Val) =>
      let a := Val.mul t.1 t.2.1
      let b := Val.mul t.1 t.2.2
      if a.isNan || b.isNan then Val.nan else if Val.below a b then b else a
    some (ts.foldl (fun a t => rnd32 (Val.add a t)) (.fin false 0 0))

/-- Is score `a` of block `i` above score `b` of block `j`? Ties go to the lower block. -/
def scoreAbove (a : Option Val) (i : Nat) (b : Option Val) (j : Nat) : Bool :=
  match a, b with
  | none, none => decide (i < j)
  | none, some _ => true
  | some _, none => false
  | some u, some v => if Val.lt v u then true else if Val.lt u v then false else decide (i < j)

/-- The `k` best of scored blocks. -/
def bestOf (k : Nat) (l : List (Option Val × Nat)) : List Nat :=
  let sorted := l.foldr (fun (a : Option Val × Nat) (acc : List (Option Val × Nat)) =>
    let rec ins : List (Option Val × Nat) → List (Option Val × Nat)
      | [] => [a]
      | b :: r => if scoreAbove a.1 a.2 b.1 b.2 then a :: b :: r else b :: ins r
    ins acc) []
  (sorted.take k).map Prod.snd

/-- Score of a block for a query head (R359), none where it has no summary or a poisoned one; a NaN of the query becomes `fr`. -/
def Mod.scoreBlock (m : Mod) (x : Slot) (e : SeqEnt) (layer kv fr : Nat) (q : List Val) (b : Nat) : Option Val × Mod :=
  match m.findBlock e layer b with
  | none => (none, m)
  | some f =>
    if !(f.2.testBit 62) then (none, m)
    else
      let r := m.physRead (bits f.2 53 29 * 65536 + b % x.sp * (4 * x.h * x.d) + 4 * x.d * kv) (4 * x.d) 2
      if r.1.poison then (none, r.2)
      else
        let v := decRow 2 r.1.bytes [] (2 * x.d)
        ((scoreOf q (v.take x.d) (v.drop x.d)).map fun u => if u.isNan then ofF32 (fr % 0x7F800000) else u, r.2)

/-- Blocks listed for a query head (R358): all candidates where they are few, else sinks, the TOPK best, and the local ones. A score
that a query makes NaN has no place in the order of R359: the spec states none, so it stands for a free value (log 38). -/
def Mod.selectFor (m : Mod) (x : Slot) (e : SeqEnt) (layer n j : Nat) (qs : List Byte) : List Nat × Mod :=
  let q := decRow 2 ((qs.drop (2 * x.d * j)).take (2 * x.d)) [] x.d
  let kv := j / 2 ^ x.qlog2
  if n ≤ x.sinkb + x.localb + x.topk then (List.range n, m)
  else
    let fr := m.draw
    let g := n - x.sinkb - x.localb
    let scored := (List.range g).foldl (fun (a : List (Option Val × Nat) × Mod) i =>
      let s := a.2.scoreBlock x e layer kv fr.1 q (x.sinkb + i)
      (a.1 ++ [(s.1, x.sinkb + i)], s.2)) ([], fr.2)
    (List.range x.sinkb ++ sortBy id (bestOf x.topk scored.1) ++ (List.range x.localb).map (n - x.localb + ·), scored.2)

/-- SELECTION_MERGE: counts and lists are written, SEMS is signalled with release, the wait on SEMQ is armed again (R358). -/
def execSelectionMerge (id item : Nat) (s : State) : Out :=
  s.go fun m =>
    match Tab.find id m.seq.steps with
    | none => m
    | some r => match r.items[item]? with
    | none => m
    | some t => match t.selecting with
    | none => m
    | some sel => if !(m.finishes (quarterOf t.ent)) then m else
      let x : Slot := (Tab.find r.slot.val m.seq.slots).getD { part := r.part, desc := 0 }
      let e := m.ent t.ent
      let q := quarterOf t.ent
      let n := t.pos / x.pb
      let m := forEach (List.range x.hq) (fun j m =>
        let l := m.selectFor x e sel.1 n j sel.2
        let m := l.2.seqWrite id r.part.val q (t.selbuf + 0x8040 + 4 * j) (leBytes l.1.length 4) 7
        m.seqWrite id r.part.val q (t.selbuf + 0x10000 + 0x4000 * j) (l.1.flatMap fun b => leBytes b 4) 7) m
      let m := (m.updItem id item fun t => { t with selecting := none }).countBy kSeqSel q x.hq
      (m.signalFrom (1152 + 8 * q + 1) (m.nameSem r.part.val t.sems) 1).semWait ⟨m.nameSem r.part.val t.semq, 1, 0, selKey id item⟩

end Sys2Proof.Machine
end

