-- ==== Sys2Proof/Machine/Parts.lean ====
section
/-! DEFINITION. Partitions (spec 15): creation, disabling and its steps, shared regions, multicast sets, migration logs; READY and
SERVICE (24 R640). -/

namespace Sys2Proof.Machine

def Mod.updParts (m : Mod) (f : PartsS → PartsS) : Mod := { m with parts := f m.parts }

/-- SERVICE while a partition is ACTIVE or DISABLING, READY otherwise (24 R640). -/
def Mod.refreshState (m : Mod) : Mod :=
  if !m.serving then m
  else { m with mod := { m.mod with mstate := if m.parts.parts.any fun e => e.2.st != .none then 5 else 4 } }

/-! Creation (R425-R427, R432). -/

/-- Fields of the partition record (Table 15.1). -/
structure PartRec where
  tgmask : BitVec 128
  portmask : BitVec 32
  waymask : BitVec 16
  bwres : Nat
  strict : Bool
  ptroot : Nat
  part : Nat
  clean : Bool
  deriving DecidableEq, Repr

def partRec (r : Nat) : PartRec :=
  { tgmask := BitVec.ofNat 128 (bits r 255 128), portmask := BitVec.ofNat 32 (bits r 127 96),
    waymask := BitVec.ofNat 16 (bits r 95 80), bwres := bits r 79 74, strict := r.testBit 73, ptroot := bits r 63 35,
    part := bits r 6 0, clean := bits r 72 64 == 0 && bits r 34 7 == 0 }

/-- Other partitions that hold resources, STRICT ones only where asked. -/
def Mod.otherParts (m : Mod) (p : Nat) : List Part :=
  (m.parts.parts.filter fun e => e.1 != p && e.2.st != .none).map Prod.snd

/-- May the record be applied, beyond its own fields (R426, R427, R431; 22 R613)? -/
def Mod.partRecOk (m : Mod) (order : Nat) (r : PartRec) : Bool :=
  let x := m.part r.part
  let others := m.otherParts r.part
  let stricts := others.filter (·.strict)
  let added := if x.st == .active then r.tgmask &&& ~~~x.tgmask else r.tgmask
  let ways := stricts.foldl (fun a y => a ||| y.waymask) (if r.strict then r.waymask else 0)
  let shared := !r.strict || others.any fun y => y.st == .active && !y.strict
  r.clean && r.tgmask != 0 && x.st != .disabling && !(m.sec.unlocked && r.part != 0) &&
  !(others.any fun y => y.tgmask &&& added != 0) &&
  !(m.ft.unscrubbed.any fun e => added.getLsbD e.1) &&
  m.tagOf (r.ptroot * 4096) == 0xFE &&
  (if r.strict then
    r.waymask != 0 && decide (1 ≤ r.bwres) && !(stricts.any fun y => y.waymask &&& r.waymask != 0 || y.portmask &&& r.portmask != 0) &&
    ((List.range 32).all fun i => !(r.portmask.getLsbD i) || portFitted order i) &&
    decide (stricts.foldl (fun n y => n + y.bwres) r.bwres ≤ 48)
   else r.portmask == 0 && r.waymask == 0 && r.bwres == 0) &&
  !(shared && ways == 0xFFFF) &&
  (x.st != .active || (r.waymask == x.waymask && r.bwres == x.bwres && r.strict == x.strict && r.ptroot == x.ptroot &&
    r.tgmask &&& x.tgmask == x.tgmask && r.portmask &&& x.portmask == x.portmask &&
    (r.tgmask != x.tgmask || r.portmask != x.portmask)))

/-- PART_CREATE: the partition is ACTIVE with a fresh key and no violations, or gains tile groups and ports. -/
def Mod.partCreate (m : Mod) (order : Nat) (blob : List Byte) : Nat × Mod :=
  if blob.length ≠ 32 then (esTYPE, m)
  else
    let r := partRec (leNat blob)
    if !(m.partRecOk order r) then (esSTATE, m)
    else if (m.part r.part).st == .active then
      (esOK, m.updPart r.part fun x => { x with tgmask := r.tgmask, portmask := r.portmask })
    else
      let m := m.updPart r.part fun x =>
        { st := .active, gen := x.gen, tgmask := r.tgmask, portmask := r.portmask, waymask := r.waymask, bwres := r.bwres,
          strict := r.strict, ptroot := r.ptroot, migB := x.migB, migOvf := x.migOvf, interf := x.interf }
      let m := m.updMem fun e => { e with keyGen := e.keyGen.upd r.part 0 (· + 1) }
      (esOK, (m.updFn r.part fun f => { f with disabled := false }).refreshState)

/-- PART_CREATE. -/
def execPartCreate (blob : List Byte) (s : State) : Out :=
  s.go fun m => m.perform pPartCreate fun m => m.partCreate s.fuse.order.val blob

/-! Disabling (R428-R431, Table 15.2). -/

/-- Windows of a partition are closed: key 0, kind OFF (step 1; 16 Table 16.6). -/
def Mod.closeWindows (m : Mod) (p : Nat) : Mod :=
  m.updFab fun b => { b with windows := b.windows.keep fun w _ => m.parN (pFabWinOwner + w) != p }

/-- Step 2: nothing more is launched, every task of the partition ends, its saved contexts go (R429). -/
def Mod.stopPart (m : Mod) (p : Nat) : Mod :=
  let mine (w : Work) : Bool := match m.workTask w with
    | some k => k.part.val == p
    | none => false
  let m1 := m.updSched fun x => { x with
    ready := x.ready.filter fun k => k.part.val != p,
    evicting := x.evicting.keep fun _ w => !mine w }
  let m2 := forEach (m.sched.evicting.filter fun e => mine e.2) (fun (e : Nat × Work) m =>
    m.updCtx (e.1 / 4) (e.1 % 4) fun c =>
      if c.st == .saving then { c with st := if c.isHalted then .halted else if c.wait.isSome then .blocked else .run } else c) m1
  let m3 := forEach (m2.sched.saved.filter fun e => e.2.ctx.part.val == p) (fun (e : Nat × Saved) m =>
    m.endSaved e.1 stARITH (faultDetail fkPROGRAM 0 0 0 0 0)) m2
  forEach (m3.ctxs.filter fun e => e.2.st != .empty && e.2.part.val == p) (fun (e : Nat × Ctx) m =>
    m.endTask (e.1 / 4) (e.1 % 4) stARITH fkPROGRAM 0 0) m3

/-- Steps 1 to 3: the generation moves on, so that completions and host writes under the old one are discarded; tasks end;
collectives are aborted. -/
def Mod.disable (m : Mod) (p : Nat) : Mod :=
  if (m.part p).st != .active then m
  else
    let m := m.updPart p fun x => { x with st := .disabling, gen := x.gen + 1, disTick := m.ticks }
    let m := m.updFn p fun f => { f with disabled := true }
    let m := ((m.closeWindows p).abandonWp p).stopPart p
    let ids := (m.host.cmds.filter fun e => e.2.fn.val == p && !(e.2.opc == 1 && e.2.started) &&
      !(e.2.opc == 3 && e.2.copy.isSome)).map Prod.fst
    let m := m.updHost fun h => { h with cmds := h.cmds.mapWhere (fun k _ => ids.contains k) fun c => { c with ended := true } }
    let m := m.updSeq fun x => { x with
      steps := x.steps.keep fun _ r => r.part.val != p,
      held := x.held.filter fun i => !ids.contains i,
      retiring := x.retiring.filter fun r => !ids.contains r.2 }
    forEach (m.fab.groups.filter fun g => grpPart g.2.entry == p) (fun (g : Nat × Group) m => m.collAbort g.1 none) m

/-- PART_DISABLE: the action runs until DISABLE_DONE. -/
def Mod.partDisable (m : Mod) (p : Nat) : Nat × Mod :=
  if 128 ≤ p then (esRANGE, m)
  else if (m.part p).st != .active then (esSTATE, m)
  else (esRUNNING, m.disable p)

/-- PART_DISABLE. -/
def execPartDisable (p : BitVec 8) (s : State) : Out :=
  s.go fun m => m.perform pPartDisable fun m => m.partDisable p.toNat

/-- A function's PCIe configuration state is reset. -/
def Mod.resetFn (m : Mod) (f : Nat) : Mod :=
  (m.endMailbox (· == f)).updFn f fun x =>
    { x with aqEn := false, msix := [], pba := [], sqTail := 0, sqHead := 0, cqHead := 0, cqTail := 0 }

/-- FLR: the function's mailbox session ends and its partition is disabled. -/
def execFlr (fn : PartId) (s : State) : Out := s.go fun m => (m.resetFn fn.val).disable fn.val

/-- VF_ENABLE_CLEAR: every VF is disabled. -/
def execVfEnableClear (s : State) : Out :=
  s.go fun m => forEach ((List.range 127).map (· + 1)) (fun p m => (m.resetFn p).disable p) m

/-- Nothing of the partition's tasks and copies is under way (step 2). -/
def Mod.partDrained (m : Mod) (p : Nat) : Bool :=
  !(m.ctxs.any fun e => e.2.st != .empty && e.2.part.val == p) &&
  !(m.sched.saved.any fun e => e.2.ctx.part.val == p) &&
  !(m.copies.any fun e => e.2.part.val == p && e.2.status.isNone) &&
  !(m.tiles.any fun t => m.ownsTile p t.1 && !t.2.running.isEmpty)

/-- Invalidate lines without write-back (step 5). -/
def Mod.invalidateLines (m : Mod) (inside : Nat → Bool) : Mod :=
  m.updCache fun c => { c with
    lines := c.lines.keep fun k _ => !inside k,
    l1 := c.l1.keep fun k _ => !inside (k % 2 ^ 36),
    wbuf := c.wbuf.keep fun k _ => !inside (k % 2 ^ 36),
    mshr := c.mshr.keep fun k _ => !inside k,
    waitq := c.waitq.keep fun k _ => !inside k,
    txns := c.txns.keep fun k _ => !inside k,
    reqs := c.reqs.keep fun k _ => !inside (k % 2 ^ 36),
    tickets := c.tickets.filter fun t => !inside t.2.2,
    net := c.net.filter fun x => !inside x.line }

/-- Step 4: sequences are retired, model slots cleared, pool extents removed. -/
def Mod.retirePart (m : Mod) (p : Nat) : Mod :=
  let m := forEach ((m.seq.ents.filter fun e => e.2.state != 0 && e.2.part.val == p).map Prod.fst) (fun i m => m.freeEnt i) m
  m.updSeq fun x => { x with
    slots := x.slots.keep fun _ y => y.part.val != p,
    extents := x.extents.filter fun y => y.part.val != p }

/-- Steps 5 and 6: pins are released without STORE, lines of frames tagged p go, the key is destroyed, queue pairs, journals and
retained results are freed; commands still there are stale (14 R400). -/
def Mod.releasePart (m : Mod) (p : Nat) : Mod :=
  let m := forEach (m.cache.extents.filter fun e => e.part.val == p) (fun e m => m.unpin e false) m
  let m := m.invalidateLines fun k => !isPs k && (m.tagOf (linePa k)).toNat == p
  let m := m.updMem fun e => { e with keyGen := e.keyGen.upd p 0 (· + 1) }
  let m := m.tlbDrop fun e => e.part.val == p
  let m := forEach ((m.host.cmds.filter fun e => e.2.fn.val == p).map fun e => e.2.iod.val) (fun i m => m.count kHifGenStale i) m
  let m := m.updHost fun h => { h with
    qps := h.qps.keep fun _ q => q.fn.val != p,
    cmds := h.cmds.keep fun _ c => c.fn.val != p,
    retained := h.retained.filter fun r => r.fn.val != p }
  forEach [0, 1, 2, 3] (fun k m => m.recordWaiting k) m

/-- Step 7: the tile groups of the partition are zeroed. -/
def Mod.zeroGroups (m : Mod) (mask : BitVec 128) : Mod :=
  let mine (t : Nat) : Bool := decide (t < 1024) && mask.getLsbD (groupOfTile t)
  let m := forEach ((List.range 1024).filter mine) (fun t m =>
    (m.flushL1 t).updTile t fun x => { x with ts := [], poison := [], win := [], running := [] }) m
  m.updNet fun n => { n with
    sems := n.sems.keep fun k _ => !mine (k / 64),
    bars := n.bars.keep fun k _ => !mine (k / 4),
    waits := n.waits.filter fun w => !mine (w.sem / 64),
    sn := n.sn.filter fun f => !(f.op == .sig && mine (f.num / 64)) && !(f.op == .barA && mine (f.num / 4)) }

/-- DISABLE_DONE: every step is done and the partition is NONE (steps 4 to 8). -/
def execDisableDone (p : PartId) (s : State) : Out :=
  s.go fun m =>
    let x := m.part p.val
    if x.st != .disabling || !(m.partDrained p.val) then m
    else
      let m := ((m.retirePart p.val).releasePart p.val).zeroGroups x.tgmask
      let m := m.updPart p.val fun x => { gen := x.gen, viol := x.viol, violOvf := x.violOvf, migB := x.migB, migOvf := x.migOvf }
      (((m.raise evDisableDone p.val p.val p.val).refreshState).acted pPartDisable esOK)

/-! Shared regions (R436-R440, R447). -/

def Mod.setShr (m : Mod) (n : Nat) (v : Option (Fin 3 × Nat × Nat)) : Mod :=
  m.updParts fun x => { x with shr := match v with
    | some w => x.shr.put n w
    | none => x.shr.del n }
/-- A fresh key for a shared slot. -/
def Mod.shrKey (m : Mod) (n : Nat) : Mod := m.updMem fun e => { e with keyGen := e.keyGen.upd (0x80 + n) 0 (· + 1) }

/-- SHR_SET. -/
def Mod.shrSet (m : Mod) (blob : List Byte) : Nat × Mod :=
  let r := leNat blob
  let n := bits r 7 0
  let first := bits r 56 32
  let count := bits r 95 64
  if blob.length ≠ 16 then (esTYPE, m)
  else if bits r 127 96 ≠ 0 ∨ bits r 63 57 ≠ 0 ∨ bits r 31 8 ≠ 0 ∨ n = 0 ∨ 15 < n ∨ count = 0 ∨ 2 ^ 25 < first + count then
    (esRANGE, m)
  else if m.shrState n ≠ 0 ∨ m.mem.frameTag.any (fun e => decide (first ≤ e.1 ∧ e.1 < first + count ∧ e.2.toNat < 128)) then
    (esSTATE, m)
  else (esOK, ((m.shrKey n).retag first count (0x80 + n)).setShr n (some (1, first, count)))
/-- SHR_SET. -/
def execShrSet (blob : List Byte) (s : State) : Out := s.go fun m => m.perform pShrSet fun m => m.shrSet blob

/-- SHR_SEAL: a LOADING slot is SEALED. -/
def Mod.shrSeal (m : Mod) (n : Nat) : Nat × Mod :=
  if n = 0 ∨ 15 < n then (esRANGE, m)
  else match Tab.find n m.parts.shr with
    | some (1, f, c) => (esOK, m.setShr n (some (2, f, c)))
    | _ => (esSTATE, m)
/-- SHR_SEAL. -/
def execShrSeal (n : BitVec 8) (s : State) : Out := s.go fun m => m.perform pShrSeal fun m => m.shrSeal n.toNat

/-- SHR_CLEAR: the slot is FREE, its key is gone and its frames carry tag 0xFE. -/
def Mod.shrClear (m : Mod) (n : Nat) : Nat × Mod :=
  if n = 0 ∨ 15 < n then (esRANGE, m)
  else match Tab.find n m.parts.shr with
    | some (_, f, c) => (esOK, (((m.retag f c 0xFE).shrKey n).setShr n none))
    | none => (esSTATE, m)
/-- SHR_CLEAR. -/
def execShrClear (n : BitVec 8) (s : State) : Out := s.go fun m => m.perform pShrClear fun m => m.shrClear n.toNat

/-- SHR_REPAIR: a whole line of a sealed slot is written at its home. -/
def Mod.shrRepair (m : Mod) (blob : List Byte) : Nat × Mod :=
  let r := leNat (blob.take 16)
  let n := bits r 7 0
  let line := bits r 104 64
  if blob.length ≠ 144 then (esTYPE, m)
  else if bits r 127 105 ≠ 0 ∨ bits r 63 8 ≠ 0 ∨ n = 0 ∨ 15 < n ∨ line % 128 ≠ 0 then (esRANGE, m)
  else if m.shrState n ≠ 2 ∨ (m.tagOf line).toNat ≠ 0x80 + n then (esSTATE, m)
  else (esOK, m.physWrite line (blob.drop 16) 7)
/-- SHR_REPAIR. -/
def execShrRepair (blob : List Byte) (s : State) : Out := s.go fun m => m.perform pShrRepair fun m => m.shrRepair blob

/-! Multicast sets (R445). The record's head is taken as one 8-byte word, MSET in bits 7:0 and the count in bits 15:8 (log 39). -/

/-- MCAST_SET. -/
def Mod.mcastSet (m : Mod) (p : Nat) (blob : List Byte) : Nat × Mod :=
  let n := leField blob 1 1
  if blob.length < 16 ∨ blob.length ≠ 8 + 8 * n then (esTYPE, m)
  else if 64 < n then (esRANGE, m)
  else
    let e : List (BitVec 64) := (recordsOf 8 (blob.drop 8)).map (BitVec.ofNat 64)
    (esOK, m.updParts fun x => { x with mcast := x.mcast.put (p * 256 + leField blob 0 1) e })
/-- MCAST_SET. -/
def execMcastSet (p : PartId) (blob : List Byte) (s : State) : Out :=
  s.go fun m => m.perform pMcastSet fun m => m.mcastSet p.val blob

/-! Migration logs (R433-R435). -/

/-- MIG_LOG_FLIP: every write sets its bit before it is posted, so the old bitmap is whole at once. -/
def Mod.migFlip (m : Mod) (p : Nat) : Nat × Mod := (esOK, m.updPart p fun x => { x with migB := !x.migB })
/-- MIG_LOG_FLIP. -/
def execMigLogFlip (p : PartId) (s : State) : Out :=
  s.go fun m => m.perform (pMigLogFlip + p.val) fun m => m.migFlip p.val

/-- Are RW and RWS parameters writable in the module's state (21 R571, 24 R642)? -/
def Mod.writable (m : Mod) : Bool := m.serving || m.mod.mstate == 3 || m.mod.mstate == 7

/-- A write of MIG_LOG_ON. -/
def Mod.migLogOn (m : Mod) (p : Nat) (on : Bool) : Mod :=
  (m.setPar (pMigLogOn + p) (if on then 1 else 0)).updPart p fun x => { x with migOvf := false }
/-- MIG_LOG_ON_WRITE. -/
def execMigLogOnWrite (p : PartId) (on : Bool) (s : State) : Out :=
  s.go fun m => if m.writable then m.migLogOn p.val on else m

end Sys2Proof.Machine
end

