-- ==== Sys2Proof/Machine/Stacks.lean ====
section
/-! DEFINITION. Thermal bands of the stacks (spec 11 Table 11.11, R325, R326). -/

namespace Sys2Proof.Machine

/-- Abort every collective in progress (16 R476). -/
def Mod.abortAll (m : Mod) : Mod := forEach m.fab.groups (fun (g : Nat × Group) m => m.collAbort g.1 none) m

/-- One sample of one stack, in degrees. A stack that trains or has failed only shows its temperature. -/
def Mod.stackSample (m : Mod) (st : Nat) (t : Int) : Mod :=
  let high := m.par pMemTHigh
  let k := m.stack st
  -- the stack was in High for the millisecond since the last sample (log 71)
  let m := if k.state == 2 then m.countBy kMemThrottleCyc st 1050000 else m
  let k := { k with temp := t }
  let m := m.updStack st fun _ => k
  if k.state == 0 || k.state == 4 then m
  else if k.crit then
    let k := { k with lost := k.lost || decide (115 ≤ t), coolRun := if t < 90 then k.coolRun + 1 else 0 }
    if k.state == 3 && decide (1000 ≤ k.coolRun) then
      let m := m.updStack st fun _ => { k with crit := false, coolRun := 0, hiRun := 0, loRun := 0, refresh2x := false }
      if k.lost then (m.stackFail st).updStack st fun x => { x with lost := false } else m.enterResync st false
    else m.updStack st fun _ => k
  else if 105 ≤ t then
    ((m.updStack st fun _ => { k with crit := true, coolRun := 0, lost := decide (115 ≤ t) }).raise evMemThermCrit st noPart
      (st + t.toNat * 2 ^ 32)).abortAll
  else
    let k := { k with hiRun := if high ≤ t then k.hiRun + 1 else 0, loRun := if t < high - 3 then k.loRun + 1 else 0 }
    if !k.refresh2x && decide (2 ≤ k.hiRun) then
      (m.updStack st fun _ => { k with refresh2x := true, loRun := 0, state := if k.state == 1 then 2 else k.state }).raise
        evMemThermHigh st noPart (st + t.toNat * 2 ^ 32)
    else if k.refresh2x && decide (100 ≤ k.loRun) then
      m.updStack st fun _ => { k with refresh2x := false, hiRun := 0, state := if k.state == 2 then 1 else k.state }
    else m.updStack st fun _ => k

/-- STACK_THERMAL_SAMPLE: the sensors of all sixteen stacks are read. -/
def execStackThermalSample (temps : List Int) (s : State) : Out :=
  s.goIf (tempsOk temps) "STACK_THERMAL_SAMPLE" fun m =>
    forEach temps.zipIdx (fun (e : Int × Nat) m => m.stackSample e.2 e.1) m

/-- CRIT_PARK_DONE: commands issued are complete, the stack refreshes itself and is PARKED (Table 11.12 step 2). -/
def execCritParkDone (st : SliceId) (s : State) : Out :=
  s.go fun m =>
    let k := m.stack st
    if k.crit && k.state != 3 && k.state != 4 && k.state != 0 then
      m.updStack st fun k => { k with state := 3, selfRefresh := true, refresh2x := true, rebuild := none, coolRun := 0 }
    else m

end Sys2Proof.Machine
end

