-- ==== Sys2Proof/Machine/Ports.lean ====
section
/-! DEFINITION. Fabric ports below the packets (spec 16 R448-R456, R480): modes, bring-up, lanes, keys, lasers, quarantine. -/

namespace Sys2Proof.Machine

def Mod.updSaf (m : Mod) (f : SafS → SafS) : Mod := { m with saf := f m.saf }

/-- KDP sessions over a port end with the link (21 R581). -/
def Mod.endVfl (m : Mod) (i : Nat) : Mod :=
  m.updKod fun k => { k with sessions := k.sessions.keep fun _ x => match x.transport with
    | .vfl p => p.val != i
    | _ => true }

/-- A port leaves UP, or stays down, for a cause. -/
def Mod.portDown (m : Mod) (i : Nat) (cause : LinkCause) : Mod :=
  (m.endVfl i).updPort i fun p => { p with state := 1, cause := cause, width := 0 }

/-- Is the laser source of a port's quad in place with its bias uncut (R452, 19 R543)? -/
def Mod.lit (m : Mod) (i : Nat) : Bool := !(m.saf.noModule.has (i / 4)) && !(m.saf.biasCut.has (i / 4)) && !(m.saf.segOpen.has 20)

/-- A quad's ports are held DOWN for want of laser light. -/
def Mod.quadDark (m : Mod) (q : Nat) : Mod :=
  forEach [0, 1, 2, 3] (fun (i : Nat) m => m.portDown (4 * q + i) .nolaser) m

/-! Modes (R448). -/

/-- Write FAB_PORT_MODE: refused for a port that is not fitted and for a second ETH port of a quad. The write clears a bias cut
that the port caused (19 R543). -/
def Mod.portMode (m : Mod) (order i mode : Nat) : Nat × Mod :=
  if 2 < mode then (esRANGE, m)
  else if !(portFitted order i) || (mode == 2 && (List.range 4).any fun j =>
      4 * (i / 4) + j != i && portFitted order (4 * (i / 4) + j) && m.parN (pFabPortMode + 4 * (i / 4) + j) == 2) then (esSTATE, m)
  else
    let m := if m.saf.biasCut.getD (i / 4) 32 == i then m.updSaf fun x => { x with biasCut := x.biasCut.del (i / 4) } else m
    let changed := m.parN (pFabPortMode + i) != mode
    let m := m.setPar (pFabPortMode + i) mode
    if changed then
      (esOK, (m.portDown i .none).updPort i fun p => { p with
        mode := mode, ethHalf := false, removed := [], state := if mode = 0 then 1 else 2 })
    else (esOK, m)

/-- FAB_PORT_MODE. -/
def execFabPortMode (i : PortId) (mode : Nat) (s : State) : Out :=
  s.go fun m => if m.writable && decide (mode ≤ 2) then (m.portMode s.fuse.order.val i.val mode).2 else m

/-! Bring-up (Table 16.2, R449, R453, R454, R465). -/

/-- Widths a VFL port runs at (R450). -/
def vflWidth (n : Nat) : Nat := if 8 ≤ n then 8 else if 6 ≤ n then 6 else if 4 ≤ n then 4 else if 2 ≤ n then 2 else 0

/-- May a port train: fitted, its mode not OFF, its quad lit, its shutter at full level, the module in service? -/
def Mod.mayTrain (m : Mod) (order i : Nat) : Bool :=
  m.serving && portFitted order i && m.ft.iodState.getD (i / 8) 0 != 1 && (m.port i).mode != 0 && (m.port i).state != 4 && m.lit i && m.saf.shutter.getD i 0 == 2

/-- The allow-list entry that accepts a partner (R453). -/
def Mod.allowed (m : Mod) (idHash : Nat) (claimed : BitVec 16) : Option Nat :=
  if m.moduleId = 0 then none
  else (m.fab.allow.find? fun e => e.2.valid && !e.2.quar && e.2.idHash == idHash && e.2.module == claimed).map Prod.fst

/-- FAB_LINK_UP: the steps of Table 16.2 up to the outcome that the operands give. `lanes` is the lane each lit fibre carries. -/
def execFabLinkUp (i : PortId) (idHash : Nat) (claimed : BitVec 16) (partnerAccepts : Bool) (lanes : List (Fin 8)) (credit : Nat)
    (s : State) : Out :=
  s.goIf (lanesOk lanes) "FAB_LINK_UP" fun m =>
    let p := m.port i.val
    if !(m.mayTrain s.fuse.order.val i.val) then m
    else if lanes.isEmpty then m.portDown i.val .nolight
    else
      let map := lanes.zipIdx.foldl (fun a (e : Fin 8 × Nat) => a + e.1.val * 16 ^ e.2) 0
      let up (width : Nat) (m : Mod) : Mod :=
        (m.updPort i.val fun p => { p with
          state := 4, cause := .none, width := width, laneMap := map, removed := [], seq := 0,
          drops := 0 }).raise evFabLinkUp i.val noPart (i.val + width * 2 ^ 32)
      if p.mode = 2 then
        (if lanes.length = 8 ∨ (p.ethHalf ∧ 4 ≤ lanes.length) then up (if lanes.length = 8 then 8 else 4) m
         else m.portDown i.val .train)
      else if vflWidth lanes.length = 0 then m.portDown i.val .train
      else match m.allowed idHash claimed with
      | none => (m.portDown i.val .auth).count kFabAuthFail (i.val / 8)
      | some e =>
        if !partnerAccepts then (m.portDown i.val .auth).count kFabAuthFail (i.val / 8)
        else
          let m := m.updPort i.val fun p => { p with
            partner := claimed, entry := e, credit := min credit (m.parN (pFabPeerCeil + i.val)), keyGen := p.keyGen + 1,
            quarantined := false }
          up (vflWidth lanes.length) m

/-- Causes in the order of the operand of FAB_LINK_FAIL_RETRY. -/
def linkCause (c : Nat) : LinkCause :=
  match c with
  | 0 => .nolaser | 1 => .nolight | 2 => .train | 3 => .auth | _ => .param

/-- FAB_LINK_FAIL_RETRY: a step has failed; 1 s later the port is back at step 1 (R456). -/
def execFabLinkFailRetry (i : PortId) (c : Fin 5) (s : State) : Out :=
  s.go fun m =>
    let p := m.port i.val
    if !(portFitted s.fuse.order.val i.val) || p.mode == 0 || p.state == 4 || p.quarantined || !m.serving then m
    else ((m.portDown i.val (linkCause c.val)).raise evFabLinkFail i.val noPart (i.val + (c.val + 1) * 2 ^ 32)).updPort i.val
      fun p => { p with state := if m.lit i.val then 2 else 1 }

/-! Lanes (R450, R451), frames and keys (R454, R455). -/

/-- LANE_REMOVE. -/
def execLaneRemove (i : PortId) (lane : Fin 8) (s : State) : Out :=
  s.go fun m =>
    let p := m.port i.val
    if p.state != 4 || p.mode != 1 || p.removed.contains lane then m
    else
      let gone := lane :: p.removed
      let w := vflWidth (min p.width (8 - gone.length))
      if w = 0 then (m.portDown i.val .train).updPort i.val fun p => { p with state := 2, removed := [] }
      else m.updPort i.val fun p => { p with removed := gone, width := w }

/-- ETH_LANE_LOSS. -/
def execEthLaneLoss (i : PortId) (good : Nat) (s : State) : Out :=
  s.goIf (laneLossOk good) "ETH_LANE_LOSS" fun m =>
    let p := m.port i.val
    if p.state != 4 || p.mode != 2 then m
    else (m.portDown i.val .train).updPort i.val fun p => { p with
      ethHalf := decide (4 ≤ good), state := if 4 ≤ good then 2 else 1 }

/-- FRAME_REPLAY. -/
def execFrameReplay (i : PortId) (frames : Nat) (s : State) : Out :=
  s.goIf (replayOk frames) "FRAME_REPLAY" fun m =>
    if (m.port i.val).state == 4 then m.countBy kFabReplay i.val frames else m

/-- KEY_RENEW. -/
def execKeyRenew (i : PortId) (s : State) : Out :=
  s.go fun m =>
    let p := m.port i.val
    if p.state == 4 && p.mode == 1 then m.updPort i.val fun p => { p with keyGen := p.keyGen + 1 } else m

/-! Laser sources (R452). -/

/-- LASER_MODULE_FAULT. -/
def execLaserModuleFault (q : QuadId) (s : State) : Out :=
  s.go fun m => (m.updSaf fun x => { x with noModule := x.noModule.put q.val () }).quadDark q.val

/-! Quarantine (R480). -/

/-- The partner of a port is quarantined. -/
def Mod.quarantine (m : Mod) (i : Nat) : Mod :=
  let p := m.port i
  let m := m.updFab fun b => { b with allow := b.allow.adj p.entry fun e => { e with quar := true } }
  ((m.portDown i .auth).updPort i fun p => { p with quarantined := true, drops := 0 }).raise evFabQuarantine i noPart p.partner.toNat

/-- A drop that the partner caused: the seventeenth within 1 ms quarantines it. -/
def Mod.portDrop (m : Mod) (i k : Nat) : Mod :=
  let m := m.count k i
  let p := m.port i
  let d := if p.drops = 0 ∨ p.dropTick + ticksPerMs < m.ticks then 1 else p.drops + 1
  let m := m.updPort i fun p => { p with drops := d, dropTick := if d = 1 then m.ticks else p.dropTick }
  if 16 < d then m.quarantine i else m

/-- QUAR_EXPIRY: the quarantine of an entry is over; its port may train again. -/
def execQuarExpiry (entry : Nat) (s : State) : Out :=
  s.go fun m => m.updFab fun b => { b with
    allow := b.allow.adj entry fun e => { e with quar := false },
    ports := b.ports.map fun p => (p.1, if p.2.quarantined && p.2.entry == entry then
      { p.2 with quarantined := false, cause := .none, state := if p.2.mode = 0 then 1 else 2 } else p.2) }

end Sys2Proof.Machine
end

