-- ==== Sys2Proof/Machine/Ingress.lean ====
section
/-! DEFINITION. Packets of the optical fabric as they arrive (spec 16 R457-R469, R474, R477, R587): admission at the port, transit,
end-to-end transport, windows. -/

namespace Sys2Proof.Machine

/-! Windows (Table 16.6). -/

def winF (e : BitVec 256) (hi lo : Nat) : Nat := bits e.toNat hi lo
def winKind (e : BitVec 256) : Nat := winF e 130 128
def winBase (e : BitVec 256) : Nat := winF e 123 76

/-- Rights a packet may need. -/
def wrRD : Nat := 124
def wrWR : Nat := 125
def wrRED : Nat := 126
def wrMC : Nat := 127

/-- The owner of a window (FAB_WIN_OWNER). -/
def Mod.winOwner (m : Mod) (w : Nat) : Option Nat := let o := m.parN (pFabWinOwner + w); if o < 128 then some o else none

/-- Admission of an access to a window (R466): its owner and its entry. -/
def Mod.window (m : Mod) (w src : Nat) (keyOk : BitVec 64 → Bool) (right off len : Nat) (kinds : List Nat) :
    Option (Nat × BitVec 256) :=
  match m.winOwner w, Tab.find w m.fab.windows with
  | some p, some e =>
    let first := winF e 191 176
    let count := winF e 175 160
    if (m.part p).st == .active && winF e 255 192 != 0 && keyOk (BitVec.ofNat 64 (winF e 255 192)) &&
        (count == 0 || decide (first ≤ src ∧ src < first + count)) && e.toNat.testBit right &&
        decide (off + len ≤ winF e 75 36) && kinds.contains (winKind e) then some (p, e) else none
  | _, _ => none

/-- The ingress agent of a port's quad (R467, 07 Table 7.1). -/
def ingressAgent (port : Nat) : AgentId := Fin.ofNat 2048 (1152 + 8 * (port / 8) + 3 + port / 4 % 2)

/-- The hint target of a window, where its owner owns the tile (07 R241). -/
def Mod.winHint (m : Mod) (p : Nat) (e : BitVec 256) : Option TileId :=
  let t := m.nameTile p (winF e 140 131)
  if e.toNat.testBit 141 && m.ownsTile p t then some (Fin.ofNat 1024 t) else none

/-- Do the ends of an access translate? PS addresses need no translation. -/
def Mod.winMapped (m : Mod) (p : Nat) (e : BitVec 256) (off n : Nat) (need : Right) : Bool :=
  if winKind e ≠ 1 ∨ n = 0 then true
  else
    let a := winBase e + off
    let ok (va : Nat) : Bool := decide (va < 2 ^ 48) && (match (m.translate none p va need).1 with
      | .ok _ => true
      | _ => false)
    ok a && ok (a + n - 1)

/-- Write into a window: `viol` says that it was not performed for want of rights. -/
def Mod.winWrite (m : Mod) (who : Who) (p : Nat) (e : BitVec 256) (off : Nat) (bs : List Byte) : BRes × Mod :=
  let a := winBase e + off
  if !(m.winMapped p e off bs.length .write) then (zerosViol 0, m)
  else if winKind e = 2 then m.psWriteN who p a bs
  else writePieces (pieces 128 a bs.length (bs.length + 1)) a bs
    (fun a b m => m.emWriteVa who p a b (winF e 144 142) (m.winHint p e)) m

/-- Read a window. -/
def Mod.winRead (m : Mod) (who : Who) (p : Nat) (e : BitVec 256) (off n : Nat) : BRes × Mod :=
  let a := winBase e + off
  if !(m.winMapped p e off n .read) then (zerosViol n, m)
  else if winKind e = 2 then m.psReadN who p a n
  else m.emReadN who p a n 7

/-- Combine packed elements of a format, one by one (05 Table 5.7, 09 R283). -/
def combineBytes (op fmt : Nat) (d s : List Byte) : List Byte × Nat :=
  let w := fmtWidth fmt
  let n := s.length * 8 / w
  let r := (List.range n).map fun i => combine op fmt (packedGet d w i) (packedGet s w i)
  (padTo (packElems w (r.map Prod.fst)) s.length, r.foldl (fun f x => f ||| x.2) 0)

/-- A violation of a window. -/
def Mod.winViol (m : Mod) (w : Nat) : Mod := m.count kFabWinViol w

/-! Admission at the port (R457, R459, R465, R480). -/

/-- Is a source module quarantined? -/
def Mod.quarSrc (m : Mod) (src : BitVec 16) : Bool := m.fab.allow.any fun e => e.2.quar && e.2.module == src

/-- Does the partner of a port speak for a source (R457)? -/
def Mod.srcOk (m : Mod) (i : Nat) (src : BitVec 16) : Bool :=
  match Tab.find (m.port i).entry m.fab.allow with
  | none => false
  | some e => src == e.module || decide (e.fwdFirst ≤ src.toNat ∧ src.toNat < e.fwdFirst + e.fwdCount)

/-- Transit (R459). -/
def Mod.transit (m : Mod) (order type : Nat) (p : Packet) : Mod :=
  let drop : Mod := m.count kFabTransitDrop (p.port.val / 8)
  if p.hops.val = 0 ∨ (m.strictPort p.port.val).isSome then drop
  else match m.transitPort order (p.port.val / 8) p.dst.toNat with
    | none => drop
    | some i =>
      let q := { p with hops := Fin.ofNat 8 (p.hops.val - 1), port := i }
      (m.updFab fun b => { b with sent := (type, q) :: b.sent }).transmit q i

/-- Does a packet's payload have the length its header states? Only a READ states a length without payload. -/
def lenOk (type : Nat) (p : Packet) : Bool := decide (p.len ≤ 512) && (type == 2 || p.payload.length == p.len)

/-- A frame arrives on a VFL port: dropped, sent on, or given to this module. -/
def Mod.ingress (m : Mod) (order type : Nat) (p : Packet) (f : Mod → Mod) : Mod :=
  let i := p.port.val
  if (m.port i).state != 4 || (m.port i).mode != 1 then m
  else if !p.credit then m.portDrop i kFabCreditViol
  else if p.malformed || !(lenOk type p) then m.portDrop i kFabMalformed
  else if m.quarSrc p.src then m
  else if !(m.srcOk i p.src) then m.portDrop i kFabSrcDrop
  else
    let m := m.countBy kFabRxBytes i p.payload.length
    if p.dst.toNat = m.moduleId then f m
    else if type = 12 then m
    else m.transit order type p

/-! End-to-end transport (R460-R464). -/

/-- What performing a packet gave: data for a READ_RSP, flags for the DCMP; `hold` keeps the packet unperformed and unanswered. -/
structure RxDone where
  m : Mod
  data : Option (List Byte) := none
  afl : BitVec 4 := 0
  hold : Bool := false

def rxKey (p : Packet) : Nat := p.src.toNat * 4 + p.siod.val
def Mod.rx (m : Mod) (k : Nat) : E2eRx := m.fab.rx.getD k {}
def Mod.setRx (m : Mod) (k : Nat) (v : E2eRx) : Mod := m.updFab fun b => { b with rx := b.rx.put k v }

/-- Answer a packet: DCMP, or READ_RSP with its data. -/
def Mod.answer (m : Mod) (p : Packet) (data : Option (List Byte)) (afl : BitVec 4) : Mod :=
  let base := m.packet (p.port.val / 8) p.src.toNat p.win.toNat p.offset.toNat 0 0 0 (data.getD [])
  m.emit (if data.isSome then 3 else 6) { base with eseq := p.eseq, siod := p.siod, afl := afl }

/-- The lowest ESEQ not performed moves on over those performed above it. -/
def E2eRx.settle (r : E2eRx) : Nat → E2eRx
  | 0 => r
  | n + 1 => if r.done.contains r.low then E2eRx.settle { r with low := r.low + 1, done := r.done.erase r.low } n else r
/-- An ESEQ has been performed. -/
def E2eRx.perform (r : E2eRx) (e : BitVec 32) : E2eRx := E2eRx.settle { r with done := e :: r.done } (r.done.length + 1)

/-- Semaphores of a SIGNAL: 8-byte elements, each adding its low 32 bits (R468). -/
def Mod.signal (m : Mod) (p : Packet) : Mod :=
  match m.winOwner p.win.toNat with
  | none => m
  | some q => forEach (List.range (p.len / 8)) (fun i m =>
      let sem := m.nameSem q (p.offset.toNat / 8 + i)
      let a := (ingressAgent p.port.val).val
      if m.ownsSem q sem then (m.trace (16 + p.port.val / 8) 4 a q 0 sem).signalFrom a sem (leField p.payload (8 * i) 4)
      else m.winViol p.win.toNat) m

/-- A packet performed for the first time is traced at its I/O die (23 Table 23.5, log 149). -/
def Mod.traceRx (m : Mod) (p : Packet) : Mod :=
  m.trace (16 + p.port.val / 8) 7 (ingressAgent p.port.val).val ((m.winOwner p.win.toNat).getD 0x7F) p.eseq.toNat p.src.toNat
/-- SIGNAL packets that waited for every lower ESEQ of their source die. -/
def Mod.releaseHeld (m : Mod) (k : Nat) : Nat → Mod
  | 0 => m
  | n + 1 =>
    let r := m.rx k
    match r.held.find? fun p => p.eseq == r.low with
    | none => m
    | some p =>
      let m := (m.setRx k (({ r with held := r.held.erase p }).perform p.eseq)).traceRx p
      ((m.signal p).answer p none 0).releaseHeld k n

/-- A packet that spends a token reaches its module (R461-R463): a duplicate is answered, one beyond the record or without a
transport is dropped, another is performed. -/
def Mod.receive (m : Mod) (p : Packet) (f : Mod → RxDone) : Mod :=
  let k := rxKey p
  let r := m.rx k
  let above := (p.eseq - r.low).toNat
  if !r.isOpen then m
  else if 2 ^ 31 ≤ above ∨ r.done.contains p.eseq then m.answer p none 0
  else if 65536 ≤ above ∨ r.held.any (fun h => h.eseq == p.eseq) then m
  else
    let d := f m
    if d.hold then d.m
    else
      let m := (d.m.setRx k ((d.m.rx k).perform p.eseq)).traceRx p
      (m.answer p d.data d.afl).releaseHeld k ((m.rx k).held.length + 1)

/-- A packet for a window on a port dedicated to another partition is not carried (R459). -/
def Mod.carries (m : Mod) (p : Packet) : Bool :=
  match m.strictPort p.port.val with
  | none => true
  | some q => m.winOwner p.win.toNat == some q

/-- A data packet for a window: a refusal counts and is answered as usual (R466). -/
def Mod.dataPkt (m : Mod) (order type right : Nat) (kinds : List Nat) (p : Packet)
    (f : Nat → BitVec 256 → Mod → RxDone) : Mod :=
  m.ingress order type p fun m =>
    if !(m.carries p) then m
    else m.receive p fun m =>
      match m.window p.win.toNat p.src.toNat (· == p.key) right p.offset.toNat p.len kinds with
      | none => { m := m.winViol p.win.toNat, data := if type = 2 then some (List.replicate p.len 0) else none }
      | some (q, e) => f q e m

/-- A write of a packet's payload. -/
def Mod.pktWrite (m : Mod) (p : Packet) (q : Nat) (e : BitVec 256) : RxDone :=
  let r := m.winWrite (.nc (ingressAgent p.port.val)) q e p.offset.toNat p.payload
  { m := if r.1.viol then r.2.winViol p.win.toNat else r.2 }

/-- VFL_WRITE. -/
def execVflWrite (p : Packet) (s : State) : Out :=
  s.go fun m => m.atUnit (unitOfIod (p.port.val / 8)) fun m => m.dataPkt s.fuse.order.val 0 wrWR [1, 2] p fun q e m => m.pktWrite p q e

/-- VFL_MULTICAST. -/
def execVflMulticast (p : Packet) (s : State) : Out :=
  s.go fun m => m.atUnit (unitOfIod (p.port.val / 8)) fun m => m.dataPkt s.fuse.order.val 5 wrMC [1, 2] p fun q e m => m.pktWrite p q e

/-- VFL_READ: a poisoned source is not answered (log 40). -/
def execVflRead (p : Packet) (s : State) : Out :=
  s.go fun m => m.atUnit (unitOfIod (p.port.val / 8)) fun m => m.dataPkt s.fuse.order.val 2 wrRD [1, 2] p fun q e m =>
    let r := m.winRead (.nc (ingressAgent p.port.val)) q e p.offset.toNat p.len
    if r.1.viol then { m := r.2.winViol p.win.toNat, data := some (List.replicate p.len 0) }
    else { m := r.2, data := some r.1.bytes, hold := r.1.poison }

/-- VFL_SIGNAL: the addition waits for every packet of a lower ESEQ from the same die (R468). -/
def execVflSignal (p : Packet) (s : State) : Out :=
  s.go fun m => m.atUnit (unitOfIod (p.port.val / 8)) fun m => m.dataPkt s.fuse.order.val 4 wrWR [3] p fun _ _ m =>
    let k := rxKey p
    let r := m.rx k
    if p.eseq == r.low then { m := m.signal p }
    else { m := m.setRx k { r with held := r.held ++ [p] }, hold := true }

/-- A reduction into a window (R468, 05 R174). -/
def Mod.pktReduce (m : Mod) (p : Packet) (q : Nat) (e : BitVec 256) : RxDone :=
  let who : Who := .nc (ingressAgent p.port.val)
  let d := m.winRead who q e p.offset.toNat p.len
  if d.1.viol then { m := d.2.winViol p.win.toNat }
  else if d.1.poison then { m := d.2, hold := true }
  else
    let c := combineBytes p.op.val p.fmt.val d.1.bytes p.payload
    let r := d.2.winWrite who q e p.offset.toNat c.1
    { m := if r.1.viol then r.2.winViol p.win.toNat else r.2, afl := BitVec.ofNat 4 c.2 }

/-! Answers at the sender. -/

/-- A packet is delivered: its token comes back, its copy gets flags and data. -/
def Mod.delivered (m : Mod) (o : OutPkt) (afl : BitVec 4) (data : List Byte) : Mod :=
  let dst := o.p.dst.toNat
  let t := m.e2e o.iod.val dst
  let m := m.updFab fun b => { b with out := b.out.erase o }
  let m := m.setE2e o.iod.val dst { t with tokens := min t.grant (t.tokens + 1) }
  let m := match o.copy with
    | none => m
    | some c =>
      let base := (dst * 256 + o.p.win.toNat) * 2 ^ 40 + o.p.offset.toNat
      { m with copies := m.copies.adj c fun (x : Copy) => { x with
          aflags := x.aflags ||| afl,
          peerIn := (data.take o.p.len).zipIdx.foldl (fun t (b : Byte × Nat) => t.put (base + b.2) b.1) x.peerIn } }
  m.pump o.iod.val dst

/-- The packet that an answer names. -/
def Mod.answered (m : Mod) (p : Packet) (e : BitVec 32) (read : Bool) : Option OutPkt :=
  m.fab.out.find? fun o => !o.waiting && o.iod == p.siod && o.p.dst == p.src && o.p.eseq == e && (o.type == 2) == read

/-- VFL_DCMP: delivery-complete for a run of 1 to 64 ESEQs. -/
def execVflDcmp (p : Packet) (run : Nat) (s : State) : Out :=
  s.goIf (dcmpOk run) "VFL_DCMP" fun m => m.atUnit (unitOfIod (p.port.val / 8)) fun m => m.ingress s.fuse.order.val 6 p fun m =>
    forEach (List.range run) (fun i m => match m.answered p (p.eseq + BitVec.ofNat 32 i) false with
      | none => m
      | some o => m.delivered o p.afl []) m

/-- VFL_READ_RSP. -/
def execVflReadRsp (p : Packet) (s : State) : Out :=
  s.go fun m => m.atUnit (unitOfIod (p.port.val / 8)) fun m => m.ingress s.fuse.order.val 3 p fun m => match m.answered p p.eseq true with
    | none => m
    | some o => m.delivered o 0 p.payload

/-- VFL_OPEN: ESEQ starts from 0, and OPEN_ACK grants FAB_E2E_GRANT tokens (R460), which the model puts in OFFSET (log 145). -/
def execVflOpen (p : Packet) (s : State) : Out :=
  s.go fun m => m.atUnit (unitOfIod (p.port.val / 8)) fun m => m.ingress s.fuse.order.val 7 p fun m =>
    (m.setRx (rxKey p) { isOpen := true }).emit 8 { m.packet (p.port.val / 8) p.src.toNat 0 (m.parN pFabE2eGrant) 0 0 0 [] with siod := p.siod }

/-- VFL_OPEN_ACK. -/
def execVflOpenAck (p : Packet) (grant : Nat) (s : State) : Out :=
  s.goIf (grantOk grant) "VFL_OPEN_ACK" fun m => m.atUnit (unitOfIod (p.port.val / 8)) fun m => m.ingress s.fuse.order.val 8 p fun m =>
    let t := m.e2e p.siod.val p.src.toNat
    if t.openSent && !t.isOpen then
      (m.setE2e p.siod.val p.src.toNat { t with isOpen := true, tokens := grant, grant := grant, next := 0 }).pump p.siod.val p.src.toNat
    else m

/-- DELIVERY_TIMEOUT (R464): a packet, or the OPEN before it, is sent again; after three resends the destination is UNREACHABLE. -/
def execDeliveryTimeout (iod : IodId) (dst : BitVec 16) (eseq : BitVec 32) (s : State) : Out :=
  s.go fun m => if m.braked then m else
    let t := m.e2e iod.val dst.toNat
    match m.fab.out.find? fun o => o.iod == iod && o.p.dst == dst && (if t.isOpen then !o.waiting && o.p.eseq == eseq else o.waiting) with
    | none => m
    | some o =>
      if 3 ≤ o.resends then m.unreachable iod.val dst.toNat
      else
        let m := m.updFab fun b => { b with out := b.out.map fun x => if x = o then { x with resends := x.resends + 1 } else x }
        let m := m.count kFabResend iod.val
        if t.isOpen then
          (match m.altPort o.part.val dst.toNat with
            | some i => m.transmit o.p i
            | none => m)
        else m.emit 7 (m.packet iod.val dst.toNat 0 0 0 0 0 [])

/-! Dictionary fragments of the link partner (R587). -/

/-- Bytes of a frame from its fragments, where every byte is there. -/
def wholeFrame (total : Nat) (fs : List (Nat × List Byte)) : Option (List Byte) :=
  let t : Tab Byte := fs.foldl (fun t f => f.2.zipIdx.foldl (fun t (b : Byte × Nat) => t.put (f.1 + b.2) b.1) t) []
  if (List.range total).all fun i => t.has i then some ((List.range total).map fun i => t.getD i 0) else none

/-- MGMT_FRAGMENT_TIMEOUT. -/
def execMgmtFragmentTimeout (port : PortId) (s : State) : Out :=
  s.go fun m => m.updKod fun k => { k with frags := k.frags.del port.val }

end Sys2Proof.Machine
end

