-- ==== Sys2Proof/Machine/Fabric.lean ====
section
/-! DEFINITION. The tables of the optical fabric, Ethernet mode and collectives (spec 16 R469-R488, 14 R408). -/

namespace Sys2Proof.Machine

/-! Action records (R453, R470, R486-R488). -/

/-- An allow-list entry (Table 16.3); QUAR is the device's. -/
def allowOf (r : Nat) : Allow :=
  { idHash := bits r 383 128, module := BitVec.ofNat 16 (bits r 127 112), fwdFirst := bits r 111 96, fwdCount := bits r 95 80,
    valid := r.testBit 63 }

/-- One entry of FAB_ALLOW_SET: it replaces the entry of its identity, or takes the lowest free one of 4,096 (log 41). Reserved
bits are ignored (00 R14). -/
def Mod.allowPut (m : Mod) (r : Nat) : Option Mod :=
  let e := allowOf r
  let same := (m.fab.allow.find? fun x => x.2.idHash == e.idHash).map Prod.fst
  match same.or ((List.range 4096).find? fun i => !(m.fab.allow.has i)) with
  | none => none
  | some i => some (m.updFab fun b => { b with
      allow := if e.valid then b.allow.put i e else b.allow.del i,
      ports := b.ports.map fun p => (p.1, if p.2.quarantined && p.2.entry == i then
        { p.2 with quarantined := false, state := if p.2.mode = 0 then 1 else 2 } else p.2) })

/-- Apply records whole or not at all. -/
def Mod.applyAll (m : Mod) (rs : List Nat) (f : Nat → Mod → Option Mod) : Nat × Mod :=
  match rs.foldl (fun (a : Option Mod) r => a.bind (f r)) (some m) with
  | none => (esSTATE, m)
  | some n => (esOK, n)

/-- FAB_ALLOW_SET. -/
def Mod.fabAllowSet (m : Mod) (blob : List Byte) : Nat × Mod :=
  if blob.length % 48 ≠ 0 ∨ blob.length = 0 ∨ 1008 < blob.length then (esTYPE, m)
  else m.applyAll (recordsOf 48 blob) fun r m => m.allowPut r
/-- FAB_ALLOW_SET. -/
def execFabAllowSet (blob : List Byte) (s : State) : Out := s.go fun m => m.perform pFabAllowSet fun m => m.fabAllowSet blob

/-- FAB_ROUTE_SET (R486, Table 16.13). -/
def Mod.fabRouteSet (m : Mod) (order : Nat) (blob : List Byte) : Nat × Mod :=
  if blob.length % 8 ≠ 0 ∨ blob.length = 0 ∨ 1024 < blob.length then (esTYPE, m)
  else m.applyAll (recordsOf 8 blob) fun r m =>
    let id := bits r 63 48
    let pv := r.testBit 15
    let av := r.testBit 7
    if bits r 47 16 ≠ 0 ∨ bits r 14 13 ≠ 0 ∨ bits r 6 5 ≠ 0 ∨ id = 0 ∨ id = 0xFFFF ∨ (av ∧ !pv) ∨
        (pv ∧ !(portFitted order (bits r 12 8))) ∨ (av ∧ !(portFitted order (bits r 4 0))) then none
    else if pv then
      let x : Route := ⟨Fin.ofNat 32 (bits r 12 8), if av then some (Fin.ofNat 32 (bits r 4 0)) else none⟩
      some (m.updFab fun b => { b with routes := b.routes.put id x })
    else some (m.updFab fun b => { b with routes := b.routes.del id })
/-- FAB_ROUTE_SET. -/
def execFabRouteSet (blob : List Byte) (s : State) : Out :=
  s.go fun m => m.perform pFabRouteSet fun m => m.fabRouteSet s.fuse.order.val blob

/-- A number without the bits of a reserved field, which are ignored and read as zero (00 R14). -/
def dropField (r hi lo : Nat) : Nat := r - bits r hi lo * 2 ^ lo

/-- FAB_GROUP_SET (R470): a group is registered anew with its count of collectives at 0; not while a collective of it runs. -/
def Mod.fabGroupSet (m : Mod) (blob : List Byte) : Nat × Mod :=
  if blob.length % 32 ≠ 0 ∨ blob.length = 0 ∨ 1024 < blob.length then (esTYPE, m)
  else m.applyAll (recordsOf 32 blob) fun r m =>
    let g := bits r 15 0
    let busy : Bool := match Tab.find g m.fab.groups with
      | some x => x.cur.isSome
      | none => decide (1024 ≤ m.fab.groups.length)
    if 8 < bits r 111 108 ∨ busy then none
    else
      let x : Group := { entry := BitVec.ofNat 256 (dropField r 74 16) }
      some (m.updFab fun b => { b with groups := b.groups.put g x })
/-- FAB_GROUP_SET. -/
def execFabGroupSet (blob : List Byte) (s : State) : Out := s.go fun m => m.perform pFabGroupSet fun m => m.fabGroupSet blob

/-- A window's entry as its owner `p` writes it (Table 16.6): PART is the owner, reserved bits are ignored, and a reserved KIND is OFF
(00 R14; log 39). -/
def winEntry (e p : Nat) : Nat :=
  let e := dropField (dropField (dropField e 159 152) 35 0) 151 145 + p * 2 ^ 145
  if 4 ≤ bits e 130 128 then dropField e 130 128 else e

/-- FAB_WIN_SET: the owner writes a window's entry. The window number is taken as one 8-byte word before the entry (log 39). -/
def Mod.fabWinSet (m : Mod) (p : Nat) (blob : List Byte) : Nat × Mod :=
  let w := leField blob 0 8
  let e := leNat (blob.drop 8)
  if blob.length ≠ 40 then (esTYPE, m)
  else if 255 < w then (esRANGE, m)
  else if m.winOwner w ≠ some p then (esSTATE, m)
  else (esOK, m.updFab fun b => { b with windows := b.windows.put w (BitVec.ofNat 256 (winEntry e p)) })
/-- FAB_WIN_SET. -/
def execFabWinSet (p : PartId) (blob : List Byte) (s : State) : Out :=
  s.go fun m => m.perform pFabWinSet fun m => m.fabWinSet p.val blob

/-- FAB_RKEY_SET (R469, R488, Table 16.15). -/
def Mod.fabRkeySet (m : Mod) (p : Nat) (blob : List Byte) : Nat × Mod :=
  if blob.length % 32 ≠ 0 ∨ blob.length = 0 ∨ 1024 < blob.length then (esTYPE, m)
  else
    let r := m.applyAll (recordsOf 32 blob) fun r m =>
      let k := p * 2 ^ 24 + bits r 127 104
      if bits r 102 0 ≠ 0 then none
      else if r.testBit 103 then
        let x : RKey := ⟨BitVec.ofNat 64 (bits r 255 192), BitVec.ofNat 64 (bits r 191 128)⟩
        some (m.updFab fun b => { b with rkeys := b.rkeys.put k x })
      else some (m.updFab fun b => { b with rkeys := b.rkeys.del k })
    if m.parN (pFabRkeyQuota + p) < (r.2.fab.rkeys.filter fun e => e.1 / 2 ^ 24 == p).length then (esSTATE, m) else r
/-- FAB_RKEY_SET. -/
def execFabRkeySet (p : PartId) (blob : List Byte) (s : State) : Out :=
  s.go fun m => m.perform pFabRkeySet fun m => m.fabRkeySet p.val blob

/-! Ethernet queue pairs (R482, R484, R487, Table 16.14). -/

def EthQp.f (q : EthQp) (hi lo : Nat) : Nat := bits q.bind.toNat hi lo
def ethKey (port qpn : Nat) : Nat := port * 2 ^ 24 + qpn

/-- A queue pair has failed: its partner is UNREACHABLE, tasks with undelivered writes end TIMEOUT (R464, R484). -/
def Mod.ethFail (m : Mod) (key : Nat) : Mod :=
  match Tab.find key m.fab.eth with
  | none => m
  | some q =>
    let iod := key / 2 ^ 24 / 8
    let m := m.updFab fun b => { b with eth := b.eth.put key { q with error := true, outst := [] } }
    let m := (m.count kFabUnreach iod).raise evFabUnreach iod noPart (q.f 511 496)
    forEach q.outst (fun o m => match o.1 with
      | some u => m.endTaskUid u stTIMEOUT 0
      | none => m.updCmd o.2 fun k => k.mark stTIMEOUT 0) m

/-- One binding. -/
def Mod.ethBind (m : Mod) (r : Nat) : Option Mod :=
  let port := bits r 416 412
  let key := ethKey port (bits r 135 112)
  let pm := bits r 511 496
  let part := bits r 423 417
  if (m.port port).mode ≠ 2 then none
  else if r.testBit 474 then
    some ((m.ethFail key).updFab fun b => { b with eth := b.eth.del key })
  else if bits r 394 384 ≠ 0 ∨ bits r 111 0 ≠ 0 ∨ m.fab.eth.has key ∨ pm < 0xF000 ∨ pm = 0xFFFF ∨
      m.fab.eth.any (fun e => e.2.f 511 496 == pm) ∨ !(m.ownsSem part (m.nameSem part (bits r 495 480))) ∨ bits r 479 475 < 4 ∨ 16 < bits r 479 475 ∨
      bits r 473 472 = 3 ∨ bits r 471 424 % 8 ≠ 0 ∨ 1024 ≤ (m.fab.eth.filter fun e => e.1 / 2 ^ 24 == port).length then none
  else
    let x : EthQp := { bind := BitVec.ofNat 512 r, spsn := BitVec.ofNat 24 (bits r 183 160), rpsn := BitVec.ofNat 24 (bits r 207 184) }
    some (m.updFab fun b => { b with eth := b.eth.put key x })

/-- FAB_ETH_QP_SET. -/
def Mod.fabEthQpSet (m : Mod) (blob : List Byte) : Nat × Mod :=
  if blob.length % 64 ≠ 0 ∨ blob.length = 0 ∨ 1024 < blob.length then (esTYPE, m)
  else m.applyAll (recordsOf 64 blob) fun r m => m.ethBind r
/-- FAB_ETH_QP_SET. -/
def execFabEthQpSet (blob : List Byte) (s : State) : Out := s.go fun m => m.perform pFabEthQpSet fun m => m.fabEthQpSet blob

/-- A request of a partner reaches its queue pair on an ETH port that is UP; others are dropped. -/
def Mod.roce (m : Mod) (port qpn n : Nat) (f : EthQp → Mod → Mod) : Mod :=
  match Tab.find (ethKey port qpn) m.fab.eth with
  | none => m
  | some q =>
    if (m.port port).state != 4 || (m.port port).mode != 2 || q.error then m
    else
      let m := m.countBy kFabRxBytes port n
      f q (m.updFab fun b => { b with eth := b.eth.put (ethKey port qpn) { q with rpsn := q.rpsn + 1 } })

/-- The window an R_Key selects (R483). -/
def Mod.roceWindow (m : Mod) (q : EthQp) (rkey : BitVec 32) (right off len : Nat) : Option (Nat × BitVec 256) :=
  match m.window (rkey.toNat % 256) (q.f 511 496) (fun k => k.toNat % 2 ^ 24 == rkey.toNat / 256) right off len [1, 2] with
  | some (p, e) => if p = q.f 423 417 then some (p, e) else none
  | none => none

/-- An RDMA WRITE: whether it was performed. -/
def Mod.rdmaWrite (m : Mod) (port : PortId) (q : EthQp) (rkey : BitVec 32) (addr : Nat) (bs : List Byte) : Bool × Mod :=
  match m.roceWindow q rkey wrWR addr bs.length with
  | none => (false, m.winViol (rkey.toNat % 256))
  | some (p, e) =>
    let r := m.winWrite (.nc (ingressAgent port.val)) p e addr bs
    if r.1.viol then (false, r.2.winViol (rkey.toNat % 256)) else (true, r.2)

/-- ROCE_WRITE. -/
def execRoceWrite (port : PortId) (qpn : BitVec 24) (rkey : BitVec 32) (addr : Nat) (payload : List Byte) (s : State) : Out :=
  s.go fun m => m.atUnit (unitOfIod (port.val / 8)) fun m => m.roce port.val qpn.toNat payload.length fun q m => (m.rdmaWrite port q rkey addr payload).2

/-- ROCE_WRITE_IMM: a write that is performed leaves an immediate record and signals the semaphore. -/
def execRoceWriteImm (port : PortId) (qpn : BitVec 24) (rkey : BitVec 32) (addr : Nat) (payload : List Byte) (imm : BitVec 32)
    (s : State) : Out :=
  s.go fun m => m.atUnit (unitOfIod (port.val / 8)) fun m => m.roce port.val qpn.toNat payload.length fun q m =>
    let r := if payload.isEmpty then (true, m) else m.rdmaWrite port q rkey addr payload
    if !r.1 then r.2
    else
      let part := q.f 423 417
      let slot := q.imms % 2 ^ q.f 479 475
      let bs := leBytes (imm.toNat + payload.length * 2 ^ 32) 8
      let w := r.2.emWriteN (.nc (ingressAgent port.val)) part (q.f 471 424 + 8 * slot) bs 7
      let m := if w.1.viol then w.2.violate part else w.2
      let m := m.updFab fun b => { b with eth := b.eth.adj (ethKey port.val qpn.toNat) fun x => { x with imms := x.imms + 1 } }
      m.signalFrom (ingressAgent port.val) (m.nameSem part (q.f 495 480)) 1

/-- ROCE_READ: a poisoned source is not answered (log 40). -/
def execRoceRead (port : PortId) (qpn : BitVec 24) (rkey : BitVec 32) (addr : Nat) (len : Nat) (s : State) : Out :=
  s.go fun m => m.atUnit (unitOfIod (port.val / 8)) fun m => m.roce port.val qpn.toNat 0 fun q m =>
    let reply (bs : List Byte) (m : Mod) : Mod :=
      (m.updFab fun b => { b with roceRsp := (port.val, qpn.toNat, bs) :: b.roceRsp }).countBy kFabTxBytes port.val bs.length
    match m.roceWindow q rkey wrRD addr len with
    | none => reply (List.replicate len 0) (m.winViol (rkey.toNat % 256))
    | some (p, e) =>
      let r := m.winRead (.nc (ingressAgent port.val)) p e addr len
      if r.1.viol then reply (List.replicate len 0) (r.2.winViol (rkey.toNat % 256))
      else if r.1.poison then r.2
      else reply r.1.bytes r.2

/-- ROCE_ACK: an ACK of the last PSN sent is delivery-complete (R484). -/
def execRoceAck (port : PortId) (qpn psn : BitVec 24) (s : State) : Out :=
  s.go fun m => m.atUnit (unitOfIod (port.val / 8)) fun m => m.updFab fun b => { b with eth := b.eth.adj (ethKey port.val qpn.toNat) fun q =>
    if q.error then q else { q with retries := 0, outst := if psn = q.spsn - 1 then [] else q.outst } }

/-- ROCE_RETRY_TIMEOUT: seven retries, then the queue pair is in error. -/
def execRoceRetryTimeout (port : PortId) (qpn : BitVec 24) (s : State) : Out :=
  s.go fun m =>
    let k := ethKey port.val qpn.toNat
    match Tab.find k m.fab.eth with
    | none => m
    | some q =>
      if q.error || q.outst.isEmpty then m
      else if 7 ≤ q.retries then m.ethFail k
      else (m.updFab fun b => { b with eth := b.eth.put k { q with retries := q.retries + 1 } }).count kFabResend (port.val / 8)

/-! Collectives (R470-R476). -/

/-- Bytes of a tensor, and its segments of 512. -/
def Coll.bytes (c : Coll) : Nat := (c.count * fmtWidth c.fmt + 7) / 8
def Coll.segs (c : Coll) : Nat := (c.bytes + 511) / 512
def Coll.segLen (c : Coll) (i : Nat) : Nat := min 512 (c.bytes - 512 * i)
/-- Elements of one rank (Table 16.8). -/
def Coll.share (c : Coll) (members : Nat) : Nat := (c.count + members - 1) / members

/-- A packet of a collective's segment. -/
def Mod.collPkt (m : Mod) (g : Nat) (x : Group) (c : Coll) (dst type i : Nat) (bs : List Byte) (afl : BitVec 4) : Mod :=
  let iod := grpIod x.entry
  let base := m.packet iod dst 0 (x.collSeq.toNat * 2 ^ 24 + i) c.op c.fmt 0 bs
  m.sendPkt { iod := Fin.ofNat 4 iod, part := c.part, type := Fin.ofNat 16 type,
              p := { base with group := BitVec.ofNat 16 g, afl := afl }, cmd := c.cmd }

def Mod.updColl (m : Mod) (g : Nat) (f : Coll → Coll) : Mod := m.updGroup g fun x => { x with cur := x.cur.map f }

/-- Bytes of a segment that this member writes: under REDUCE_SCATTER its rank's elements only. -/
def collOwn (x : Group) (c : Coll) : Nat × Nat :=
  if c.kind = 1 then
    let m := c.share (grpMembers x.entry)
    let w := fmtWidth c.fmt
    (grpRank x.entry * m * w / 8, (min ((grpRank x.entry + 1) * m) c.count * w + 7) / 8)
  else (0, c.bytes)

/-- A segment of the result: it is written here and sent on to the children; the last one ends the command (R472). -/
def Mod.collResult (m : Mod) (g i : Nat) (bs : List Byte) (afl : BitVec 4) : Mod :=
  match Tab.find g m.fab.groups with
  | none => m
  | some x => match x.cur with
    | none => m
    | some c =>
      if c.down.has i then m
      else
        let own := collOwn x c
        let lo := max own.1 (512 * i)
        let hi := min own.2 (512 * i + bs.length)
        let r := if lo < hi then
            m.emWriteN (.nc (feAgent (grpIod x.entry))) c.part.val (c.va + lo) ((bs.drop (lo - 512 * i)).take (hi - lo)) 7
          else ({}, m)
        let m := if r.1.viol then r.2.violate c.part.val else r.2
        let m := (m.workDone c.cmd (hi - lo) 0 0 0).updCmd c.cmd fun k => { k with aflags := k.aflags ||| afl }
        let m := m.updColl g fun c => { c with down := c.down.put i () }
        let m := forEach (grpChildren x.entry) (fun d m => m.collPkt g x c d 9 i bs afl) m
        if c.down.length + 1 < c.segs then m
        else (m.updGroup g fun x => { x with cur := none, collSeq := x.collSeq + 1 }).endCmd c.cmd

/-- A segment is complete at this member: it goes to the parent, or at the root it is the result. -/
def Mod.collUp (m : Mod) (g i : Nat) (bs : List Byte) (afl : BitVec 4) : Mod :=
  match Tab.find g m.fab.groups with
  | none => m
  | some x => match x.cur with
    | none => m
    | some c =>
      if grpParent x.entry = 0 then m.collResult g i bs afl
      else m.collPkt g x c (grpParent x.entry) 1 i bs afl

/-- A contribution to a segment arrives: from child `who`, or the local one (8). Combinations are made in arrival order, one
rounding each; a broadcast passes on the one contribution there is (R472). -/
def Mod.collAdd (m : Mod) (g i who : Nat) (bs : List Byte) (afl : BitVec 4) : Mod :=
  match Tab.find g m.fab.groups with
  | none => m
  | some x => match x.cur with
    | none => m
    | some c =>
      if c.kind = 3 then m.collUp g i bs afl
      else
        let all := List.range (min (grpNchild x.entry) 8) ++ [8]
        let cur := c.parts.getD i (all, [])
        if !(cur.1.contains who) then m
        else
          let first := cur.2.isEmpty
          let r : List Byte × Nat := if first then (bs, 0)
            else if c.kind = 2 then ((cur.2.zip bs).map fun (e : Byte × Byte) => e.1 ||| e.2, 0)
            else combineBytes c.op c.fmt cur.2 bs
          let fl := afl ||| BitVec.ofNat 4 r.2
          let m := if first || c.kind = 2 then m else m.count kFabRedComb (grpIod x.entry)
          let left := cur.1.erase who
          let m := m.updColl g fun c => { c with afl := c.afl ||| fl, parts := if left.isEmpty then c.parts.del i else c.parts.put i (left, r.1) }
          if left.isEmpty then m.collUp g i r.1 (c.afl ||| fl) else m

/-- This member's own contribution to a segment: under ALL_GATHER its rank's elements, the others zero (log 42). -/
def Mod.collLocal (m : Mod) (g i : Nat) : Mod :=
  match Tab.find g m.fab.groups with
  | none => m
  | some x => match x.cur with
    | none => m
    | some c =>
      let n := c.segLen i
      let r := m.emReadN (.nc (feAgent (grpIod x.entry))) c.part.val (c.va + 512 * i) n 7
      let m := if r.1.viol then r.2.violate c.part.val else r.2
      let m := m.workDone c.cmd n 0 0 0
      if r.1.poison then (m.updCmd c.cmd fun k => k.mark (if r.1.shared then stSHARED else stPOISON) 0).collAbort g none
      else
        let w := fmtWidth c.fmt
        let sh := c.share (grpMembers x.entry)
        let rank := grpRank x.entry
        let first := 512 * i * 8 / w
        let bs := if c.kind = 2 then
            padTo (packElems w ((List.range (n * 8 / w)).map fun j =>
              if rank * sh ≤ first + j ∧ first + j < (rank + 1) * sh then packedGet r.1.bytes w j else 0)) n
          else r.1.bytes
        m.collAdd g i 8 bs 0

/-- The refused field of a COLLECTIVE (R408, R471). -/
def Mod.collRefusal (m : Mod) (c : HCmd) : Option Nat :=
  let op := c.wf 1 19 16
  let fmt := c.wf 1 23 20
  let bytes := (c.wf 1 63 32 * fmtWidth fmt + 7) / 8
  if !(match Tab.find (c.wf 1 15 0) m.fab.groups with
    | some x => grpPart x.entry == c.fn.val
    | none => false) then some 192
  else if !(fmtValid fmt) || fmtBlock fmt != 0 then some 212
  else if !(opPermits op fmt fmt) then some 208
  else if 4 ≤ c.wf 1 26 24 then some 216
  else if 2 ^ 24 * 512 < bytes then some 224
  else none

/-- COLLECTIVE: it starts once the group's earlier collective is over at this member. -/
def execCollective (id : Nat) (s : State) : Out :=
  s.go fun m =>
    match m.startable id 5 with
    | none => m
    | some c => match m.collRefusal c with
      | some b => (m.begin id c).refuseCmd id b
      | none =>
        let g := c.wf 1 15 0
        match Tab.find g m.fab.groups with
        | none => m
        | some x =>
          if x.cur.isSome then m
          else
            let k : Coll := { cmd := id, kind := Fin.ofNat 4 (c.wf 1 26 24), op := c.wf 1 19 16, fmt := c.wf 1 23 20,
                              count := c.wf 1 63 32, root := c.wf 2 15 0, va := c.w 0, part := c.fn }
            let m := (m.begin id c).updGroup g fun x => { x with cur := some k }
            if k.count = 0 then (m.updGroup g fun x => { x with cur := none, collSeq := x.collSeq + 1 }).endCmd id
            else if k.kind = 3 ∧ m.moduleId ≠ k.root then m
            else forEach (List.range k.segs) (fun i m => m.collLocal g i) m

/-- A collective packet of the group's current COLLSEQ, or one that is discarded (R471): a packet of a collective still to come here
is left for its sender's timeout, one of a past collective is answered. -/
def Mod.collRx (m : Mod) (p : Packet) (f : Group → Coll → Mod → Mod) : RxDone :=
  let g := p.group.toNat
  let stale (hold : Bool) : RxDone := { m := m.count kFabCollStale (p.port.val / 8), hold := hold }
  match Tab.find g m.fab.groups with
  | none => stale false
  | some x =>
    let ahead := (p.offset.toNat / 2 ^ 24 + 65536 - x.collSeq.toNat) % 65536
    match x.cur with
    | none => stale (decide (ahead < 32768))
    | some c => if ahead = 0 then { m := f x c m } else stale (decide (ahead < 32768))

/-- Is a WRITE_REDUCE a collective segment? A window packet carries a key and no group (Table 16.4, log 43). -/
def isSegment (p : Packet) : Bool := p.key == 0 || p.group != 0

/-- VFL_WRITE_REDUCE: into a window, or a child's segment. -/
def execVflWriteReduce (p : Packet) (s : State) : Out :=
  s.go fun m => m.atUnit (unitOfIod (p.port.val / 8)) fun m =>
    if isSegment p then m.ingress s.fuse.order.val 1 p fun m => m.receive p fun m => m.collRx p fun x _ m =>
      match (grpChildren x.entry).findIdx? (· == p.src.toNat) with
      | none => m
      | some i => m.collAdd p.group.toNat (p.offset.toNat % 2 ^ 24) i p.payload p.afl
    else if !(opPermits p.op.val p.fmt.val p.fmt.val) || !(fmtValid p.fmt.val) then m.ingress s.fuse.order.val 1 { p with malformed := true } fun m => m
    else m.dataPkt s.fuse.order.val 1 wrRED [1, 2] p fun q e m => m.pktReduce p q e

/-- VFL_COLL: a segment of the result from the parent. -/
def execVflColl (p : Packet) (s : State) : Out :=
  s.go fun m => m.atUnit (unitOfIod (p.port.val / 8)) fun m => m.ingress s.fuse.order.val 9 p fun m => m.receive p fun m => m.collRx p fun x _ m =>
    if grpParent x.entry = p.src.toNat then m.collResult p.group.toNat (p.offset.toNat % 2 ^ 24) p.payload p.afl else m

/-- VFL_ABORT: of the current COLLSEQ, the collective completes COLL_ABORT and the abort is passed on (R476). -/
def execVflAbort (p : Packet) (s : State) : Out :=
  s.go fun m => m.atUnit (unitOfIod (p.port.val / 8)) fun m => m.ingress s.fuse.order.val 11 p fun m =>
    match Tab.find p.group.toNat m.fab.groups with
    | none => m.count kFabCollStale (p.port.val / 8)
    | some x =>
      if x.cur.isSome && p.offset.toNat / 2 ^ 24 == x.collSeq.toNat then m.collAbort p.group.toNat (some p.src.toNat)
      else m.count kFabCollStale (p.port.val / 8)

/-- COLL_TIMEOUT (R473). -/
def execCollTimeout (g : BitVec 16) (s : State) : Out := s.go fun m => if m.braked then m else m.collAbort g.toNat none

/-- SLOW to tree neighbours of a group, but one. -/
def Mod.sendSlow (m : Mod) (g : Nat) (x : Group) (src : BitVec 16) (except? : Option Nat) : Mod :=
  forEach ((grpNeighbours x.entry).filter fun n => some n != except?) (fun n m =>
    m.emit 10 { m.packet (grpIod x.entry) n 0 0 0 0 0 [] with group := BitVec.ofNat 16 g, src := src }) m

/-- SLOW_HINT_TIMER: while a stack is High (R475). -/
def execSlowHintTimer (s : State) : Out :=
  s.go fun m =>
    if !(m.mem.stackTab.any fun e => e.2.state == 2) then m
    else forEach m.fab.groups (fun (g : Nat × Group) m => m.sendSlow g.1 g.2 (BitVec.ofNat 16 m.moduleId) none) m

/-- VFL_SLOW: the hint is noted and passed on once to the other neighbours. -/
def execVflSlow (p : Packet) (s : State) : Out :=
  s.go fun m => m.atUnit (unitOfIod (p.port.val / 8)) fun m => m.ingress s.fuse.order.val 10 p fun m =>
    match Tab.find p.group.toNat m.fab.groups with
    | none => m
    | some x =>
      let seen := match Tab.find p.src.toNat x.slow with
        | some t => decide (m.ticks < t + ticksPerMs) && m.ticks != t
        | none => false
      let m := m.updFab fun b => { b with slow := b.slow.put p.src.toNat m.ticks }
      let m := m.updGroup p.group.toNat fun x => { x with slow := x.slow.put p.src.toNat m.ticks }
      if seen then m else m.sendSlow p.group.toNat x p.src (some (m.port p.port.val).partner.toNat)

end Sys2Proof.Machine
end

