-- ==== Sys2Proof/Machine/Links.lean ====
section
/-! DEFINITION. Die links and expansion sites (spec 17): training, negotiation, CRC and replay, detours, comb sources. -/

namespace Sys2Proof.Machine

/-- Counters are kept for gateways only (Table 17.7). -/
def Mod.countGate (m : Mod) (c k n : Nat) : Mod := if k < 64 then m.countBy c k n else m

/-- Wavelengths or lanes at full training, and spares (Table 17.1, Table 17.3). -/
def linkFull (k : Nat) : Nat := if k < 64 then 32 else if k < 72 then 64 else 128
def linkSpares (k : Nat) : Nat := if k < 64 then 2 else if k < 72 then 4 else 0

/-! Training and negotiation (R491-R497). -/

/-- The link leaves ACTIVE for a quick TRAIN and holds its credits (R497, R500). -/
def Link.retrain (l : Link) : Link :=
  { l with state := 0, confFail := 0, proposal := none, crcRun := 0, replays := 0, holdCredits := true }

/-- Does network traffic flow: ACTIVE, FIXED, or at the minimum width in a negotiation (R494)? -/
def Link.carries (l : Link) : Bool := l.state == 4 || l.state == 6 || (l.state.val ≠ 0 && l.state.val ≤ 3)

/-- UDL_TRAIN of a link that negotiates (00 R5, R6): weak wavelengths or lanes take spares while there are any; those that stopped
carrying data count as weak (R490). -/
def execUdlTrain (r : LinkRef) (weak : List (Fin 128)) (usable : Nat) (quick : Bool) (s : State) : Out :=
  s.go fun m =>
    let k := linkKey r
    if !(linkNegotiates s.fuse.order.val k) then m else m.updLink k fun l =>
      if l.state != 0 then l
      else
        let n := (weak.map Fin.val ++ l.lost.filter fun w => !(weak.any fun x => x.val == w)).length
        let before := if quick then l.spares else 0
        let full := if k < 72 then linkFull k else 64 * l.modules.val
        { l with
          state := 1,
          spares := min (linkSpares k) (before + n),
          usable := min usable (full - (before + n - linkSpares k)),
          lost := [] }

/-- The block that this end advertises (R491, Table 17.2): every width step, rate, CRC and protocol of its medium, and this end's greatest
replay depth, a free value (log 44). -/
def Mod.capOwn (m : Mod) (k replay : Nat) : CapBlock :=
  { vmaj := 2, vmin := 1, medium := if k < 64 then 0 else if k < 72 then 1 else 2, widths := if k < 72 then 0xF else 0x3,
    usable := BitVec.ofNat 8 (m.link k).usable, rates := if k < 72 then 1 else 3, crct := 3, replay := Fin.ofNat 8 replay, proto := 0x7F,
    agents := 0, cagents := 0, epoch := m.mod.linkEpoch, die := Fin.ofNat 16 (linkOwn k), vendor := 0, product := 0 }

/-- Does this end of a link propose: of two compute dies the lower one, else the end that the module names (R492)? -/
def proposes (k : Nat) : Bool := if isCdCd k then decide (k / 8 < k % 8) else true

/-- Parameters chosen from the two blocks of an exchange (R493); none where they have nothing in common or lack a protocol. -/
def linkChoice (k : Nat) (own c : CapBlock) : Option LinkPar :=
  let unit := if k < 64 then 8 else if k < 72 then 16 else 64
  let widths := own.widths &&& c.widths
  let w := (List.range 4).foldl (fun b i =>
    if widths.getLsbD i && decide (unit * (i + 1) ≤ min own.usable.toNat c.usable.toNat) then unit * (i + 1) else b) 0
  let rates := own.rates &&& c.rates
  let rate := (List.range 4).foldl (fun b i => if rates.getLsbD i then some i else b) none
  let crc := own.crct &&& c.crct
  let need : BitVec 8 := if isCdCd k then 0x07 else if k < 72 then 0x0F else 0x12
  let proto := own.proto &&& c.proto
  match rate with
  | none => none
  | some x =>
    if w = 0 ∨ crc = 0 ∨ proto &&& need ≠ need then none
    else some { width := w, rate := x, crc32c := crc.getLsbD 1, replay := min own.replay.val c.replay.val, proto := proto.toNat }

/-- A confirmation fails; the third in a negotiation declares the link FAILED (R495). -/
def Mod.confFail (m : Mod) (k : Nat) : Mod :=
  let m := m.countGate kUdlNegotFail k 1
  let l := m.link k
  if 2 ≤ l.confFail then
    (m.updLink k fun l => { l with state := 5, confFail := 3, proposal := none }).raise evUdlLinkFail (linkOwn k) noPart
      (linkOwn k + linkPeer k * 2 ^ 16)
  else m.updLink k fun l => { l with state := 0, confFail := l.confFail + 1, proposal := none }

/-- The blocks are exchanged (R491, R496); the proposer chooses. -/
def Mod.capx (m : Mod) (k : Nat) (c : CapBlock) : Mod :=
  let l := m.link k
  let reset := match l.epoch with
    | some e => e != c.epoch
    | none => false
  let m := if reset then m.countGate kUdlDiscard k l.replay.length else m.countGate kUdlReplay k l.replay.length
  let d := m.draw
  let own := m.capOwn k (d.1 % 5)
  let m := d.2.updLink k fun l =>
    let l := { l with partner := some c, epoch := some c.epoch, sent := some own }
    if reset then { l with txSeq := 0, rxSeq := 0, replay := [], flits := [], partSlots := [] } else l
  match linkChoice k own c with
  | none => m.confFail k
  | some p => m.updLink k fun l => { l with state := 2, proposal := if proposes k then some p else none }

/-- UDL_CAPX. -/
def execUdlCapx (r : LinkRef) (c : CapBlock) (s : State) : Out :=
  s.go fun m => if linkNegotiates s.fuse.order.val (linkKey r) && (m.link (linkKey r)).state == 1 then m.capx (linkKey r) c else m

/-- The parameters on the table: the proposer's own, and at the other end those that it proposed (R492). -/
def Mod.proposal (m : Mod) (k : Nat) : Option LinkPar := (m.link (if proposes k then k else otherGate k)).proposal

/-- UDL_PROPOSE: the parameters of R493 are proposed, or arrive, and the test flits start. -/
def execUdlPropose (r : LinkRef) (s : State) : Out :=
  s.go fun m =>
    let k := linkKey r
    if !(linkNegotiates s.fuse.order.val k) || (m.link k).state != 2 then m else match m.proposal k with
    | none => m
    | some p => m.updLink k fun l => { l with state := 3, proposal := some p }

/-- UDL_PARTNER_TRAINING (R497). -/
def execUdlPartnerTraining (r : LinkRef) (s : State) : Out :=
  s.go fun m => if !(linkNegotiates s.fuse.order.val (linkKey r)) then m else
    m.updLink (linkKey r) fun l => if l.state == 4 then l.retrain else l

/-! Flits (R498-R500). -/

/-- Network code of a message, as the ledger of credits codes networks (10 Table 10.2), and the slots it takes (R499). -/
def udlCode : UdlMsg → Nat
  | .bn _ _ => 0
  | .cn _ => 1
  | .sn _ => 2
def udlLen : UdlMsg → Nat
  | .bn h (some _) => if h >>> 128 = BitVec.ofNat 256 (2 ^ 128 - 1) then 18 else 20
  | .bn _ none => 4
  | .cn _ => 5
  | .sn _ => 2
/-- The slots of a message, and of messages in order. -/
def udlSlots (x : UdlMsg) : List UdlSlot :=
  (List.range (udlLen x)).map fun i => ⟨x, i, if i = 0 then some (udlCode x, udlLen x) else none⟩
def packSlots (l : List UdlMsg) : List UdlSlot := l.flatMap udlSlots

/-- A gateway that takes slots: those of the message it is in, and the messages restored. -/
structure Unpack where
  cur : List UdlSlot
  out : List UdlMsg := []
  deriving DecidableEq, Repr
/-- A slot that starts a message, continues it, or completes it; a stray one is dropped with what it does not fit. -/
def Unpack.take (u : Unpack) (s : UdlSlot) : Unpack :=
  let cur := if s.idx = 0 then [s] else if s.idx = u.cur.length ∧ u.cur.head?.map UdlSlot.msg = some s.msg then u.cur ++ [s] else []
  match cur.head? with
  | some h => if h.head = some (udlCode s.msg, cur.length) then { cur := [], out := u.out ++ [s.msg] } else { u with cur := cur }
  | none => { u with cur := [] }
def unpackSlots (cur l : List UdlSlot) : Unpack := l.foldl Unpack.take { cur := cur }

/-- Slots of a flit. -/
def flitSlots : Nat := 30
/-- The flit of a sequence number: one sent before is sent again as it was, a new one takes the next slots. -/
def Link.flitOf (l : Link) (seq : BitVec 12) (msgs : List UdlMsg) : List UdlSlot :=
  (Tab.find seq.toNat l.flits).getD ((l.feed ++ packSlots msgs).take flitSlots)
/-- A repetition of a flit that was taken before. -/
def Link.taken (l : Link) (seq : BitVec 12) : Bool := seq != l.rxSeq && decide ((l.rxSeq - seq).toNat < 2048)
def Link.sendFlit (l : Link) (seq : BitVec 12) (msgs : List UdlMsg) : Link :=
  if l.taken seq then { l with feed := l.feed ++ packSlots msgs }
  else { l with flits := l.flits.put seq.toNat (l.flitOf seq msgs),
                feed := if l.flits.has seq.toNat then l.feed ++ packSlots msgs else (l.feed ++ packSlots msgs).drop flitSlots }
/-- The receiver takes the slots of a flit. -/
def Link.takeFlit (l : Link) (seq : BitVec 12) (msgs : List UdlMsg) : Link :=
  let u := unpackSlots l.partSlots (l.flitOf seq msgs)
  { l with flits := l.flits.del seq.toNat, partSlots := u.cur, restored := u.out }

/-- Flits acknowledged up to a sequence number leave the replay buffer. -/
def dropAcked (ack : BitVec 12) (l : List (BitVec 12)) : List (BitVec 12) := if l.contains ack then (l.dropWhile (· != ack)).drop 1 else l

/-- UDL_DATA_FLIT: `msgs` are what the sending end packs behind what it has not sent. In order and whole the flit is taken and unpacked,
with its acknowledgement and stamp; a CRC error discards it and what follows and sends NAK; the eighth in succession ends ACTIVE. The electrical path of the F and the S carries flits only while the photonic port beside
it is fenced (01 R23). The partner gateway of a link between compute dies keeps the flit for replay. -/
def execUdlDataFlit (r : LinkRef) (seq ack : BitVec 12) (crcOk : Bool) (body : FlitBody) (s : State) : Out :=
  s.go fun m =>
    let k := linkKey r
    let l := m.link k
    let bare := match r with
      | .electrical d => !(m.electricalCarries s.fuse.order.val d.val)
      | _ => false
    if !l.carries || bare then m
    else
      let m := if isCdCd k then
          let o := otherGate k
          let m := m.countGate kUdlFlits o 1
          m.updLink o fun x => if x.replay.contains seq then x else { x with replay := x.replay ++ [seq], txSeq := seq + 1 }
        else m
      let got := l.takeFlit seq body.msgs
      let m := m.updLink k fun l => l.sendFlit seq body.msgs
      if !crcOk then
        let m := m.countGate kUdlCrcErr k 1
        m.updLink k fun l => if 8 ≤ l.crcRun + 1 ∧ l.state = 4 then l.retrain else { l with crcRun := l.crcRun + 1 }
      else if seq ≠ l.rxSeq then m
      else
        let m := m.updLink k fun l => { l with
          rxSeq := l.rxSeq + 1, crcRun := 0, flits := l.flits.del seq.toNat, partSlots := got.partSlots, restored := got.restored,
          replay := dropAcked ack l.replay, overDetour := dropAcked ack l.overDetour }
        match body.stamp with
        | none => m
        | some v =>
          let d := linkOwn k
          m.updDie d fun x => { x with ccOff := x.ccOff + (v + 1 - m.cc d) }

/-- UDL_NAK: flits from the named one on are sent again; more than 64 replays in 1 ms end ACTIVE. -/
def execUdlNak (r : LinkRef) (seq : BitVec 12) (s : State) : Out :=
  s.go fun m =>
    let k := linkKey r
    let l := m.link k
    if !l.carries then m
    else
      let n := (l.replay.dropWhile (· != seq)).length
      let fresh := l.replayTick + ticksPerMs < m.ticks
      let c := if fresh then 1 else l.replays + 1
      let m := m.countGate kUdlReplay k n
      m.updLink k fun l =>
        if 64 < c ∧ l.state = 4 then l.retrain
        else { l with replays := c, replayTick := if fresh then m.ticks else l.replayTick }

/-! Detours (R501, R502). -/

/-- DETOUR_TIMEOUT: the pair's traffic goes by a third die; flits not acknowledged go first. -/
def execDetourTimeout (r : LinkRef) (s : State) : Out :=
  s.go fun m =>
    let k := linkKey r
    let l := m.link k
    if !(isCdCd k) || l.state == 4 || l.state == 6 || l.detour || !(m.detourDie k) then m
    else (m.countGate kUdlReplay k l.replay.length).updLink k fun l => { l with detour := true, overDetour := l.replay }

/-- UDL_DETOUR_RETURN: the flits sent by detour are acknowledged and the direct link is ACTIVE again. -/
def execUdlDetourReturn (r : LinkRef) (s : State) : Out :=
  s.go fun m => m.updLink (linkKey r) fun l =>
    if l.detour && l.state == 4 then { l with detour := false, replay := l.replay.filter fun x => !l.overDetour.contains x, overDetour := [] }
    else l

/-! UDL 1.0, expansion sites, light (R489, R490, R505, R506, R508). -/

/-- UDL1_TRAINING_PATTERN: the fixed parameters of an IOD-1 end, on order code L. -/
def execUdl1TrainingPattern (d : DieId) (s : State) : Out :=
  s.go fun m =>
    if s.fuse.order ≠ 2 then m
    else m.updLink (64 + d.val) fun l => { l with
      state := 6, par := some { width := 64, rate := 0, crc32c := false, replay := 0, proto := 0x0F }, usable := 64, proposal := none,
      holdCredits := false }

/-- A populated site is offline: its link goes, XS_FAULT is raised, its agents are declared unresponsive (R506). On the S and the L the
sites are empty (00 R5): nothing there fails. -/
def Mod.siteFault (m : Mod) (order site : Nat) : Mod :=
  if order ≠ 0 then m else
  forEach (List.range 8) (fun j m => m.declareGone (Fin.ofNat 2048 (1184 + 8 * (site % 2) + j)))
    ((m.updLink (72 + site) fun l => { l with state := 5, partner := none, proposal := none, par := none }).raise evXsFault (12 + site)
      noPart site)

/-- XS_TRAIN of a populated site: modules train, the die is checked against the factory record, then its block is exchanged. -/
def execXsTrain (site : Fin 2) (modules : Fin 3) (cap : CapBlock) (s : State) : Out :=
  s.go fun m =>
    let k := 72 + site.val
    let id := s.fuse.xsIdent.getD site.val 0
    if s.fuse.order ≠ 0 then m
    else if modules = 0 ∨ id = 0 ∨ cap.vendor.toNat * 65536 + cap.product.toNat ≠ id then m.siteFault s.fuse.order.val site.val
    else (m.updLink k fun l => { l with state := 1, modules := modules, usable := 64 * modules.val, confFail := 0 }).capx k cap

/-- Photonic links of a die: for an I/O die, those of its compute dies toward it. -/
def photonicOf (d : Nat) : List Nat :=
  if d < 8 then (List.range 8).map (8 * d + ·) ++ (List.range 8).filterMap fun q => if q = d then none else some (8 * q + d)
  else [2 * (d - 8), 2 * (d - 8) + 1].map fun c => 9 * c

/-- RING_LOCK_LOSS: the wavelength stops carrying data (R490). -/
def execRingLockLoss (r : LinkRef) (w : Fin 34) (s : State) : Out :=
  s.go fun m =>
    match r with
    | .photonic _ _ => m.updLink (linkKey r) fun l => if l.lost.contains w.val then l else { l with lost := w.val :: l.lost }
    | _ => m

end Sys2Proof.Machine
end

