-- ==== Sys2Proof/Machine/Waypoints.lean ====
section
/-! DEFINITION. Waypoints and rollback (spec 18 R525-R532), and the completion of commands (14 R396-R403), which can call for a
rollback (R530). A slot holds the bytes of Tables 18.4 and 18.5; the state keeps what they say (log 45). -/

namespace Sys2Proof.Machine

/-! What belongs to a partition. -/

/-- Saddles that hold a context of a partition. -/
def Mod.ctxsOf (m : Mod) (p : Nat) : List (Nat × Ctx) := m.ctxs.filter fun e => e.2.part.val == p && e.2.st != .empty
def Mod.savedFor (m : Mod) (p : Nat) : List (Nat × Saved) := m.sched.saved.filter fun e => e.2.ctx.part.val == p

/-- Is a synchronisation flit for a cell of the partition? -/
def Mod.snFor (m : Mod) (p : Nat) (f : SnFlit) : Bool :=
  match f.op with
  | .barA | .barAw | .barW | .release => m.ownsBar p f.num
  | _ => m.ownsSem p f.num

/-- Commands of a partition that have started and whose work is not over, of the kinds that run for a time: LAUNCH, STEP and COPY
(log 46). -/
def Mod.cmdsUnderWay (m : Mod) (p : Nat) : List (Nat × HCmd) :=
  m.host.cmds.filter fun e => e.2.fn.val == p && e.2.started && !e.2.workOver && decide (1 ≤ e.2.opc ∧ e.2.opc ≤ 3)

/-! Taking a waypoint. -/

/-- Is a waypoint deferred (R526)? A rollback is over within the command that makes it. -/
def Mod.wpDeferred (m : Mod) (p : Nat) : Bool :=
  m.fab.groups.any (fun g => match g.2.cur with
    | some c => c.part.val == p
    | none => false) ||
  m.seq.steps.any fun r => r.2.part.val == p && (match m.cmd? r.1 with
    | some c => !c.ended && c.tasksEnded == c.tasks
    | none => false)

/-- Start a waypoint, or leave it to the next timer where it is deferred. -/
def Mod.wpStart (m : Mod) (p : Nat) : Mod :=
  if !m.serving || (m.part p).st != .active || m.parN (pWpSlotMib + p) = 0 || (m.wp p).taking then m
  else if m.wpDeferred p then m.updWp p fun w => { w with wanted := true }
  else m.updWp p fun w => { w with taking := true, wanted := false, since := m.ticks }

/-- WAYPOINT_TIMER. -/
def execWaypointTimer (p : PartId) (s : State) : Out :=
  s.go fun m => if m.parN (pWpPeriodMs + p.val) = 0 && !(m.wp p.val).wanted then m else m.wpStart p.val

/-- WP_TAKE: with waypoints off it takes none. -/
def Mod.wpTake (m : Mod) (p : Nat) : Nat × Mod :=
  if (m.part p).st != .active || m.parN (pWpSlotMib + p) = 0 then (esSTATE, m) else (esOK, m.wpStart p)
/-- WP_TAKE. -/
def execWpTake (p : PartId) (s : State) : Out := s.go fun m => m.perform (pWpTake + p.val) fun m => m.wpTake p.val

/-- Has the engine work of the partition completed, with nothing in flight between its contexts and the synchronisation homes? -/
def Mod.wpDrained (m : Mod) (p : Nat) : Bool :=
  ((m.ctxsOf p).all fun e =>
    let c := e.2
    c.ending.isNone && c.st != .loading && c.st != .saving && c.iq.isEmpty && c.vq == 0 &&
    ((m.tile (e.1 / 4)).running.all fun r => r.sd.val != e.1 % 4)) &&
  (m.sched.evicting.all fun e => (m.ctx (e.1 / 4) (e.1 % 4)).part.val != p) &&
  (m.copies.all fun e => e.2.part.val != p || e.2.status.isSome) &&
  (m.net.sn.all fun f => !m.snFor p f) &&
  (m.net.selGrants.all fun k => match m.cmd? (k / 65536) with
    | some c => c.fn.val != p
    | none => true)

/-- Numbers of semaphores and barriers in a wait. -/
def Wait.renumber (sem bar : Nat → Nat) (w : Wait) : Wait :=
  match w with
  | .sem n c rd => .sem (sem n) c rd
  | .try n rd => .try (sem n) rd
  | .bar n ph rd a => .bar (bar n) ph rd a
  | w => w
def Ctx.renumber (sem bar : Nat → Nat) (c : Ctx) : Ctx := { c with wait := c.wait.map (Wait.renumber sem bar) }

/-- The image of the context in a saddle; it is no longer halted. -/
def Mod.imageOf (m : Mod) (key : Nat) (c : Ctx) : Saved :=
  let t := m.tile (key / 4)
  let live := match c.task with
    | some k => taskLive k
    | none => 0
  let img := t.liveImage (t.win.getD (key % 4) (0, 0)).1 live
  let d : Ctx := { c with handle := none, single := false, stepOver := false, st := if c.st == .halted then .run else c.st }
  { ctx := { d.saved with acc := c.acc.filter fun a => a.held }, ts := img.1, poison := img.2, slot := 0,
    iod := match c.task with
      | some k => Fin.ofNat 4 (m.iodOfTask k)
      | none => 0,
    parked := c.wait.isSome }

/-- Bytes of a context image, its parked entry included (Table 18.5). -/
def Saved.imageLen (v : Saved) : Nat :=
  64 + 256 + 256 * onesOf v.ctx.tvlive + v.live + (match v.ctx.acc with
    | some a => if a.held then 65536 else 0
    | none => 0) + (if v.ctx.wait.isSome then 32 else 0)

/-- The waypoint of a partition as it stands now. -/
def Mod.wpImage (m : Mod) (p : Nat) : WpImage :=
  let sem := m.semName p
  let bar := m.barName p
  let cs := ((m.ctxsOf p).map fun e => m.imageOf e.1 e.2) ++ (m.savedFor p).map Prod.snd
  let cmds := m.cmdsUnderWay p
  let uids := cs.map fun v => v.ctx.uid
  let mine (w : WaitRec) : Bool :=
    if w.uid = 0 then cmds.any fun e => e.1 == w.key / 65536 else uids.contains w.uid
  let resend : List WaitRec := m.net.resend.map fun f => ⟨f.num, f.count, f.uid, f.key⟩
  let groups := ((List.range 128).filter fun g => (m.part p).tgmask.getLsbD g).map fun g => sem (512 * g) / 512
  { seq := (m.wp p).seq + 1, gen := (m.part p).gen,
    len := 1024 * cmds.length + cs.foldl (fun n v => n + v.imageLen) 0 + 2304 * groups.length,
    cmds := cmds, ctxs := cs.map fun v => { v with ctx := v.ctx.renumber sem bar },
    ready := m.sched.ready.filter fun k => k.part.val == p,
    sems := (m.net.sems.keep fun s _ => m.ownsSem p s).map fun e => (sem e.1, e.2),
    bars := (m.net.bars.keep fun b _ => m.ownsBar p b).map fun e => (bar e.1, e.2),
    waits := ((m.net.waits ++ resend).filter mine).map fun w => { w with sem := sem w.sem },
    steps := m.seq.steps.keep fun i _ => cmds.any fun e => e.1 == i,
    copies := m.copies.keep fun _ c => match c.owner with
      | some u => uids.contains u
      | none => false,
    groups := groups }

/-! The bytes of a waypoint (Tables 18.4 and 18.5); the order of bytes within a part of the body is the model's (log 45). -/

/-- The bytes of a part that has `n` of them: what it says, then zeros. -/
def fillTo (n : Nat) (bs : List Byte) : List Byte := bs.take n ++ List.replicate (n - bs.length) 0
/-- A command record, 1 KiB. -/
def HCmd.wpBytes (c : HCmd) (next : Nat) : List Byte :=
  fillTo 1024 (fillTo 128 (leBytes (c.qp.getD 0) 4 ++ leBytes (c.wf 0 47 32) 2 ++ leBytes next 4 ++ leBytes c.status 2 ++
    leBytes c.aflags.toNat 1 ++ leBytes c.exit 2) ++ c.slots.flatMap fun (d : LineData) => bytesOf d)
/-- A context image: command and task index, then what a save slot holds, then the accumulators that are held. -/
def Saved.wpBytes (v : Saved) : List Byte :=
  fillTo 64 (match v.ctx.task with
    | some k => leBytes k.cmd 8 ++ leBytes k.index 4
    | none => []) ++ v.ctx.regBytes ++ Mem.rds v.ts 0 v.live ++
  (match v.ctx.acc with
    | some a => if a.held then fillTo 65536 (a.elems.flatMap fun x => leBytes x (if a.elems.length ≤ 8192 then 8 else 4)) else []
    | none => [])
/-- A parked entry, 32 bytes: kind, object, operand, register (13 R373). -/
def Wait.wpBytes (w : Wait) : List Byte :=
  let e (k n x : Nat) (r : Reg) : List Byte := fillTo 32 (leBytes k 4 ++ leBytes n 4 ++ leBytes x 4 ++ leBytes r.val 4)
  match w with
  | .copy tag rd => e 1 tag 0 rd
  | .sem n c rd => e 2 n c rd
  | .try n rd => e 3 n 0 rd
  | .bar n ph rd a => e (if a then 5 else 4) n ph rd
  | .arrive n rd => e 6 n 0 rd
  | .fence k => e 7 k.val 0 0
  | .taskEnd x => e 8 x.toNat 0 0
/-- The cells of one tile group, 2,304 bytes. -/
def WpImage.cellBytes (i : WpImage) (g : Nat) : List Byte :=
  ((List.range 512).flatMap fun n => leBytes (i.sems.getD (512 * g + n) {}).value 4) ++
    (List.range 32).flatMap fun n => let b := i.bars.getD (32 * g + n) {}; leBytes b.phase 4 ++ leBytes b.arrived 4
/-- Contexts of an image that wait. -/
def WpImage.parked (i : WpImage) : List Wait := i.ctxs.filterMap fun v => v.ctx.wait
/-- The body. -/
def WpImage.body (i : WpImage) : List Byte :=
  (i.cmds.flatMap fun e => e.2.wpBytes (((i.ready.filter fun k => k.cmd == e.1).map fun k => k.index).head?.getD e.2.tasks)) ++
    i.ctxs.flatMap Saved.wpBytes ++ i.groups.flatMap i.cellBytes ++ i.parked.flatMap Wait.wpBytes
/-- The header of a partition's waypoint, CHECK over its bytes 0 to 27 and the body. -/
def WpImage.header (i : WpImage) (p : Nat) : List Byte :=
  let n := i.seq % 2 ^ 64 + p * 2 ^ 105 + i.gen.toNat * 2 ^ 112 + i.parked.length % 2 ^ 16 * 2 ^ 136 + i.ctxs.length % 2 ^ 16 * 2 ^ 152 +
    i.cmds.length % 2 ^ 16 * 2 ^ 168 + i.len % 2 ^ 40 * 2 ^ 184
  let check := crc32c (leBytes n 28 ++ i.body)
  leBytes (n + check.toNat * 2 ^ 224) 64
/-- Address of a slot. -/
def Mod.wpAddr (m : Mod) (p : Nat) (second : Bool) : Nat :=
  m.parN (pWpBase + p) + (if second then m.parN (pWpSlotMib + p) * 2 ^ 20 else 0)
/-- Write a waypoint into a slot, its header last. -/
def Mod.putWaypoint (m : Mod) (p : Nat) (second : Bool) (i : WpImage) : Mod :=
  let a := m.wpAddr p second
  (m.areaWrite (a + 64) i.body).areaWrite a (i.header p)
/-- Does CHECK of a slot match what memory holds there? -/
def Mod.wpIntact (m : Mod) (p : Nat) (second : Bool) (i : WpImage) : Bool :=
  match m.areaRead (m.wpAddr p second) (64 + i.len) with
  | some bs => leNat (bs.take 8) == i.seq % 2 ^ 64 && (crc32c (bs.take 28 ++ bs.drop 64)).toNat == leNat ((bs.drop 28).take 4)
  | none => false

/-- Do both slots lie in MIRROR or PARITY frames tagged with the partition's number (R525)? -/
def Mod.wpAreaOk (m : Mod) (p : Nat) : Bool :=
  let base := m.parN (pWpBase + p)
  let n := 2 * m.parN (pWpSlotMib + p) * 16
  decide (base % 65536 = 0 ∧ base + n * 65536 ≤ 2 ^ 41) &&
  (List.range n).all fun i =>
    let pa := base + i * 65536
    dataDurable (kindOf (m.region (regionOf pa))) && (m.tagOf pa).toNat == p

/-- The waypoint that a slot was given last. -/
def Wp.slot (w : Wp) (second : Bool) : Option WpImage := if second then w.slotB else w.slotA
/-- Is a slot valid (R525)? -/
def Mod.wpValid (m : Mod) (p : Nat) (second : Bool) : Bool :=
  match (m.wp p).slot second with
  | some i => i.gen == (m.part p).gen && m.wpIntact p second i
  | none => false
/-- Number of the waypoint in a slot. -/
def Wp.seqOf (w : Wp) (second : Bool) : Nat := ((w.slot second).map (·.seq)).getD 0
/-- The newest valid waypoint. -/
def Mod.wpNewest (m : Mod) (p : Nat) : Option WpImage :=
  let w := m.wp p
  match m.wpValid p false, m.wpValid p true with
  | true, true => if w.seqOf false < w.seqOf true then w.slotB else w.slotA
  | true, false => w.slotA
  | false, true => w.slotB
  | false, false => none
/-- The slot of the older or invalid waypoint: the second? -/
def Mod.wpSecond (m : Mod) (p : Nat) : Bool :=
  m.wpValid p false && !(m.wpValid p true && decide ((m.wp p).seqOf false < (m.wp p).seqOf true))

/-- WAYPOINT_DRAINED: body and header are written into the slot of the older or invalid waypoint; the contexts continue. -/
def execWaypointDrained (p : PartId) (s : State) : Out :=
  s.go fun m =>
    if !(m.wp p.val).taking || !(m.wpDrained p.val) then m
    else
      let img := m.wpImage p.val
      let free (m : Mod) : Mod := m.updWp p.val fun w => { w with taking := false }
      if m.parN (pWpSlotMib + p.val) * 2 ^ 20 < img.len + 64 then
        ((free m).count kWpSkip p.val).raise evWpToobig 0 p.val img.len
      else if !(m.wpAreaOk p.val) then (free m).count kWpSkip p.val
      else
        let second := m.wpSecond p.val
        let m := (m.putWaypoint p.val second img).updWp p.val fun w =>
          if second then { w with slotB := some img, seq := img.seq, taking := false }
          else { w with slotA := some img, seq := img.seq, taking := false }
        m.count kWpTaken p.val

/-- WAYPOINT_DRAIN_TIMEOUT. -/
def execWaypointDrainTimeout (p : PartId) (s : State) : Out := s.go fun m => m.abandonWp p.val

/-! Rollback (R531, R532). -/

/-- Step 1 for the contexts: every task of the partition ends and reports to no command. Its copies complete here, before the cells are restored,
as far as no network holds them up; one that is still under way signals its semaphore when it completes (05 R182). -/
def Mod.withdrawTasks (m : Mod) (p : Nat) : Mod :=
  let evs := (m.sched.evicting.filter fun e => (m.ctx (e.1 / 4) (e.1 % 4)).part.val == p).map Prod.fst
  let m := m.updSched fun s => { s with
    evicting := s.evicting.keep fun k _ => !evs.contains k,
    ready := s.ready.filter fun k => k.part.val != p }
  let svs := m.savedFor p
  let rs := (m.sched.restoring.filter fun e => svs.any fun v => v.1 == e.2).map Prod.fst
  let m := m.updSched fun s => { s with
    restoring := s.restoring.keep fun k _ => !rs.contains k,
    saved := s.saved.keep fun _ v => v.ctx.part.val != p }
  let m := forEach rs (fun k m => m.emptySaddle (k / 4) (k % 4)) m
  let m := forEach svs (fun v m => (m.dropWaits v.2.ctx.uid).forgetCopies v.2.ctx.uid) m
  let m := forEach (m.ctxsOf p) (fun e m =>
    let t := e.1 / 4
    let s := e.1 % 4
    if e.2.st == .loading then
      (m.updNet fun n => { n with cn := n.cn.filter fun f => !(f.op == .launch && f.a == e.1) }).emptySaddle t s
    else
      let m := m.updCtx t s fun c => { c with
        st := if c.st == .saving then .run else c.st,
        task := c.task.map fun k => { k with cmd := 0, item := none } }
      m.endTask t s stOK fkPROGRAM 0 0) m
  let m := { m with copies := m.copies.map fun (e : Nat × Copy) =>
    if e.2.part.val = p ∧ e.2.status.isNone then (e.1, { e.2 with cmd := 0 }) else e }
  let m := forEach ((m.copies.filter fun e => e.2.part.val == p && e.2.status.isNone).map Prod.fst) (fun i m => m.copyComplete i .ok) m
  m.updNet fun n => { n with sn := n.sn.filter fun f => !m.snFor p f }

/-- A step of a withdrawn command is gone. -/
def Mod.withdrawStep (m : Mod) (id : Nat) : Mod :=
  (m.updNet fun n => { n with
    waits := n.waits.filter fun w => !(w.uid == 0 && w.key / 65536 == id),
    selGrants := n.selGrants.filter fun k => k / 65536 != id }).updSeq fun s => { s with steps := s.steps.del id }

/-- A withdrawn command as it was fetched. -/
def HCmd.fresh (c : HCmd) : HCmd :=
  { fn := c.fn, qp := c.qp, iod := c.iod, gen := c.gen, ord := c.ord, slots := c.slots, sqhead := c.sqhead, recSlot := c.recSlot, unrecorded := c.unrecorded, handed := c.handed,
    hmUncertain := c.hmUncertain, flushing := c.flushing, retained := c.retained }

/-- Semaphores and barriers of a partition return to an image (R531 step 2, R520). -/
def Mod.restoreCells (m : Mod) (p : Nat) (i : WpImage) : Mod :=
  m.updNet fun n => { n with
    sems := i.sems.foldl (fun t e => t.put (m.nameSem p e.1) e.2) (n.sems.keep fun s _ => !m.ownsSem p s),
    bars := i.bars.foldl (fun t e => t.put (m.nameBar p e.1) { e.2 with waiters := [] }) (n.bars.keep fun b _ => !m.ownsBar p b) }

/-- One image becomes a saved context, runnable or parked, under a new uid; the completed copies it holds tags of, and its waits,
come back with it. -/
def Mod.restoreCtx (m : Mod) (p : Nat) (i : WpImage) (v : Saved) : Mod :=
  let old := v.ctx.uid
  let uid := m.uidSeq
  let m := { m with uidSeq := uid + 1 }
  let base := m.copySeq
  let held := v.ctx.tags.filterMap fun e => (Tab.find e.2 i.copies).map fun c => (e.1, c)
  let m := { m with
    copySeq := base + held.length,
    copies := held.zipIdx.foldl (fun t (x : (Nat × Copy) × Nat) => t.put (base + x.2) { x.1.2 with owner := some uid }) m.copies }
  let c : Ctx := { (v.ctx.renumber (m.nameSem p) (m.nameBar p)) with
    uid := uid,
    tags := held.zipIdx.map fun (x : (Nat × Copy) × Nat) => (x.1.1, base + x.2),
    task := v.ctx.task.map fun k => { k with uid := uid } }
  let n := m.sched.readySeq
  let s : Saved := { v with ctx := c, slot := m.freeSlot p, ready := if c.wait.isSome then none else some n,
                            parked := c.wait.isSome }
  let m := (m.putImage s).updSched fun x => { x with saved := x.saved.put x.saved.fresh s, readySeq := n + 1 }
  let m := m.updNet fun x => { x with
    waits := x.waits ++ (i.waits.filter fun w => w.uid == old && w.uid != 0).map fun w =>
      { w with sem := m.nameSem p w.sem, uid := uid } }
  forEach i.bars (fun (b : Nat × Bar) m =>
    let ws := (b.2.waiters.filter fun w => w.1 == old).map fun w => (uid, w.2)
    if ws.isEmpty then m
    else
      let k := m.nameBar p b.1
      m.setBar k { m.bar k with waiters := (m.bar k).waiters ++ ws }) m

/-- Has the partition lost a tile group that no spare replaced (R532)? -/
def Mod.groupLost (m : Mod) (p : Nat) : Bool :=
  (List.range 128).any fun g => (m.part p).tgmask.getLsbD g && (m.half (g / 8)).state == 4 &&
    !(m.ft.subst.any fun e => e.1.val == p && e.2.1.val == g)

/-- Steps 2 to 4 with a waypoint: cells, contexts, tasks, steps and selection waits come back from it; each withdrawn command resumes
from its record, or restarts where it has none. -/
def Mod.resume (m : Mod) (p : Nat) (cmds : List (Nat × HCmd)) (i : WpImage) : Mod :=
  let kept := i.cmds.filter fun e => cmds.any fun x => x.1 == e.1 && !x.2.expired
  let keeps (k : Nat) : Bool := kept.any fun e => e.1 == k
  let m := m.restoreCells p i
  let m := forEach (i.ctxs.filter fun v => match v.ctx.task with
    | some k => keeps k.cmd
    | none => false) (fun v m => m.restoreCtx p i v) m
  let m := m.updSched fun s => { s with ready := s.ready ++ i.ready.filter fun k => keeps k.cmd }
  let m := m.updSeq fun s => { s with steps := (i.steps.keep fun k _ => keeps k).foldl (fun t e => t.put e.1 e.2) s.steps }
  let m := m.updNet fun n => { n with
    waits := n.waits ++ (i.waits.filter fun w => w.uid == 0 && keeps (w.key / 65536)).map fun w =>
      { w with sem := m.nameSem p w.sem } }
  forEach cmds (fun e m =>
    if e.2.expired then m.endCmd e.1
    else match Tab.find e.1 i.cmds with
    | some c => m.updCmd e.1 fun x => { c with hmUncertain := x.hmUncertain, flushing := x.flushing, recSlot := x.recSlot }
    | none => m.updCmd e.1 HCmd.fresh) m

/-- Withdraw the work of a partition and bring it back from an image; without one, each withdrawn command completes POISON. -/
def Mod.rollbackTo (m : Mod) (p : Nat) (img : Option WpImage) : Mod :=
  let cmds := m.cmdsUnderWay p
  let m := m.withdrawTasks p
  let m := forEach cmds (fun e m => m.withdrawStep e.1) m
  let m := m.updHost fun h => { h with
    retained := h.retained.filter fun r => !(r.jseq.isNone && cmds.any fun e => e.1 == r.cmd) }
  let m := match img with
    | none => forEach cmds (fun e m =>
        ((m.updCmd e.1 fun c => { c with withdrawn := true }).markCmd e.1 stPOISON 0).endCmd e.1) m
    | some i => m.resume p cmds i
  m.applyHeld

/-- Roll a partition back to its newest valid waypoint. -/
def Mod.rollback (m : Mod) (p : Nat) : Mod :=
  let m := (m.abandonWp p).count kFtRollback p
  m.rollbackTo p (if m.groupLost p then none else m.wpNewest p)

/-- Roll back where WP_AUTO says so. -/
def Mod.rollbackAuto (m : Mod) (p : Nat) : Mod :=
  if (m.part p).st == .active && m.parB (pWpAuto + p) then m.rollback p else m

/-- WP_RESTORE. -/
def Mod.wpRestore (m : Mod) (p : Nat) : Nat × Mod :=
  if (m.part p).st == .active then (esOK, m.rollback p) else (esSTATE, m)
/-- WP_RESTORE. -/
def execWpRestore (p : PartId) (s : State) : Out :=
  s.go fun m => m.perform (pWpRestore + p.val) fun m => m.wpRestore p.val

/-! Completion of commands. -/

/-- Does the status of a completion call for a rollback (R530)? POISON is laid to a FAILED or PARKED stack where there is one, and
COLL_ABORT to a Critical one (log 47). -/
def Mod.calls (m : Mod) (c : HCmd) : Bool :=
  !c.withdrawn &&
  ((c.status == stPOISON && (List.range 16).any fun i => stackDown (m.stack i)) ||
    (c.status == stCOLLABORT && (List.range 16).any fun i => (m.stack i).crit))

/-- COMMAND_COMPLETE. -/
def execCommandComplete (id : Nat) (s : State) : Out :=
  s.go fun m => match m.cmd? id with
    | none => m
    | some c =>
      let n := m.completeCmd id
      if (n.cmd? id).isNone && (m.part c.fn.val).gen == c.gen && m.calls c then n.rollbackAuto c.fn.val else n

end Sys2Proof.Machine
end

