-- ==== Sys2Proof/Machine/Faults.lean ====
section
/-! DEFINITION. Loss of a half, a compute die or an I/O die; substitution of tile groups; live repair (spec 18 R510-R524, R533-R538). -/

namespace Sys2Proof.Machine

/-! Loss of a half (R511-R519). -/

/-- The foster home of a failed slice (R513). -/
def Mod.fosterOf (m : Mod) (h : Nat) : Option SliceId :=
  (((h ^^^ 1) :: (List.range 7).map fun i => (h + 2 * (i + 1)) % 16).find? fun f => (m.half f).state != 4).map (Fin.ofNat 16)

/-- The tiles of a half are lost to every home: lines that one of them holds modified are poisoned, its other copies count as
dropped (07 R243, Table 18.2 step 3). What was in transit is first seen through. -/
def Mod.loseTiles (m : Mod) (h : Nat) : Mod :=
  let gone (a : Nat) : Bool := a / 64 == h
  let ks := (((m.cache.l1 ++ m.cache.wbuf).filter fun e => gone (e.1 / 2 ^ 36)).map fun e => e.1 % 2 ^ 36) ++
    ((m.cache.net.filter fun x => gone x.agent.val).map (·.line)) ++
    ((m.cache.txns.filter fun t => gone t.2.req.agent.val || t.2.await.any fun a => gone a.val).map Prod.fst)
  let m := forEach ks.eraseDups (fun k m => m.settle k settleFuel) m
  let m := forEach ((m.cache.l1 ++ m.cache.wbuf).filter fun e => gone (e.1 / 2 ^ 36) && e.2.st == .M) (fun e m =>
    match m.line? (e.1 % 2 ^ 36) with
    | some l => if l.dir.dstate == 3 && l.dir.fwd.val == e.1 / 2 ^ 36 then m.setLine (e.1 % 2 ^ 36) { l with poison := true } else m
    | none => m) m
  m.updCache fun c => { c with
    lines := c.lines.map fun e => (e.1, { e.2 with dir := e.2.dir.without fun a => gone a.val }),
    l1 := c.l1.keep fun k _ => !gone (k / 2 ^ 36),
    wbuf := c.wbuf.keep fun k _ => !gone (k / 2 ^ 36),
    reqs := c.reqs.keep fun k _ => !gone (k / 2 ^ 36),
    tickets := c.tickets.filter fun t => !gone t.2.1.val }

/-- A slice is lost: its lines, every copy of them and all that is under way at it. Frames of lines held modified elsewhere are lost
with those marked dirty (log 48). -/
def Mod.loseSlice (m : Mod) (h : Nat) : Mod :=
  let mine (k : Nat) : Bool := homeOf k == h
  let mods := ((m.cache.l1 ++ m.cache.wbuf).filter fun e => mine (e.1 % 2 ^ 36) && e.2.st == .M && !isPs (e.1 % 2 ^ 36)).map fun e =>
    linePa (e.1 % 2 ^ 36) / 65536
  let m := m.updHalf h fun x => { x with lostFrames := mods.foldl (fun t f => t.put f ()) x.dirtyFrames, rewritten := [] }
  m.updCache fun c => { c with
    lines := c.lines.keep fun k _ => !mine k,
    l1 := c.l1.keep fun k _ => !mine (k % 2 ^ 36),
    wbuf := c.wbuf.keep fun k _ => !mine (k % 2 ^ 36),
    reqs := c.reqs.keep fun k _ => !mine (k % 2 ^ 36),
    mshr := c.mshr.keep fun k _ => !mine k,
    waitq := c.waitq.keep fun k _ => !mine k,
    txns := c.txns.keep fun k _ => !mine k,
    tickets := c.tickets.filter fun t => !mine t.2.2,
    net := c.net.filter fun x => !mine x.line,
    deadTags := c.deadTags.del h }

/-- A die link is FAILED (17 R495). -/
def Mod.linkDead (m : Mod) (k : Nat) : Mod :=
  if (m.link k).state == 5 then m
  else (m.updLink k fun l => { l with state := 5, proposal := none, detour := false }).raise evUdlLinkFail (linkOwn k) noPart
    (linkOwn k + linkPeer k * 2 ^ 16)

/-- An action under way ends with STATE where it is abandoned. -/
def Mod.actAbandon (m : Mod) (n : Nat) : Mod := if m.kod.actions.has n then m.acted n esSTATE else m

/-- Live repairs that a fault strikes are abandoned (R538); their actions end with STATE. -/
def Mod.abandonRepair (m : Mod) (h : Nat) : Mod :=
  let o := h ^^^ 1
  let m := if (m.half h).state == 1 || (m.half o).state == 1 then m.actAbandon pFtDieDrain else m
  let m := if (m.half o).state != 0 && (m.half o).state != 4 then m.updHalf o fun x => { x with state := 0 } else m
  let m := match m.ft.dieTest with
    | some d => if d = h / 2 then
        let m := m.actAbandon pFtDieTest
        { m with ft := { m.ft with dieTest := none, testing := [] },
                 tiles := m.tiles.map fun (e : Nat × Tile) => if dieOfTile e.1 = d then (e.1, { e.2 with testing := false }) else e }
      else m
    | none => m
  let m := if m.tiles.any fun e => e.2.testing && halfOfTile e.1 == h then m.actAbandon pFtTileTest else m
  let m := { m with tiles := m.tiles.map fun (e : Nat × Tile) => if halfOfTile e.1 = h then (e.1, { e.2 with testing := false }) else e }
  match m.ft.retrain with
  | some (s, _) => if s.val = h then (m.updFt fun f => { f with retrain := none }).actAbandon pFtStackRetrain else m
  | none => m

/-- The lowest spare group that may stand in for a group of a die (R519). -/
def Mod.spareFor (m : Mod) (die : Nat) : Option Nat :=
  let mask := leNat (m.parBlob pFtSpareTg)
  (List.range 128).find? fun g => mask.testBit g && g / 16 != die && (m.half (g / 8)).state != 4 && !(m.ft.unscrubbed.has g) &&
    m.parts.parts.all fun e => e.2.st == .none || !(e.2.tgmask.getLsbD g)

/-- Substitute a spare for a lost group of a partition. A lost group that was itself a substitute hands on the name it stood for. -/
def Mod.substitute (m : Mod) (p : PartId) (g : Nat) : Mod :=
  match m.spareFor (g / 16) with
  | none => m.raise evFtNoSpare g p.val g
  | some n =>
    let m := m.updPart p.val fun x => { x with tgmask := x.tgmask ||| BitVec.ofNat 128 (2 ^ n) }
    let stood := m.ft.subst.find? fun e => e.1 == p && e.2.2.val == g
    let name : Fin 128 := match stood with
      | some e => e.2.1
      | none => Fin.ofNat 128 g
    m.updFt fun f => { f with
      subst := (f.subst.filter fun e => !(e.1 == p && e.2.2.val == g)) ++ [(p, name, Fin.ofNat 128 n)] }

/-! An I/O die is lost (R521, R524). -/

/-- A live update is given up: the die being updated returns to service, and each die keeps the image it last loaded (22 R610). -/
def Mod.liveAbandon (m : Mod) : Mod :=
  match m.sec.live with
  | none => m
  | some (j, _) =>
    let m := m.updFt fun f => { f with iodState := f.iodState.del j.val, takeover := f.takeover.del j.val }
    { m with sec := { m.sec with live := none } }.acted pFwLiveIod esSTATE

/-- An I/O die is declared FAILED: takeover by its partner begins. -/
def Mod.iodFail (m : Mod) (order k : Nat) : Mod :=
  let m := m.liveAbandon
  let m := m.updFt fun f => { f with iodState := f.iodState.put k 1, takeover := f.takeover.put k (), missed := f.missed.del k }
  let m := forEach (List.range 8) (fun i m => if (m.port (8 * k + i)).state == 0 then m else m.portDown (8 * k + i) .none) m
  let m := forEach (m.fab.groups.filter fun g => grpIod g.2.entry == k) (fun g m => m.collAbort g.1 none) m
  let m := if k = 1 then m.siteFault order 0 else if k = 3 then m.siteFault order 1 else m
  let m := forEach (m.fab.eth.filter fun e => e.1 / 2 ^ 24 / 8 == k) (fun e m => m.ethFail e.1) m
  if (k = 0 ∧ !m.host.portB) ∨ (k = 2 ∧ m.host.portB) then m.detach 4 else m

/-- The partner serves the numbers of a die: it has rebuilt the entry free list by a scan, so that the list rises (Table 18.3 steps 2 to 4). -/
def Mod.takeOver (m : Mod) (k : Nat) : Mod :=
  let m := m.updFt fun f => { f with takeover := f.takeover.del k }
  let m := m.updSeq fun x => { x with freed := x.freed.adj k fun l => sortBy id l }
  if k = 0 then m.portSelect 1 else m

/-- An I/O die that neither of its compute dies can reach counts as failed (01 R22). -/
def Mod.cutOffIod (m : Mod) (order n : Nat) : Mod :=
  if m.reaches order (2 * n) || m.reaches order (2 * n + 1) || m.iodState n = 1 then m else m.iodFail order n

/-- A half is declared FAILED (R511, R512, Table 18.2). Its I/O die may be cut off by it (01 R22). -/
def Mod.halfFail (m : Mod) (order h : Nat) : Mod :=
  if (m.half h).state == 4 then m
  else
    let m := m.abandonRepair h
    let m := m.updHalf h fun x => { x with state := 4 }
    let owners := (m.parts.parts.filter fun e => e.2.st != .none &&
      (List.range 8).any fun i => e.2.tgmask.getLsbD (8 * h + i)).map Prod.fst
    let m := forEach owners (fun p m => m.abandonWp p) m
    let m := (m.loseTiles h).loseSlice h
    let m := forEach (List.range 16) (fun x m => if (m.half x).state == 4 then m.updHalf x fun y => { y with foster := m.fosterOf x } else m) m
    let m := forEach (List.range 64) (fun i m => m.fenceTile (Fin.ofNat 1024 (64 * h + i)) false) m
    let m := forEach (m.copies.filter fun e => e.2.half.val == h && e.2.status.isNone) (fun e m => m.finishCopy e.1 e.2 stPOISON) m
    let m := m.stackFail h
    let gates := ((List.range 8).filter fun q => q % 2 == h % 2).map fun q => 8 * (h / 2) + q
    let m := forEach gates (fun k m => let m := m.linkDead k; if isCdCd k then m.linkDead (otherGate k) else m) m
    let m := m.raise evFtHalfFail h noPart h
    let m := if (m.half (h ^^^ 1)).state == 4 then m.raise evFtDieFail (h / 2) noPart (h / 2) else m
    let ps := sortBy id owners
    let m := forEach ps (fun p m => forEach (List.range 8) (fun i m =>
      if (m.part p).tgmask.getLsbD (8 * h + i) then m.substitute (Fin.ofNat 128 p) (8 * h + i) else m) m) m
    let m := forEach ps (fun p m => m.rollbackAuto p) m
    m.cutOffIod order (iodOfDie (h / 2))

/-- HALF_SIDEBAND_LOSS. -/
def execHalfSidebandLoss (h : SliceId) (s : State) : Out :=
  s.go fun m => if m.serving || m.mod.mstate == 3 then m.halfFail s.fuse.order.val h.val else m

/-- HALF_REQUEST_TIMEOUT: its slice, or two or more of its gateways, leave a request unanswered. -/
def execHalfRequestTimeout (h : SliceId) (gateways : Nat) (sliceSilent : Bool) (s : State) : Out :=
  s.go fun m => if m.braked then m else if (m.serving || m.mod.mstate == 3) && (sliceSilent || decide (2 ≤ gateways)) then m.halfFail s.fuse.order.val h.val else m

/-! Heartbeats and takeover (R521-R523). -/

/-- IOD_HEARTBEAT. -/
def execIodHeartbeat (k : IodId) (s : State) : Out :=
  s.go fun m => m.updFt fun f => { f with missed := f.missed.del k.val }

/-- HEARTBEAT_MISS: after three in succession, where neither compute die of the silent die sees it alive, it is FAILED. -/
def execHeartbeatMiss (k : IodId) (seenAlive : Bool) (s : State) : Out :=
  s.go fun m => if m.braked then m else
    if !m.serving || m.iodState k.val ≠ 0 then m
    else
      let n := m.ft.missed.getD k.val 0 + 1
      if n < 3 then m.updFt fun f => { f with missed := f.missed.put k.val n }
      else if seenAlive then m.updFt fun f => { f with missed := f.missed.del k.val }
      else m.iodFail s.fuse.order.val k.val

/-- IOD_TAKEOVER_DONE: the partner serves the failed die's numbers. A partner that has failed too takes nothing over: the spec states the loss
of both dies of a pair for the start only (24 R645), and that no die then serves their numbers is the model's choice (log 123). -/
def execIodTakeoverDone (k : IodId) (s : State) : Out :=
  s.go fun m => if m.ft.takeover.has k.val && m.iodState (k.val ^^^ 1) == 0 then m.takeOver k.val else m

/-! Paths to an I/O die (01 R22, R23, 17 R504). -/

/-- After a link between a compute die and its I/O die has failed: the I/O die may be cut off. -/
def Mod.cutOff (m : Mod) (order k : Nat) : Mod := if k < 72 && !(isCdCd k) then m.cutOffIod order (linkPeer k - 8) else m

/-- UDL_CONFIRM (R494, R495). -/
def execUdlConfirm (r : LinkRef) (same : Bool) (own partner : Nat) (s : State) : Out :=
  s.go fun m =>
    let k := linkKey r
    if !(linkNegotiates s.fuse.order.val k) || (m.link k).state != 3 then m
    else if same && own == 0 && partner == 0 then
      m.updLink k fun l => { l with state := 4, par := l.proposal, proposal := none, confFail := 0, holdCredits := false,
                                    crcRun := 0, replays := 0 }
    else (m.confFail k).cutOff s.fuse.order.val k


/-- UDL_CONFIRM_TIMEOUT. -/
def execUdlConfirmTimeout (r : LinkRef) (s : State) : Out :=
  s.go fun m => if linkNegotiates s.fuse.order.val (linkKey r) && (m.link (linkKey r)).state == 3 then (m.confFail (linkKey r)).cutOff s.fuse.order.val (linkKey r) else m


/-- COMB_EMITTER_FAIL: the standby emitter takes over and the die's links negotiate anew; without one they fail. -/
def execCombEmitterFail (src : Fin 12) (s : State) : Out :=
  s.go fun m =>
    let standby := !(m.die src.val).comb
    let m := m.updDie src.val fun d => { d with comb := true }
    let ks := photonicOf src.val
    let m := forEach ks (fun k m => m.updLink k fun l =>
      if standby then (if l.state == 4 then l.retrain else l) else { l with state := 5, proposal := none }) m
    if standby then m else forEach ks (fun k m => m.cutOff s.fuse.order.val k) m


/-! Live repair (R533-R536). -/

def Mod.anyHalfFailed (m : Mod) : Bool := (List.range 16).any fun h => (m.half h).state == 4
def Mod.dieState (m : Mod) (d n : Nat) : Bool := (m.half (2 * d)).state.val == n && (m.half (2 * d + 1)).state.val == n
def Mod.setDie (m : Mod) (d : Nat) (n : Fin 5) : Mod :=
  (m.updHalf (2 * d) fun h => { h with state := n }).updHalf (2 * d + 1) fun h => { h with state := n }

/-- FT_TILE_TEST. -/
def Mod.tileTest (m : Mod) (t : Nat) : Nat × Mod :=
  if 1023 < t then (esRANGE, m)
  else if !(m.tile t).fenced || (m.half (halfOfTile t)).state == 4 || m.tiles.any (fun e => e.2.testing) then (esSTATE, m)
  else (esRUNNING, m.updTile t fun x => { x with testing := true })
/-- FT_TILE_TEST. -/
def execFtTileTest (tile : BitVec 16) (s : State) : Out := s.go fun m => m.perform pFtTileTest fun m => m.tileTest tile.toNat

/-- A tile returns (24 Table 24.3): its array, accumulators, saddles, triggers, strikes and every t are as at start-up. Whether it is
fenced is for its test to say. -/
def Mod.resetTile (m : Mod) (t : Nat) : Mod :=
  let m := m.updTile t fun x => { x with
    ts := [], poison := [], win := [], running := [], strike := 0, strikeTick := 0, tvals := [], quiet := [], stepDown := [],
    checksSince := 0, selftestDue := false, selftest := none, droop := false }
  { m with ctxs := m.ctxs.keep fun k _ => k / 4 != t }

/-- TILE_TEST_DONE: a tile that passes returns; one that fails stays, or is, fenced, and FT_TEST_RESULT says so. -/
def execTileTestDone (t : TileId) (pass : Bool) (s : State) : Out :=
  s.go fun m =>
    if !(m.tile t.val).testing then m
    else
      let m := if pass then m.resetTile t.val else m
      let m := m.updTile t.val fun x =>
        if pass then { x with testing := false, fenced := false, selftestFail := false } else { x with testing := false, fenced := true }
      let bit : BitVec 128 := BitVec.ofNat 128 (2 ^ (t.val % 128))
      let m := m.updFt fun f => { f with
        testResult := if pass then f.testResult &&& ~~~bit else f.testResult ||| bit,
        testing := f.testing.filter (· != t.val) }
      match m.ft.dieTest with
      | none => m.acted pFtTileTest esOK
      | some d =>
        if m.ft.testing.isEmpty then ((m.setDie d 2).updFt fun f => { f with dieTest := none }).acted pFtDieTest esOK else m

/-- FT_DIE_DRAIN. -/
def Mod.dieDrain (m : Mod) (d : Nat) : Nat × Mod :=
  if 7 < d then (esRANGE, m)
  else if m.anyHalfFailed || (List.range 16).any (fun h => (m.half h).state != 0) then (esSTATE, m)
  else (esRUNNING, m.setDie d 1)
/-- FT_DIE_DRAIN. -/
def execFtDieDrain (die : BitVec 8) (s : State) : Out := s.go fun m => m.perform pFtDieDrain fun m => m.dieDrain die.toNat

/-- A context of a draining die is saved where it stands, whatever it waits for (R535). -/
def Mod.drainCtx (m : Mod) (key : Nat) (c : Ctx) : Mod :=
  let t := key / 4
  let s := key % 4
  match c.task with
  | none => m
  | some k =>
    let img := (m.tile t).liveImage ((m.tile t).win.getD s (0, 0)).1 (taskLive k)
    let d := c.saved
    let v : Saved := { ctx := d, ts := img.1, poison := img.2, slot := m.freeSlot c.part.val, iod := Fin.ofNat 4 (m.iodOfTask k),
                       parked := d.wait.isSome, ready := if d.st == .run then some m.sched.readySeq else none }
    let m := (m.putImage v).updSched fun x => { x with saved := x.saved.put x.saved.fresh v, readySeq := x.readySeq + 1 }
    let m := (m.setCtx t s { mcsr := c.mcsr }).updTile t fun x => { x with win := x.win.put s (0, 0) }
    (m.count kSchEvict (m.iodOfTask k)).pickCur t

/-- DIE_DRAINED: every context of the die stands at an instruction boundary with no engine work of its own queued; all are saved. -/
def execDieDrained (d : DieId) (s : State) : Out :=
  s.go fun m =>
    let mine (key : Nat) : Bool := dieOfTile (key / 4) == d.val
    let cs := m.ctxs.filter fun e => mine e.1 && e.2.st != .empty
    let ready := cs.all fun e =>
      e.2.ending.isNone && e.2.st != .loading && e.2.st != .saving && e.2.iq.isEmpty && e.2.vq == 0 &&
      ((m.tile (e.1 / 4)).running.all fun r => r.sd.val != e.1 % 4) &&
      (match e.2.wait with
        | some (.try _ _) => false
        | _ => true)
    if !(m.dieState d.val 1) || !ready then m
    else
      let m := forEach (m.sched.evicting.filter fun e => mine e.1) (fun e m => m.endEviction e.1 e.2) m
      let m := forEach cs (fun e m => m.drainCtx e.1 e.2) m
      (m.setDie d.val 2).acted pFtDieDrain esOK

/-- FT_DIE_TEST: all tiles of a drained die. -/
def Mod.dieTest (m : Mod) (d : Nat) : Nat × Mod :=
  if 7 < d then (esRANGE, m)
  else if m.anyHalfFailed || !(m.dieState d 2) || m.ft.dieTest.isSome || m.tiles.any (fun e => e.2.testing) then (esSTATE, m)
  else
    let ts := (List.range 128).map fun i => 128 * d + i
    let m := forEach ts (fun t m => m.updTile t fun x => { x with testing := true }) m
    (esRUNNING, (m.setDie d 3).updFt fun f => { f with dieTest := some d, testing := ts, testResult := 0 })
/-- FT_DIE_TEST. -/
def execFtDieTest (die : BitVec 8) (s : State) : Out := s.go fun m => m.perform pFtDieTest fun m => m.dieTest die.toNat

/-- FT_DIE_RETURN. -/
def Mod.dieReturn (m : Mod) (d : Nat) : Nat × Mod :=
  if 7 < d then (esRANGE, m)
  else if m.anyHalfFailed || !(m.dieState d 2) then (esSTATE, m)
  else (esOK, (forEach ((List.range 128).map fun i => 128 * d + i) (fun t m => m.resetTile t) m).setDie d 0)
/-- FT_DIE_RETURN. -/
def execFtDieReturn (die : BitVec 8) (s : State) : Out := s.go fun m => m.perform pFtDieReturn fun m => m.dieReturn die.toNat

/-- FT_STACK_RETRAIN. -/
def Mod.stackRetrain (m : Mod) (w : Nat) : Nat × Mod :=
  let st := bits w 19 16
  if w / 2 ^ 20 ≠ 0 then (esRANGE, m)
  else if m.ft.retrain.isSome || (List.range 16).any (fun i => stackDown (m.stack i)) then (esSTATE, m)
  else
    let cs := (List.range 16).filter fun c => w.testBit c
    if cs.isEmpty then (esOK, m) else (esRUNNING, m.updFt fun f => { f with retrain := some (Fin.ofNat 16 st, cs) })
/-- FT_STACK_RETRAIN. -/
def execFtStackRetrain (word : BitVec 32) (s : State) : Out :=
  s.go fun m => m.perform pFtStackRetrain fun m => m.stackRetrain word.toNat

/-- STACK_RETRAIN_CHANNEL_DONE: the weak lanes take spares; a channel that fails, or has more weak lanes than spares, makes the stack
FAILED and abandons the repair. -/
def execStackRetrainChannelDone (st : SliceId) (ch : ChanId) (ok : Bool) (weak : List (Fin 76)) (s : State) : Out :=
  s.go fun m =>
    match m.ft.retrain with
    | some (x, c :: rest) =>
      if x != st || c != ch then m
      else
        let ca := (m.chan st.val ch).weakCa
        match ok, spareMapFor (weak.map (·.val)) ca with
        | true, some sm =>
          let m := m.updChan st.val ch fun y => { y with weak := weak.map (·.val), spareMap := sm, laneCe := [] }
          if rest.isEmpty then (m.updFt fun f => { f with retrain := none }).acted pFtStackRetrain esOK
          else m.updFt fun f => { f with retrain := some (st, rest) }
        | _, _ => ((m.stackFail st.val).updFt fun f => { f with retrain := none }).acted pFtStackRetrain esSTATE
    | _ => m

end Sys2Proof.Machine
end

