-- ==== Sys2Proof/Machine/Resets.lean ====
section
/-! DEFINITION. What the resets of the module lose and keep (spec 24 R641, R648, 19 R551-R556): the dies, a cold reset, a passage
through OFF; entry into Kickstand. -/

namespace Sys2Proof.Machine

/-- Sessions that do not depend on the host port or on a link. -/
def Mod.endLinkSessions (m : Mod) : Mod :=
  m.updKod fun k => { k with sessions := k.sessions.keep fun _ x => match x.transport with
    | .udp _ => true
    | _ => false }

/-- The dies lose power or are reset (24 Table 24.3): die logic, slices, tile arrays, L1 portions, link training. Fences, strikes and
self-test failures of tiles, the dirty-frame bitmaps, pins, partitions, sequences and what lies in EM stand. -/
def Mod.diesDown (m : Mod) : Mod :=
  let m := m.endLinkSessions
  let ports := m.fab.ports.map fun (e : Nat × Port) =>
    (e.1, { e.2 with state := if e.2.state == 0 then 0 else 1, width := 0, cause := .none })
  { m with
    tiles := m.tiles.map fun (e : Nat × Tile) =>
      (e.1, { fenced := e.2.fenced, strike := e.2.strike, strikeTick := e.2.strikeTick, selftestFail := e.2.selftestFail }),
    ctxs := [], copies := [],
    halves := m.halves.map fun (e : Nat × Half) => (e.1, { dirtyFrames := e.2.dirtyFrames }),
    cache := { extents := m.cache.extents.map fun x => { x with lost := x.lost || x.demoted == 0 }, extentSeq := m.cache.extentSeq,
               ncMode := m.cache.ncMode, ncPend := m.cache.ncPend },
    net := {}, sched := { readySeq := m.sched.readySeq, interf := m.sched.interf },
    fab := { m.fab with ports := ports, tx := [], rx := [], out := [] },
    links := [], dies := [],
    mod := { m.mod with linkEpoch := m.mod.linkEpoch + 1 },
    dbg := { wptr := m.dbg.wptr, nextHandle := m.dbg.nextHandle },
    ft := { m.ft with iodState := [], missed := [], takeover := [], dieTest := none, testing := [], retrain := none } }

/-- EM at an entry into Kickstand (19 R555): non-durable lines of the frames that each slice's bitmap marks, and lines that an L1
portion held modified, take poison; without a bitmap every non-durable line does. -/
def Mod.warmPoison (m : Mod) : Mod :=
  let soft (pa : Nat) : Bool := !(m.durable pa)
  if m.parN pFtDirtymapBase = 0 then
    let m := forEach (List.range 16) (fun i m => m.updStack i fun k => { k with poisonAll := true }) m
    m.updMem fun e => { e with emPoison := e.emPoison.keep fun l _ => !(soft (l * 128)) }
  else
    let m := forEach (m.cache.l1.filter fun e => e.2.st == .M && !isPs (e.1 % 2 ^ 36)) (fun e m =>
      let pa := linePa (e.1 % 2 ^ 36)
      if soft pa then m.setPoison pa true else m) m
    forEach m.halves (fun (h : Nat × Half) m => forEach h.2.dirtyFrames (fun (f : Nat × Unit) m =>
      forEach (List.range 512) (fun i m =>
        let pa := f.1 * 65536 + 128 * i
        if homeOf (emKeyOf pa) == h.1 && soft pa then m.setPoison pa true else m) m) m) m

/-- A staged write is cut off: its slot fails 22 R602. -/
def SecS.cutWrite (c : SecS) : SecS :=
  { c with slots := c.slots.mapWhere (fun k _ => c.staging.has k) fun x => { x with image := none }, staging := [] }

/-- A cold reset of the module (24 Table 24.3). -/
def Mod.coldLoss (m : Mod) : Mod :=
  let m := m.endLinkSessions
  { m with
    tiles := [], ctxs := [], copies := [], halves := [], cache := {}, mem := { hm := m.mem.hm, keyGen := m.mem.keyGen }, parts := {}, dbg := {}, net := {},
    sched := {}, seq := {}, links := [], dies := [], ft := {},
    host := { msixSent := m.host.msixSent },
    fab := { sent := m.fab.sent, roceSent := m.fab.roceSent, roceRsp := m.fab.roceRsp },
    saf := { m.saf with shutter := [], dark := [], biasCut := [], segOpen := [] },
    sec := { m.sec.cutWrite with live := none, updated := [], liveCount := 0, doe := [], doeAt := {}, dieKeys := [] },
    kod := { m.kod.abandonActs with base := [], frags := [], mgmt := [], lastAct := none },
    mod := { m.mod with warm := false, bringStep := 0, startReq := false, linkEpoch := m.mod.linkEpoch + 1 } }

/-- What is lost on passing through OFF; `stop` keeps the Odometer store and the KDP sessions (24 R641). Fuses, flash and the
saved configuration stand. -/
def Mod.offLoss (m : Mod) (stop : Bool) : Mod :=
  let m := m.coldLoss
  { m with
    ctr := if stop then m.ctr else [],
    kod := { cfgA := m.kod.cfgA, cfgB := m.kod.cfgB, sent := m.kod.sent,
             sessions := if stop then m.kod.sessions else [], actions := if stop then m.kod.actions else [],
             held := if stop then m.kod.held else [] },
    saf := { noModule := m.saf.noModule },
    pwr := { inputW := m.pwr.inputW, flowMilli := m.pwr.flowMilli, inletMilli := m.pwr.inletMilli, inputMv := m.pwr.inputMv,
             refOsc := m.pwr.refOsc },
    sec := { slots := m.sec.cutWrite.slots, pending := m.sec.pending, lkg := m.sec.lkg },
    mod := { startTick := m.mod.startTick, linkEpoch := m.mod.linkEpoch } }

/-! Kickstand (19 R551, R552, Table 19.6). -/

/-- Work that a sudden stop ends at once: collectives, waypoints, packets not delivered. -/
def Mod.stopFabric (m : Mod) : Mod :=
  let m := m.abortAll
  let m := forEach m.parts.parts (fun (p : Nat × Part) m => m.abandonWp p.1) m
  forEach m.fab.out (fun o m => m.updCmd o.cmd fun k => if o.owner.isNone then k.mark stTIMEOUT 0 else k) m

/-- Stacks enter self-refresh; what each was is kept for its return. -/
def Mod.stacksDown (m : Mod) : Mod :=
  forEach (List.range 16) (fun i m => m.updStack i fun k =>
    let was : Fin 3 := if k.state == 4 || k.state == 0 || (k.state == 5 && k.fromFailed) then 2
      else if k.state == 3 || k.state == 5 || !k.lostMap.isEmpty then 1 else 0
    { k with selfRefresh := k.state != 4, was := was, crit := false, drained := false }) m

/-- One hour, in ticks. -/
def hour : Nat := 3600000 * ticksPerMs

/-- Entry into Kickstand. -/
def Mod.kickEnter (m : Mod) : Mod :=
  let from' := m.mod.mstate.val
  let powered := decide (3 ≤ from' ∧ from' ≤ 5)
  let m := if powered then (m.stopFabric.warmPoison).stacksDown else m
  let m := if m.host.portState == 2 then m else m.detach 1
  let m := if powered then m.diesDown else m
  let now := m.ticks
  let m := m.updSaf fun x =>
    let es := now :: x.entries.filter fun t => decide (now ≤ t + hour)
    { x with entries := es, latch := x.latch || decide (3 ≤ es.length), kickCount := min 0xFFFFFFFF (x.kickCount + 1),
             entered := from', enteredWarm := m.mod.warm, shutter := [], dark := [], segOpen := [] }
  { m with
    sec := { m.sec.cutWrite with live := none },
    kod := m.kod.abandonActs,
    mod := { m.mod with mstate := 7 } }

/-- A cause of Table 19.5 is raised: it is recorded, and the module enters Kickstand unless it is OFF or there already. -/
def Mod.kick (m : Mod) (bit : Nat) : Mod :=
  if m.mod.mstate == 0 then m
  else
    let m := m.updSaf fun x => { x with
      first := if x.cause = 0 then bit else x.first, cause := x.cause ||| BitVec.ofNat 9 (2 ^ bit) }
    if m.mod.mstate == 7 then m else m.kickEnter

/-! Leaving Kickstand (R554-R556). -/

/-- Dies 0-7 and 8-11 lock their PLLs: cycle and causal counters start at 0 (20 R561, 23 R634). -/
def Mod.pllsLock (m : Mod) : Mod :=
  forEach (List.range 12) (fun d m => m.updDie d fun x => { x with pllTick := m.ticks, ccOff := 0 }) m

/-- At a BRINGUP the modes of the agents that do not cache are those that CCH_NC_MODE holds (07 R242). -/
def Mod.ncBringup (m : Mod) : Mod :=
  m.updCache fun c => { c with
    ncMode := (List.range 176).foldl (fun t i => match Tab.find (pCchNcMode + 1024 + i) m.kod.params with
      | some v => t.put (1024 + i) v.toNat
      | none => t) [],
    ncPend := [] }

/-- A warm BRINGUP begins: the stacks train again, their contents kept. -/
def Mod.warmStart (m : Mod) : Mod :=
  let m := forEach (List.range 16) (fun i m => m.updStack i fun k => { k with
    state := 0, refresh2x := false, hiRun := 0, loRun := 0, coolRun := 0 }) m
  let m := m.updMem fun e => { e with chans := e.chans.map fun (c : Nat × Chan) => (c.1, { c.2 with step := 0, attempts := 0 }) }
  { m.pllsLock.ncBringup with mod := { m.mod with mstate := 3, warm := true, bringStep := 3, startTick := m.ticks } }

/-- The release itself: causes clear; the way out depends on where Kickstand was entered from. -/
def Mod.kickLeave (m : Mod) : Mod :=
  let e := m.saf.entered
  let warm := e = 4 || e = 5 || (e = 3 && m.saf.enteredWarm)
  let m := m.updSaf fun x => { x with cause := 0, first := 0, latch := false, inputOpen := false, undervolt := false }
  let m := { m with mod := { m.mod with startTick := m.ticks } }
  if warm then m.warmStart
  else if e = 1 then { m with mod := { m.mod with mstate := 1 } }
  else
    let m := m.coldLoss
    { m with mod := { m.mod with mstate := 2 } }

end Sys2Proof.Machine
end

