-- ==== Sys2Proof/Machine/Barriers.lean ====
section
/-! DEFINITION. The hardware barriers: lasers, the 72 V path, heat, the interlock (spec 19 R540-R556). -/

namespace Sys2Proof.Machine

/-! Lasers (R542-R545). -/

/-- Close a port's shutter; a port that was UP loses its link. -/
def Mod.shut (m : Mod) (i : Nat) : Mod :=
  let m := m.updSaf fun x => { x with shutter := x.shutter.del i }
  if (m.port i).state == 4 then m.portDown i .nolight else m

/-- RETURN_LOSS_TRIP. -/
def execReturnLossTrip (i : PortId) (s : State) : Out :=
  s.go fun m => if m.saf.shutter.has i.val then (m.shut i.val).count kSafLaserB1 i.val else m

/-- LOSS_OF_LIGHT: the port stays commanded shut until light is back. -/
def execLossOfLight (i : PortId) (s : State) : Out :=
  s.go fun m =>
    if portFitted s.fuse.order.val i.val then (m.shut i.val).updSaf fun x => { x with dark := x.dark.put i.val () } else m

/-- TRANSMIT_TAP_TIMEOUT: the close that loss of light commanded has not worked; the quad's bias is cut and latches. -/
def execTransmitTapTimeout (i : PortId) (s : State) : Out :=
  s.go fun m =>
    let q := i.val / 4
    if !(m.saf.dark.has i.val) || m.saf.biasCut.has q then m
    else ((m.updSaf fun x => { x with biasCut := x.biasCut.put q i.val }).count kSafLaserB2 q).quadDark q

/-- May a port emit probe light? -/
def Mod.mayProbe (m : Mod) (order i : Nat) : Bool := m.serving && portFitted order i && (m.port i).mode != 0 && m.lit i

/-- SHUTTER_PROBE. -/
def execShutterProbe (i : PortId) (s : State) : Out :=
  s.go fun m =>
    if m.mayProbe s.fuse.order.val i.val && !(m.saf.shutter.has i.val) then
      m.updSaf fun x => { x with shutter := x.shutter.put i.val 1 } else m

/-- SHUTTER_FULL_OPEN: light on every receive fibre, return loss at its reference. -/
def execShutterFullOpen (i : PortId) (s : State) : Out :=
  s.go fun m =>
    if m.mayProbe s.fuse.order.val i.val && m.saf.shutter.getD i.val 0 == 1 then
      m.updSaf fun x => { x with shutter := x.shutter.put i.val 2, dark := x.dark.del i.val } else m

/-- LASER_MODULE_REMOVE: the bias is cut in hardware; the ports are DOWN with NOLASER (R545, 16 R452). -/
def execLaserModuleRemove (q : QuadId) (s : State) : Out :=
  s.go fun m => (m.updSaf fun x => { x with noModule := x.noModule.put q.val () }).quadDark q.val

/-- LASER_MODULE_INSERT: ports whose mode is not OFF train again (Table 16.2 step 1). -/
def execLaserModuleInsert (q : QuadId) (s : State) : Out :=
  s.go fun m =>
    let m := m.updSaf fun x => { x with noModule := x.noModule.del q.val, biasCut := x.biasCut.del q.val }
    forEach [0, 1, 2, 3] (fun (j : Nat) m =>
      let i := 4 * q.val + j
      let p := m.port i
      if m.mayProbe s.fuse.order.val i && p.state == 1 && p.cause == .nolaser then
        m.updPort i fun p => { p with state := 2, cause := .none } else m) m

/-! The 72 V path (R546, R547, Table 19.2). -/

/-- The input opens and the module enters Kickstand. -/
def Mod.inputTrip (m : Mod) (bit : Nat) (under : Bool) : Mod :=
  if m.mod.mstate == 0 then m
  else (m.updSaf fun x => { x with inputOpen := true, undervolt := x.undervolt || under }).kick bit

/-- INPUT_OVERVOLTAGE. -/
def execInputOvervoltage (s : State) : Out := s.go fun m => m.inputTrip 4 false
/-- INPUT_UNDERVOLTAGE. -/
def execInputUndervoltage (s : State) : Out := s.go fun m => m.inputTrip 5 true
/-- INPUT_OVERCURRENT. -/
def execInputOvercurrent (s : State) : Out := s.go fun m => m.inputTrip 6 false
/-- FET_RECLOSE: after an undervoltage trip only. -/
def execFetReclose (s : State) : Out :=
  s.go fun m => if m.saf.undervolt then m.updSaf fun x => { x with inputOpen := false, undervolt := false } else m

/-- SEGMENT_OVERCURRENT: segments are numbered as 23 R617 numbers them (Table 19.3). It stays open until Kickstand or OFF. -/
def execSegmentOvercurrent (g : Fin 23) (s : State) : Out :=
  s.go fun m =>
    let n := g.val
    let powered := decide (3 ≤ m.mod.mstate.val ∧ m.mod.mstate.val ≤ 5) ||
      (decide (16 ≤ n ∧ n < 20) && (m.mod.mstate == 2 || m.mod.mstate == 6))
    if !powered || m.saf.segOpen.has n then m
    else
      let m := (m.updSaf fun x => { x with segOpen := x.segOpen.put n () }).count kSafEfuseTrip n
      if n < 16 then m.halfFail s.fuse.order.val n
      else if n < 20 then (if m.iodState (n - 16) = 1 then m else m.iodFail s.fuse.order.val (n - 16))
      else if n = 20 then forEach (List.range 8) (fun q m => m.quadDark q) m
      else m.siteFault s.fuse.order.val (n - 21)

/-! Heat (R548, R549) and the rest of Table 19.5. -/

/-- JUNCTION_TRIP: CLK_A of the half stops; its tasks stall without loss. -/
def execJunctionTrip (h : SliceId) (s : State) : Out :=
  s.go fun m =>
    if !m.serving && m.mod.mstate != 3 then m
    else (((m.updHalf h.val fun x => { x with stopped := true }).count kSafTjTrip (h.val / 2 + 1)).raise evSafTjTrip (h.val / 2) noPart h.val)

/-- JUNCTION_RECOVER. -/
def execJunctionRecover (h : SliceId) (celsius : Int) (s : State) : Out :=
  s.go fun m => if celsius < 110 then m.updHalf h.val fun x => { x with stopped := false, tj := celsius } else m

/-- JUNCTION_CRIT. -/
def execJunctionCrit (_die : Fin 14) (s : State) : Out := s.go fun m => m.kick 3
/-- COOLANT_FLOW_LOW. -/
def execCoolantFlowLow (s : State) : Out := s.go fun m => m.kick 1
/-- COOLANT_TEMP_HIGH. -/
def execCoolantTempHigh (s : State) : Out := s.go fun m => m.kick 2
/-- INTERLOCK_OPEN. -/
def execInterlockOpen (s : State) : Out := s.go fun m => m.kick 0

/-- SAF_KICK: accepted wherever the dictionary serves its group (24 R642, 21 R571). -/
def Mod.safKick (m : Mod) : Nat × Mod :=
  if m.mod.mstate == 0 || m.mod.mstate == 6 then (esSTATE, m) else (esOK, m.kick 8)
/-- SAF_KICK. -/
def execSafKick (s : State) : Out :=
  s.go fun m =>
    let r := m.safKick
    r.2.acted pSafKick r.1

/-- Is every recorded cause absent (R554)? Flow in L/min, temperatures in degrees, input in volts, each as held over the rule's
time. -/
def Mod.causesAbsent (m : Mod) (interlockClosed : Bool) (flow inlet hottest inputV : Int) (barrierPasses : Bool) : Bool :=
  interlockClosed && decide (10 ≤ flow ∧ inlet ≤ 40 ∧ hottest < 90 ∧ 60 ≤ inputV ∧ inputV ≤ 80) &&
  (!(m.saf.cause.getLsbD 7) || barrierPasses)

/-- SAF_RELEASE: a refused release changes nothing. -/
def execSafRelease (service interlockClosed : Bool) (flow inlet hottest inputV : Int) (barrierPasses : Bool) (s : State) : Out :=
  s.go fun m =>
    if m.mod.mstate == 7 && (service || !m.saf.latch) && m.causesAbsent interlockClosed flow inlet hottest inputV barrierPasses then
      (m.kickLeave.updSaf fun x => { x with barrier := 0 }).acted pSafRelease esOK
    else m.acted pSafRelease esSTATE

end Sys2Proof.Machine
end

