-- ==== Sys2Proof/Machine/Power.lean ====
section
/-! DEFINITION. Power, clocks and thermal control: input power, the reference, CLK_A of the halves, the loops (spec 20 R557-R568,
09 R294, R295). -/

namespace Sys2Proof.Machine

/-- BRINGUP, READY or SERVICE: the dies are powered. -/
def Mod.powered (m : Mod) : Bool := decide (3 ≤ m.mod.mstate.val ∧ m.mod.mstate.val ≤ 5)
def Mod.updPwr (m : Mod) (f : PwrS → PwrS) : Mod := { m with pwr := f m.pwr }

/-! Divisions (R562, R565, 09 R294). -/

/-- The next slower and the next faster division of CLK_A (Table 20.4). -/
def slower (d : Nat) : Nat := if d ≤ 4 then 5 else if d = 5 then 6 else 8
def faster (d : Nat) : Nat := if 8 ≤ d then 6 else if d = 6 then 5 else 4

/-- May the two halves of a die run at these divisions (09 R294)? -/
def pairOk (a b : Nat) : Bool := a == b || a == 4 || b == 4

/-- The slowest of a half's own requirements (R565). -/
def Mod.ownDiv (m : Mod) (h : Nat) : Nat :=
  let x := m.half h
  max (max x.capDiv x.thermDiv) (max x.holdDiv (m.parN (pPwrDivLimit + h)))
/-- Its division under the pair rule as well. -/
def Mod.wantDiv (m : Mod) (h : Nat) : Nat :=
  let a := m.ownDiv h
  let b := m.ownDiv (h ^^^ 1)
  if pairOk a b then a else max a b

/-- Request the divisions that the requirements call for; a later request replaces an earlier one. -/
def Mod.askDivs (m : Mod) : Mod :=
  forEach (List.range 16) (fun h m =>
    let d := m.wantDiv h
    m.updHalf h fun x => { x with reqDiv := if d = x.div then none else some d }) m

/-- A half changes division: VDD_A is first raised to the starting value of a faster one (R563); the change passes the seam through a
pause (09 R295). -/
def Mod.setDiv (m : Mod) (h d : Nat) : Mod :=
  if (m.half h).div = d then m.updHalf h fun x => { x with reqDiv := none }
  else
    let m := m.updHalf h fun x => { x with
      vdd := if d < x.div then min 140 (max x.vdd (Config.vddFuse h d 2)) else x.vdd,
      div := d, reqDiv := none, lastChg := m.pwr.samples }
    (m.updDie (h / 2) fun x => { x with seamPaused := true }).count kPwrDivChg h

/-- CLK_A_DIV_CHANGE: the request that waits takes effect; where the pair would not be permitted, the other half's own request is served
with it if that makes it so, and otherwise both take the slower division (09 R294). -/
def execClkADivChange (half : SliceId) (s : State) : Out :=
  s.go fun m =>
    let h := half.val
    let o := h ^^^ 1
    match (m.half h).reqDiv with
    | none => m
    | some d =>
      let e := (m.half o).div
      if !m.powered then m
      else if pairOk d e then m.setDiv h d
      else match (m.half o).reqDiv with
        | some f => if pairOk d f then (m.setDiv h d).setDiv o f else (m.setDiv h (max d e)).setDiv o (max d e)
        | none => (m.setDiv h (max d e)).setDiv o (max d e)

/-- SEAM_PAUSE_END. -/
def execSeamPauseEnd (die : DieId) (s : State) : Out :=
  s.go fun m =>
    let d := m.die die.val
    if d.seamPaused then
      let a := (m.half (2 * die.val)).div
      let b := (m.half (2 * die.val + 1)).div
      let m := m.updDie die.val fun x => { x with seamPaused := false, seamRatio := (a, b) }
      if a * d.seamRatio.2 = b * d.seamRatio.1 then m else m.count kCchSeamRatioChg die.val
    else m

/-! Input and reference (R557, R560). -/

/-- BUS_CONVERTER_FAIL. -/
def execBusConverterFail (conv : Fin 5) (s : State) : Out :=
  s.go fun m =>
    if m.mod.mstate == 0 || !(m.pwr.convOk.getLsbD conv.val) then m
    else
      let first := m.pwr.convOk == 0x1F
      let m := m.updPwr fun p => { p with convOk := p.convOk &&& ~~~(BitVec.ofNat 5 (2 ^ conv.val)) }
      if first then m.raise evPwrConvFail 0 noPart conv.val else m.kick 6

/-- The fast clamp, in W (R566, R557). -/
def Mod.clampW (m : Mod) : Nat := if m.pwr.convOk == 0x1F then 8400 else 8000

/-- REFCLK_LOSS. -/
def execRefclkLoss (s : State) : Out :=
  s.go fun m =>
    if m.mod.mstate == 0 || m.pwr.refOsc then m
    else ((m.updPwr fun p => { p with refOsc := true }).count kPwrRefSwitch 0).raise evPwrRefLost 0 noPart 0

/-- PWR_REF_SELECT: back to REFCLK only after it has been present for 1 s. -/
def Mod.refSelect (src : Nat) (present : Bool) (m : Mod) : Nat × Mod :=
  if 1 < src then (esRANGE, m)
  else if src = 0 && !present then (esSTATE, m)
  else if m.pwr.refOsc == (src == 1) then (esOK, m)
  else (esOK, (m.updPwr fun p => { p with refOsc := src == 1 }).count kPwrRefSwitch 0)
/-- PWR_REF_SELECT. -/
def execPwrRefSelect (src : Nat) (present : Bool) (s : State) : Out :=
  s.go fun m => m.perform pPwrRefSelect fun m => m.refSelect src present

/-- PLL_LOCK_LOSS: 18 R511 for a compute die, 18 R521 for an I/O die. -/
def execPllLockLoss (die : Fin 12) (s : State) : Out :=
  s.go fun m =>
    if !m.powered then m
    else if die.val < 8 then (m.halfFail s.fuse.order.val (2 * die.val)).halfFail s.fuse.order.val (2 * die.val + 1)
    else if m.iodState (die.val - 8) = 1 then m else m.iodFail s.fuse.order.val (die.val - 8)

/-! The power cap (R566-R568). Power is compared in units of W / 12,000, in which every figure of R568 is whole. -/

/-- The effective cap. -/
def Mod.effCap (m : Mod) (order : Nat) : Int :=
  let cap := 12000 * m.kod.params.getD pPwrCap (tdp order)
  let hot := if 40000 < m.pwr.inletMilli then min cap (12000 * tdp order - 2400 * (m.pwr.inletMilli - 40000)) else cap
  if m.pwr.flowMilli < 12000 then min hot (tdp order * m.pwr.flowMilli) else hot

/-- Samples of the trailing second (10 us each). -/
def secondSamples : Nat := 100000

/-- The newest `n` samples of a history. -/
def trimRuns : Nat → List (Nat × Bool) → List (Nat × Bool)
  | _, [] => []
  | n, (k, o) :: rest => if n ≤ k then (if n = 0 then [] else [(n, o)]) else (k, o) :: trimRuns (n - k) rest
/-- A history with one sample more. -/
def pushRun (o : Bool) : List (Nat × Bool) → List (Nat × Bool)
  | (k, p) :: rest => if p == o then (k + 1, p) :: rest else (1, o) :: (k, p) :: rest
  | [] => [(1, o)]
/-- X, in samples. -/
def PwrS.excess (p : PwrS) : Nat := p.runs.foldl (fun n r => if r.2 then n + r.1 else n) 0

/-- Has the given number of samples passed since one? -/
def since (now : Nat) (last : Option Nat) (n : Nat) : Bool :=
  match last with
  | none => true
  | some l => decide (l + n ≤ now)

/-- The loop slows every half by one division. -/
def Mod.capSlow (m : Mod) : Mod :=
  if (List.range 16).all fun h => (m.half h).capDiv == 8 then m
  else
    let m := forEach (List.range 16) (fun h m => m.updHalf h fun x => { x with capDiv := slower x.capDiv }) m
    ((m.updPwr fun p => { p with lastSlow := some p.samples }).count kPwrCapStep 0).askDivs

/-- The loop restores one half by one division: the lowest slice whose last change lies 10 ms back. -/
def Mod.capRestore (m : Mod) : Mod :=
  match (List.range 16).find? fun h => decide (4 < (m.half h).capDiv ∧ (m.half h).lastChg + 1000 ≤ m.pwr.samples) with
  | none => m
  | some h =>
    ((m.updHalf h fun x => { x with capDiv := faster x.capDiv }).updPwr fun p => { p with lastFast := some p.samples }).askDivs

/-- POWER_CAP_SAMPLE. -/
def execPowerCapSample (watts : Nat) (s : State) : Out :=
  s.go fun m =>
    let m := m.updPwr fun p => { p with inputW := watts }
    if !m.powered then m
    else
      let cap := m.effCap s.fuse.order.val
      let w : Int := 12000 * watts
      let above := decide (cap < w)
      let low := decide (w ≤ cap - 12000 * m.par pPwrHyst)
      let m := m.updPwr fun p => { p with
        runs := trimRuns secondSamples (pushRun above p.runs), samples := p.samples + 1, lowRun := if low then p.lowRun + 1 else 0 }
      let x := m.pwr.excess
      if decide (4500 ≤ x) && above && since m.pwr.samples m.pwr.lastSlow 10 then m.capSlow
      else if decide (1000 ≤ m.pwr.lowRun ∧ x < 2500) && since m.pwr.samples m.pwr.lastFast 10 then m.capRestore
      else m

/-- FAST_CLAMP: hardware sets every half to the slowest division, whatever X is. -/
def execFastClamp (watts : Nat) (s : State) : Out :=
  s.go fun m =>
    if !m.powered || decide (watts ≤ m.clampW) then m
    else
      let m := forEach (List.range 16) (fun h m => (m.updHalf h fun x => { x with capDiv := 8 }).setDiv h 8) m
      m.count kPwrFastclamp 0

/-- COOLANT_SAMPLE: PWR_DERATE is raised when derating begins and when it ends. -/
def execCoolantSample (flowMilli inletMilli : Nat) (s : State) : Out :=
  s.go fun m =>
    let d := decide (40000 < inletMilli ∨ flowMilli < 12000)
    let was := m.pwr.derate
    let m := m.updPwr fun p => { p with flowMilli := flowMilli, inletMilli := inletMilli, derate := d }
    if d == was || m.mod.mstate == 0 then m else m.raise evPwrDerate 0 noPart (m.effCap s.fuse.order.val / 12000).toNat

/-! The other loops. -/

/-- THERMAL_LOOP_SAMPLE: one division slower per 1 ms above the target, one faster per 10 ms more than 5 degrees below it. -/
def execThermalLoopSample (half : SliceId) (celsius : Int) (s : State) : Out :=
  s.go fun m =>
    let h := half.val
    if !m.powered then m
    else
      let t := m.par pPwrTjTarget
      let m := m.updHalf h fun x => { x with tj := celsius, thermAge := x.thermAge + 1 }
      let x := m.half h
      if t < celsius && decide (10 ≤ x.thermAge) && x.thermDiv != 8 then
        (m.updHalf h fun x => { x with thermDiv := slower x.thermDiv, thermAge := 0 }).askDivs
      else if celsius < t - 5 && decide (100 ≤ x.thermAge) && x.thermDiv != 4 then
        (m.updHalf h fun x => { x with thermDiv := faster x.thermDiv, thermAge := 0 }).askDivs
      else m

/-- VOLTAGE_LOOP_STEP: one step of 2.5 mV towards the target margin, between the fused limits and never above 0.85 V; margin 0 below, 1 at,
2 above the target. A half whose margin stays negative at VMAX for 1 ms is held one division slower. -/
def execVoltageLoopStep (half : SliceId) (margin : Fin 3) (atVmaxFor1ms : Bool) (s : State) : Out :=
  s.go fun m =>
    let h := half.val
    if !m.powered then m
    else
      let x := m.half h
      let lo := min 140 (Config.vddFuse h x.div 0)
      let hi := min 140 (Config.vddFuse h x.div 1)
      let v := if margin = 0 then x.vdd + 1 else if margin = 1 then x.vdd else x.vdd - 1
      let m := m.updHalf h fun x => { x with vdd := min hi (max lo v) }
      if atVmaxFor1ms && margin == 0 && x.holdDiv != slower x.div then
        ((m.updHalf h fun x => { x with holdDiv := max x.holdDiv (slower x.div) }).askDivs).raise evPwrVmaxHold 0 noPart h
      else m

/-- DROOP_THROTTLE: an episode begins. -/
def execDroopThrottle (t : TileId) (s : State) : Out :=
  s.go fun m =>
    if !m.powered || (m.tile t.val).droop then m
    else
      let h := halfOfTile t.val
      ((m.updTile t.val fun x => { x with droop := true }).updHalf h fun x => { x with droop := true }).count kPwrDroop h

/-- DROOP_END. -/
def execDroopEnd (t : TileId) (s : State) : Out := s.go fun m => m.updTile t.val fun x => { x with droop := false }

end Sys2Proof.Machine
end

