-- ==== Sys2Proof/Machine/Audit.lean ====
section
/-! DEFINITION. The audit of the ledgers and its recovery actions (spec 10 R297-R305). A sample reads the capacity and every stable term of its
instance from the state; it brings what circuits of the unit hold in windows and by how much corrupted terms fall short. -/

namespace Sys2Proof.Machine

/-- Ledger code (10 Tables 10.2 to 10.9). -/
def ledgerCode : LedgerId → Nat
  | .credit _ _ _ => 1
  | .slots _ => 2
  | .ring _ _ => 3
  | .entries _ => 4
  | .pages _ => 5
  | .pinned _ => 6
  | .tokens _ _ => 7
  | .buffers _ => 8

/-- Virtual channels of a network (09 Table 9.1). -/
def netCode : Net → Nat
  | .bn => 0
  | .cn => 1
  | .sn => 2

/-- INSTANCE (10 Tables 10.2 to 10.9). -/
def Mod.ledgerInst (m : Mod) : LedgerId → Nat
  | .credit (.router _ p) n v => p.val * 2 ^ 13 + netCode n * 2 ^ 11 + v.val * 2 ^ 9
  | .credit (.seam _ c s) n v => c.val * 2 ^ 13 + s.val * 2 ^ 12 + netCode n * 2 ^ 10 + v.val * 2 ^ 8
  | .credit (.gateway _ _) n v => netCode n * 2 ^ 11 + v.val * 2 ^ 9
  | .slots _ => 0
  | .ring q k => k.val * 2 ^ 14 + q.toNat % 2 ^ 14
  | .entries q => q.val
  | .pages q => q.val
  | .pinned (some p) => p.val
  | .pinned none => 0xFFFF
  | .tokens _ d => d.toNat
  | .buffers i => if (m.port i.val).mode == 2 then 0xFFFF else (m.port i.val).partner.toNat

/-- Unit whose audit register an instance samples into. -/
def Mod.ledgerUnit (m : Mod) : LedgerId → Nat
  | .credit (.router t _) _ _ => t.val
  | .credit (.seam d _ _) _ _ => 2048 + d.val
  | .credit (.gateway d g) _ _ => 4096 + 8 * d.val + g.val
  | .slots h => h.val
  | .ring q _ => m.actingIod (q.toNat / 2 ^ 14)
  | .entries q => m.actingIod q.val
  | .pages q => m.actingIod q.val
  | .pinned _ => 0
  | .tokens k _ => k.val
  | .buffers i => i.val
/-- Key of that register. -/
def Mod.auditKey (m : Mod) (l : LedgerId) : Nat := ledgerCode l * 2 ^ 16 + m.ledgerUnit l

/-- Bound of a window in sampling periods: 1 RETURN, 2 ALLOC, 3 RATIO, 4 REINIT; none where the ledger has no such window. Bounds in
CLK_N cycles count whole periods of 64 or 256 of them; CLK_IO cycles last under 1 us. -/
def Mod.windowBound (m : Mod) (l : LedgerId) (w excused : Nat) : Option Nat :=
  match l, w with
  | .credit (.router _ _) _ _, 1 => some 0
  | .credit (.seam _ _ _) _ _, 1 => some 1
  | .credit (.gateway _ _) _ _, 1 => some 2
  | .credit _ _ _, 3 => some 2
  | .credit _ _ _, 4 => some 64
  | .slots _, 2 => some 1
  | .ring _ _, 2 => some 10
  | .entries _, 2 => some 20
  | .pages _, 2 => some 20
  | .pinned _, 2 => some (2 * excused + 5000)
  | .tokens _ _, 1 => some (m.parN pFabDelivTo)
  | .tokens _ _, 4 => some 1000
  | .buffers _, 1 => some 0
  | .buffers _, 2 => some 100
  | .buffers _, 4 => some 1000
  | _, _ => none

/-! The terms of an instance (R297, R300). -/

/-- Capacity, stable terms, and the items that the state shows in an excused window. -/
structure LedgerTerms where
  cap : Int
  stable : List Int
  windows : Nat := 0
  deriving DecidableEq, Repr
/-- C minus the sum of the stable terms. -/
def LedgerTerms.count (x : LedgerTerms) : Int := x.cap - x.stable.foldl (· + ·) 0

/-- Entries in use at the receiver of a link: the flits that stand in its buffer. -/
def Mod.entriesInUse (m : Mod) (key : Nat) : Nat := (m.net.red.filter fun e => e.2.2.via == some key).length

/-- Slots of a ring between two indexes that count up. -/
def ringTerms (log2 tail head : Nat) : LedgerTerms := ⟨(2 ^ log2 : Nat), [((2 ^ log2 : Nat) : Int) - ((tail : Int) - head), (tail : Int) - head], 0⟩

/-- The terms of an instance (Tables 10.2 to 10.9), all as the state of the sampled cycle has them. Of a link the receiver's count is that of its
sideband report. -/
def Mod.ledgerTerms (m : Mod) : LedgerId → LedgerTerms
  | .credit p n v =>
    let key := creditKey p n v.val
    let c := creditCap n v.val
    ⟨c, [(c : Int) - (m.net.spent.getD key 0 : Nat), (m.entriesInUse key : Nat)], (m.net.reports.getD key (0, 0)).1⟩
  | .slots h => ⟨256, [((m.half h.val).slots : Nat), ((m.copies.filter fun e => e.2.half == h && e.2.status.isNone).length : Nat)], 0⟩
  | .ring q k => match m.qp? q.toNat with
    | none => ⟨0, [], 0⟩
    | some x => if k = 0 then ringTerms x.sqLog2 x.sqTail x.sqHead
      else if k = 1 then ringTerms x.cqLog2 x.cqTail x.cqHead
      else ⟨4096, [4096 - (x.journal.length : Int), x.journal.length], 0⟩
  | .entries q => ⟨262144, [262144 - (m.seq.fresh.getD q.val 0 : Int) + ((m.seq.freed.getD q.val []).length : Nat), (m.seqLiveQ q.val : Nat)], 0⟩
  | .pages q =>
    let xs := m.seq.extents.filter fun x => x.quarter == q
    ⟨(xs.map PoolExt.count).sum, [((xs.map PoolExt.free).sum : Nat),
      (((m.seq.ents.filter fun e => quarterOf e.1 == q.val && e.2.state != 0).map fun e => e.2.pages).sum : Nat)], 0⟩
  | .pinned (some p) => ⟨((m.cache.extents.filter fun e => e.part == p).map fun e => e.units).sum, [(m.pinUsed p.val : Nat)], 0⟩
  | .pinned none =>
    let free := ((List.range 768).filter fun u => !(m.cache.extents.any fun e => decide (e.base ≤ u ∧ u < e.base + e.units))).length
    ⟨768, [(free : Nat), ((List.range 128).map m.pinUsed).sum], 0⟩
  | .tokens k d =>
    let t := m.e2e k.val d.toNat
    ⟨t.grant, [t.tokens, ((m.fab.out.filter fun o => o.iod == k && o.p.dst == d && !o.waiting).length : Nat)], 0⟩
  | .buffers i => ⟨m.parN (pFabPeerCeil + i.val), [(m.parN (pFabPeerCeil + i.val) : Int) - (m.port i.val).credit, (m.port i.val).credit], 0⟩

/-- The receiving port of a link reports the entries it has freed to the sending port, with the cycle of the sample (R300). -/
def Mod.sideband (m : Mod) : LedgerId → Mod
  | .credit p n v =>
    let key := creditKey p n v.val
    m.updNet fun x => { x with reports := x.reports.put key (x.freed.getD key 0, m.ticks) }
  | _ => m

/-- Is there such an instance, and its unit running (R301)? -/
def Mod.audited (m : Mod) (l : LedgerId) : Bool :=
  m.powered && match l with
  | .credit (.router t _) _ _ => !((m.tile t.val).fenced) && (m.half (halfOfTile t.val)).state != 4 && !(m.heldAt t.val)
  | .credit (.seam d _ s) _ _ =>
    (m.half (2 * d.val)).state != 4 && (m.half (2 * d.val + 1)).state != 4 && !(m.heldAt (unitOfSlice (2 * d.val + s.val)))
  | .credit (.gateway d g) _ _ =>
    let k := 8 * d.val + g.val
    ((m.link k).state == 4 || (m.link k).state == 6) && !(m.heldAt (unitOfGate k))
  | .slots h => (m.half h.val).state != 4 && !(m.heldAt (unitOfSlice h.val))
  | .ring q _ => (m.qp? q.toNat).isSome && !(m.heldAt (unitOfIod (m.actingIod (q.toNat / 2 ^ 14))))
  | .entries q => m.seq.inService && !(m.heldAt (unitOfIod (m.actingIod q.val)))
  | .pages q => m.seq.inService && !(m.heldAt (unitOfIod (m.actingIod q.val)))
  | .pinned _ => !m.braked
  | .tokens k d => (m.e2e k.val d.toNat).isOpen && !(m.heldAt (unitOfIod k.val))
  | .buffers i => (m.port i.val).state == 4 && !(m.heldAt (unitOfIod (i.val / 8)))

/-! Table 10.10. -/

/-- A link's credits come back with its reset; a second fault on it within 1 s fences the router, or fails the die link. -/
def Mod.creditFault (m : Mod) (p : PortRef) (n : Net) (vc : Nat) : Mod :=
  let k := creditKey p .bn 0
  let again := match Tab.find k m.net.linkFault with
    | some t => decide (m.ticks ≤ t + 1000 * ticksPerMs)
    | none => false
  -- credits are re-initialised; what stands in the receiver's buffer is replayed into it
  let key := creditKey p n vc
  let m := m.updNet fun x => { x with
    spent := x.spent.put key (m.entriesInUse key), freed := x.freed.del key, linkFault := x.linkFault.put k m.ticks }
  if !again then m
  else match p with
    | .router t _ => m.fenceTile t true
    | .seam d c s => m.fenceTile (Fin.ofNat 1024 (128 * d.val + 64 * s.val + c.val)) true
    | .gateway d g =>
      let k := 8 * d.val + g.val
      let m := m.linkDead k
      if isCdCd k then m.linkDead (otherGate k) else m

/-- Tokens towards a destination are re-initialised: what is undelivered is resent under its ESEQ. -/
def Mod.tokensReinit (m : Mod) (iod dst : Nat) : Mod :=
  let out := (m.fab.out.filter fun o => o.iod.val == iod && o.p.dst.toNat == dst && !o.waiting).length
  let t := m.e2e iod dst
  (m.setE2e iod dst { t with tokens := t.grant - out }).pump iod dst

/-- A port resets its link with its peer. -/
def Mod.portReset (m : Mod) (i : Nat) : Mod :=
  if (m.port i).state == 4 then (m.portDown i .none).updPort i fun p => { p with state := 2 } else m

/-- Ports of an I/O die whose partner is a module. -/
def Mod.portsTo (m : Mod) (iod dst : Nat) : List Nat :=
  ((List.range 8).map fun j => 8 * iod + j).filter fun i => (m.port i).state == 4 && (m.port i).partner.toNat == dst

/-- The action of Table 10.10, or that of R305 for items held at the peer. -/
def Mod.ledgerAction (m : Mod) (l : LedgerId) (peer : Bool) : Mod :=
  match l with
  | .credit p n v => m.creditFault p n v.val
  | .slots h =>
    let busy := (m.copies.filter fun e => e.2.half == h && e.2.status.isNone).length
    m.updHalf h.val fun x => { x with slots := 256 - busy }
  | .ring q _ => m.updQp q.toNat fun x => { x with halted := true }
  | .entries q => m.updSeq fun x => { x with freed := x.freed.adj q.val fun l => sortBy id l }
  | .pages q => m.updSeq fun x => { x with freed := x.freed.adj q.val fun l => sortBy id l }
  | .pinned _ => m
  | .tokens k d =>
    if peer then forEach (m.portsTo k.val d.toNat) (fun i m => m.quarantine i) m
    else forEach (m.portsTo k.val d.toNat) (fun i m => m.portReset i) (m.tokensReinit k.val d.toNat)
  | .buffers i => if peer then m.quarantine i.val else m.portReset i.val

/-- The data of a LEDGER_FAULT event: the audit register, the ledger code in byte 8, PEER in byte 9, the cycle above (log 51). -/
def auditWord (r : AuditReg) : Nat :=
  (if r.fault then 2 ^ 63 else 0) + (if r.kind then 2 ^ 62 else 0) + r.window.val * 2 ^ 58 + r.inst % 2 ^ 16 * 2 ^ 42 + r.age % 2 ^ 18 * 2 ^ 24 +
  r.inflight % 2 ^ 24

/-- Window of the oldest excused item: what the sample brings, else RETURN for what the state shows. -/
def LedgerTerms.window (t : LedgerTerms) (x : AuditSample) : Nat := if x.window = 0 ∧ 0 < t.windows then 1 else x.window.val

/-- The audit count of a sample, and the items in excused windows: an item of a circuit's window is in no stable term, a corrupted term falls
short by `leak` (R297, R299). -/
def LedgerTerms.sampled (t : LedgerTerms) (x : AuditSample) : Int × Nat := (t.count + x.excused + x.leak, t.windows + x.excused)

/-- One sample of an instance, all its terms of one cycle (R299, R300). -/
def Mod.auditSample (m : Mod) (l : LedgerId) (x : AuditSample) : Mod :=
  let key := m.auditKey l
  let m := m.sideband l
  let t := m.ledgerTerms l
  let n := t.sampled x
  let w := t.window x
  let old := m.net.audits.getD key {}
  let unticked := match l with
    | .ring _ k => k == 1 && m.host.portState == 2
    | _ => false
  let late := !unticked && (match m.windowBound l w n.2 with
    | some b => decide (b < x.age)
    | none => false)
  let wrong := decide (n.1 ≠ (n.2 : Int))
  let fault := wrong || late
  let peer := !wrong && late && x.peer && decide (7 ≤ ledgerCode l)
  let r : AuditReg := { fault := old.fault || fault, kind := if fault then !wrong else old.kind, window := Fin.ofNat 8 w,
                        inst := if fault || !old.fault then m.ledgerInst l else old.inst,
                        age := min x.age 0x3FFFF, inflight := n.1.toNat % 2 ^ 24 }
  let m := m.updNet fun n => { n with audits := n.audits.put key r }
  if !fault then m
  else
    let m := m.raise evLedgerFault (m.ledgerUnit l) noPart
      (auditWord r + ledgerCode l * 2 ^ 64 + (if peer then 2 ^ 72 else 0) + m.ticks % 2 ^ 48 * 2 ^ 80)
    let m := if peer then m else m.count kOdoLedgerFault 0
    m.ledgerAction l peer

/-- Has the ledger the window that a sample names? -/
def Mod.hasWindow (m : Mod) (l : LedgerId) (x : AuditSample) : Bool := x.window == 0 || (m.windowBound l x.window.val x.excused).isSome

/-- AUDIT_SAMPLE. -/
def execAuditSample (l : LedgerId) (x : AuditSample) (s : State) : Out :=
  s.goIf (sampleOk l x) "AUDIT_SAMPLE" fun m => if m.audited l && m.hasWindow l x then m.auditSample l x else m

end Sys2Proof.Machine
end

