-- ==== Sys2Proof/Machine/Crypto.lean ====
section
/-! DEFINITION. SHA-256 (FIPS 180-4), HMAC (RFC 2104) and HKDF (RFC 5869), and the private scalars that spec 22 R597 and R598 derive with
them. -/

namespace Sys2Proof.Machine

/-! SHA-256, over numbers below 2^32. -/

def sha256K : List Nat :=
  [0x428a2f98, 0x71374491, 0xb5c0fbcf, 0xe9b5dba5, 0x3956c25b, 0x59f111f1, 0x923f82a4, 0xab1c5ed5,
   0xd807aa98, 0x12835b01, 0x243185be, 0x550c7dc3, 0x72be5d74, 0x80deb1fe, 0x9bdc06a7, 0xc19bf174] ++
  [0xe49b69c1, 0xefbe4786, 0x0fc19dc6, 0x240ca1cc, 0x2de92c6f, 0x4a7484aa, 0x5cb0a9dc, 0x76f988da,
   0x983e5152, 0xa831c66d, 0xb00327c8, 0xbf597fc7, 0xc6e00bf3, 0xd5a79147, 0x06ca6351, 0x14292967] ++
  [0x27b70a85, 0x2e1b2138, 0x4d2c6dfc, 0x53380d13, 0x650a7354, 0x766a0abb, 0x81c2c92e, 0x92722c85,
   0xa2bfe8a1, 0xa81a664b, 0xc24b8b70, 0xc76c51a3, 0xd192e819, 0xd6990624, 0xf40e3585, 0x106aa070] ++
  [0x19a4c116, 0x1e376c08, 0x2748774c, 0x34b0bcb5, 0x391c0cb3, 0x4ed8aa4a, 0x5b9cca4f, 0x682e6ff3,
   0x748f82ee, 0x78a5636f, 0x84c87814, 0x8cc70208, 0x90befffa, 0xa4506ceb, 0xbef9a3f7, 0xc67178f2]
def sha256H : List Nat :=
  [0x6a09e667, 0xbb67ae85, 0x3c6ef372, 0xa54ff53a, 0x510e527f, 0x9b05688c, 0x1f83d9ab, 0x5be0cd19]

def rotr32 (x n : Nat) : Nat := (x / 2 ^ n) ||| (x % 2 ^ n * 2 ^ (32 - n))
def shaCh (x y z : Nat) : Nat := (x &&& y) ^^^ ((2 ^ 32 - 1 - x) &&& z)
def shaMaj (x y z : Nat) : Nat := (x &&& y) ^^^ (x &&& z) ^^^ (y &&& z)
def shaS0 (x : Nat) : Nat := rotr32 x 2 ^^^ rotr32 x 13 ^^^ rotr32 x 22
def shaS1 (x : Nat) : Nat := rotr32 x 6 ^^^ rotr32 x 11 ^^^ rotr32 x 25
def shas0 (x : Nat) : Nat := rotr32 x 7 ^^^ rotr32 x 18 ^^^ x / 2 ^ 3
def shas1 (x : Nat) : Nat := rotr32 x 17 ^^^ rotr32 x 19 ^^^ x / 2 ^ 10

/-- Big-endian number of bytes, and the bytes of one. -/
def beNat (bs : List Byte) : Nat := bs.foldl (fun n b => n * 256 + b.toNat) 0
def beBytes (n k : Nat) : List Byte := (List.range k).map fun i => BitVec.ofNat 8 (n / 256 ^ (k - 1 - i))

/-- The message schedule: the last 16 words move on by one. -/
def shaNext (w : List Nat) : List Nat :=
  w.drop 1 ++ [(shas1 (w.getD 14 0) + w.getD 9 0 + shas0 (w.getD 1 0) + w.getD 0 0) % 2 ^ 32]
/-- One round on a to h. -/
def shaRound (v : List Nat) (k w : Nat) : List Nat :=
  match v with
  | [a, b, c, d, e, f, g, h] =>
    let t := h + shaS1 e + shaCh e f g + k + w
    [(t + shaS0 a + shaMaj a b c) % 2 ^ 32, a, b, c, (d + t) % 2 ^ 32, e, f, g]
  | _ => v
/-- One block of 64 bytes. -/
def shaBlock (h : List Nat) (block : List Byte) : List Nat :=
  let w := (List.range 16).map fun i => beNat ((block.drop (4 * i)).take 4)
  let r := sha256K.foldl (fun (s : List Nat × List Nat) k => (shaRound s.1 k (s.2.getD 0 0), shaNext s.2)) (h, w)
  List.zipWith (fun x y => (x + y) % 2 ^ 32) h r.1

/-- The message padded to whole blocks. -/
def shaPad (m : List Byte) : List Byte :=
  m ++ [0x80] ++ List.replicate ((119 - m.length % 64) % 64) 0 ++ beBytes (8 * m.length) 8
def sha256 (m : List Byte) : List Byte :=
  let p := shaPad m
  ((List.range (p.length / 64)).foldl (fun h i => shaBlock h ((p.drop (64 * i)).take 64)) sha256H).flatMap fun x => beBytes x 4

/-- HMAC-SHA-256 with a key of at most 64 bytes. -/
def hmac256 (key msg : List Byte) : List Byte :=
  let k := key ++ List.replicate (64 - key.length) 0
  sha256 (k.map (· ^^^ 0x5C) ++ sha256 (k.map (· ^^^ 0x36) ++ msg))

/-- Order of the group of P-256. -/
def p256Order : Nat := 0xFFFFFFFF00000000FFFFFFFFFFFFFFFFBCE6FAADA7179E84F3B9CAC2FC632551

/-- The first block of the HKDF output stream, from block `i` on, that is a scalar of 1 to n - 1 (R597). -/
def hkdfScan (prk info : List Byte) : Nat → Nat → List Byte → Option Nat
  | 0, _, _ => none
  | f + 1, i, prev =>
    let t := hmac256 prk (prev ++ info ++ [BitVec.ofNat 8 i])
    let d := beNat t
    if 0 < d ∧ d < p256Order then some d else hkdfScan prk info f (i + 1) t
/-- The private scalar of a key material and an info string; no salt is given, which RFC 5869 takes as zeros. -/
def hkdfScalar (ikm info : List Byte) : Option Nat := hkdfScan (hmac256 (List.replicate 32 0) ikm) info 255 1 []

/-- Bytes of an info string. -/
def infoBytes (s : String) : List Byte := s.toList.map fun c => BitVec.ofNat 8 c.toNat

/-- The private scalar of the DeviceID key, from the UDS alone (R597). -/
def deviceIdKey (uds : BitVec 256) : Option Nat := hkdfScalar (leBytes uds.toNat 32) (infoBytes "VZN DeviceID")
/-- The measurement M: DIGEST and SVN of the IODFW booted, and the debug byte (R598). -/
def measurement (digest svn : Nat) (dbg : Bool) : List Byte := sha256 (leBytes digest 32 ++ leBytes svn 2 ++ [if dbg then 1 else 0])
/-- The private scalar of the Alias key, from CDI = HMAC-SHA-256(UDS, M) (R598). -/
def aliasKeyOf (uds : BitVec 256) (digest svn : Nat) (dbg : Bool) : Option Nat :=
  hkdfScalar (hmac256 (leBytes uds.toNat 32) (measurement digest svn dbg)) (infoBytes "VZN Alias")

end Sys2Proof.Machine
end

