-- ==== Sys2Proof/Machine/Attest.lean ====
section
/-! DEFINITION. Attestation: what the module measures and the SPDM responder (spec 22 R612, Table 22.8). The spec names SPDM 1.2; the codes and layouts of
its messages are those of that standard (PRESUMED, log 150). -/

namespace Sys2Proof.Machine

/-! Slots and images that run (22 R604, R610). -/

/-- Key of a slot: type and 0 for A, 1 for B. -/
def fwSlot (t b : Nat) : Nat := 2 * t + b
/-- Slot of a type under a combination index. -/
def idxSlot (idx t : Nat) : Nat := fwSlot t (idx / 2 ^ (t - 1) % 2)
/-- Slot of the IODFW that an I/O die runs: a die that a live update has updated runs the other one (22 R610). -/
def SecS.runs (c : SecS) (k : IodId) : Nat := 2 + (if k ∈ c.updated then 1 - c.running % 2 else c.running % 2)

/-- DIGEST of the image in a slot. -/
def SecS.slotDigest (c : SecS) (k : Nat) : List Byte := leBytes ((c.slots.getD k {}).image.elim 0 Image.digest) 32
/-- The manifest in a slot: MLEN bytes at MOFF of the body, which follows the header of 256 bytes (Table 22.2); at most a header, 16 rules and 4 keys. -/
def SecS.manifest (c : SecS) (k : Nat) : List Byte :=
  let b := (c.slots.getD k {}).bytes
  b.rds (256 + leNat (b.rds 92 4)) (min 544 (leNat (b.rds 88 4)))
/-- The Alias certificate that IODFW issued at this SECURE_BOOT (R599). -/
def SecS.aliasBytes (c : SecS) : List Byte := if c.measured.isSome then (Config.freeBlob c.aliasCert).take 1024 else []

/-! Measurement blocks (Table 22.8). -/

/-- Value of a block: digests of bodies for 2 to 5, of the manifests for 6, else of what the table names (log 150). -/
def State.measured (s : State) (i : Nat) : List Byte :=
  let c := s.m.sec
  let f := s.fuse
  let digest (xs : List Nat) : List Byte := leBytes (Config.measureDigest i xs) 32
  match i with
  | 2 => [0, 1, 2, 3].flatMap fun k => c.slotDigest (c.runs k)
  | 3 => c.slotDigest (idxSlot c.running 2)
  | 4 => c.slotDigest (idxSlot c.running 3)
  | 5 => c.slotDigest (idxSlot c.running 4)
  | 6 => sha256 ([1, 2, 3, 4].flatMap fun t => c.manifest (idxSlot c.running t))
  | 7 => digest ([1, 2, 3, 4].map (fun t => f.svnMin.getD t 0) ++ [f.revoked])
  | 8 => digest [if c.unlocked then 1 else 0, c.liveCount]
  | 9 => digest [leNat f.serial, f.order.val, f.stepping.toNat, leNat f.deviceCert, f.xsIdent.getD 0 0, f.xsIdent.getD 1 0]
  | 10 => digest [if f.order = 0 then f.xsIdent.getD 0 0 else 0, if f.order = 0 then f.xsIdent.getD 1 0 else 0]
  | _ => digest []

/-- Type of a block's value: immutable ROM, mutable firmware, hardware or firmware configuration. -/
def measureType (i : Nat) : Nat := if i = 1 then 0 else if i ≤ 5 then 1 else if i = 6 then 3 else 2
/-- A measurement block. -/
def State.measureBlock (s : State) (i : Nat) : List Byte :=
  let v := s.measured i
  leBytes i 1 ++ [1] ++ leBytes (v.length + 3) 2 ++ leBytes (measureType i) 1 ++ leBytes v.length 2 ++ v

/-- The certificate chain of slot 0 in SPDM's form: its length, the hash of the root, then the certificates below it (R599). -/
def State.certChain (s : State) : List Byte :=
  let certs := s.fuse.caCert ++ s.fuse.deviceCert ++ s.m.sec.aliasBytes
  leBytes (36 + certs.length) 2 ++ [0, 0] ++ bytesOf s.fuse.rootHash ++ certs

/-! Responder (R612). -/

/-- Fresh bytes: nonces, and signatures, whose bits the spec leaves open. -/
def Mod.drawBytes (m : Mod) (n : Nat) : List Byte × Mod :=
  ((List.range n).map fun i => BitVec.ofNat 8 (Config.freeNat (m.free + i)), { m with free := m.free + n })

/-- Header of a message of SPDM 1.2. -/
def spdmHead (code p1 p2 : Nat) : List Byte := 0x12 :: leBytes code 1 ++ leBytes p1 1 ++ leBytes p2 1
/-- ERROR: 1 InvalidRequest, 4 UnexpectedRequest, 7 UnsupportedRequest, 0x0F LargeResponse, 0x41 VersionMismatch. -/
def spdmError (code data : Nat) : List Byte := spdmHead 0x7F code data
/-- Requests that R612 lists: DIGESTS, CERTIFICATE, CHALLENGE, VERSION, CHUNK_SEND, CHUNK_GET, MEASUREMENTS, CAPABILITIES, ALGORITHMS. -/
def spdmSupported : List Nat := [0x81, 0x82, 0x83, 0x84, 0x85, 0x86, 0xE0, 0xE1, 0xE3]
/-- Stage that a request needs: algorithms follow capabilities, which follow the version. -/
def spdmNeeds (code : Nat) : Nat := if code = 0xE1 then 1 else if code = 0xE3 then 2 else 3
/-- Largest message in one piece. -/
def spdmSize : Nat := 1024

/-- VERSION: 1.2 alone. -/
def spdmVersion : List Byte := [0x10, 0x04, 0, 0, 0, 1] ++ leBytes 0x1200 2
/-- CAPABILITIES: certificates, CHALLENGE, signed measurements and chunks, in pieces of 1,024 bytes. -/
def spdmCapabilities : List Byte :=
  spdmHead 0x61 0 0 ++ [0] ++ leBytes (Config.spdmNumber 0) 1 ++ [0, 0] ++ leBytes (0x2 + 0x4 + 0x10 + 2 ^ 17) 4 ++ leBytes spdmSize 4 ++
    leBytes (Config.spdmNumber 1) 4
/-- ALGORITHMS: ECDSA P-256 and SHA-256. -/
def spdmAlgorithms : List Byte :=
  spdmHead 0x63 0 0 ++ leBytes 36 2 ++ [1, 0] ++ leBytes 0x2 4 ++ leBytes 0x10 4 ++ leBytes 0x1 4 ++ List.replicate 16 0

/-- CERTIFICATE: the portion asked for. -/
def State.spdmCertificate (s : State) (off len : Nat) : List Byte :=
  let p := (s.certChain.drop off).take len
  spdmHead 0x02 0 0 ++ leBytes p.length 2 ++ leBytes (s.certChain.length - off - p.length) 2 ++ p

/-- CHALLENGE_AUTH: hash of the chain, nonce, summary of the measurements where asked for, no opaque data, signature. -/
def State.spdmChallenge (s : State) (summary : Bool) : List Byte × Mod :=
  let n := s.m.drawBytes 32
  let g := n.2.drawBytes 64
  let sum := if summary then sha256 ((List.range 10).flatMap fun i => s.measureBlock (i + 1)) else []
  (spdmHead 0x03 0 1 ++ sha256 s.certChain ++ n.1 ++ sum ++ [0, 0] ++ g.1, g.2)

/-- MEASUREMENTS: how many there are, one block, or all; signed where asked for. -/
def State.spdmMeasurements (s : State) (sign : Bool) (op : Nat) : List Byte × Mod :=
  let is := if op = 0 then [] else if op = 0xFF then (List.range 10).map (· + 1) else [op]
  let blocks := is.flatMap s.measureBlock
  let n := s.m.drawBytes 32
  let g := if sign then n.2.drawBytes 64 else ([], n.2)
  (spdmHead 0x60 (if op = 0 then 10 else 0) 0 ++ leBytes is.length 1 ++ leBytes blocks.length 3 ++ blocks ++ n.1 ++ [0, 0] ++ g.1, g.2)

/-- The answer to a request that is no chunk, slot 0 only. -/
def State.spdmPlain (s : State) (x : Spdm) (q : List Byte) : List Byte × Spdm × Mod :=
  let p1 := leField q 2 1
  let p2 := leField q 3 1
  let code := leField q 1 1
  let no (c d : Nat) : List Byte × Spdm × Mod := (spdmError c d, x, s.m)
  if q.length < 4 then no 1 0
  else if code = 0x84 then (spdmVersion, { stage := 1 }, s.m)
  else if leField q 0 1 ≠ 0x12 then no 0x41 0
  else if code = 0x85 ∨ code = 0x86 ∨ !(spdmSupported.contains code) then no 7 code
  else if x.stage.val ≠ spdmNeeds code then no 4 0
  else if code = 0xE1 then (spdmCapabilities, { x with stage := 2 }, s.m)
  else if code = 0xE3 then
    if (leField q 8 4).testBit 4 && (leField q 12 4).testBit 0 then (spdmAlgorithms, { x with stage := 3 }, s.m) else no 1 0
  else if code = 0x81 then (spdmHead 0x01 0 1 ++ sha256 s.certChain, x, s.m)
  else if code = 0x82 then
    if p1 % 16 = 0 ∧ leField q 4 2 < s.certChain.length then (s.spdmCertificate (leField q 4 2) (leField q 6 2), x, s.m) else no 1 0
  else if code = 0x83 then
    if p1 = 0 ∧ (p2 = 0 ∨ p2 = 1 ∨ p2 = 0xFF) ∧ 36 ≤ q.length then
      let r := s.spdmChallenge (p2 ≠ 0)
      (r.1, x, r.2)
    else no 1 0
  else
    let sign := p1 % 2 = 1
    if (p2 ≤ 10 ∨ p2 = 0xFF) ∧ (sign → 37 ≤ q.length ∧ leField q 36 1 % 16 = 0) then
      let r := s.spdmMeasurements sign p2
      (r.1, x, r.2)
    else no 1 0

/-- A response larger than one piece is kept for CHUNK_GET, under a new handle. -/
def spdmFit (r : List Byte × Spdm × Mod) : List Byte × Spdm × Mod :=
  if r.1.length ≤ spdmSize then r
  else
    let h := r.2.1.outHandle + 1
    (spdmError 0x0F 0 ++ [h], { r.2.1 with out := r.1, outHandle := h, outSeq := 0 }, r.2.2)

/-- CHUNK_SEND: a chunk of a large request; the last one brings the answer. -/
def State.spdmChunkSend (s : State) (x : Spdm) (q : List Byte) : List Byte × Spdm × Mod :=
  let handle : Byte := q.getD 3 0
  let seq := leField q 4 2
  let piece := (q.drop (if seq = 0 then 16 else 12)).take (leField q 8 4)
  let ack := spdmHead 0x05 0 handle.toNat ++ leBytes seq 2
  if seq ≠ 0 ∧ (x.inpHandle ≠ handle ∨ x.inpSeq ≠ seq) then (spdmError 1 0, { x with inp := [], inpSeq := 0 }, s.m)
  else
    let whole := (if seq = 0 then [] else x.inp) ++ piece
    if leField q 2 1 % 2 = 1 then
      let r := s.spdmPlain { x with inp := [], inpSeq := 0 } whole
      (ack ++ r.1, r.2)
    else (ack, { x with inp := whole, inpHandle := handle, inpSeq := seq + 1 }, s.m)

/-- CHUNK_GET: the next chunk of the large response that waits. -/
def spdmChunkGet (x : Spdm) (q : List Byte) : List Byte × Spdm :=
  let seq := leField q 4 2
  if x.out.isEmpty ∨ q.getD 3 0 ≠ x.outHandle ∨ seq ≠ x.outSeq then (spdmError 4 0, x)
  else
    let large := if seq = 0 then leBytes x.out.length 4 else []
    let piece := x.out.take (spdmSize - 12 - large.length)
    let rest := x.out.drop piece.length
    (spdmHead 0x06 (if rest.isEmpty then 1 else 0) x.outHandle.toNat ++ leBytes seq 2 ++ [0, 0] ++ leBytes piece.length 4 ++ large ++ piece,
     { x with out := rest, outSeq := seq + 1 })

/-- The responder: the answer to a request, its state and the module after it (R612). -/
def State.spdmAnswer (s : State) (x : Spdm) (q : List Byte) : List Byte × Spdm × Mod :=
  let chunks := decide (4 ≤ q.length ∧ leField q 0 1 = 0x12 ∧ 2 ≤ x.stage.val)
  if chunks && leField q 1 1 == 0x86 then
    let r := spdmChunkGet x q
    (r.1, r.2, s.m)
  else
    let x := { x with out := [], outSeq := 0 }
    spdmFit (if chunks && leField q 1 1 == 0x85 then s.spdmChunkSend x q else s.spdmPlain x q)

end Sys2Proof.Machine
end

