-- ==== Sys2Proof/Machine/Dict.lean ====
section
/-! DEFINITION. Values of dictionary parameters: types, ranges, the saved configuration (spec 21 R572-R574, R589-R592). -/

namespace Sys2Proof.Machine

/-! Types (21 Table 21.4, R572). -/

/-- Is a type a byte string: STR or BLOB? -/
def isBytes (t : Nat) : Bool := t == 10 || t == 11
/-- Length of a value of a type that is none. -/
def typeLen (t : Nat) : Nat :=
  match t with
  | 1 => 1
  | 2 => 1
  | 3 => 2
  | 4 => 4
  | 5 => 8
  | 6 => 4
  | 7 => 8
  | 8 => 4
  | 9 => 4
  | _ => 0
/-- The number that bytes of a type stand for: I32 and I64 are two's complement. -/
def numOf (t : Nat) (b : List Byte) : Int :=
  let n := leNat b
  let w := 2 ^ (8 * typeLen t)
  if (t = 6 ∨ t = 7) ∧ w ≤ 2 * n then (n : Int) - w else n
/-- The bytes of a number of a type. -/
def numBytes (t : Nat) (v : Int) : List Byte := leBytes (v % ((2 ^ (8 * typeLen t) : Nat) : Int)).toNat (typeLen t)

def PVal.bytes (t : Nat) : PVal → List Byte
  | .num v => numBytes t v
  | .blob b => b
def PVal.int : PVal → Int
  | .num v => v
  | .blob _ => 0
def PVal.raw : PVal → List Byte
  | .num _ => []
  | .blob b => b
/-- Zero of a type. -/
def zeroVal (t : Nat) : PVal := if isBytes t then .blob [] else .num 0

/-- The value that an entry carries for a parameter, where its TYPE and length are the parameter's (R573). -/
def PRow.value (r : PRow) (e : KEntry) : Option PVal :=
  if e.type.val ≠ r.type then none
  else if isBytes r.type then
    if (e.value.length : Int) ≤ r.hi then some (.blob e.value) else none
  else if e.value.length = typeLen r.type then some (.num (numOf r.type e.value)) else none

/-! Ranges, as the parameters' tables state them. -/

/-- Alignment of a base address. -/
def PRow.align (r : PRow) : Nat :=
  if r.num = pMemFktBase then 2 ^ 25
  else if r.num = pSeqAstBase then 2 ^ 27
  else if r.num = pSchSaveBase then 2 ^ 22
  else if r.num = pSchTaskTable then 64
  else if r.num = pHifJrnlBase then 2 ^ 20
  else if r.num = pHifRetainBase ∨ r.num = pMigLogBase ∨ r.num = pWpBase then 2 ^ 16
  else if r.num = pMigHmlo then 2 ^ 12
  else 1

/-- Is a value within the range of a parameter of an order code, `i` its index within the row (25 R653)? -/
def PRow.inRange (r : PRow) (order i : Nat) : PVal → Bool
  | .blob _ => true
  | .num v =>
    decide (r.lo ≤ v ∧ v ≤ r.hi) && v % (r.align : Int) == 0 &&
    (if r.num = pPwrCap then decide (v ≤ tdp order)
     else if r.num = pPwrDivLimit then v == 4 || v == 5 || v == 6 || v == 8
     else if r.num = pWpPeriodMs then v == 0 || decide (10 ≤ v)
     else if r.num = pFabWinOwner ∨ r.num = pXsAgentPart then decide (v < 128) || v == 255
     else if r.num = pCchNcMode + 1024 then decide (v < 2) || decide (160 ≤ i)
     else true)

/-- Default of a number for an order code. -/
def defaultOf (order n : Nat) : PVal :=
  match paramRow n with
  | none => .num 0
  | some r => if isBytes r.type then .blob [] else if r.num = pPwrCap then .num (tdp order) else .num r.dflt

/-! Saved configuration. -/

/-- The valid copy with the larger SEQ, copy A on a tie; its slot is 0 for A, 1 for B (R591). -/
def Kod.newest (k : Kod) : Option (Fin 3 × SavedCopy) :=
  match k.cfgA, k.cfgB with
  | some a, some b => if a.seq < b.seq then some (1, b) else some (0, a)
  | some a, none => some (0, a)
  | none, some b => some (1, b)
  | none, none => none

/-- May a saved entry be loaded: its number known, an RWS parameter of its type, its value in range? -/
def entryLoads (order : Nat) (e : Nat × PVal) : Bool :=
  match paramRow e.1 with
  | none => false
  | some r => r.access == 2 && r.inRange order (e.1 - r.num) e.2 && (match e.2 with
      | .num _ => !(isBytes r.type)
      | .blob b => isBytes r.type && decide ((b.length : Int) ≤ r.hi))

/-- Parameters take the values of a copy, and their defaults where it names none. -/
def Kod.load (k : Kod) (order : Nat) (slot : Fin 3) (c : SavedCopy) : Kod :=
  let good := c.entries.filter (entryLoads order)
  let params : Tab Int := good.foldl (fun t e => match e.2 with
    | .num v => t.put e.1 v
    | .blob _ => t) []
  let blobs : Tab (List Byte) := good.foldl (fun t e => match e.2 with
    | .blob b => t.put e.1 b
    | .num _ => t) []
  { k with params := params, blobs := blobs, cfgSeq := c.seq, cfgSlot := slot, dirty := false, lastRws := none, defaulted := false,
           skipped := min 0xFFFFFFFF (k.skipped + (c.entries.length - good.length)) }

/-- Entries of a save: every RWS parameter whose value differs from its default, in ascending number (R589). -/
def Kod.savedEntries (k : Kod) (order : Nat) : List (Nat × PVal) :=
  let rws (n : Nat) : Bool := match paramRow n with
    | some r => r.access == 2
    | none => false
  let nums : List (Nat × PVal) := k.params.map fun (e : Nat × Int) => (e.1, PVal.num e.2)
  let strs : List (Nat × PVal) := k.blobs.map fun (e : Nat × List Byte) => (e.1, PVal.blob e.2)
  sortBy (fun e => e.1) ((nums ++ strs).filter fun e => rws e.1 && e.2 != defaultOf order e.1)

/-- A save begins: it takes the copy that does not hold the newest valid record, which is invalid until its header is written (R590). -/
def Kod.saveStart (k : Kod) (order fwver : Nat) (act : Bool) : Kod :=
  let toB := match k.newest with
    | some (s, _) => s == 0
    | none => false
  let seq := match k.newest with
    | some (_, c) => c.seq + 1
    | none => 1
  let copy : SavedCopy := { seq := seq, fwver := fwver, entries := k.savedEntries order }
  { k with saving := some (toB, copy), cfgA := if toB then k.cfgA else none, cfgB := if toB then none else k.cfgB, dirty := false,
           saveAct := act, saveAgain := false, againAct := false, lastRws := none }
/-- A save is asked for; one that runs is followed by it. -/
def Kod.save (k : Kod) (order fwver : Nat) (act : Bool) : Kod :=
  if k.saving.isSome then { k with saveAgain := true, againAct := k.againAct || act } else k.saveStart order fwver act

/-- VERSION of the IODFW that the serving die runs. -/
def Mod.fwVersion (m : Mod) : Nat :=
  match (m.sec.slots.getD (m.sec.runs m.kod.server) {}).image with
  | some i => i.version
  | none => 0

/-- KOD_SAVE. -/
def Mod.kodSave (m : Mod) (order : Nat) : Nat × Mod :=
  (esRUNNING, m.updKod fun k => k.save order m.fwVersion true)
/-- KOD_SAVE: accepted in READY, SERVICE and KICKSTAND (R571, 24 R642). -/
def execKodSave (s : State) : Out :=
  s.go fun m =>
    if m.serving || m.mod.mstate == 7 then
      let r := m.kodSave s.fuse.order.val
      r.2.acted pKodSave r.1
    else m.acted pKodSave esSTATE

/-- SAVE_DELAY_EXPIRY: KOD_SAVE_DELAY after the last RWS write. -/
def execSaveDelayExpiry (s : State) : Out :=
  s.go fun m =>
    if m.kod.dirty && m.kod.lastRws.isSome && m.parN pKodSaveDelay != 0 then
      m.updKod fun k => { k with lastRws := none }.save s.fuse.order.val m.fwVersion false
    else m

/-- CONFIG_SAVE_DONE: the header is written, and the copy is the newest valid one. -/
def execConfigSaveDone (s : State) : Out :=
  s.go fun m =>
    match m.kod.saving with
    | none => m
    | some (toB, c) =>
      let act := m.kod.saveAct
      let m := m.updKod fun k => { k with
        cfgA := if toB then k.cfgA else some c, cfgB := if toB then some c else k.cfgB,
        saving := none, saveAct := false, cfgSeq := c.seq, cfgSlot := if toB then 1 else 0, defaulted := false }
      let m := if act then m.acted pKodSave esOK else m
      if m.kod.saveAgain then m.updKod fun k => k.saveStart s.fuse.order.val m.fwVersion k.againAct else m

/-- KOD_FACTORY: both copies are invalid; running values are unchanged (R592). -/
def Mod.kodFactory (m : Mod) : Nat × Mod :=
  if m.mod.mstate == 0 || m.mod.mstate == 6 || m.mod.mstate == 7 then (esSTATE, m)
  else (esOK, m.updKod fun k => { k with cfgA := none, cfgB := none })
/-- KOD_FACTORY. -/
def execKodFactory (s : State) : Out :=
  s.go fun m =>
    let r := m.kodFactory
    r.2.acted pKodFactory r.1

end Sys2Proof.Machine
end

