-- ==== Sys2Proof/Machine/Debug.lean ====
section
/-! DEFINITION. Counters and debug: the Odometer store, triggers, halted contexts, Freewheel, the Brake, the trace ring (spec 23
R615-R637), dictionary fragments of the link partner (21 R587). -/

namespace Sys2Proof.Machine

/-! Odometer (R615, R622). -/

/-- Half that holds a counter instance, where a half does (Table 23.2). -/
def ctrHalf (num inst : Nat) : Option Nat :=
  match num / 256 with
  | 0x0C11 => some (inst / 64)
  | 0x0C12 => some inst
  | 0x0C13 => some inst
  | 0x0C14 => some (if num = kCchSeamRatioChg then 2 * inst else inst / 64)
  | 0x0C15 => some ((ctrDefs.find? fun d => d.num == num).elim inst fun d => if d.insts = 16 then inst else inst / 16)
  | 0x0C1A => some (2 * (inst / 8) + inst % 2)
  | 0x0C1B => if num = kFtFosterAcc ∨ num = kFtLostLines then some inst else none
  | 0x0C1C => if num = kSafLeakTrip then some inst else none
  | 0x0C1D => if num = kPwrDivChg ∨ num = kPwrDroop then some inst else none
  | 0x0C1E => if num = kDbgTraceDrop ∧ inst < 16 then some inst else none
  | _ => none

/-- I/O die that holds a counter instance, where an I/O die does (Table 23.2, R617). -/
def ctrIod (num inst : Nat) : Option Nat :=
  match num / 256 with
  | 0x0C16 => some inst
  | 0x0C17 => some inst
  | 0x0C18 => some inst
  | 0x0C19 => (ctrDef num).bind fun d => if d.insts = 32 then some (inst / 8) else if d.insts = 4 then some inst else none
  | 0x0C1C => if num = kSafLaserB1 then some (inst / 8) else if num = kSafLaserB2 then some (inst / 2)
      else if num = kSafTjTrip then (if inst = 0 then some 0 else if 9 ≤ inst ∧ inst < 12 then some (inst - 8) else none) else none
  | 0x0C1E => if num = kDbgTraceDrop ∧ 16 ≤ inst then some (inst - 16) else none
  | 0x0C20 => some (inst / 2 ^ 14)
  | _ => none

/-- Is the unit of an instance powered and its die not FAILED? -/
def Mod.ctrLive (m : Mod) (num inst : Nat) : Bool :=
  decide (3 ≤ m.mod.mstate.val ∧ m.mod.mstate.val ≤ 5) && (match ctrHalf num inst with
    | some h => (m.half h).state != 4
    | none => match ctrIod num inst with
      | some k => m.iodState k ≠ 1
      | none => true)

/-- Does an instance of a counter exist (R618, R622)? A queue pair's set does with the queue pair. -/
def Mod.ctrExists (m : Mod) (d : CtrDef) (inst : Nat) : Bool :=
  decide (inst < d.insts) && (if d.num / 256 = 0x0C20 then (m.qp? inst).isSome else true)

/-- Existing instances of a counter. -/
def Mod.ctrInsts (m : Mod) (d : CtrDef) : List Nat := (List.range d.insts).filter (m.ctrExists d)

/-- ODO_COPY. -/
def execOdoCopy (s : State) : Out :=
  s.go fun m => 
    let store (e : Nat × Ctr) : Nat × Ctr := if m.ctrLive (e.1 / 2 ^ 32) (e.1 % 2 ^ 32) then (e.1, { e.2 with stored := e.2.value }) else e
    { m with ctr := m.ctr.map store }

/-- ODO_CLEAR (R622): the instances listed; an instance never counted is cleared to epoch 1 as well. -/
def Mod.odoClear (m : Mod) (num inst : Nat) : Nat × Mod :=
  match ctrDefs.find? fun d => d.num == num with
  | none => (esRANGE, m)
  | some d =>
    if inst = 0xFFFFFFFF then (esOK, forEach (m.ctrInsts d) (fun i m => m.clearCtr num i) m)
    else if m.ctrExists d inst then (esOK, m.clearCtr num inst)
    else (esRANGE, m)
/-- ODO_CLEAR. -/
def execOdoClear (num inst : BitVec 32) (s : State) : Out :=
  s.go fun m => m.perform pOdoClear fun m => m.odoClear num.toNat inst.toNat

/-! Triggers and halted contexts (R625, R626, 04 Table 4.11). -/

/-- DBG_TRIG_SET: records of 24 bytes; a record whose context is not the partition's is ignored. -/
def Mod.trigSet (m : Mod) (blob : List Byte) (byOperator : Bool) : Nat × Mod :=
  if blob.length % 24 ≠ 0 ∨ 1008 < blob.length then (esTYPE, m)
  else
    (esOK, forEach (recordsOf 24 blob) (fun r m =>
      let t := bits r 9 0
      let s := bits r 17 16
      let i := bits r 25 24
      let c := m.ctx t s
      if c.st == .empty || c.part.val != bits r 38 32 then m
      else m.updCtx t s fun c => { c with
        trig := c.trig.put i (trigWrite i (!byOperator && m.unlocked) (c.trig.getD i {}).ctl (bits r 127 64) (bits r 191 128)) }) m)
/-- DBG_TRIG_SET. -/
def execDbgTrigSet (blob : List Byte) (byOperator : Bool) (s : State) : Out :=
  s.go fun m => m.perform pDbgTrigSet fun m => m.trigSet blob byOperator

/-- A halted context goes on; with `one` it stops again after one instruction under the same handle. -/
def Ctx.resumed (c : Ctx) (one : Bool) : Ctx :=
  { c with st := if c.wait.isSome then .blocked else .run, stepOver := true, single := one, handle := if one then c.handle else none }

/-- DBG_RESUME: the context may be in its saddle or in a save slot. -/
def Mod.dbgResume (m : Mod) (w : Nat) : Nat × Mod :=
  let h := bits w 15 0
  match Tab.find h m.dbg.halted with
  | none => (esSTATE, m)
  | some uid =>
    if w / 2 ^ 17 ≠ 0 then (esRANGE, m)
    else
      let one := w.testBit 16
      let m := m.updDbg fun d => { d with halted := d.halted.del h }
      match m.ctxOf uid with
      | some k => (esOK, (m.updCtx (k / 4) (k % 4) fun c => c.resumed one).pickCur (k / 4))
      | none => match m.sched.saved.find? fun e => e.2.ctx.uid == uid with
        | some (k, v) =>
          let d := v.ctx.resumed one
          (esOK, m.updSched fun x => { x with
            saved := x.saved.put k { v with ctx := d, ready := if d.wait.isSome then v.ready else some x.readySeq },
            readySeq := x.readySeq + 1 })
        | none => (esSTATE, m)
/-- DBG_RESUME. -/
def execDbgResume (word : BitVec 32) (s : State) : Out := s.go fun m => m.perform pDbgResume fun m => m.dbgResume word.toNat

/-! Freewheel (R627, R628). -/

/-- Scopes of Freewheel. -/
def scopeOk (n : Nat) : Bool := decide (n < 128 ∨ n = 255)
/-- Is a partition within a scope? -/
def inScope (scope p : Nat) : Bool := scope == 255 || scope == p

/-- DBG_FREEWHEEL. -/
def Mod.fwlStart (m : Mod) (scope : Nat) : Nat × Mod := if scopeOk scope then (esOK, m.freewheel scope) else (esRANGE, m)
/-- DBG_FREEWHEEL. -/
def execDbgFreewheel (scope : BitVec 8) (s : State) : Out := s.go fun m => m.perform pDbgFreewheel fun m => m.fwlStart scope.toNat

/-- DBG_FWL_STATE for the scopes in force. -/
def DbgS.refreshFwl (d : DbgS) : DbgS :=
  { d with fwlState := if d.fwl.isEmpty then 0 else if d.fwl.all fun e => e.2 then 2 else 1 }

/-- Every queued engine operation and every copy of a scope has completed. -/
def Mod.quiet (m : Mod) (scope : Nat) : Bool :=
  (m.ctxs.all fun e => !(inScope scope e.2.part.val) || e.2.st == .empty || (e.2.iq.isEmpty && e.2.vq == 0 &&
    (m.tile (e.1 / 4)).running.all fun r => r.uid != e.2.uid)) &&
  (m.copies.all fun e => !(inScope scope e.2.part.val) || e.2.status.isSome)

/-- FREEWHEEL_DRAINED. -/
def execFreewheelDrained (scope : BitVec 8) (s : State) : Out :=
  s.go fun m =>
    let n := scope.toNat
    if Tab.find n m.dbg.fwl == some false && m.quiet n then
      (m.updDbg fun d => ({ d with fwl := d.fwl.put n true } : DbgS).refreshFwl).raise evFreewheelDone 0 (if n < 128 then n else noPart) n
    else m

/-- DBG_FREEWHEEL_END. -/
def Mod.fwlEnd (m : Mod) (scope : Nat) : Nat × Mod :=
  if scopeOk scope then (esOK, m.updDbg fun d => ({ d with fwl := d.fwl.del scope } : DbgS).refreshFwl) else (esRANGE, m)
/-- DBG_FREEWHEEL_END. -/
def execDbgFreewheelEnd (scope : BitVec 8) (s : State) : Out := s.go fun m => m.perform pDbgFreewheelEnd fun m => m.fwlEnd scope.toNat

/-! The Brake (R629-R633). -/

/-- What drives an input of a unit: another unit, a die link's far end, a fabric port. -/
inductive BrakeSrc where
  | unit (u : Nat)
  | link (key u : Nat)
  | port (i : Nat)
  deriving DecidableEq, Repr

/-- Inputs of a unit (09 R271-R276): a tile's router has N, E, S, W as 1 to 4 and, in row 0 of an even column, its gateway as 5; a slice
has its banks; a gateway the mesh and its link; an I/O die its two die links and eight ports. -/
def brakeInputs (u : Nat) : List (Nat × BrakeSrc) :=
  if u < 1024 then
    let h := u / 64
    let r := u % 64 / 8
    let c := u % 8
    [(1, .unit (if r = 0 then 64 * (h ^^^ 1) + c else u - 8)),
     (2, .unit (if c = 7 then unitOfSlice h else u + 1)),
     (3, .unit (if r = 7 then unitOfSlice h else u + 8))] ++
    (if c = 0 then [] else [(4, .unit (u - 1))]) ++
    (if r = 0 ∧ c % 2 = 0 then [(5, .unit (unitOfGate (8 * (h / 2) + c + h % 2)))] else [])
  else if 1200 ≤ u ∧ u < 1456 then
    let h := (u - 1200) / 16
    (List.range 16).map fun b => (b, .unit (64 * h + (if b < 8 then 8 * b + 7 else 56 + (b - 8))))
  else if 1456 ≤ u ∧ u < 1520 then
    let g := u - 1456
    let n := g / 8
    let q := g % 8
    [(0, .unit (64 * (2 * n + q % 2) + 2 * (q / 2))),
     (1, .link g (if q = n then unitOfIod (iodOfDie n) else unitOfGate (8 * q + n)))]
  else if 1152 ≤ u ∧ u < 1184 ∧ u % 8 = 0 then
    let k := (u - 1152) / 8
    [(0, .link (18 * k) (unitOfGate (18 * k))), (1, .link (18 * k + 9) (unitOfGate (18 * k + 9)))] ++
    (List.range 8).map fun i => (2 + i, .port (8 * k + i))
  else []

/-- Half of a tile, slice or gateway; I/O die of another unit. -/
def unitHalf (u : Nat) : Option Nat :=
  if u < 1024 then some (u / 64) else if u < 1200 then none else if u < 1456 then some ((u - 1200) / 16)
  else some (2 * ((u - 1456) / 8) + (u - 1456) % 2)
def unitIod (u : Nat) : Nat := (u - 1152) / 8
/-- Trace source and die of a unit. -/
def unitSource (u : Nat) : Nat := (unitHalf u).getD (16 + unitIod u)

/-- Is a unit there to be stopped? -/
def Mod.unitIn (m : Mod) (u : Nat) : Bool :=
  match unitHalf u with
  | some h => (m.half h).state != 4
  | none => m.iodState (unitIod u) ≠ 1
/-- The units of the module. -/
def Mod.units (m : Mod) : List Nat :=
  (List.range 1024 ++ (List.range 16).map unitOfSlice ++ (List.range 64).map unitOfGate ++ (List.range 4).map unitOfIod).filter m.unitIn

/-- Does an input count as marked because nothing can come over it (R631)? -/
def Mod.inputDead (m : Mod) : BrakeSrc → Bool
  | .unit u => !(m.unitIn u)
  | .link k u => !(m.unitIn u) || (m.link k).state == 5 || (m.link k).detour
  | .port i => (m.port i).state != 4

/-- The module is stopped once every unit is. -/
def Mod.brakeCheck (m : Mod) : Mod :=
  if m.dbg.brake == 2 && m.units.all fun u => (m.dbg.brakeRecs.getD u {}).stopped then
    (m.updDbg fun d => { d with brake := 3 }).raise evBrakeDone 0 noPart 0
  else m

/-- An input has delivered its marker; the unit is STOPPED once all have. -/
def Mod.markInput (m : Mod) (u input : Nat) (opened : Bool) : Mod :=
  m.updDbg fun d => { d with brakeRecs := d.brakeRecs.adj u fun r =>
    let k := r.marked.put input ()
    { r with marked := k, isOpen := r.isOpen || opened, stopped := r.stopped || (brakeInputs u).all fun e => k.has e.1 } }

/-- A unit takes its stop: it records its stamp and cycle, and sends the marker on every output. -/
def Mod.takeStop (m : Mod) (u : Nat) : Mod :=
  let d := dieOfSource (unitSource u)
  let m := m.trace (unitSource u) 8 u 0x7F 0 0
  let held := (m.dbg.brakeRecs.getD u {}).marked
  let m := m.updDbg fun x => { x with brakeRecs := x.brakeRecs.put u { taken := true, stamp := m.cc d, cycle := m.cycleC d, marked := held } }
  forEach (brakeInputs u) (fun e m => if m.inputDead e.2 then m.markInput u e.1 true else m) m

/-- DBG_BRAKE: accepted only with debug unlocked, and while no Brake is under way. -/
def Mod.brakeAct (m : Mod) : Nat × Mod :=
  if !m.unlocked || m.dbg.brake != 0 then (esSTATE, m) else (esOK, m.brakeStart (unitOfIod m.kod.server.val))
/-- DBG_BRAKE. -/
def execDbgBrake (s : State) : Out := s.go fun m => m.perform pDbgBrake fun m => m.brakeAct

/-- BRAKE_CUT: the initiating unit takes its stop; UNDRAINED where Freewheel ended short of DRAINED. -/
def execBrakeCut (s : State) : Out :=
  s.go fun m =>
    if m.dbg.brake != 1 then m
    else
      let u := m.dbg.brakeUnit
      let short := m.dbg.fwl.getD 255 false == false
      let m := (m.updDbg fun d => { d with brake := 2 }).takeStop u
      (m.updDbg fun d => { d with brakeRecs := d.brakeRecs.adj u fun r => { r with undrained := short } }).brakeCheck

/-- A marker reaches an input of a unit. A first marker makes the unit stop. -/
def Mod.brakeMarker (m : Mod) (u input : Nat) : Mod :=
  if m.dbg.brake != 2 || !(m.unitIn u) then m
  else
    let m := if m.heldAt u then m else m.takeStop u
    (m.markInput u input false).brakeCheck

/-- A peer's marker (R631): it starts this module's Brake from stage 1 and holds its input at once. -/
def Mod.peerMarker (m : Mod) (port : Nat) : Mod :=
  if !(m.parB pDbgBrakeFab) || !m.unlocked || (m.port port).state != 4 then m
  else
    let u := unitOfIod (port / 8)
    let m := m.brakeStart u
    if m.dbg.brake == 1 then
      m.updDbg fun d => { d with brakeRecs := d.brakeRecs.upd u {} fun r => { r with marked := r.marked.put (2 + port % 8) () } }
    else m.brakeMarker u (2 + port % 8)

/-- BRAKE_MARKER: a marker arrives where the unit that drives the input has taken its stop; on a fabric input it is the peer's. -/
def execBrakeMarker (u input : Nat) (s : State) : Out :=
  s.go fun m =>
    match (brakeInputs u).find? fun e => e.1 == input with
    | none => m
    | some (_, .port i) => m.peerMarker i
    | some (_, .unit v) => if m.heldAt v then m.brakeMarker u input else m
    | some (_, .link _ v) => if m.heldAt v then m.brakeMarker u input else m

/-- BRAKE_FAB_MARKER_TIMEOUT. -/
def execBrakeFabMarkerTimeout (port : PortId) (s : State) : Out :=
  s.go fun m =>
    let u := unitOfIod (port.val / 8)
    if m.dbg.brake != 2 || !(m.heldAt u) || (m.dbg.brakeRecs.getD u {}).marked.has (2 + port.val % 8) then m
    else (m.markInput u (2 + port.val % 8) true).brakeCheck

/-- BRAKE_UNIT_TIMEOUT. -/
def execBrakeUnitTimeout (u : Nat) (s : State) : Out :=
  s.go fun m =>
    if m.dbg.brake != 2 || !(m.heldAt u) || (m.dbg.brakeRecs.getD u {}).stopped then m
    else (m.updDbg fun d => { d with brakeRecs := d.brakeRecs.adj u fun r => { r with stopped := true, incomplete := true } }).brakeCheck

/-- DBG_BRAKE_RELEASE: every unit goes on; what was in flight is still there, in order. Freewheel stays. -/
def Mod.brakeRelease (m : Mod) : Nat × Mod :=
  if m.dbg.brake != 3 then (esSTATE, m) else (esOK, m.updDbg fun d => { d with brake := 0 })
/-- DBG_BRAKE_RELEASE. -/
def execDbgBrakeRelease (s : State) : Out := s.go fun m => m.perform pDbgBrakeRelease fun m => m.brakeRelease

/-! Trace (R636). -/

/-- A record as it is written to the ring (Table 23.5). -/
def TraceRec.bytes (r : TraceRec) : List Byte :=
  leBytes (r.aux.toNat + r.seq.toNat * 2 ^ 32 + r.part.toNat * 2 ^ 65 + r.kind.val * 2 ^ 72 + r.src.toNat * 2 ^ 80 + r.data.toNat * 2 ^ 96 +
    (r.cycle % 2 ^ 64) * 2 ^ 128 + (r.stamp % 2 ^ 64) * 2 ^ 192) 32

/-- Write a record to the ring, over the oldest. -/
def Mod.ringWrite (m : Mod) (r : TraceRec) : Mod :=
  let n := 2 ^ m.parN pDbgTraceLog2
  (m.physWrite (m.parN pDbgTraceBase + 32 * (m.dbg.wptr % n)) r.bytes 7).updDbg fun d => { d with wptr := d.wptr + 1 }

/-- TRACE_SPACE_RETURN: a source's buffer drains; after drops it takes one LOST record. -/
def execTraceSpaceReturn (src : Fin 20) (s : State) : Out :=
  s.go fun m =>
    if !m.serving then m
    else
      let m := forEach (m.dbg.buf.getD src.val []) (fun r m => m.ringWrite r) m
      let m := m.updDbg fun d => { d with buf := d.buf.del src.val }
      let n := m.dbg.lost.getD src.val 0
      if n = 0 then m
      else
        let q := m.dbg.tseq.getD src.val 0
        let die := dieOfSource src.val
        let node := if src.val < 16 then unitOfSlice src.val else unitOfIod (src.val - 16)
        let r : TraceRec := ⟨m.cc die, m.cycleC die, BitVec.ofNat 32 n, BitVec.ofNat 11 node, 9, 0x7F, q, 0⟩
        (m.updDbg fun d => { d with
          buf := d.buf.put src.val [r], tseq := d.tseq.put src.val (q + 1), lost := d.lost.del src.val }).raise
          evDbgTraceLost src.val noPart (src.val + n * 2 ^ 32)

/-! VFL management packets (21 R587, R629). -/

/-- VFL_MGMT: WIN 0 carries fragments of dictionary frames, WIN 1 the marker of the Brake. -/
def execVflMgmt (p : Packet) (total : Nat) (s : State) : Out :=
  s.goIf (mgmtOk total) "VFL_MGMT" fun m => m.ingress s.fuse.order.val 12 p fun m =>
    if p.win = 1 then m.peerMarker p.port.val
    else if p.win ≠ 0 || !(m.parB pKdpVflEn) then m
    else
      let fs := m.kod.frags.getD p.port.val [] ++ [(p.offset.toNat % 2048, p.payload)]
      match wholeFrame total fs with
      | some f => m.updKod fun k => { k with frags := k.frags.del p.port.val, mgmt := (p.port.val, f) :: k.mgmt }
      | none =>
        if fs.length < 3 then m.updKod fun k => { k with frags := k.frags.put p.port.val fs }
        else m.updKod fun k => { k with frags := k.frags.del p.port.val }

end Sys2Proof.Machine
end

