-- ==== Sys2Proof/Machine/Security.lean ====
section
/-! DEFINITION. Security and firmware: images, slots, staging, activation, live update, SVN fuses, attestation, debug unlock (spec 22
R595-R614). Signatures and digests come as outcomes with the image or the command. -/

namespace Sys2Proof.Machine

def Mod.updSec (m : Mod) (f : SecS → SecS) : Mod := { m with sec := f m.sec }

/-- An action of the firmware group, in the states given. -/
def Mod.performIn (m : Mod) (ok : Bool) (num : Nat) (f : Mod → Nat × Mod) : Mod :=
  if ok then
    let r := f m
    r.2.acted num r.1
  else m.acted num esSTATE
/-- READY, SERVICE or RECOVERY_ONLY: staging, committing and activating (R605). -/
def Mod.fwOpen (m : Mod) : Bool := m.serving || m.mod.mstate == 6

/-! Images and sets (R602-R604). -/

/-- Largest body of a type (Table 22.1). -/
def bodyMax (t : Nat) : Nat := if t = 1 then 32 * 2 ^ 20 else if t = 2 then 2 ^ 20 else 4 * 2 ^ 20

/-- Is an image of type `t` valid (R602)? -/
def imageValid (f : Fuse) (t : Nat) (i : Image) : Bool :=
  i.magicOk && i.type == t && i.reservedZero && decide (i.blen ≤ bodyMax t) && decide (i.keyidx < 4) && !(f.revoked.testBit i.keyidx) &&
  leNat (sha256 i.signer) == f.keyHash.getD i.keyidx 0 && i.sigOk && decide (f.svnMin.getD t 0 ≤ i.svn)

/-- The valid image in a slot. -/
def SecS.image (c : SecS) (f : Fuse) (k : Nat) : Option Image :=
  match (c.slots.getD k {}).image with
  | some i => if imageValid f (k / 2) i then some i else none
  | none => none

/-- Does the manifest of one image list another (R603)? -/
def lists (i j : Image) : Bool := i.rules.any fun r => r.ptype == j.type && decide (r.vmin ≤ j.version ∧ j.version ≤ r.vmax)

/-- The four images of an index, where all are valid. -/
def SecS.setOf (c : SecS) (f : Fuse) (idx : Nat) : Option (List Image) := [1, 2, 3, 4].mapM fun t => c.image f (idxSlot idx t)
/-- Is the set of an index tested (R603)? -/
def SecS.tested (c : SecS) (f : Fuse) (idx : Nat) : Bool :=
  match c.setOf f idx with
  | none => false
  | some is =>
    is.all fun i => decide (i.stepMin ≤ f.stepping.toNat ∧ f.stepping.toNat ≤ i.stepMax) &&
      is.all fun j => i.type == j.type || lists i j

/-! Staging (R607). -/

/-- The slot of a type that is neither running on any die nor in LKG; nothing runs in RECOVERY_ONLY. -/
def Mod.freeSlotFw (m : Mod) (t : Nat) : Option Nat :=
  let l := idxSlot m.sec.lkg t
  let r := if m.mod.mstate == 6 then l else idxSlot m.sec.running t
  if l = r && (t != 1 || m.sec.updated.isEmpty) then some (2 * t + (1 - l % 2)) else none

/-- FW_WRITE: a chunk of the image; `image` is what the slot holds after it, once its header is in flash. -/
def Mod.fwWrite (m : Mod) (blob : List Byte) (image : Option Image) : Nat × Mod :=
  let t := leField blob 0 1
  let off := leField blob 4 4
  let data := blob.drop 8
  if blob.length < 8 ∨ 1024 < blob.length then (esTYPE, m)
  else if t = 0 ∨ 4 < t ∨ leField blob 1 3 ≠ 0 ∨ 256 + bodyMax t < off + data.length then (esSTATE, m)
  else match m.freeSlotFw t with
    | none => (esSTATE, m)
    | some k =>
      let old := if off = 0 then [] else (m.sec.slots.getD k {}).bytes
      (esOK, m.updSec fun c => { c with
        slots := c.slots.put k { bytes := Mem.wrs off data old, image := image }, staging := c.staging.put k () })
/-- FW_WRITE. -/
def execFwWrite (blob : List Byte) (image : Option Image) (s : State) : Out :=
  s.go fun m => m.performIn m.fwOpen pFwWrite fun m => m.fwWrite blob image

/-- An index with the slot of one type set. -/
def setIdx (idx k : Nat) : Nat :=
  let w := 2 ^ (k / 2 - 1)
  (idx - idx / w % 2 * w) + k % 2 * w

/-- FW_COMMIT: the staged image is validated and made pending. -/
def Mod.fwCommit (m : Mod) (f : Fuse) (t : Nat) : Nat × Mod :=
  if t = 0 ∨ 4 < t then (esRANGE, m)
  else match m.freeSlotFw t with
    | none => (esSTATE, m)
    | some k =>
      let m := m.updSec fun c => { c with staging := c.staging.del k }
      if (m.sec.image f k).isSome then (esOK, m.updSec fun c => { c with pending := setIdx c.pending k }) else (esSTATE, m)
/-- FW_COMMIT. -/
def execFwCommit (type : BitVec 8) (s : State) : Out :=
  s.go fun m => m.performIn m.fwOpen pFwCommit fun m => m.fwCommit s.fuse type.toNat

/-! Activation (R608). -/

/-- The module restarts through SECURE_BOOT, as at power-on with VSTBY kept. -/
def Mod.restart (m : Mod) : Mod :=
  let m := m.coldLoss
  { m with mod := { m.mod with mstate := 2, bringStep := 0 } }

/-- FW_ACTIVATE: the debug-unlock flag clears (R613). -/
def Mod.fwActivate (m : Mod) (f : Fuse) : Nat × Mod :=
  if m.serving && !(m.sec.tested f m.sec.pending) then (esSTATE, m)
  else (esOK, (m.updSec fun c => { c with unlockFlag := false }).restart)
/-- FW_ACTIVATE. -/
def execFwActivate (s : State) : Out := s.go fun m => m.performIn m.fwOpen pFwActivate fun m => m.fwActivate s.fuse

/-! Live update (R609, R610, Table 22.6). -/

/-- A die begins its update: it stops fetching. -/
def Mod.liveBegin (m : Mod) (k : IodId) : Mod :=
  (m.updFt fun f => { f with iodState := f.iodState.put k.val 2, takeover := f.takeover.put k.val () }).updSec fun c => { c with
    live := some (k, 1) }

/-- FW_LIVE_IOD. -/
def Mod.fwLive (m : Mod) (f : Fuse) : Nat × Mod :=
  let c := m.sec
  let pairOk := match c.image f (idxSlot c.running 1), c.image f (idxSlot c.pending 1) with
    | some i, some j => lists i j && lists j i
    | _, _ => false
  if c.live.isSome || c.pending ^^^ c.running ≠ 1 || !(c.tested f c.pending) || !pairOk ||
      (List.range 4).any (fun k => m.iodState k ≠ 0) then (esSTATE, m)
  else (esRUNNING, m.liveBegin 3)
/-- FW_LIVE_IOD. -/
def execFwLiveIod (s : State) : Out := s.go fun m => m.perform pFwLiveIod fun m => m.fwLive s.fuse

/-- Every KDP session ends (21 R570). -/
def Mod.endSessions (m : Mod) : Mod := m.updKod fun k => { k with sessions := [], base := [] }

/-- LIVE_UPDATE_STEP_DONE: `ok` is the verification of step 3. After the last die LKG takes the new index. -/
def execLiveUpdateStepDone (ok : Bool) (s : State) : Out :=
  s.go fun m =>
    match m.sec.live with
    | none => m
    | some (k, n) =>
      if n = 1 then m.updSec fun c => { c with live := some (k, 2) }
      else if n = 2 then
        -- the partner serves the die's numbers from its records (Table 18.3 steps 2 and 3)
        let m := m.updFt fun f => { f with takeover := f.takeover.del k.val }
        let m := m.updSeq fun x => { x with freed := x.freed.adj k.val fun l => sortBy id l }
        m.updSec fun c => { c with live := some (k, 3) }
      else if n = 3 then
        let m := if k = m.kod.server then m.endSessions else m
        if ok then m.updSec fun c => { c with live := some (k, 4), updated := c.updated.insert k }
        else (m.liveAbandon).raise evFwUpdateFail k.val noPart k.val
      else
        let m := m.updFt fun f => { f with iodState := f.iodState.del k.val }
        if k = 0 then
          (m.updSec fun c => { c with
            live := none, updated := [], running := c.running ^^^ 1, lkg := c.running ^^^ 1, liveCount := c.liveCount + 1 }).acted pFwLiveIod esOK
        else m.liveBegin (k - 1)

/-! SVN fuses (R611). -/

/-- FW_SVN_COMMIT: fuses are blown up to the SVN of the running image. -/
def State.svnCommit (s : State) (t : Nat) : Nat × State :=
  let c := s.m.sec
  if t = 0 ∨ 4 < t then (esRANGE, s)
  else if !s.m.serving || idxSlot c.running t ≠ idxSlot c.lkg t then (esSTATE, s)
  else match (c.slots.getD (idxSlot c.running t) {}).image with
    | none => (esSTATE, s)
    | some i =>
      if 64 < i.svn then (esSTATE, s)
      else (esOK, { s with fuse := { s.fuse with svnMin := s.fuse.svnMin.put t (max (s.fuse.svnMin.getD t 0) i.svn) } })
/-- FW_SVN_COMMIT. -/
def execFwSvnCommit (type : BitVec 8) (s : State) : Out :=
  let r := s.svnCommit type.toNat
  .next { r.2 with m := r.2.m.acted pFwSvnCommit r.1 }

/-! Attestation (R612). -/

/-- A request submitted on a session; an unread response is discarded. -/
def State.spdmSubmit (s : State) (x : Session) (request : List Byte) : Session × Mod :=
  let r := s.spdmAnswer x.spdmAt request
  ({ x with spdm := r.1, spdmAt := r.2.1 }, r.2.2)
/-- SPDM_REQ. -/
def execSpdmReq (session : BitVec 32) (request : List Byte) (s : State) : Out :=
  s.go fun m =>
    if !((m.serving || m.mod.mstate == 7) && decide (request.length ≤ 1024)) then m
    else match Tab.find session.toNat m.kod.sessions with
      | none => m
      | some x =>
        let r := s.spdmSubmit x request
        r.2.updKod fun k => { k with sessions := k.sessions.adj session.toNat fun _ => r.1 }

/-- DOE_REQUEST: on PF0 of the active port. -/
def execDoeRequest (request : List Byte) (s : State) : Out :=
  s.go fun m =>
    if m.host.portState == 2 || !(m.mod.mstate == 3 || m.fwOpen) then m
    else
      let r := s.spdmAnswer m.sec.doeAt request
      r.2.2.updSec fun c => { c with doe := r.1, doeAt := r.2.1 }

/-! Debug unlock (R613). -/

/-- A read of DBG_UNLOCK_NONCE: a fresh value. -/
def Mod.unlockNonce (m : Mod) : List Byte × Mod :=
  let r := m.drawBytes 32
  (r.1, r.2.updSec fun c => { c with nonce := some m.free })

/-- DBG_UNLOCK: one attempt a nonce, within 60 s of its reading. -/
def Mod.dbgUnlock (m : Mod) (signatureOk within60s : Bool) : Nat × Mod :=
  let had := m.sec.nonce.isSome
  let m := m.updSec fun c => { c with nonce := none }
  if m.parts.parts.any (fun e => e.1 ≠ 0 && e.2.st == .active) || !had || !signatureOk || !within60s then (esSTATE, m)
  else (esOK, ((m.updSec fun c => { c with unlockFlag := true }).endSessions).restart)
/-- DBG_UNLOCK. -/
def execDbgUnlock (signatureOk within60s : Bool) (s : State) : Out :=
  s.go fun m => m.perform pDbgUnlock fun m => m.dbgUnlock signatureOk within60s

end Sys2Proof.Machine
end

