-- ==== Sys2Proof/Machine/Boot.lean ====
section
/-! DEFINITION. Start-up (spec 24 R638-R647, 22 R604-R606, Table 22.5, 21 R591): power, SECURE_BOOT, BRINGUP, READY. -/

namespace Sys2Proof.Machine

/-! Power (R639). -/

/-- POWER_ON: VSTBY is up; the reference selector takes REFCLK where it is present (20 R559); a segment whose eFuse comparator fails its
test stays unpowered (19 R547). -/
def execPowerOn (refPresent : Bool) (segFail : BitVec 23) (s : State) : Out :=
  s.go fun m =>
    if m.mod.mstate ≠ 0 then m
    else
      let open' : Tab Unit := ((List.range 23).filter fun i => segFail.getLsbD i).map fun i => (i, ())
      let pwr : PwrS := { m.pwr with refOsc := !refPresent }
      { m with ticks := 0, mod := { mstate := 1 }, pwr := pwr, saf := { m.saf with segOpen := open' } }

/-- POWER_OFF. -/
def execPowerOff (s : State) : Out :=
  s.go fun m =>
    let m := m.offLoss false
    { m with mod := { m.mod with mstate := 0 } }

/-! Start and stop (R638, R641). -/

/-- MOD_START. -/
def Mod.modStart (m : Mod) (inputOk : Bool) : Nat × Mod :=
  if m.mod.mstate == 1 && inputOk && m.saf.cause == 0 then (esOK, { m with mod := { m.mod with startReq := true } })
  else (esSTATE, m)
/-- MOD_START. -/
def execModStart (inputOk : Bool) (s : State) : Out :=
  s.go fun m =>
    let r := m.modStart inputOk
    r.2.acted pModStart r.1

/-- MOD_STOP. -/
def Mod.modStop (m : Mod) : Nat × Mod :=
  if m.mod.mstate == 4 || m.mod.mstate == 6 then (esOK, m.offLoss true) else (esSTATE, m)
/-- MOD_STOP. -/
def execModStop (s : State) : Out :=
  s.go fun m =>
    let r := m.modStop
    r.2.acted pModStop r.1

/-! Configuration. -/

/-- The configuration is loaded. -/
def Mod.loadConfig (m : Mod) (order : Nat) : Mod :=
  m.updKod fun k => match k.newest with
    | some (slot, c) => k.load order slot c
    | none => { k with params := [], blobs := [], cfgSlot := 2, dirty := false, lastRws := none, defaulted := true }

/-- MOD_AUTOSTART before a configuration is loaded: as written since, else as saved. -/
def Mod.autostart (m : Mod) : Bool :=
  match Tab.find pModAutostart m.kod.params, m.kod.newest with
  | some v, _ => v ≠ 0
  | none, some (_, c) => !(c.entries.any fun e => e.1 == pModAutostart && e.2 == .num 0)
  | none, none => paramDefault pModAutostart ≠ 0

/-! SECURE_BOOT (22 R604-R606, Table 22.5). -/

/-- Candidates in the order the boot ROM tries them. -/
def SecS.candidates (c : SecS) : List Nat :=
  let first := if c.pending = c.lkg then [c.pending] else [c.pending, c.lkg]
  first ++ (List.range 16).filter fun i => !(first.contains i)

def Mod.toRecovery (m : Mod) : Mod := { m with mod := { m.mod with mstate := 6, bringStep := 0 } }

/-- Step 3: the set is chosen; without one the module enters RECOVERY_ONLY. -/
def Mod.chooseSet (m : Mod) (f : Fuse) : Mod :=
  let c := m.sec
  match c.candidates.find? fun i => c.tested f i with
  | none =>
    let mis := (List.range 16).any fun i => (c.setOf f i).isSome
    (m.updSec fun c => { c with mismatch := mis, bootResult := if mis then 3 else 4 }).toRecovery
  | some i =>
    let dbg := c.unlockFlag
    let measured := (c.image f (idxSlot i 1)).map fun x => (x.digest, x.svn, dbg)
    let r := m.draw
    (r.2.updSec fun c => { c with
      running := i, bootResult := if i = c.pending then 0 else if i = c.lkg then 1 else 2,
      measured := measured, aliasCert := r.1, liveCount := 0, updated := [], live := none })

/-- The fuse read of a die: the UDS, until the boot ROM has locked it (R596). -/
def Mod.readUds (m : Mod) (f : Fuse) (k : Nat) : Option (BitVec 256) := if m.sec.dieKeys.has k then none else some f.uds
/-- The boot ROM of a die reads the UDS once, derives its keys and locks the read till the die's next reset (R596-R598). Without an image set there is
no IODFW to measure and no Alias key. -/
def Mod.deriveKeys (m : Mod) (f : Fuse) (k : Nat) : Mod :=
  match m.readUds f k with
  | none => m
  | some u =>
    let a := if m.mod.mstate = 6 then none else m.sec.measured.bind fun x => aliasKeyOf u x.1 x.2.1 x.2.2
    m.updSec fun c => { c with dieKeys := c.dieKeys.put k ⟨deviceIdKey u, a⟩ }

/-- Steps 1 to 4, but for the keys. -/
def Mod.bootSteps (m : Mod) (f : Fuse) (factoryOk : Bool) (selfTest : BitVec 4) : Mod :=
  let bad := (List.range 4).filter fun k => !(selfTest.getLsbD k) || m.saf.segOpen.has (16 + k)
  let serving := (List.range 4).find? fun k => !(bad.contains k)
  let m := m.updSec fun c => { c with factoryBad := !factoryOk, mismatch := false, unlocked := false }
  let m := { m with
    ft := { m.ft with iodState := bad.map fun k => (k, 1) },
    kod := { m.kod with server := Fin.ofNat 4 (serving.getD 0) },
    mod := { m.mod with mstate := 2, startReq := false, bootFault := false, warm := false } }
  if (bad.contains 0 && bad.contains 1) || (bad.contains 2 && bad.contains 3) then
    { m with mod := { m.mod with bootFault := true } }.toRecovery
  else if !factoryOk then m.toRecovery
  else
    let m := m.chooseSet f
    if m.mod.mstate == 6 then m
    else { (m.loadConfig f.order.val) with mod := { m.mod with bringStep := 3 } }

/-- The steps, and the keys of each die that boots. -/
def Mod.secureBoot (m : Mod) (f : Fuse) (factoryOk : Bool) (selfTest : BitVec 4) : Mod :=
  let up := (List.range 4).filter fun k => selfTest.getLsbD k && !(m.saf.segOpen.has (16 + k))
  forEach up (fun k m => m.deriveKeys f k) (m.bootSteps f factoryOk selfTest)

/-- SECURE_BOOT: from STANDBY under R638, or as a restart. -/
def execSecureBoot (inputOk factoryOk : Bool) (iodSelfTestOk : BitVec 4) (s : State) : Out :=
  s.go fun m =>
    let start := m.mod.mstate == 1 && (m.autostart || m.mod.startReq) && inputOk && m.saf.cause == 0
    let again := m.mod.mstate == 2 && m.mod.bringStep == 0
    if start || again then m.secureBoot s.fuse factoryOk iodSelfTestOk else m

/-! BRINGUP (R643-R645, Table 24.2). -/

/-- Every port is DOWN in the mode of its parameter, or not fitted. -/
def Mod.portsInit (m : Mod) (order : Nat) : Mod :=
  forEach (List.range 32) (fun (i : Nat) m => m.updPort i fun _ => {
    state := if portFitted order i then 1 else 0, mode := m.parN (pFabPortMode + i) }) m

/-- A barrier of the whole module that failed its test (19 R541): interlock, coolant, input eFuse. -/
def barrierModule (b : BitVec 15) : Bool := b.getLsbD 0 || b.getLsbD 1 || b.getLsbD 14
/-- Position in the test chain (17 Table 17.8) of a die whose junction sensor failed: its halves, or its I/O die, are held off. -/
def Mod.sensorFail (m : Mod) (order pos : Nat) : Mod :=
  if 1 ≤ pos ∧ pos ≤ 8 then (m.halfFail order (2 * (pos - 1))).halfFail order (2 * (pos - 1) + 1)
  else m.updFt fun f => { f with iodState := f.iodState.put (if pos = 0 then 0 else pos - 8) 1 }

/-- A unit that fails its step of BRINGUP (R645). -/
def Mod.bringFaults (m : Mod) (order : Nat) (pllFail : BitVec 16) (barrier : BitVec 15) : Mod :=
  let m := m.updSaf fun x => { x with barrier := barrier.setWidth 32 }
  if barrierModule barrier then m.kick 7
  else
    let halves := (List.range 16).filter fun h => pllFail.getLsbD h || m.saf.segOpen.has h
    let m := forEach halves (fun h m => m.halfFail order h) m
    let m := forEach ((List.range 12).filter fun p => barrier.getLsbD (p + 2)) (fun p m => m.sensorFail order p) m
    forEach ((List.range 2).filter fun x => m.saf.segOpen.has (21 + x)) (fun x m => m.siteFault order x) m

/-- COLD_BRINGUP: every segment is powered, the PLLs lock, the images are loaded; the provider key is drawn (22 R600), every frame tag is
0xFE (11 R314), the sequence table is OFFLINE (12 R339). -/
def Mod.coldBringup (m : Mod) (order : Nat) : Mod :=
  let m := (m.pllsLock.ncBringup).portsInit order
  let m := m.updMem fun e => { e with frameTag := [], keyGen := e.keyGen.upd 0xFE 0 (· + 1) }
  let m := m.updSec fun c => { c with unlocked := match c.measured with
    | some x => x.2.2
    | none => false }
  ({ m with seq := {}, mod := { m.mod with mstate := 3, warm := false, bringStep := 4 } } : Mod).askDivs
/-- COLD_BRINGUP. -/
def execColdBringup (pllFail : BitVec 16) (barrier : BitVec 15) (s : State) : Out :=
  s.go fun m =>
    if m.mod.mstate == 2 && m.mod.bringStep == 3 then (m.coldBringup s.fuse.order.val).bringFaults s.fuse.order.val pllFail barrier else m

/-! READY. -/

/-- Fabric ports begin Table 16.2 (R644); a quad without laser light holds its ports (16 R452). -/
def Mod.portsBegin (m : Mod) (order : Nat) : Mod :=
  forEach (List.range 32) (fun (i : Nat) m =>
    if portFitted order i && (m.port i).mode != 0 then
      if m.lit i then m.updPort i fun p => { p with state := 2, cause := .none } else m.portDown i .nolaser
    else m) m

/-- After a warm BRINGUP each ACTIVE partition with a valid waypoint and WP_AUTO set rolls back; every other withdrawn command completes
POISON (19 R555). -/
def Mod.warmReturn (m : Mod) : Mod :=
  forEach (m.parts.parts.filter fun e => e.2.st == .active) (fun (e : Nat × Part) m =>
    if m.parB (pWpAuto + e.1) && (m.wpNewest e.1).isSome then m.rollback e.1 else m.rollbackTo e.1 none) m

/-- The module reaches READY: LKG takes the running index (22 R604); the partner of an I/O die that failed its boot serves its numbers
from READY (R645, 01 R31). -/
def Mod.reachReady (m : Mod) (order : Nat) : Mod :=
  let m := m.updSec fun c => { c with lkg := c.running }
  let m := { m with mod := { m.mod with
    mstate := 4, bringStep := 9, readyMs := (m.ticks - m.mod.startTick) / ticksPerMs } }
  let m := forEach ((List.range 4).filter fun k => m.iodState k == 1) (fun k m => (m.iodFail order k).takeOver k) m
  let m := m.portsBegin order
  (if m.mod.warm then m.warmReturn else m).refreshState
/-- READY_REACHED. -/
def execReadyReached (s : State) : Out :=
  s.go fun m =>
    if m.mod.mstate == 3 && !((List.range 16).any fun i => (m.stack i).state == 0) then m.reachReady s.fuse.order.val else m

end Sys2Proof.Machine
end

