-- ==== Sys2Proof/Machine/Reads.lean ====
section
/-! DEFINITION. What READ and DESCRIBE return: read-only parameters, counter samples, descriptors (spec 21 R571-R576, R594, 23 R615-R620). -/

namespace Sys2Proof.Machine

/-! Sessions. SESSION 0 is the sessionless state of a transport (21 R579). -/

/-- The role a transport starts as (21 Table 21.1). -/
def startRole : Transport → Fin 5
  | .udp _ => 0
  | .pf0 => 1
  | .vf _ => 1
  | .vfl _ => 0
/-- The partition whose TENANT a transport starts as. -/
def tenantOf : Transport → Option PartId
  | .pf0 => some 0
  | .vf k => some k
  | _ => none
/-- The function of a mailbox. -/
def mailboxOf : Transport → Option PartId := tenantOf

def Mod.sess (m : Mod) (t : Transport) (sid : Nat) : Option Session :=
  if sid = 0 then
    match m.kod.base.find? fun e => e.1 == t with
    | some e => some e.2
    | none => some { transport := t, role := startRole t }
  else match Tab.find sid m.kod.sessions with
    | some x => if x.transport == t then some x else none
    | none => none
def Mod.setSess (m : Mod) (t : Transport) (sid : Nat) (x : Session) : Mod :=
  if sid = 0 then m.updKod fun k => { k with base := (t, x) :: k.base.filter fun e => e.1 != t }
  else m.updKod fun k => { k with sessions := k.sessions.adj sid fun _ => x }

/-! Counters (23 R615-R619). -/

/-- Die of a counter's unit, compute die n as n and I/O die k as 8 + k. -/
def Mod.ctrDie (m : Mod) (num inst : Nat) : Nat :=
  match ctrHalf num inst with
  | some h => h / 2
  | none => 8 + (ctrIod num inst).getD m.kod.server.val

/-- May a TENANT read a counter instance (R619)? -/
def Mod.tenantCounts (m : Mod) (p : PartId) (num inst : Nat) : Bool :=
  if num / 256 = 0x0C20 then match m.qp? inst with
    | some q => q.fn == p
    | none => false
  else num / 256 = 0x0C1B && num ≠ kFtFosterAcc && num ≠ kFtLostLines && inst == p.val

/-- A sample (23 Table 23.3). -/
def Mod.sample (m : Mod) (d : CtrDef) (inst : Nat) : List Byte :=
  if !(m.ctrExists d inst) then leBytes (if d.stick then 2 else 0) 24
  else
    let c := m.counter d.num inst
    let live := m.ctrLive d.num inst
    let v := if live then c.value else c.stored
    let cyc := if live then m.cycleC (m.ctrDie d.num inst) else 0
    leBytes (1 + (if d.stick then 2 else 0) + (if live then 0 else 4) + (if c.ovf then 8 else 0) + c.epoch.toNat * 2 ^ 32 + cyc % 2 ^ 64 * 2 ^ 64 +
      v % 2 ^ 64 * 2 ^ 128) 24

/-! FP32 values. -/

/-- FP32 pattern nearest to n / d. -/
def f32Ratio (neg : Bool) (n d : Nat) : Int :=
  let q := n * 2 ^ 40 / d
  let sticky := if n * 2 ^ 40 % d = 0 then 0 else 1
  (toF32 (.fin neg (2 * q + sticky) (-41)) : Nat)

/-! Read-only parameters. -/

/-- Power of two groups: identity, power, clocks. -/
def State.roPower (s : State) (b i : Nat) : Option PVal :=
  let m := s.m
  let f := s.fuse
  if b = pPartNumber then some (.blob ("VZN-96".toList.map fun c => BitVec.ofNat 8 c.toNat))
  else if b = pOrderCode then some (.num f.order.val)
  else if b = pStepping then some (.num f.stepping.toNat)
  else if b = pIodType then some (.num (if f.order = 2 then 1 else 2))
  else if b = pSerial then some (.blob f.serial)
  else if b = pT1sMac then some (.num f.mac.toNat)
  else if b = pXsIdent then some (.num (if f.order = 0 then (f.xsIdent.getD i 0 : Nat) else 0))
  else if b = pPwrInputW then some (.num (toF32 (Val.ofInt m.pwr.inputW 0) : Nat))
  else if b = pPwrExcessMs then some (.num (f32Ratio false m.pwr.excess 100))
  else if b = pPwrEffCap then some (.num (m.effCap f.order.val / 12000))
  else if b = pPwrConvOk then some (.num m.pwr.convOk.toNat)
  else if b = pPwrRefSrc then some (.num (if m.pwr.refOsc then 1 else 0))
  else if b = pPwrClkADiv then some (.num (m.half i).div)
  else if b = pPwrTj then
    if 1 ≤ i ∧ i ≤ 8 then some (.num (max (m.half (2 * (i - 1))).tj (m.half (2 * (i - 1) + 1)).tj)) else none
  else none

/-- Memory, fabric, host port. -/
def State.roMem (s : State) (b i : Nat) : Option PVal :=
  let m := s.m
  if b = pMemTCrit then some (.num 105)
  else if b = pMemStackState then some (.num (m.stack i).state.val)
  else if b = pMemStackTemp then some (.num (m.stack i).temp)
  else if b = pFabPortState then some (.num (if portFitted s.fuse.order.val i then max 1 (m.port i).state.val else 0))
  else if b = pFabPortWidth then some (.num (m.port i).width)
  else if b = pFabLaneMap then some (.num (m.port i).laneMap)
  else if b = pHifPortState then some (.num m.host.portState.val)
  else if b = pHifDetachCause then some (.num m.host.cause.val)
  else none

def partCode : PartSt → Nat
  | .none => 0
  | .active => 1
  | .disabling => 2

/-- Pages of extents that are in use, or free. -/
def pagesBy (l : List PoolExt) (f : PoolExt → Bool) (g : PoolExt → Nat) : Nat := (l.filter f).foldl (fun n x => n + g x) 0

/-- Partitions, scheduling, sequences, cache. -/
def State.roPart (s : State) (b i : Nat) : Option PVal :=
  let m := s.m
  if b = pShrState + 1 then some (.num (match Tab.find (i + 1) m.parts.shr with
    | some x => x.1.val
    | none => 0))
  else if b = pPartState then some (.num (partCode (m.part i).st))
  else if b = pPartGen then some (.num (m.part i).gen.toNat)
  else if b = pPartViol then some (.num (m.part i).viol)
  else if b = pMigLogOvf then some (.num (b2n (m.part i).migOvf))
  else if b = pSchInterf then some (.num (m.sched.interf.getD i 0 : Nat))
  else if b = pWpLast then some (.num (match m.wpNewest i with
    | some w => w.seq
    | none => 0))
  else if b = pSeqExtents then some (.num m.seq.extents.length)
  else if b = pSeqAstState then some (.num (b2n m.seq.inService))
  else if b = pSeqPoolFree then some (.num (pagesBy m.seq.extents (fun x => x.quarter.val == i) PoolExt.free))
  else if b = pSeqLiveQ then some (.num (m.seqLiveQ i))
  else if b = pSeqLive then some (.num (m.seqLive (Fin.ofNat 128 i)))
  else if b = pSeqPages then some (.num (pagesBy m.seq.extents (fun x => x.part.val == i) fun x => x.used.length))
  else if b = pCchPinUsed then some (.num (m.pinUsed i))
  else none

/-- Safety, fault tolerance. -/
def State.roSafe (s : State) (b i : Nat) : Option PVal :=
  let m := s.m
  if b = pSafCause then some (.num ((if m.saf.latch then 2 ^ 31 else 0) + m.saf.first * 2 ^ 16 + m.saf.cause.toNat : Nat))
  else if b = pSafKickCount then some (.num m.saf.kickCount)
  else if b = pSafCoolFlow then some (.num (f32Ratio false m.pwr.flowMilli 1000))
  else if b = pSafCoolInlet then some (.num (f32Ratio (decide (m.pwr.inletMilli < 0)) m.pwr.inletMilli.natAbs 1000))
  else if b = pSafInputV then some (.num (f32Ratio false m.pwr.inputMv 1000))
  else if b = pSafBarrierStat then some (.num m.saf.barrier.toNat)
  else if b = pFtTestResult then some (.blob (bytesOf m.ft.testResult))
  else if b = pFtHalfState then some (.num (m.half i).state.val)
  else if b = pFtIodState then some (.num (m.iodState i))
  else none

/-- VERSION of the valid image in a slot. -/
def State.versionIn (s : State) (k : Nat) : Nat := match s.m.sec.image s.fuse k with
  | some x => x.version
  | none => 0

/-- Security, firmware, saved configuration, start-up. -/
def State.roSec (s : State) (sess : Session) (b i : Nat) : Option PVal :=
  let m := s.m
  let c := m.sec
  if b = pDeviceidCert then some (.blob s.fuse.deviceCert)
  else if b = pAliasCert then some (.blob c.aliasBytes)
  else if b = pMfgCaCert then some (.blob s.fuse.caCert)
  else if b = pSpdmRsp then some (.blob sess.spdm)
  else if b = pDbgUnlocked then some (.num (b2n c.unlocked))
  else if b = pFwPending then some (.num c.pending)
  else if b = pFwLkg then some (.num c.lkg)
  else if b = pFwRunning then some (.num c.running)
  else if b = pFwPendingOk then some (.num (b2n (c.tested s.fuse c.pending)))
  else if b = pFwBootResult then some (.num c.bootResult.val)
  else if b = pFwUpdateState then some (.num (match c.live with
    | some (k, _) => 2 + k.val
    | none => if c.staging.isEmpty then 0 else 1))
  else if b = pFwMismatch then some (.num (b2n c.mismatch))
  else if b = pFwFactoryBad then some (.num (b2n c.factoryBad))
  else if b = pFwVerA + 1 then some (.num (s.versionIn (2 * (i + 1))))
  else if b = pFwVerB + 1 then some (.num (s.versionIn (2 * (i + 1) + 1)))
  else if b = pFwSvnMin + 1 then some (.num (s.fuse.svnMin.getD (i + 1) 0 : Nat))
  else none

def State.roKod (s : State) (b : Nat) : Option PVal :=
  let m := s.m
  let k := m.kod
  if b = pConfigDefaulted then some (.num (b2n k.defaulted))
  else if b = pKodCfgSeq then some (.num k.cfgSeq)
  else if b = pKodCfgSlot then some (.num k.cfgSlot.val)
  else if b = pKodCfgDirty then some (.num (b2n k.dirty))
  else if b = pKodCfgSkipped then some (.num k.skipped)
  else if b = pKdpSessions then some (.num k.sessions.length)
  else if b = pKodViol then some (.num k.viol)
  else if b = pKdpBadTag then some (.num k.badTag)
  else if b = pKdpLoginFail then some (.num k.loginFail)
  else if b = pModState then some (.num m.mod.mstate.val)
  else if b = pModWarm then some (.num (b2n m.mod.warm))
  else if b = pModReadyMs then some (.num (min m.mod.readyMs 0xFFFFFFFF))
  else if b = pModBootFault then some (.num (b2n m.mod.bootFault))
  else none

/-- The context of a halt handle: its number where it is in a saddle, and what it holds. -/
def Mod.haltedCtx (m : Mod) (handle : Nat) : Option (Option Nat × Ctx) :=
  match Tab.find handle m.dbg.halted with
  | none => none
  | some uid => match m.ctxOf uid with
    | some k => some (some k, m.ctx (k / 4) (k % 4))
    | none => (m.sched.saved.find? fun e => e.2.ctx.uid == uid).map fun e => (none, e.2.ctx)

/-- DBG_CTX_IMAGE (23 R626): the parts in the order the rule lists them, 8 bytes a register, then the vector register, padded to 1,024
bytes (log 52). A saved context has no tctx: its last one is not kept, and reads zero. -/
def Mod.ctxImage (m : Mod) (sel : Nat) : List Byte :=
  match m.haltedCtx (sel % 2 ^ 16) with
  | none => []
  | some (k, c) =>
    let xs := (List.range 32).flatMap fun i => bytesOf (c.x.getD i 0)
    let trig := (List.range 4).flatMap fun i => bytesOf (c.trig.getD i {}).ctl
    let trigA := (List.range 4).flatMap fun i => bytesOf (c.trig.getD i {}).adr
    let tctx : W64 := match k with
      | some k => m.csrRead (k / 4) (k % 4) 0xCC1
      | none => 0
    let mc (n : Nat) : W64 := c.mcsr.getD n 0
    padTo (xs ++ bytesOf c.pc ++ leBytes c.tcls.toNat 8 ++ leBytes c.tvlive.toNat 8 ++ leBytes c.tcvt.toNat 8 ++ leBytes c.tarith.toNat 8 ++
      leBytes c.tflags.toNat 8 ++ bytesOf tctx ++ trig ++ trigA ++ bytesOf (mc 0x342) ++ bytesOf (mc 0x343) ++
      bytesOf (c.v.getD (bits sel 20 16) 0)) 1024

/-- Debug. -/
def State.roDbg (s : State) (sess : Session) (b : Nat) : Option PVal :=
  let m := s.m
  if b = pDbgHalted then some (.blob (m.dbg.halted.flatMap fun e => leBytes e.1 2))
  else if b = pDbgCtxImage then some (.blob (m.ctxImage sess.ctxSel.toNat))
  else if b = pDbgFwlState then some (.num m.dbg.fwlState.val)
  else if b = pDbgBrakeState then some (.num m.dbg.brake.val)
  else if b = pDbgTraceWptr then some (.num (m.dbg.wptr % 2 ^ 64 : Nat))
  else none

/-- Value of a read-only parameter; what the spec gives no reading for is a free value. -/
def State.readRo (s : State) (sess : Session) (r : PRow) (i : Nat) : PVal × State :=
  if r.num = pDbgUnlockNonce then
    let x := s.m.unlockNonce
    (.blob x.1, { s with m := x.2 })
  else
    let v : Option PVal := match r.num / 65536 with
      | 1 => s.roPower r.num i
      | 2 => s.roPower r.num i
      | 3 => s.roPower r.num i
      | 4 => s.roMem r.num i
      | 5 => s.roMem r.num i
      | 6 => s.roMem r.num i
      | 7 => s.roPart r.num i
      | 8 => s.roPart r.num i
      | 9 => s.roPart r.num i
      | 10 => s.roSafe r.num i
      | 11 => s.roSec sess r.num i
      | 13 => s.roDbg sess r.num
      | 14 => s.roSec sess r.num i
      | _ => s.roKod r.num
    match v with
    | some v => (v, s)
    | none =>
      let x := s.m.draw
      (if isBytes r.type then .blob [] else .num x.1, { s with m := x.2 })

/-- Value of a parameter that is not read-only: kept for each session, or held. -/
def State.readRw (s : State) (sess : Session) (r : PRow) (n : Nat) : PVal :=
  if r.num = pOdoInst then .num sess.odoInst.toNat
  else if r.num = pDbgCtxSel then .num sess.ctxSel.toNat
  else if isBytes r.type then .blob (s.m.parBlob n)
  else match Tab.find n s.m.kod.params with
    | some v => .num v
    | none => defaultOf s.fuse.order.val n

/-- Does the state of the module let a number be read (21 R571)? -/
def Mod.readable (m : Mod) (r : PRow) : Bool :=
  let g := r.num / 65536
  if m.mod.mstate = 6 then g = 1 ∨ g = 11 ∨ g = 14 ∨ g = 15
  else if m.mod.mstate = 7 then
    r.access ≠ 0 ∨ g = 1 ∨ g = 11 ∨ g = 12 ∨ g = 14 ∨ g = 15 ∨ (pSafCause ≤ r.num ∧ r.num ≤ pSafBarrierStat)
  else true

/-! Roles (21 R583, R584). -/

/-- Does a session reach a parameter, `i` the index of the number in its row? -/
def reaches (x : Session) (r : PRow) (i : Nat) (write : Bool) : Bool :=
  let g := r.num / 65536
  let own := (tenantOf x.transport).any fun p => p.val == i
  decide (r.role ≤ x.role.val) &&
  (x.role != 1 || ((!r.perPart || own) && g != 11 && g != 13 && g != 14)) &&
  (!(write && r.perPart && r.role == 1) || x.role == 1 || decide (3 ≤ x.role.val))

/-- A violation: the TENANT's counts for its partition, any other for the dictionary (R584). -/
def Mod.kodViolate (m : Mod) (x : Session) : Mod :=
  match x.role == 1, tenantOf x.transport with
  | true, some p => m.violate p.val
  | _, _ => m.updKod fun k => { k with viol := (stick32 k.viol k.violOvf).1, violOvf := (stick32 k.viol k.violOvf).2 }

/-! READ (R573, R574). -/

def entry (n type estat : Nat) (v : List Byte) : KEntry := ⟨BitVec.ofNat 24 n, Fin.ofNat 16 type, Fin.ofNat 16 estat, v⟩

/-- EVT_NAME of a code (23 R620). -/
def eventName (code : BitVec 32) : Option (List Byte) :=
  (eventNames.find? fun e => e.1 == code).map fun e => e.2.toList.map fun c => BitVec.ofNat 8 c.toNat

/-- READ of a counter number. -/
def State.readCtr (s : State) (x : Session) (d : CtrDef) : KEntry × State :=
  let m := s.m
  let inst := x.odoInst.toNat
  let ok := decide (2 ≤ x.role.val) || (x.role == 1 && (tenantOf x.transport).any fun p => m.tenantCounts p d.num inst)
  if !ok then (entry d.num 11 esOK [], { s with m := m.kodViolate x })
  else if m.mod.mstate = 6 then (entry d.num 0 esSTATE [], s)
  else (entry d.num 11 esOK (m.sample d inst), s)

/-- READ of one number. -/
def State.readOne (s : State) (x : Session) (n : Nat) : KEntry × State :=
  match paramRow n, ctrDef n with
  | some r, _ =>
    let i := n - r.num
    if !(reaches x r i false) then (entry n r.type esOK ((zeroVal r.type).bytes r.type), { s with m := s.m.kodViolate x })
    else if !(s.m.readable r) then (entry n 0 esSTATE [], s)
    else if r.access = 3 ∨ r.access = 4 then (entry n r.type esOK ((zeroVal r.type).bytes r.type), s)
    else if r.num = pEvtName then match eventName x.odoInst with
      | some v => (entry n 10 esOK v, s)
      | none => (entry n 0 esNOPARAM [], s)
    else if r.access = 0 then
      let v := s.readRo x r i
      (entry n r.type esOK (v.1.bytes r.type), v.2)
    else (entry n r.type esOK ((s.readRw x r n).bytes r.type), s)
  | none, some d => s.readCtr x d
  | none, none => (entry n 0 esNOPARAM [], s)

/-- READ of the numbers of a body, in its order. -/
def State.readAll (s : State) (x : Session) : List Nat → List KEntry × State
  | [] => ([], s)
  | n :: rest =>
    let a := s.readOne x n
    let b := a.2.readAll x rest
    (a.1 :: b.1, b.2)

/-! DESCRIBE (R594, Table 21.6). -/

/-- The next defined number, counters among them. -/
def nextNumber (n : Nat) : Nat :=
  let p := paramNext n
  match ctrDefs.find? fun d => decide (n < d.num) with
  | some d => if p = 0 ∨ d.num < p then d.num else p
  | none => p

/-- A bound of a descriptor: two's complement, or the pattern of the greatest FP32 numbers, which no row narrows. -/
def bound64 (type : Nat) (v : Int) (isMax : Bool) : Nat :=
  if type = 8 then (if isMax then 0x7F7FFFFF else 0xFF7FFFFF) else (v % ((2 ^ 64 : Nat) : Int)).toNat

def descriptor (type access role next : Nat) (perPart : Bool) (lo hi : Int) : List Byte :=
  leBytes (type + access * 2 ^ 8 + role * 2 ^ 16 + b2n perPart * 2 ^ 24 + next * 2 ^ 32 + bound64 type lo false * 2 ^ 64 +
    bound64 type hi true * 2 ^ 128) 24

/-- The descriptor of a number. -/
def describe (order n : Nat) : KEntry :=
  match paramRow n, ctrDef n with
  | some r, _ => entry n 11 esOK (descriptor r.type r.access r.role (nextNumber n) r.perPart r.lo (if r.num = pPwrCap then tdp order else r.hi))
  | none, some _ => entry n 11 esOK (descriptor 11 0 2 (nextNumber n) false 24 24)
  | none, none => entry n 0 esNOPARAM []

end Sys2Proof.Machine
end

