-- ==== Sys2Proof/Machine/Kod.lean ====
section
/-! DEFINITION. The dictionary protocol: frames, writes, actions, login, events, mailboxes (spec 21 R570-R588). -/

namespace Sys2Proof.Machine

/-! Writes (R573, R571, 24 R642). -/

/-- May an action be performed, or a write-only parameter written, in the module's state? -/
def Mod.actAllowed (m : Mod) (n : Nat) : Bool :=
  match m.mod.mstate.val with
  | 4 => true
  | 5 => true
  | 6 => n == pFwWrite || n == pFwCommit || n == pFwActivate || n == pModStop
  | 7 => n == pSafKick || n == pSafRelease || n == pKodSave || n == pSpdmReq
  | _ => n == pModStart || n == pSafKick || n == pSafRelease || n == pKodFactory

/-- A rule stated for a parameter that refuses a value: `n` its number, `i` its index. -/
def Mod.ruleAllows (m : Mod) (r : PRow) (n i : Nat) (v : PVal) : Bool :=
  let same := m.par n == v.int
  if r.num = pKodProviderKey ∨ r.num = pKodOperatorKey then v.raw.length == 0 || v.raw.length == 64
  else if r.num = pFtSpareTg then v.raw.length == 16
  else if r.num = pHifJrnlBase ∨ r.num = pHifRetainBase ∨ r.num = pHifRetainSize then same || !(m.host.qps.any fun q => q.2.fn.val == i)
  else if r.num = pMigLogBase ∨ r.num = pMigHmlo ∨ r.num = pMigLog2 then same || !(m.parB (pMigLogOn + i))
  else if r.num = pSchSaveBase ∨ r.num = pSchSaveSlots then same || (m.savedFor i).isEmpty
  else if r.num = pSeqAstBase then !m.seq.inService
  else if r.num = pFtDirtymapBase then
    -- 18 R515: it names MIRROR frames tagged 0xFE, 64 MiB in all; 0 names none
    v.int == 0 || (v.int.toNat % 128 == 0 && decide (v.int.toNat + 2 ^ 26 ≤ paLimit) &&
      (List.range 1025).all fun i =>
        let pa := min (v.int.toNat + 65536 * i) (v.int.toNat + 2 ^ 26 - 1)
        kindOf (m.region (regionOf pa)) == kMIRROR && m.tagOf pa == 0xFE)
  else if r.num = pCchNcMode + 1024 then v.int != 2 || (match (m.link (72 + (i - 160) / 8)).partner with
    | some c => c.cagents.getLsbD ((i - 160) % 8)
    | none => false)
  else true

/-- A value takes effect (R590). -/
def State.setParam (s : State) (t : Transport) (sid : Nat) (r : PRow) (n i : Nat) (v : PVal) : Nat × State :=
  let m := s.m
  let put (m : Mod) : Mod := m.setPar n v.int
  let ok (m : Mod) : Nat × State := (esOK, { s with m := m })
  if r.num = pFabPortMode then
    let x := m.portMode s.fuse.order.val i v.int.toNat
    (x.1, { s with m := x.2 })
  else if r.num = pOdoInst then ok (match m.sess t sid with
    | some x => m.setSess t sid { x with odoInst := BitVec.ofNat 32 v.int.toNat }
    | none => m)
  else if r.num = pDbgCtxSel then ok (match m.sess t sid with
    | some x => m.setSess t sid { x with ctxSel := BitVec.ofNat 32 v.int.toNat }
    | none => m)
  else if r.num = pMigLogOn then ok (m.migLogOn i (v.int != 0))
  else if r.num = pFtDirtymapBase then ok (if m.par n = v.int then put m else (put m).moveDirtyMap)
  else if r.num = pWpBase ∨ r.num = pWpSlotMib then
    ok (if m.par n = v.int then put m
        else (put m).updFt fun f => { f with wps := f.wps.adj i fun w => { w with slotA := none, slotB := none } })
  else if r.num = pPwrDivLimit then ok (put m).askDivs
  else if r.num = pCchNcMode + 1024 then
    let a := 1024 + i
    ok ((put m).updCache fun c => { c with
      ncPend := if c.ncMode.getD a 0 = v.int.toNat then c.ncPend.del a else c.ncPend.put a v.int.toNat })
  else if r.num = pCsuQuietChecks then
    ok { put m with tiles := m.tiles.map fun (e : Nat × Tile) => (e.1, if m.par n = v.int then e.2 else { e.2 with quiet := [] }) }
  else if isBytes r.type then
    let b := if (r.num = pKodProviderKey ∨ r.num = pKodOperatorKey) ∧ v.raw.all (· == 0) then [] else v.raw
    ok (m.updKod fun k => { k with blobs := k.blobs.put n b })
  else ok (put m)

/-- An accepted RWS write marks the configuration dirty. -/
def State.markDirty (s : State) (r : PRow) (x : Nat × State) : Nat × State :=
  if r.access = 2 ∧ x.1 = esOK then
    (x.1, { x.2 with m := x.2.m.updKod fun k => { k with dirty := true, lastRws := some s.m.ticks } })
  else x

/-! Actions. -/

/-- Actions of the memory, fabric and host groups. -/
def State.actMem (s : State) (part : Option PartId) (n : Nat) (v : PVal) (e : ActEnv) : Nat × Mod :=
  let m := s.m
  let f := s.fuse
  let p := part.map (·.val)
  let own (g : Nat → Nat × Mod) : Nat × Mod := match p with
    | some q => g q
    | none => (esSTATE, m)
  if n = pPwrRefSelect then m.refSelect v.int.toNat e.refPresent
  else if n = pMemRegionSet then m.regionsSet v.raw
  else if n = pFabAllowSet then m.fabAllowSet v.raw
  else if n = pFabRouteSet then m.fabRouteSet f.order.val v.raw
  else if n = pFabGroupSet then m.fabGroupSet v.raw
  else if n = pFabEthQpSet then m.fabEthQpSet v.raw
  else if n = pFabWinSet then own fun q => m.fabWinSet q v.raw
  else if n = pFabRkeySet then own fun q => m.fabRkeySet q v.raw
  else if n = pMcastSet then own fun q => m.mcastSet q v.raw
  else if n = pHifPortSelect then (esOK, m.portSelect v.int.toNat)
  else if n = pPartCreate then m.partCreate f.order.val v.raw
  else if n = pPartDisable then m.partDisable v.int.toNat
  else if n = pShrSet then m.shrSet v.raw
  else if n = pShrSeal then m.shrSeal v.int.toNat
  else if n = pShrClear then m.shrClear v.int.toNat
  else if n = pShrRepair then m.shrRepair v.raw
  else if n = pSeqPoolSet then m.poolSet v.raw
  else m.astInit

/-- Per-partition actions, `i` the partition. -/
def Mod.actPart (m : Mod) (b i : Nat) : Nat × Mod :=
  if b = pMigLogFlip then m.migFlip i
  else if b = pWpTake then m.wpTake i
  else m.wpRestore i

/-- Actions of safety, repair, debug and the Odometer. -/
def Mod.actSafe (m : Mod) (role : Nat) (n : Nat) (v : PVal) (e : ActEnv) : Nat × Mod :=
  let k := v.int.toNat
  if n = pSafKick then m.safKick
  else if n = pSafRelease then
    if m.mod.mstate == 7 && (role == 4 || !m.saf.latch) && m.causesAbsent e.interlockClosed e.flow e.inlet e.hottest e.inputV e.barrierPasses then
      (esOK, m.kickLeave.updSaf fun x => { x with barrier := 0 })
    else (esSTATE, m)
  else if n = pFtTileTest then m.tileTest k
  else if n = pFtDieDrain then m.dieDrain k
  else if n = pFtDieTest then m.dieTest k
  else if n = pFtDieReturn then m.dieReturn k
  else if n = pFtStackRetrain then m.stackRetrain k
  else if n = pDbgUnlock then if v.raw.length = 64 then m.dbgUnlock e.signatureOk e.within60s else (esSTATE, m)
  else if n = pOdoClear then
    if v.raw.length = 8 then m.odoClear (leField v.raw 0 4) (leField v.raw 4 4) else (esTYPE, m)
  else if n = pDbgTrigSet then m.trigSet v.raw (role == 2)
  else if n = pDbgResume then m.dbgResume k
  else if n = pDbgFreewheel then m.fwlStart k
  else if n = pDbgFreewheelEnd then m.fwlEnd k
  else if n = pDbgBrake then m.brakeAct
  else m.brakeRelease

/-- Actions of firmware, configuration and start-up. -/
def State.actFw (s : State) (n : Nat) (v : PVal) (e : ActEnv) : Nat × State :=
  let m := s.m
  let lift (x : Nat × Mod) : Nat × State := (x.1, { s with m := x.2 })
  let k := v.int.toNat
  if n = pFwWrite then lift (m.fwWrite v.raw e.image)
  else if n = pFwCommit then lift (m.fwCommit s.fuse k)
  else if n = pFwActivate then lift (m.fwActivate s.fuse)
  else if n = pFwLiveIod then lift (m.fwLive s.fuse)
  else if n = pFwSvnCommit then s.svnCommit k
  else if n = pKodSave then lift (m.kodSave s.fuse.order.val)
  else if n = pKodFactory then lift m.kodFactory
  else if n = pModStart then lift (m.modStart e.inputOk)
  else lift m.modStop

/-- Perform an action (R574, R577): one that goes on is under way until it is over. -/
def State.act (s : State) (x : Session) (r : PRow) (n i : Nat) (v : PVal) (e : ActEnv) : Nat × State :=
  let g := r.num / 65536
  let s0 : State := { s with m := s.m.updKod fun k => { k with actions := k.actions.put n {} } }
  let y : Nat × State :=
    if r.perPart then
      let z := s0.m.actPart r.num i
      (z.1, { s0 with m := z.2 })
    else if g = 14 ∨ g = 15 then s0.actFw n v e
    else if g = 10 ∨ g = 11 ∨ g = 12 ∨ g = 13 then
      let z := s0.m.actSafe x.role.val n v e
      (z.1, { s0 with m := z.2 })
    else
      let z := s0.actMem (tenantOf x.transport) n v e
      (z.1, { s0 with m := z.2 })
  let m := y.2.m.acted n y.1
  (y.1, { y.2 with m := if y.1 = esRUNNING then m else m.updKod fun k => { k with actions := k.actions.del n } })

/-- May a session without login write a key slot (R582)? -/
def Mod.firstKey (m : Mod) (x : Session) (n : Nat) : Bool :=
  x.transport == .pf0 && x.role == 1 && n == pKodProviderKey && [0, 1, 2, 3].all fun i => (m.parBlob (pKodProviderKey + i)).isEmpty

/-- ESTAT of an action that cannot be performed now, `st` STATE or BUSY: its operand is examined first, for TYPE and RANGE (R573). -/
def State.actRefused (s : State) (x : Session) (r : PRow) (n i : Nat) (v : PVal) (e : ActEnv) (st : Nat) : Nat :=
  let y := (s.act x r n i v e).1
  if y = esTYPE ∨ y = esRANGE then y else st

/-- WRITE of a parameter whose value is of its type and in range. -/
def State.writeVal (s : State) (t : Transport) (sid : Nat) (x : Session) (r : PRow) (n i : Nat) (v : PVal) (e : ActEnv) : Nat × State :=
  let m := s.m
  if r.access = 4 then
    if !(m.actAllowed r.num) then (s.actRefused x r n i v e esSTATE, s)
    else if m.kod.actions.has n then (s.actRefused x r n i v e esBUSY, s)
    else s.act x r n i v e
  else if r.access = 3 then
    if m.actAllowed r.num then
      (esOK, match m.sess t sid with
        | some y => let a := s.spdmSubmit y v.raw
          { s with m := a.2.setSess t sid a.1 }
        | none => s)
    else (esSTATE, s)
  else if !m.writable || !(m.ruleAllows r n i v) then (esSTATE, s)
  else s.markDirty r (s.setParam t sid r n i v)

/-- WRITE of one entry: ESTAT, in the order of R573. -/
def State.writeOne (s : State) (t : Transport) (sid : Nat) (x : Session) (e : KEntry) (env : ActEnv) : Nat × State :=
  let n := e.number.toNat
  match paramRow n, ctrDef n with
  | none, none => (esNOPARAM, s)
  | none, some d =>
    let ok := decide (2 ≤ x.role.val) || (x.role == 1 && (tenantOf x.transport).any fun p => s.m.tenantCounts p d.num x.odoInst.toNat)
    if ok then (esACCESS, s) else (esOK, { s with m := s.m.kodViolate x })
  | some r, _ =>
    let i := n - r.num
    if !(reaches x r i true) && !(s.m.firstKey x n) then (esOK, { s with m := s.m.kodViolate x })
    else if r.access = 0 then (esACCESS, s)
    else match r.value e with
      | none => (esTYPE, s)
      | some v => if r.inRange s.fuse.order.val i v then s.writeVal t sid x r n i v env else (esRANGE, s)

/-- WRITE of a body, in its order (R575). -/
def State.writeAll (s : State) (t : Transport) (sid : Nat) (x : Session) : List KEntry → List ActEnv → List KEntry × State
  | [], _ => ([], s)
  | e :: rest, env =>
    -- ODO_INST and the rest of the session's own state may change from entry to entry
    let y := (s.m.sess t sid).getD x
    let a := s.writeOne t sid { y with role := x.role } e (env.headD {})
    let b := a.2.writeAll t sid x rest env.tail
    (entry e.number.toNat e.type.val a.1 [] :: b.1, b.2)

/-! Responses (R577, R585). -/

/-- A response leaves: into the response page of a mailbox with the last vector of its function, or on its transport. One whose port does
not serve the function is discarded. -/
def Mod.sendResp (m : Mod) (r : KResp) : Mod :=
  match mailboxOf r.transport with
  | none => m.updKod fun k => { k with sent := r :: k.sent }
  | some p =>
    let m := m.updFn p.val fun f => { f with mbxBusy := false }
    if !(m.portUp p.val) then m
    else ((m.updFn p.val fun f => { f with mbxDone := true }).updKod fun k => { k with sent := r :: k.sent }).msi p.val
      (if p = 0 then 2047 else 63)

/-- Does a response still wait for an action? -/
def Kod.waits (k : Kod) (r : KResp) : Bool :=
  r.entries.any fun e => e.estat == 7 && (match Tab.find e.number.toNat k.actions with
    | some a => !a.answered
    | none => false)
/-- Responses that wait for nothing any more are sent. -/
def Mod.release (m : Mod) : Mod :=
  let out := m.kod.held.filter fun r => !(m.kod.waits r)
  forEach out (fun r m => m.sendResp r) (m.updKod fun k => { k with held := k.held.filter k.waits })

/-- A response is made: it is held while an action it answers is under way. -/
def Mod.reply (m : Mod) (r : KResp) : Mod :=
  if m.kod.waits r then m.updKod fun k => { k with held := k.held ++ [r] } else m.sendResp r

/-- ACTION_RUNNING_TIMEOUT. -/
def execActionRunningTimeout (number : BitVec 24) (s : State) : Out :=
  s.go fun m => (m.updKod fun k => { k with actions := k.actions.adj number.toNat fun a => { a with answered := true } }).release

/-- ACTION_DONE: the final ESTAT answers the request, or is reported by KOD_ACT_DONE where RUNNING has answered it. -/
def execActionDone (number : BitVec 24) (estat : Fin 8) (s : State) : Out :=
  s.go fun m =>
    let n := number.toNat
    match Tab.find n m.kod.actions with
    | none => m
    | some a =>
      if a.final ≠ some estat.val then m
      else
        let m := m.updKod fun k => { k with
          actions := k.actions.del n,
          held := if a.answered then k.held else k.held.map fun r => { r with entries := r.entries.map fun e =>
            if e.number == number && e.estat == 7 then { e with estat := Fin.ofNat 16 estat.val } else e } }
        let m := if a.answered then m.raise evKodActDone m.kod.server.val noPart (n + estat.val * 2 ^ 24) else m
        m.release

/-! Events (R588). -/

/-- An event record: EVSEQ, code, source, partition, a zero byte, data (log 53). -/
def Event.bytes (e : Event) : List Byte :=
  leBytes e.seq 8 ++ bytesOf e.code ++ bytesOf e.source ++ bytesOf e.part ++ [0] ++ bytesOf e.data
/-- May a session see an event: a TENANT only one of its own partition? -/
def Session.sees (x : Session) (e : Event) : Bool :=
  x.role != 1 || (tenantOf x.transport).any fun p => e.part.toNat == p.val
def eventEntries (l : List Event) : List KEntry := l.map fun e => entry 0 11 esOK e.bytes

/-- EVENT_FRAME_SEND: mailbox sessions take their events with FETCH_EVENTS. -/
def execEventFrameSend (session : BitVec 32) (s : State) : Out :=
  s.go fun m =>
    match Tab.find session.toNat m.kod.sessions with
    | none => m
    | some x =>
      let ev := (m.kod.events.filter fun e => decide (x.evNext ≤ e.seq) && x.mask.getLsbD (e.code.toNat / 2 ^ 24) && x.sees e).take 32
      match ev.getLast?, mailboxOf x.transport with
      | some last, none =>
        let d := m.draw
        let m := d.2.setSess x.transport session.toNat { x with evNext := last.seq + 1 }
        m.sendResp ⟨x.transport, 0x10, 0, session.toNat, d.1, x.role != startRole x.transport, eventEntries ev⟩
      | _, _ => m

/-! Login (R579-R581). -/

/-- Roles that a transport reaches by login (Table 21.1). -/
def loginReaches (t : Transport) (role : Nat) : Bool :=
  match t with
  | .udp _ => 2 ≤ role
  | .pf0 => 3 ≤ role
  | .vf _ => false
  | .vfl _ => role == 3

/-- The role a LOGIN_CHALLENGE asks for, where its body is as R579 has it. -/
def challengeRole : List KEntry → Option Nat
  | [a, b] =>
    let r := leNat a.value
    if a.number = 0 ∧ a.type = 2 ∧ a.value.length = 1 ∧ b.number = 1 ∧ b.type = 11 ∧ b.value.length = 64 ∧ 2 ≤ r ∧ r ≤ 4 then some r else none
  | _ => none

/-- A new session with a challenge: nonce, the device's ephemeral key and its signature are free values. -/
def Mod.challenge (m : Mod) (t : Transport) (role : Nat) : Nat × List KEntry × Mod :=
  let id := max 1 m.kod.sessions.fresh
  let bytes (i n : Nat) : List Byte := (List.range n).map fun j => BitVec.ofNat 8 (Config.freeNat (i + j))
  let i := m.free
  let m := { m with free := i + 160 }
  let x : Session := { transport := t, role := startRole t, challenge := some (Fin.ofNat 5 role), nonce := i }
  (id, [entry 0 11 esOK (bytes i 32), entry 1 11 esOK (bytes (i + 32) 64), entry 2 11 esOK (bytes (i + 96) 64)],
   m.updKod fun k => { k with sessions := k.sessions.put id x })

/-- Is a key slot of a role in use (Table 21.5)? The service keys are those of the running manifest. -/
def Mod.loginKey (m : Mod) (role idx : Nat) : Bool :=
  if role = 2 then idx < 8 && !(m.parBlob (pKodOperatorKey + idx)).isEmpty
  else if role = 3 then idx < 4 && !(m.parBlob (pKodProviderKey + idx)).isEmpty
  else idx < 4

def Mod.lockedOut (m : Mod) (t : Transport) : Bool := m.kod.locked.any fun e => e.1 == t

/-- A failed login: the third of a source within 60 s locks it out. -/
def Mod.loginFailed (m : Mod) (t : Transport) : Mod :=
  let now := m.ticks
  let old := m.kod.fails.filter fun e => decide (now < e.2 + 60000 * ticksPerMs)
  let mine := (old.filter fun e => e.1 == t).length + 1
  m.updKod fun k => { k with
    loginFail := (stick32 k.loginFail k.loginFailOvf).1, loginFailOvf := (stick32 k.loginFail k.loginFailOvf).2,
    fails := if 3 ≤ mine then old.filter fun e => e.1 != t else (t, now) :: old,
    locked := if 3 ≤ mine then (t, now) :: k.locked else k.locked }

/-- LOGIN_RESPONSE of a session that was challenged: the role granted. -/
def Mod.loginResponse (m : Mod) (t : Transport) (sid : Nat) (x : Session) (role : Fin 5) (f : KFrame) (sigOk : Bool) : Nat × Mod :=
  let form := match f.body with
    | [a, b] => if a.type = 2 ∧ a.value.length = 1 ∧ b.type = 11 ∧ b.value.length = 64 then some (leNat a.value) else none
    | _ => none
  let m := m.setSess t sid { x with challenge := none }
  if m.lockedOut t then (x.role.val, m)
  else if sigOk && loginReaches t role.val && form.any fun i => m.loginKey role.val i then
    (role.val, m.setSess t sid { x with challenge := none, role := role, lastSeq := some f.seq.toNat })
  else (x.role.val, m.loginFailed t)

/-- SESSION_IDLE_TIMEOUT. -/
def execSessionIdleTimeout (session : BitVec 32) (s : State) : Out :=
  s.go fun m => m.updKod fun k => { k with sessions := k.sessions.del session.toNat }

/-- LOGIN_LOCKOUT_EXPIRY. -/
def execLoginLockoutExpiry (t : Transport) (s : State) : Out :=
  s.go fun m => m.updKod fun k => { k with locked := k.locked.filter fun e => e.1 != t }

/-- KDP_SERVER_FAILOVER: to the lowest I/O die in service, once the serving one is not (R570). -/
def execKdpServerFailover (s : State) : Out :=
  s.go fun m =>
    if m.iodState m.kod.server.val ≠ 1 then m
    else match (List.range 4).find? fun k => m.iodState k ≠ 1 with
      | none => m
      | some k => m.endSessions.updKod fun x => { x with server := Fin.ofNat 4 k }

/-! Frames (R572, R578, R580). -/

/-- Is the body of a request of a form that its operation does not have (R572)? -/
def badBody (f : KFrame) : Bool :=
  match f.op.toNat with
  | 0 => !f.body.isEmpty
  | 4 => (challengeRole f.body).isNone
  | 6 => !f.body.isEmpty
  | 7 => match f.body with
    | [e] => !(e.number == 0 && e.type == 3 && e.value.length == 2)
    | _ => true
  | 8 => match f.body with
    | [e] => !(e.number == 0 && e.type == 5 && e.value.length == 8)
    | _ => true
  | _ => false
def malformed (f : KFrame) : Bool :=
  f.reserved || !f.lenOk || decide (128 < f.count) || f.count != f.body.length || !(isRequest f.op) || badBody f

/-- Is a transport served in the module's state (Table 21.1)? -/
def Mod.kdpServed (m : Mod) (t : Transport) : Bool :=
  match t with
  | .udp _ => m.mod.mstate != 0
  | .pf0 => (m.serving || m.mod.mstate == 6) && m.portUp 0
  | .vf k => m.serving && m.portUp k.val
  | .vfl i => m.serving && m.parB pKdpVflEn && (m.port i.val).state == 4

/-- What a request does, and its answer: STATUS, SESSION, entries. -/
def State.request (s : State) (t : Transport) (f : KFrame) (x : Session) (env : List ActEnv) (sigOk : Bool) :
    (Nat × Nat × List KEntry) × State :=
  let sid := f.session.toNat
  let m := s.m
  let nums := f.body.map fun e => e.number.toNat
  match f.op.toNat with
  | 0 => let a := s.readAll x [0x010001, 0x010002, 0x010003, 0x010004, 0x010005, 0x010006]; ((0, sid, a.1), a.2)
  | 1 => let a := s.readAll x nums; ((0, sid, a.1), a.2)
  | 2 => let a := s.writeAll t sid x f.body env; ((0, sid, a.1), a.2)
  | 3 => ((0, sid, nums.map (describe s.fuse.order.val)), s)
  | 4 =>
    if 32 ≤ m.kod.sessions.length then ((4, sid, []), s)
    else
      let a := m.challenge t ((challengeRole f.body).getD 2)
      ((0, a.1, a.2.1), { s with m := a.2.2 })
  | 5 => match x.challenge with
    | none => ((3, sid, []), s)
    | some role =>
      let a := m.loginResponse t sid x role f sigOk
      ((0, sid, [entry 0 2 esOK [BitVec.ofNat 8 a.1]]), { s with m := a.2 })
  | 6 => if sid = 0 then ((3, sid, []), s) else ((0, sid, []), { s with m := m.updKod fun k => { k with sessions := k.sessions.del sid } })
  | 7 =>
    if sid = 0 then ((3, sid, []), s)
    else
      let mask := leNat ((f.body.headD (entry 0 0 0 [])).value)
      ((0, sid, []), { s with m := m.setSess t sid { x with mask := BitVec.ofNat 16 mask, evNext := m.kod.evseq + 1 } })
  | _ =>
    let first := leNat ((f.body.headD (entry 0 0 0 [])).value)
    ((0, sid, eventEntries ((m.kod.events.filter fun e => decide (first ≤ e.seq) && x.sees e).take 32)), s)

/-- A frame that reaches the serving block. -/
def State.serve (s : State) (t : Transport) (f : KFrame) (env : List ActEnv) (sigOk : Bool) : State :=
  let m := s.m
  let sid := f.session.toNat
  let resp (st sid : Nat) (tagged : Bool) (es : List KEntry) : KResp :=
    ⟨t, f.op ||| 0x80, Fin.ofNat 6 st, sid, f.seq.toNat, tagged, es⟩
  let refuse (st : Nat) : State := { s with m := m.reply (resp st sid false []) }
  let vfOff : Bool := match t with
    | .vf k => (m.part k.val).st != .active
    | _ => false
  if 32 ≤ m.kod.held.length then refuse 4
  else if vfOff then refuse 5
  else if f.ver ≠ 1 then refuse 2
  else match m.sess t sid with
    | none => if malformed f then refuse 1 else refuse 3
    | some x =>
      let elevated := x.role != startRole t
      let stale := match x.lastSeq with
        | some n => decide (f.seq.toNat ≤ n)
        | none => false
      if elevated && (!f.tagged || !f.tagOk || stale) then
        let m := m.updKod fun k => { k with badTag := (stick32 k.badTag k.badTagOvf).1, badTagOvf := (stick32 k.badTag k.badTagOvf).2 }
        { s with m := match mailboxOf t with
          | some p => m.updFn p.val fun g => { g with mbxBusy := false }
          | none => m }
      else
        let x := { x with lastSeq := if elevated then some f.seq.toNat else x.lastSeq }
        let s := { s with m := if elevated then m.setSess t sid x else m }
        if malformed f then { s with m := s.m.reply (resp 1 sid elevated []) }
        else
          let a := s.request t f x env sigOk
          { a.2 with m := a.2.m.reply (resp a.1.1 a.1.2.1 elevated a.1.2.2) }

/-- A frame arrives on its transport: through a mailbox one frame at a time (R585); over the fabric it is the oldest that has been put
together (R587). -/
def State.submit (s : State) (t : Transport) (f : KFrame) (env : List ActEnv) (sigOk : Bool) : State :=
  if !(s.m.kdpServed t) then s
  else match t with
    | .udp _ => s.serve t f env sigOk
    | .vfl i =>
      let old := (s.m.kod.mgmt.filter fun e => e.1 == i.val).getLast?
      let m := s.m.updKod fun k => { k with mgmt := match old with
        | some e => k.mgmt.erase e
        | none => k.mgmt }
      { s with m := m }.serve t f env sigOk
    | _ => match mailboxOf t with
      | none => s
      | some p =>
        if (s.m.fn p.val).mbxBusy then s
        else { s with m := s.m.updFn p.val fun g => { g with mbxBusy := true } }.serve t f env sigOk

def State.kdp (s : State) (ok : Bool) (name : String) (g : State → State) : Out :=
  if ok then .next (g s) else .refused (.illFormed name)

/-- KDP_DISCOVER. -/
def execKdpDiscover (t : Transport) (f : KFrame) (s : State) : Out := s.kdp (opIs f 0) "KDP_DISCOVER" fun s => s.submit t f [] false
/-- KDP_READ. -/
def execKdpRead (t : Transport) (f : KFrame) (s : State) : Out := s.kdp (opIs f 1) "KDP_READ" fun s => s.submit t f [] false
/-- KDP_WRITE. -/
def execKdpWrite (t : Transport) (f : KFrame) (env : List ActEnv) (s : State) : Out :=
  s.kdp (opIs f 2) "KDP_WRITE" fun s => s.submit t f env false
/-- KDP_DESCRIBE. -/
def execKdpDescribe (t : Transport) (f : KFrame) (s : State) : Out := s.kdp (opIs f 3) "KDP_DESCRIBE" fun s => s.submit t f [] false
/-- KDP_LOGIN_CHALLENGE. -/
def execKdpLoginChallenge (t : Transport) (f : KFrame) (s : State) : Out :=
  s.kdp (opIs f 4) "KDP_LOGIN_CHALLENGE" fun s => s.submit t f [] false
/-- KDP_LOGIN_RESPONSE. -/
def execKdpLoginResponse (t : Transport) (f : KFrame) (signatureOk : Bool) (s : State) : Out :=
  s.kdp (opIs f 5) "KDP_LOGIN_RESPONSE" fun s => s.submit t f [] signatureOk
/-- KDP_LOGOUT. -/
def execKdpLogout (t : Transport) (f : KFrame) (s : State) : Out := s.kdp (opIs f 6) "KDP_LOGOUT" fun s => s.submit t f [] false
/-- KDP_SUBSCRIBE. -/
def execKdpSubscribe (t : Transport) (f : KFrame) (s : State) : Out := s.kdp (opIs f 7) "KDP_SUBSCRIBE" fun s => s.submit t f [] false
/-- KDP_FETCH_EVENTS. -/
def execKdpFetchEvents (t : Transport) (f : KFrame) (s : State) : Out := s.kdp (opIs f 8) "KDP_FETCH_EVENTS" fun s => s.submit t f [] false
/-- MBX_GO: whatever the frame's OP. -/
def execMbxGo (fn : PartId) (f : KFrame) (env : List ActEnv) (s : State) : Out :=
  s.kdp true "MBX_GO" fun s => s.submit (if fn = 0 then .pf0 else .vf fn) f env ((env.headD {}).signatureOk)

end Sys2Proof.Machine
end

