-- ==== Sys2Proof/Machine/Networks.lean ====
section
/-! DEFINITION. Messages of the bulk and control networks beside coherence and synchronisation (spec 09): scratchpad accesses,
Chainring reduction, multicast branches, credits, small writes, events. -/

namespace Sys2Proof.Machine

/-! Scratchpad accesses over the bulk network (03 R84, R87, 08 R246). -/

/-- A tile performs a TSWR or a TSRD; the answer is TSACK or TSDATA. -/
def Mod.tsServe (m : Mod) (q : TsReq) : Mod :=
  let ok := m.ownsTile q.part.val q.tile.val
  let m := if ok then m.tsEcc q.tile.val q.offset q.ecc else m
  match q.data with
  | some d =>
    let r := if ok then m.tsWriteN q.tile.val q.offset d else (zerosViol 0, m)
    let m := if r.1.viol then r.2.violate q.part.val else r.2
    { m with net := { m.net with tsResp := m.net.tsResp ++ [⟨q.agent, q.tile, none, false⟩] } }
  | none =>
    let r := if ok then m.tsReadN q.tile.val q.offset q.len else zerosViol q.len
    let m := if r.viol then m.violate q.part.val else m
    { m with net := { m.net with tsResp := m.net.tsResp ++ [⟨q.agent, q.tile, some r.bytes, r.poison⟩] } }

/-- A scratchpad access reaches its tile, a read with its stamp (23 R634): it waits while the tile changes its split, behind those that wait already
(03 R86). -/
def Mod.tsArrive (m : Mod) (q : TsReq) : Mod :=
  let m := if q.data.isSome then m else m.stampTo (agentDie q.agent.val) (q.tile.val / 128)
  if (m.tile q.tile.val).changing.isSome then m.updNet fun n => { n with tsWait := n.tsWait ++ [q] } else m.tsServe q

/-- TSWR: a tile writes bytes of its scratchpad for an agent. -/
def execTswr (a : AgentId) (t : TileId) (offset : Nat) (data : List Byte) (part : PartId) (ecc : Ecc) (s : State) : Out :=
  s.goIf (tsSpanOk offset data.length) "TSWR" fun m => m.atUnit t.val fun m =>
    m.tsArrive ⟨a, t, offset, data.length, some data, part, ecc⟩

/-- TSRD: a tile reads bytes of its scratchpad for an agent. -/
def execTsrd (a : AgentId) (t : TileId) (offset len : Nat) (part : PartId) (ecc : Ecc) (s : State) : Out :=
  s.goIf (tsSpanOk offset len) "TSRD" fun m => m.atUnit t.val fun m => m.tsArrive ⟨a, t, offset, len, none, part, ecc⟩

/-- The scratchpad of a tile under another split (R86): banks that join or leave the scratchpad hold zeros, the others keep their
contents and poison. -/
def Tile.resplit (x : Tile) (n : Fin 8) : Tile :=
  let keep (bank : Nat) : Bool := decide (bank < 4 * x.split.val) && decide (bank < 4 * n.val)
  { x with split := n, changing := none,
           ts := x.ts.filter fun e => keep (e.1 / 2 ^ 17),
           poison := x.poison.keep fun g _ => keep (g / 2 ^ 11) }

/-- SPLIT_CHANGE_DONE: the L1 portion is written back and invalidated, the banks pass (03 R86), and the accesses that waited are performed
in their order. -/
def execSplitChangeDone (t : TileId) (s : State) : Out :=
  s.go fun m =>
    match (m.tile t.val).changing with
    | none => m
    | some n =>
      let m := (m.flushL1 t.val).updTile t.val fun x => x.resplit n
      let waited := m.net.tsWait.filter fun q => q.tile == t
      let m := m.updNet fun x => { x with tsWait := x.tsWait.filter fun q => q.tile != t }
      forEach waited (fun q m => m.tsServe q) m

/-- Take the first answer of a tile to an agent that satisfies a test. -/
def Mod.takeTs (m : Mod) (a : AgentId) (t : TileId) (p : TsResp → Bool) : Option (TsResp × Mod) :=
  match m.net.tsResp.find? fun r => r.agent == a && r.tile == t && p r with
  | none => none
  | some r => some (r, m.updNet fun n => { n with tsResp := n.tsResp.erase r })

/-- TSDATA. -/
def execTsdata (a : AgentId) (t : TileId) (s : State) : Out :=
  s.go fun m => m.atUnit (unitOfAgent a.val) fun m =>
    match m.takeTs a t fun r => r.data.isSome with
    | none => m
    | some (r, m) => m.updNet fun n => { n with tsIn := n.tsIn.put a.val (r.data.getD [], r.poison) }

/-- TSACK. -/
def execTsack (a : AgentId) (t : TileId) (s : State) : Out :=
  s.go fun m => m.atUnit (unitOfAgent a.val) fun m =>
    match m.takeTs a t fun r => r.data.isNone with
    | none => m
    | some (_, m) => m.stampTo (t.val / 128) (agentDie a.val)

/-! Chainring reduction (R281-R284). -/

/-- A RED flit leaves a router against a REQ credit of its port (R278); without one, or over a seam that pauses, it stays. -/
def Mod.redLeave (m : Mod) (router : Nat) (f : RedFlit) : Option Mod :=
  match m.nextHop router f.dst with
  | none => none
  | some (p, onward) =>
    let paused := match p with
      | .seam d _ _ => (m.die d).seamPaused
      | _ => false
    if m.noCredit p 0 || paused then none
    else
      let f : RedFlit := { f with via := some (creditKey p .bn 0) }
      let at' : Nat × Bool × RedFlit := match onward with
        | some r => (r, false, f)
        | none => (router, true, f)
      let m := m.spend p 0
      some { m with net := { m.net with red := m.net.red ++ [at'] } }

/-- Elements of a payload: index, pattern, whether all its bytes are valid. -/
def redElems (w : Nat) (f : RedFlit) : List (Nat × Nat) :=
  let bs := bytesOf f.data
  ((List.range (1024 / w)).filter fun i =>
    (List.range (if w < 8 then 1 else w / 8)).all fun j => f.byteen.getLsbD (i * w / 8 + j)).map fun i => (i, packedGet bs w i)

/-- Two flits combine when these are equal (R282). -/
def redMatches (a b : RedFlit) : Bool :=
  a.part == b.part && a.dst == b.dst && a.space == b.space && a.addr == b.addr && a.op == b.op && a.fmt == b.fmt && !a.nocomb &&
  !b.nocomb

/-- The combined flit (R282, R283). -/
def redCombine (a b : RedFlit) : RedFlit :=
  let w := fmtWidth a.fmt.val
  let ea := redElems w a
  let eb := redElems w b
  let both := eb.filter fun e => ea.any fun x => x.1 == e.1
  let outs := both.map fun e => (e.1, combine a.op.val a.fmt.val ((ea.find? fun x => x.1 == e.1).map Prod.snd |>.getD 0) e.2)
  let place (i p : Nat) : Nat := p % 2 ^ w * 2 ^ (i * w)
  let only (l k : List (Nat × Nat)) : List (Nat × Nat) := l.filter fun e => !(k.any fun x => x.1 == e.1)
  let data := (outs.map fun o => place o.1 o.2.1).sum + ((only ea eb).map fun e => place e.1 e.2).sum +
    ((only eb ea).map fun e => place e.1 e.2).sum
  { a with data := BitVec.ofNat 1024 data, byteen := a.byteen ||| b.byteen,
           afl := a.afl ||| b.afl ||| BitVec.ofNat 4 (outs.foldl (fun f o => f ||| o.2.2) 0), waited := max a.waited b.waited,
           parts := a.parts ++ b.parts }

/-- A RED flit is at a router: it combines with a flit of the buffer, enters the buffer, or passes (R282). None where it must wait for
a credit. -/
def Mod.redRoute (m : Mod) (t : Nat) (f : RedFlit) : Option Mod :=
  if f.nocomb || decide (64 ≤ f.waited) then m.redLeave t f
  else
    let buf := m.net.ring.getD t []
    match buf.find? (redMatches f) with
    | some g =>
      let m := m.updNet fun n => { n with ring := n.ring.put t (buf.erase g) }
      (m.count kTilRtrCrComb t).redLeave t (redCombine g f)
    | none =>
      if buf.length < 32 then some (m.updNet fun n => { n with ring := n.ring.put t (buf ++ [f]) })
      else (m.count kTilRtrCrPass t).redLeave t f

/-- Read and write bytes of a reduction's destination. -/
def Mod.redRead (m : Mod) (w : Who) (f : RedFlit) (a n : Nat) : BRes × Mod :=
  match f.space with
  | 0 => if f.dst < 1024 && m.ownsTile f.part f.dst then (m.tsReadN f.dst a n, m) else (zerosViol n, m)
  | 1 => m.psReadN w f.part a n
  | 2 => readPieces (pieces 128 a n (n + 1)) (fun a k m => m.lineBytes w (emKeyOf (a % 2 ^ 41)) (a % 128) k f.part 7) m
def Mod.redWrite (m : Mod) (w : Who) (f : RedFlit) (a : Nat) (bs : List Byte) : BRes × Mod :=
  match f.space with
  | 0 => if f.dst < 1024 && m.ownsTile f.part f.dst then m.tsWriteN f.dst a bs else (zerosViol 0, m)
  | 1 => m.psWriteN w f.part a bs
  | 2 => writePieces (pieces 128 a bs.length (bs.length + 1)) a bs (fun a b m =>
      ({}, (m.writeLine w (emKeyOf (a % 2 ^ 41)) f.part 7 (enables (a % 128) b.length) (placed (a % 128) b) none).1)) m

/-- Rounding and saturation of a reduction at its home, with the random word of an element: the control word of the copy for a MAX or MIN of
unconverted values, nearest even else (02 R72, log 19). -/
def Mod.redRule (m : Mod) (f : RedFlit) : Nat × Bool × Bool :=
  match f.nocomb && (f.op == 2 || f.op == 3) && f.fmt != 13, f.parts with
  | true, p :: _ => (match Tab.find p.1 m.copies with
    | some c => (c.redMode, c.redSat, c.redMode == 4)
    | none => (0, false, false))
  | _, _ => (0, false, false)

/-- What applying a flit has done: flags, a violation, a poisoned element, elements written. -/
structure RedDone where
  flags : Nat
  viol : Bool := false
  poison : Bool := false
  done : List Nat := []
  deriving DecidableEq, Repr

/-- Apply a RED flit at its destination (05 R174): elements in order, one rounding each; a poisoned element stays as it is. REDACKs return
the flags (09 R283). -/
def Mod.redApply (m : Mod) (f : RedFlit) : Mod :=
  let who : Who := match f.parts with
    | p :: _ => (match Tab.find p.1 m.copies with
      | some c => c.who
      | none => .nc (feAgent 0))
    | [] => .nc (feAgent 0)
  let sf := if f.nocomb then f.sfmt.val else f.fmt.val
  let sw := fmtWidth sf
  let dw := fmtWidth f.fmt.val / 8
  let rule := m.redRule f
  let r := (redElems sw f).foldl (fun (q : RedDone × Mod) e =>
    let a := f.addr + e.1 * dw
    let d := q.2.redRead who f a dw
    if d.1.viol then ({ q.1 with viol := true }, d.2)
    else if d.1.poison then ({ q.1 with poison := true }, d.2)
    else
      let rnd : Nat × Mod := if rule.2.2 then d.2.draw else (0, d.2)
      let x := if 4 ≤ f.op.val then combine f.op.val 13 (leNat d.1.bytes) e.2
        else reduceElemBy f.op.val f.fmt.val rule.1 rule.2.1 rnd.1 (leNat d.1.bytes) (decElem sf e.2)
      let w := rnd.2.redWrite who f a (leBytes x.1 dw)
      (if w.1.viol then { q.1 with viol := true }
       else { q.1 with flags := q.1.flags ||| x.2, done := q.1.done ++ [e.1] }, w.2)) ({ flags := f.afl.toNat }, m)
  let m := if r.1.viol then r.2.violate f.part.val else r.2
  m.updNet fun n => { n with redacks := n.redacks ++ f.parts.map fun p =>
    ⟨p.1, (r.1.done.filter fun i => p.2.getLsbD (i * sw / 8)).length, BitVec.ofNat 4 r.1.flags, r.1.poison⟩ }

/-- The tile whose split change holds a flit at its destination (03 R86). -/
def Mod.redHeld (m : Mod) (f : RedFlit) : Bool := f.space == 0 && (m.tile f.dst).changing.isSome

/-- RED: a flit in flight is at a router, or at its destination behind it. -/
def execRed (t : TileId) (f : RedFlit) (atDestination : Bool) (s : State) : Out :=
  s.goIf (redOk f) "RED" fun m => m.atUnit t.val fun m =>
    if !m.net.red.contains (t.val, atDestination, f) then m
    else
      let gone := (m.updNet fun n => { n with red := n.red.erase (t.val, atDestination, f) }).vacate f.via
      let f : RedFlit := { f with via := none }
      if atDestination then (if m.redHeld f then m else gone.redApply f)
      else (gone.redRoute t.val f).getD m

/-- CHAINRING_RELEASE: the oldest flit of a router's buffer has waited 64 cycles; it leaves once there is a credit. -/
def execChainringRelease (t : TileId) (s : State) : Out :=
  s.go fun m => m.atUnit t.val fun m =>
    match m.net.ring.getD t.val [] with
    | [] => m
    | f :: rest =>
      let aged := m.updNet fun n => { n with ring := n.ring.put t.val ({ f with waited := 64 } :: rest) }
      ((m.updNet fun n => { n with ring := n.ring.put t.val rest }).redLeave t.val { f with waited := 64 }).getD aged

/-- REDACK: flags, elements and poison go into the copy's record. -/
def execRedack (copy : Nat) (s : State) : Out :=
  s.go fun m =>
    match m.net.redacks.find? fun r => r.copy == copy with
    | none => m
    | some r =>
      let m := m.updNet fun n => { n with redacks := n.redacks.erase r }
      { m with copies := m.copies.adj copy fun c => { c with
          aflags := c.aflags ||| r.afl, counts := if r.elems = 0 then c.counts else c.counts.upd 0 0 (· + r.elems),
          wPoison := c.wPoison || r.poison, reds := c.reds - 1 } }

/-! Multicast branches and credits (R278, R286-R288). -/

/-- BRANCH_HOLD_EXPIRY: a branch held at a port, by its place among those held there, is dropped; BRANCH_FAIL returns to a copy's source, and the home of a fill
goes on by unicast (R287, 06 R216). -/
def execBranchHoldExpiry (p : PortRef) (place : Fin 4) (s : State) : Out :=
  s.go fun m => m.atUnit (routerOf p) fun m =>
    let key := creditKey p .bn 0
    let l := m.net.hold.getD key []
    match l[place.val]? with
    | none => m
    | some b =>
      let rest := l.eraseIdx place.val
      (m.updNet fun n => match b with
        | .copy id i => { n with hold := n.hold.put key rest, failed := n.failed ++ [(id, i)] }
        | .fill x => { n with hold := n.hold.put key rest, again := n.again.upd key [] (· ++ [x]) }).count kTilRtrMcFail (routerOf p)

/-- BRANCH_FAIL: up to three retries by unicast; then the target is undelivered (R288). -/
def execBranchFail (copy : Nat) (target : Fin 64) (s : State) : Out :=
  s.go fun m =>
    if !m.net.failed.contains (copy, target.val) then m
    else
      let m := m.updNet fun n => { n with failed := n.failed.erase (copy, target.val) }
      match Tab.find copy m.copies with
      | none => m
      | some c =>
        let key := copy * 64 + target.val
        let n := m.net.retried.getD key 0
        if 3 ≤ n then
          { m with copies := m.copies.put copy { c with undeliv := c.undeliv ||| BitVec.ofNat 64 (2 ^ target.val) } }
        else
          let m := m.updNet fun x => { x with retried := x.retried.put key (n + 1) }
          match (m.targets c).find? fun q => q.1 == target.val with
          | some (_, some t, _) => m.branchOut copy c target.val t
          | _ => m

/-- Take the first branch held at a port for a virtual channel: a copy's branch is a write on REQ, a fill's a response on RSP; after the
buffer, the unicasts that a home repeats. -/
def NetS.nextBranch (n : NetS) (key vc : Nat) : Option (Branch × NetS) :=
  let mine (b : Branch) : Bool := match b with
    | .copy _ _ => vc == 0
    | .fill _ => vc == 2
  let l := n.hold.getD key []
  match l.find? mine with
  | some b => some (b, { n with hold := n.hold.put key (l.erase b) })
  | none => if vc != 2 then none else match n.again.getD key [] with
    | [] => none
    | x :: r => some (.fill x, { n with again := n.again.put key r })

/-- CREDIT_RETURN: the credit of an entry that the receiver has freed is back. A held branch of the port goes with it, its entry freed as it is
delivered, else the sender holds it again. -/
def execCreditReturn (p : PortRef) (n : Net) (vc : Fin 3) (s : State) : Out :=
  s.goIf (creditOk n vc.val) "CREDIT_RETURN" fun m => if m.net.freed.getD (creditKey p n vc.val) 0 = 0 then m else
    let back (m : Mod) : Mod := m.updNet fun x => { x with
      spent := x.spent.adj (creditKey p n vc.val) (· - 1), freed := x.freed.adj (creditKey p n vc.val) (· - 1) }
    match if n == Net.bn then m.net.nextBranch (creditKey p .bn 0) vc.val else none with
    | none => back m
    | some (.copy _ _, x) => { m with net := x }
    | some (.fill y, x) => ({ m with net := x }).send y

/-! Control network. -/

/-- CN_SWR: a write of up to 16 bytes, and its acknowledgement. -/
def execCnSwr (src _dst : AgentId) (l : LineRef) (offset : Nat) (data : List Byte) (part : PartId) (s : State) : Out :=
  s.goIf (swrOk offset data.length) "CN_SWR" fun m => m.atUnit (unitOfSlice (homeOf (lineKey l))) fun m =>
    let k := lineKey l
    let be := enables offset data.length
    let d := placed offset data
    let m := if isPs k && carriesPart src.val && !(m.psOwned part (psAddr k)) then m.violate part.val
      else if h : src.val < 1024 then m.cohWrite ⟨src.val, h⟩ k part 7 be d
      else (m.ncWrite src k part 7 be d none).1
    m.sendCn { op := .swrack, dst := src.val, src := some (homeOf k / 2) }

/-- CN_SWRACK. -/
def execCnSwrack (a : AgentId) (s : State) : Out :=
  s.go fun m => m.atUnit (unitOfAgent a.val) fun m =>
    match m.takeCn (agentDie a.val) fun f => f.op == .swrack && f.dst == a.val with
    | none => m
    | some (_, m) => m

/-- CN_EVENT: the oldest event message reaches the serving block and is numbered (21 R588). -/
def execCnEvent (iod : IodId) (s : State) : Out :=
  s.go fun m => m.atUnit (unitOfIod iod.val) fun m =>
    if m.kod.server != iod then m
    else match m.kod.evq with
      | [] => m
      | e :: rest => m.updKod fun k => { k with evq := rest }.record e

end Sys2Proof.Machine
end

