-- ==== Sys2Proof/Machine/Registers.lean ====
section
/-! DEFINITION. Writes to registers that have no row of their own (spec 00 Table 0.4, R14; 14 Tables 14.1-14.5). -/

namespace Sys2Proof.Machine

/-- HIF_AQ_CFG (14 Table 14.5): a ring size outside 6-12 is a reserved encoding and takes the reset value. -/
def aqCfgWrite (v : Nat) (x : Fn) : Fn :=
  let size (n : Nat) : Nat := if 6 ≤ n ∧ n ≤ 12 then n else 6
  { x with vec := bits v 31 21, cqLog2 := size (bits v 7 4), sqLog2 := size (bits v 3 0) }

/-- MSI-X vectors of a function (14 Table 14.1). -/
def msixVectors (fn : Nat) : Nat := if fn = 0 then 2048 else 64

/-- A word of the MSI-X table. Of the control word only the mask bit is writable; a vector unmasked with its pending bit set sends its
message. -/
def Mod.msixWrite (m : Mod) (fn word : Nat) (v : BitVec 32) : Mod :=
  if 4 * msixVectors fn ≤ word then m
  else if word % 4 ≠ 3 then m.updFn fn fun x => { x with msix := x.msix.put word v }
  else
    let m := m.updFn fn fun x => { x with msix := x.msix.put word (v &&& 1) }
    if v.getLsbD 0 || !((m.fn fn).pba.has (word / 4)) then m
    else (m.updFn fn fun x => { x with pba := x.pba.del (word / 4) }).msi fn (word / 4)

/-- A die that the segments of the module's state supply (24 Table 24.1): compute dies and sites from BRINGUP on, I/O dies earlier. -/
def Mod.diePowered (m : Mod) (io : Bool) : Bool :=
  match m.mod.mstate.val with
  | 3 => true
  | 4 => true
  | 5 => true
  | 2 => io
  | 6 => io
  | _ => false

/-- Bits of DBG_TBYP that the hardware holds set (17 R509, Table 17.8): empty sites, unpowered dies, fenced dies. -/
def Mod.tbypForced (m : Mod) (order : Nat) : BitVec 14 :=
  let io (k : Nat) : Bool := !(m.diePowered true) || m.iodState k == 1
  let cd (d : Nat) : Bool := !(m.diePowered false) || ((m.half (2 * d)).state == 4 && (m.half (2 * d + 1)).state == 4)
  let site : Bool := order != 0 || !(m.diePowered false)
  BitVec.ofNat 14 (b2n (io 0) + ((List.range 8).map fun d => b2n (cd d) * 2 ^ (d + 1)).sum +
    ((List.range 3).map fun k => b2n (io (k + 1)) * 2 ^ (k + 9)).sum + b2n site * 2 ^ 12 + b2n site * 2 ^ 13)

/-- DBG_TBYP as it reads. -/
def State.tbyp (s : State) : BitVec 14 := s.m.dbg.tbyp ||| s.m.tbypForced s.fuse.order.val

/-- Is the unit of a register of a die supplied and clocked? -/
def Mod.unitsUp (m : Mod) : Bool := m.serving || m.mod.mstate == 3

/-- The effect of a write. -/
def Mod.writeReg (m : Mod) (fn : Nat) (reg : RegRef) (v : BitVec 64) : Mod :=
  match reg with
  | .hifCtl =>
    let m := if v.getLsbD 31 then m.attach fn else m
    if !(m.portUp fn) then m
    else if v.getLsbD 30 then m.aqEnable fn
    else m.updFn fn fun x => { x with aqEn := false }
  | .hifAqSqbase => if m.portUp fn && !(m.fn fn).aqEn then m.updFn fn fun x => { x with sqBase := v } else m
  | .hifAqCqbase => if m.portUp fn && !(m.fn fn).aqEn then m.updFn fn fun x => { x with cqBase := v } else m
  | .hifAqCfg => if m.portUp fn && !(m.fn fn).aqEn then m.updFn fn (aqCfgWrite v.toNat) else m
  | .msix word => if m.portUp fn then m.msixWrite fn word (v.setWidth 32) else m
  -- an offset without a register, and a field that is read only, ignore the write
  | .undefinedOffset _ => m
  | .memTgCtl st ch => if m.unitsUp then m.updChan st.val ch.val fun c => { c with tgCtl := tgCtlWrite v } else m
  | .csuStat t => if m.unitsUp && v.getLsbD 27 then m.updTile t.val fun x => { x with recValid := false } else m
  | .halfStat h => if m.unitsUp && v.getLsbD 7 then m.updHalf h.val fun x => { x with droop := false } else m
  | .audit l =>
    if m.unitsUp && v.getLsbD 63 then m.updNet fun n => { n with audits := n.audits.adj (m.auditKey l) fun a => { a with fault := false } }
    else m
  | .mbxStat => if m.portUp fn && v.getLsbD 30 then m.updFn fn fun x => { x with mbxDone := false } else m
  | .tbyp => if m.diePowered true then m.updDbg fun d => { d with tbyp := v.setWidth 14 } else m

/-- REGISTER_WRITE. -/
def execRegisterWrite (fn : PartId) (reg : RegRef) (value : BitVec 64) (s : State) : Out :=
  s.go fun m => m.writeReg fn.val reg value

end Sys2Proof.Machine
end

