-- ==== Sys2Proof/Machine/Vector.lean ====
section
/-! DEFINITION. The vector unit (spec 03 R98-R103, 04 R136-R140). An operation has its effect when it is queued; the queue says what the unit has
still to complete (log 22). -/

namespace Sys2Proof.Machine

/-! Registers. -/

def Ctx.getV (c : Ctx) (r : Nat) : VecData := c.v.getD r 0
def Ctx.setV (c : Ctx) (r : Nat) (d : VecData) : Ctx := { c with v := c.v.put r d }
/-- Lane `i` of a register (R138). -/
def lane (v : VecData) (i : Nat) : W32 := v.extractLsb' (32 * i) 32
/-- A register from its lanes. -/
def vecOf (l : List W32) : VecData := BitVec.ofNat 2048 (leNat (l.flatMap fun w => leBytes w.toNat 4))
def lanesOf (v : VecData) : List W32 := (List.range 64).map (lane v)
/-- A register from bytes, the rest a given pattern. -/
def vecBytes (bs : List Byte) (rest : List Byte) : VecData := BitVec.ofNat 2048 (leNat ((bs ++ rest.drop bs.length).take 256))

/-- Result of a vector operation: registers written, flags, whether a NaN came from operands that hold none (R102). -/
structure VRes where
  regs : List (Nat × VecData)
  flags : Nat := 0
  newNan : Bool := false
  deriving DecidableEq, Repr

/-- NANP = FAULT in a context's arithmetic control word (02 Table 2.7). -/
def Ctx.nanFault (c : Ctx) : Bool := bits c.tarith.toNat 11 10 == 1

/-- A residue mismatch is handled as a checksum mismatch (R103, R111). -/
def Mod.residueFail (m : Mod) (a : At) : Mod :=
  let c := m.ctxAt a
  let m := m.count kTilCsuMismatch a.tile.val
  let m := match c.task with
    | some k => m.workDone k.cmd 0 0 0 1
    | none => m
  let r : MatRec := { issue := c.issues, residue := true }
  let m := m.updTile a.tile.val fun x => { x with recValid := true, mrec := r }
  let m := m.updCtx a.tile.val a.saddle.val fun c => { c with mrec := some r }
  m.endTask a.tile.val a.saddle.val stARITH fkCHECKSUM 0 0

/-- Queue a vector operation of a context: ENG.V stalls while the context's queue holds eight (R136); the residue check covers every result (R103). -/
def Mod.vecDo (m : Mod) (a : At) (residue : Bool) (f : Mod → Mod) : Mod :=
  m.core a (fun _ c => decide (8 ≤ c.vq)) fun m => if residue then m.residueFail a else f m

/-- The operation retires, with one more in the queue. -/
def Mod.vecRetire (m : Mod) (a : At) (f : Ctx → Ctx) : Mod := m.retire a 4 fun c => { f c with vq := c.vq + 1 }

/-- End a task on a NaN that no operand held, its NANP being FAULT (R102). -/
def Mod.nanFail (m : Mod) (a : At) : Mod := m.endNan a.tile.val a.saddle.val

/-- A vector operation of a context. -/
def Mod.vec (m : Mod) (a : At) (residue : Bool) (f : Ctx → VRes) : Mod :=
  m.vecDo a residue fun m =>
    let r := f (m.ctxAt a)
    if (m.ctxAt a).nanFault && r.newNan then m.nanFail a
    else m.vecRetire a fun c =>
      { r.regs.foldl (fun c p => c.setV p.1 p.2) c with tflags := c.tflags ||| BitVec.ofNat 4 r.flags }

/-- NaN patterns of FP32. -/
def isNan32 (x : W32) : Bool := (ofF32 x.toNat).isNan

/-- A lane-wise FP32 operation of two or three operands; NAN_SEEN when an operand is NaN (02 Table 2.8). -/
def fpLanes (f : List Val → Val) (ops : List VecData) (vd : VReg) : VRes :=
  let rs := (List.range 64).map fun i =>
    let xs := ops.map fun v => lane v i
    let r := toF32 (f (xs.map fun x => ofF32 x.toNat))
    ((BitVec.ofNat 32 r : W32), xs.any isNan32)
  { regs := [(vd.val, vecOf (rs.map Prod.fst))],
    flags := if rs.any (·.2) then flNAN else 0,
    newNan := rs.any fun r => isNan32 r.1 && !r.2 }

/-- A lane-wise operation on patterns. -/
def bitLanes (f : W32 → W32 → W32) (a b : VecData) (vd : VReg) : VRes :=
  { regs := [(vd.val, vecOf ((List.range 64).map fun i => f (lane a i) (lane b i)))] }

/-- A comparison: all ones or all zeros a lane. -/
def cmpLanes (p : Val → Val → Bool) (a b : VecData) (vd : VReg) : VRes :=
  { (bitLanes (fun x y => if p (ofF32 x.toNat) (ofF32 y.toNat) then BitVec.allOnes 32 else 0) a b vd) with
    flags := if (lanesOf a ++ lanesOf b).any isNan32 then flNAN else 0 }

def vNth (l : List Val) (i : Nat) : Val := l.getD i (.fin false 0 0)

/-- ADD. -/
def execVadd (a : At) (vd vs1 vs2 : VReg) (res : Bool) (s : State) : Out :=
  s.go fun m => m.vec a res fun c => fpLanes (fun l => Val.add (vNth l 0) (vNth l 1)) [c.getV vs1.val, c.getV vs2.val] vd
/-- SUB. -/
def execVsub (a : At) (vd vs1 vs2 : VReg) (res : Bool) (s : State) : Out :=
  s.go fun m => m.vec a res fun c =>
    fpLanes (fun l => Val.add (vNth l 0) (vNth l 1).negate) [c.getV vs1.val, c.getV vs2.val] vd
/-- MUL. -/
def execVmul (a : At) (vd vs1 vs2 : VReg) (res : Bool) (s : State) : Out :=
  s.go fun m => m.vec a res fun c => fpLanes (fun l => Val.mul (vNth l 0) (vNth l 1)) [c.getV vs1.val, c.getV vs2.val] vd
/-- FMA: vs1 * vs2 + vd, one rounding. -/
def execVfma (a : At) (vd vs1 vs2 : VReg) (res : Bool) (s : State) : Out :=
  s.go fun m => m.vec a res fun c =>
    fpLanes (fun l => Val.add (Val.mul (vNth l 0) (vNth l 1)) (vNth l 2)) [c.getV vs1.val, c.getV vs2.val, c.getV vd.val] vd

/-- Minimum and maximum of IEEE 754-2019. -/
def vMin (x y : Val) : Val := if x.isNan || y.isNan then .nan else if Val.below y x then y else x
def vMax (x y : Val) : Val := if x.isNan || y.isNan then .nan else if Val.below x y then y else x

/-- MIN. -/
def execVmin (a : VecAt) (vd vs1 vs2 : VReg) (s : State) : Out :=
  s.go fun m => m.vec a.ctx a.residueFault fun c => fpLanes (fun l => vMin (vNth l 0) (vNth l 1)) [c.getV vs1.val, c.getV vs2.val] vd
/-- MAX. -/
def execVmax (a : VecAt) (vd vs1 vs2 : VReg) (s : State) : Out :=
  s.go fun m => m.vec a.ctx a.residueFault fun c => fpLanes (fun l => vMax (vNth l 0) (vNth l 1)) [c.getV vs1.val, c.getV vs2.val] vd
/-- ABS. -/
def execVabs (a : VecAt) (vd vs1 : VReg) (s : State) : Out :=
  s.go fun m => m.vec a.ctx a.residueFault fun c => fpLanes (fun l => (vNth l 0).abs) [c.getV vs1.val] vd
/-- NEG. -/
def execVneg (a : VecAt) (vd vs1 : VReg) (s : State) : Out :=
  s.go fun m => m.vec a.ctx a.residueFault fun c => fpLanes (fun l => (vNth l 0).negate) [c.getV vs1.val] vd

/-- CMP_EQ. -/
def execVcmpEq (a : VecAt) (vd vs1 vs2 : VReg) (s : State) : Out :=
  s.go fun m => m.vec a.ctx a.residueFault fun c => cmpLanes Val.eqv (c.getV vs1.val) (c.getV vs2.val) vd
/-- CMP_LT. -/
def execVcmpLt (a : VecAt) (vd vs1 vs2 : VReg) (s : State) : Out :=
  s.go fun m => m.vec a.ctx a.residueFault fun c => cmpLanes Val.lt (c.getV vs1.val) (c.getV vs2.val) vd
/-- CMP_LE. -/
def execVcmpLe (a : VecAt) (vd vs1 vs2 : VReg) (s : State) : Out :=
  s.go fun m => m.vec a.ctx a.residueFault fun c => cmpLanes Val.le (c.getV vs1.val) (c.getV vs2.val) vd
/-- CMP_UNORD. -/
def execVcmpUnord (a : VecAt) (vd vs1 vs2 : VReg) (s : State) : Out :=
  s.go fun m => m.vec a.ctx a.residueFault fun c => cmpLanes (fun x y => x.isNan || y.isNan) (c.getV vs1.val) (c.getV vs2.val) vd

/-- SEL: the lane of vs1 where the lane of vd is not zero, else that of vs2. -/
def execVsel (a : VecAt) (vd vs1 vs2 : VReg) (s : State) : Out :=
  s.go fun m => m.vec a.ctx a.residueFault fun c =>
    { regs := [(vd.val, vecOf ((List.range 64).map fun i =>
        if lane (c.getV vd.val) i = 0 then lane (c.getV vs2.val) i else lane (c.getV vs1.val) i))] }

/-- AND. -/
def execVand (a : VecAt) (vd vs1 vs2 : VReg) (s : State) : Out :=
  s.go fun m => m.vec a.ctx a.residueFault fun c => bitLanes (· &&& ·) (c.getV vs1.val) (c.getV vs2.val) vd
/-- OR. -/
def execVor (a : VecAt) (vd vs1 vs2 : VReg) (s : State) : Out :=
  s.go fun m => m.vec a.ctx a.residueFault fun c => bitLanes (· ||| ·) (c.getV vs1.val) (c.getV vs2.val) vd
/-- XOR. -/
def execVxor (a : VecAt) (vd vs1 vs2 : VReg) (s : State) : Out :=
  s.go fun m => m.vec a.ctx a.residueFault fun c => bitLanes (· ^^^ ·) (c.getV vs1.val) (c.getV vs2.val) vd

/-- IADD. -/
def execViadd (a : At) (vd vs1 vs2 : VReg) (res : Bool) (s : State) : Out :=
  s.go fun m => m.vec a res fun c => bitLanes (· + ·) (c.getV vs1.val) (c.getV vs2.val) vd
/-- ISUB. -/
def execVisub (a : VecAt) (vd vs1 vs2 : VReg) (s : State) : Out :=
  s.go fun m => m.vec a.ctx a.residueFault fun c => bitLanes (· - ·) (c.getV vs1.val) (c.getV vs2.val) vd
/-- IMUL: the low 32 bits. -/
def execVimul (a : VecAt) (vd vs1 vs2 : VReg) (s : State) : Out :=
  s.go fun m => m.vec a.ctx a.residueFault fun c => bitLanes (· * ·) (c.getV vs1.val) (c.getV vs2.val) vd
/-- SLL: shift by bits 4:0 of the lane of vs2. -/
def execVsll (a : VecAt) (vd vs1 vs2 : VReg) (s : State) : Out :=
  s.go fun m => m.vec a.ctx a.residueFault fun c => bitLanes (fun x y => x <<< (y.toNat % 32)) (c.getV vs1.val) (c.getV vs2.val) vd
/-- SRL. -/
def execVsrl (a : VecAt) (vd vs1 vs2 : VReg) (s : State) : Out :=
  s.go fun m => m.vec a.ctx a.residueFault fun c => bitLanes (fun x y => x >>> (y.toNat % 32)) (c.getV vs1.val) (c.getV vs2.val) vd
/-- SRA. -/
def execVsra (a : VecAt) (vd vs1 vs2 : VReg) (s : State) : Out :=
  s.go fun m => m.vec a.ctx a.residueFault fun c => bitLanes (fun x y => x.sshiftRight (y.toNat % 32)) (c.getV vs1.val) (c.getV vs2.val) vd
/-- IADDS: saturating addition. -/
def execViadds (a : VecAt) (vd vs1 vs2 : VReg) (s : State) : Out :=
  s.go fun m => m.vec a.ctx a.residueFault fun c =>
    bitLanes (fun x y => BitVec.ofInt 32 (satAdd32 x.toInt y.toInt).1) (c.getV vs1.val) (c.getV vs2.val) vd

/-! Conversion (R140, 02 R72-R74). -/

/-- Elements one conversion takes: 64, or what a register of 256 bytes holds of a 64-bit format (log 23). -/
def cvtCount (src dst : Nat) : Nat := if src = 0 ∨ dst = 0 then 32 else 64

/-- Source values of a conversion: packed elements; the two packed blocks of an MX format with their scale bytes after them, whatever the destination
takes of them; a TRI5 block of which PART picks 64 weights (Table 4.9, R140). -/
def cvtSource (src part n : Nat) (bs : List Byte) : List Val :=
  if isTri src then
    let w := decRow 12 (bs.take 32) ((bs.drop 32).take 2) 160
    (((w.drop (64 * part)).take 64) ++ List.replicate (64 - min 64 (160 - 64 * part)) (Val.fin false 0 0)).take n
  else if isMX src then
    let e := rowBytes src 64
    (decRow src (bs.take e) ((bs.drop e).take 2) 64).take n
  else decRow src bs [] n

/-- Does a conversion make a NaN of elements that are none (R102): an element that becomes NaN, or an MX block that gets the scale 0xFF? -/
def cvtNewNan (dst n : Nat) (vs : List Val) (o : List Byte × List Byte × Nat) : Bool :=
  if isMX dst then o.2.1.zipIdx.any fun s => s.1 == 0xFF && !(((vs.drop (32 * s.2)).take 32).any Val.isNan)
  else ((decRow dst o.1 [] n).zip vs).any fun x => x.1.isNan && !x.2.isNan

/-- CVT; bytes of vd past the result are free values (log 23). PART = 3 with a TRI5 source, which Table 4.9 only calls reserved, raises illegal
instruction (DESIGN CHOICE, log 130). -/
def execVcvt (a : VecAt) (vd vs1 : VReg) (s : State) : Out :=
  s.go fun m =>
    let k := (m.ctxAt a.ctx).tcvt.toNat
    let src := bits k 3 0
    let dst := bits k 7 4
    let part := bits k 9 8
    if !fmtValid src || !fmtValid dst || dst == 12 || (src == 12 && part == 3) then m.coreDo a.ctx fun m => m.illegal a.ctx
    else m.vecDo a.ctx a.residueFault fun m =>
      let c := m.ctxAt a.ctx
      let n := cvtCount src dst
      let vs := cvtSource src part n (bytesOf (c.getV vs1.val))
      let mode := bits c.tarith.toNat 15 13
      let rs : List Nat × Mod := if mode = 4 then m.draws n else ([], m)
      let o := encRow dst mode (c.tarith.toNat.testBit 12) rs.1 vs
      let q := rs.2.draw
      if c.nanFault && cvtNewNan dst n vs o then q.2.nanFail a.ctx
      else q.2.vecRetire a.ctx fun c =>
        { c.setV vd.val (vecBytes (o.1 ++ o.2.1) (leBytes q.1 256)) with
          tflags := c.tflags ||| BitVec.ofNat 4 (o.2.2 ||| if vs.any Val.isNan then flNAN else 0) }

/-- MXENC of the 64 FP32 lanes of vs1 into the MX format DST; another DST is a reserved encoding (log 23). -/
def execVmxenc (a : VecAt) (vd vs1 : VReg) (s : State) : Out :=
  s.go fun m =>
    let dst := bits (m.ctxAt a.ctx).tcvt.toNat 7 4
    if !isMX dst then m.coreDo a.ctx fun m => m.illegal a.ctx
    else m.vecDo a.ctx a.residueFault fun m =>
      let c := m.ctxAt a.ctx
      let vs := (lanesOf (c.getV vs1.val)).map fun x => ofF32 x.toNat
      let o := encRow dst 0 true [] vs
      let q := m.draw
      if c.nanFault && cvtNewNan dst 64 vs o then q.2.nanFail a.ctx
      else q.2.vecRetire a.ctx fun c =>
        { c.setV vd.val (vecBytes (o.1 ++ o.2.1) (leBytes q.1 256)) with tflags := c.tflags ||| BitVec.ofNat 4 o.2.2 }

/-! Reductions (R101): a fixed pairwise tree over neighbouring lanes (log 24). -/

/-- One level of the tree. -/
def treeLevel (f : Val → Val → Val) : List Val → List Val
  | x :: y :: r => f x y :: treeLevel f r
  | l => l
def treeReduce (f : Val → Val → Val) (l : List Val) : Val :=
  ((List.range 6).foldl (fun l _ => treeLevel f l) l).headD (.fin false 0 0)

def reduceLanes (f : Val → Val → Val) (v : VecData) (vd : VReg) : VRes :=
  let vs := (lanesOf v).map fun x => ofF32 x.toNat
  let r := toF32 (treeReduce f vs)
  let nan := vs.any Val.isNan
  { regs := [(vd.val, vecOf [BitVec.ofNat 32 r])], flags := if nan then flNAN else 0,
    newNan := (ofF32 r).isNan && !nan }

/-- RSUM. -/
def execVrsum (a : VecAt) (vd vs1 : VReg) (s : State) : Out :=
  s.go fun m => m.vec a.ctx a.residueFault fun c => reduceLanes (fun x y => rnd32 (Val.add x y)) (c.getV vs1.val) vd
/-- RMAX. -/
def execVrmax (a : VecAt) (vd vs1 : VReg) (s : State) : Out :=
  s.go fun m => m.vec a.ctx a.residueFault fun c => reduceLanes vMax (c.getV vs1.val) vd
/-- RMIN. -/
def execVrmin (a : VecAt) (vd vs1 : VReg) (s : State) : Out :=
  s.go fun m => m.vec a.ctx a.residueFault fun c => reduceLanes vMin (c.getV vs1.val) vd

/-! Special functions (R99, R100). -/

def sfuLanes (f : W32 → W32) (v : VecData) (vd : VReg) : VRes :=
  let xs := lanesOf v
  let rs := xs.map f
  { regs := [(vd.val, vecOf rs)], flags := if xs.any isNan32 then flNAN else 0,
    newNan := (xs.zip rs).any fun p => !isNan32 p.1 && isNan32 p.2 }

/-- EXP. -/
def execVexp (a : VecAt) (vd vs1 : VReg) (s : State) : Out :=
  s.go fun m => m.vec a.ctx a.residueFault fun c => sfuLanes sfuExp (c.getV vs1.val) vd
/-- RCP. -/
def execVrcp (a : VecAt) (vd vs1 : VReg) (s : State) : Out :=
  s.go fun m => m.vec a.ctx a.residueFault fun c => sfuLanes sfuRcp (c.getV vs1.val) vd
/-- RSQRT. -/
def execVrsqrt (a : VecAt) (vd vs1 : VReg) (s : State) : Out :=
  s.go fun m => m.vec a.ctx a.residueFault fun c => sfuLanes sfuRsqrt (c.getV vs1.val) vd

/-- One lane of SMXR (R100): m, alpha, beta, l. The exponents m_a - m and m_b - m are not rounded; which value within the bound of EXP comes of them is a
free value of the two maxima (log 13). -/
def smxrLane (ma la mb lb : W32) : W32 × W32 × W32 × W32 :=
  let nan : W32 := BitVec.ofNat 32 fmtFP32.nan
  if isNan32 ma || isNan32 la || isNan32 mb || isNan32 lb then (nan, nan, nan, nan)
  else
    let v (x : W32) : Val := ofF32 x.toNat
    let w (x : Val) : W32 := BitVec.ofNat 32 (toF32 x)
    let mx := vMax (v ma) (v mb)
    if mx == .inf true then (w mx, 0x3F800000, 0x3F800000, w (Val.add (v la) (v lb)))
    else
      let al := expOf (Config.sfuPick (4 + (w mx).toNat) ma) (Val.add (v ma) mx.negate)
      let be := expOf (Config.sfuPick (4 + (w mx).toNat) mb) (Val.add (v mb) mx.negate)
      (w mx, al, be, w (Val.add (Val.mul (v la) (v al)) (Val.mul (v lb) (v be))))

/-- SMXR; vs1 and vs2 are even and vd a multiple of 4, else illegal instruction (R139). -/
def execVsmxr (a : VecAt) (vd vs1 vs2 : VReg) (s : State) : Out :=
  s.go fun m =>
    if vs1.val % 2 ≠ 0 ∨ vs2.val % 2 ≠ 0 ∨ vd.val % 4 ≠ 0 then m.coreDo a.ctx fun m => m.illegal a.ctx
    else m.vec a.ctx a.residueFault fun c =>
      let g (r i : Nat) : W32 := lane (c.getV r) i
      let ls := (List.range 64).map fun i => smxrLane (g vs1.val i) (g (vs1.val + 1) i) (g vs2.val i) (g (vs2.val + 1) i)
      let ins (i : Nat) : Bool := isNan32 (g vs1.val i) || isNan32 (g (vs1.val + 1) i) || isNan32 (g vs2.val i) || isNan32 (g (vs2.val + 1) i)
      { regs := [(vd.val, vecOf (ls.map (·.1))), (vd.val + 1, vecOf (ls.map (·.2.1))),
                 (vd.val + 2, vecOf (ls.map (·.2.2.1))), (vd.val + 3, vecOf (ls.map (·.2.2.2)))],
        flags := if (List.range 64).any ins then flNAN else 0,
        newNan := ls.zipIdx.any fun l => !ins l.2 && (isNan32 l.1.1 || isNan32 l.1.2.1 || isNan32 l.1.2.2.1 || isNan32 l.1.2.2.2) }

/-! Vector loads and stores (R137). -/

/-- Bytes moved and the place in the register: SIZE 0 the whole, 1 the lower, 2 the upper half. -/
def vldLen (size : Nat) : Nat := if size = 0 then 256 else 128
def vldOff (size : Nat) : Nat := if size = 2 then 128 else 0

/-- The cause of the exception of a vector access, if any (R137): a misaligned address comes before an access fault, as in `execLoad`, and before the
ENG_OPERAND of SIZE 0 outside TS (DESIGN CHOICE, log 130). -/
def vldFault (size : Nat) (addr : W64) (misaligned access : Nat) : Option Nat :=
  if size = 3 then some 2
  else if addr.toNat % vldLen size ≠ 0 then some misaligned
  else if addr.toNat / 2 ^ 62 = 3 then some access
  else if size = 0 && addr.toNat / 2 ^ 62 ≠ 0 then some 24
  else none

/-- ENG_VLD. -/
def execEngVld (a : At) (size : Fin 4) (vd : VReg) (rs1 : Reg) (e : Ecc) (s : State) : Out :=
  s.go fun m => m.coreDo a fun m =>
    let c := m.ctxAt a
    let addr := c.getX rs1
    match vldFault size.val addr 4 5 with
    | some cause => if cause = 2 then m.illegal a else m.fault a cause addr
    | none =>
      let n := vldLen size.val
      let m := m.accessEcc a.tile a.saddle c.part.val addr.toNat n e
      let r := m.coreRead a.tile a.saddle c.part.val addr.toNat n c.tcls.toNat
      if r.1.poison then r.2.consumed a r.1
      else
        let old := bytesOf (c.getV vd.val)
        let off := vldOff size.val
        (r.2.retire a 4 fun c => c.setV vd.val (vecBytes (old.take off ++ r.1.bytes) old)).dataTrig
          a.tile.val a.saddle.val 1 addr

/-- ENG_VST. -/
def execEngVst (a : At) (size : Fin 4) (vs2 : VReg) (rs1 : Reg) (e : Ecc) (s : State) : Out :=
  s.go fun m => m.coreDo a fun m =>
    let c := m.ctxAt a
    let addr := c.getX rs1
    match vldFault size.val addr 6 7 with
    | some cause => if cause = 2 then m.illegal a else m.fault a cause addr
    | none =>
      let n := vldLen size.val
      let m := m.accessEcc a.tile a.saddle c.part.val addr.toNat n e
      let bs := ((bytesOf (c.getV vs2.val)).drop (vldOff size.val)).take n
      let r := m.coreWrite a.tile a.saddle c.part.val addr.toNat bs c.tcls.toNat
      if r.1.poison then r.2.consumed a r.1
      else (r.2.retire a 4 id).dataTrig a.tile.val a.saddle.val 2 addr

end Sys2Proof.Machine
end

