-- ==== Sys2Proof/Machine/Dispatch.lean ====
section
/-! DEFINITION. One arm for each command: a direct call of its meaning. -/

namespace Sys2Proof.Machine

/-- The effect of a command on everything but the queue. -/
def exec (i : Instr) (s : State) : Host.Outcome State Fault Refusal :=
  match i with
  | .integerOp c op => Sys2Proof.Machine.execIntegerOp c op s
  | .branch c op => Sys2Proof.Machine.execBranch c op s
  | .divRem c op rd rs1 rs2 => Sys2Proof.Machine.execDivRem c op rd rs1 rs2 s
  | .load c width rd rs1 imm ecc => Sys2Proof.Machine.execLoad c width rd rs1 imm ecc s
  | .store c width rs1 rs2 imm ecc => Sys2Proof.Machine.execStore c width rs1 rs2 imm ecc s
  | .fence c pred succ => Sys2Proof.Machine.execFence c pred succ s
  | .fenceI c => Sys2Proof.Machine.execFenceI c s
  | .csrAccess c op rd src csr => Sys2Proof.Machine.execCsrAccess c op rd src csr s
  | .ebreak c => Sys2Proof.Machine.execEbreak c s
  | .ecall c => Sys2Proof.Machine.execEcall c s
  | .taskFaultDrained tile saddle => Sys2Proof.Machine.execTaskFaultDrained tile saddle s
  | .contextRotate tile => Sys2Proof.Machine.execContextRotate tile s
  | .engMm c wr acc rs1 => Sys2Proof.Machine.execEngMm c wr acc rs1 s
  | .vadd c vd vs1 vs2 residueFault => Sys2Proof.Machine.execVadd c vd vs1 vs2 residueFault s
  | .vsub c vd vs1 vs2 residueFault => Sys2Proof.Machine.execVsub c vd vs1 vs2 residueFault s
  | .vmul c vd vs1 vs2 residueFault => Sys2Proof.Machine.execVmul c vd vs1 vs2 residueFault s
  | .vfma c vd vs1 vs2 residueFault => Sys2Proof.Machine.execVfma c vd vs1 vs2 residueFault s
  | .vmin c vd vs1 vs2 => Sys2Proof.Machine.execVmin c vd vs1 vs2 s
  | .vmax c vd vs1 vs2 => Sys2Proof.Machine.execVmax c vd vs1 vs2 s
  | .vabs c vd vs1 => Sys2Proof.Machine.execVabs c vd vs1 s
  | .vneg c vd vs1 => Sys2Proof.Machine.execVneg c vd vs1 s
  | .vcmpEq c vd vs1 vs2 => Sys2Proof.Machine.execVcmpEq c vd vs1 vs2 s
  | .vcmpLt c vd vs1 vs2 => Sys2Proof.Machine.execVcmpLt c vd vs1 vs2 s
  | .vcmpLe c vd vs1 vs2 => Sys2Proof.Machine.execVcmpLe c vd vs1 vs2 s
  | .vcmpUnord c vd vs1 vs2 => Sys2Proof.Machine.execVcmpUnord c vd vs1 vs2 s
  | .vsel c vd vs1 vs2 => Sys2Proof.Machine.execVsel c vd vs1 vs2 s
  | .vand c vd vs1 vs2 => Sys2Proof.Machine.execVand c vd vs1 vs2 s
  | .vor c vd vs1 vs2 => Sys2Proof.Machine.execVor c vd vs1 vs2 s
  | .vxor c vd vs1 vs2 => Sys2Proof.Machine.execVxor c vd vs1 vs2 s
  | .viadd c vd vs1 vs2 residueFault => Sys2Proof.Machine.execViadd c vd vs1 vs2 residueFault s
  | .visub c vd vs1 vs2 => Sys2Proof.Machine.execVisub c vd vs1 vs2 s
  | .vimul c vd vs1 vs2 => Sys2Proof.Machine.execVimul c vd vs1 vs2 s
  | .vsll c vd vs1 vs2 => Sys2Proof.Machine.execVsll c vd vs1 vs2 s
  | .vsrl c vd vs1 vs2 => Sys2Proof.Machine.execVsrl c vd vs1 vs2 s
  | .vsra c vd vs1 vs2 => Sys2Proof.Machine.execVsra c vd vs1 vs2 s
  | .viadds c vd vs1 vs2 => Sys2Proof.Machine.execViadds c vd vs1 vs2 s
  | .vcvt c vd vs1 => Sys2Proof.Machine.execVcvt c vd vs1 s
  | .vmxenc c vd vs1 => Sys2Proof.Machine.execVmxenc c vd vs1 s
  | .vrsum c vd vs1 => Sys2Proof.Machine.execVrsum c vd vs1 s
  | .vrmax c vd vs1 => Sys2Proof.Machine.execVrmax c vd vs1 s
  | .vrmin c vd vs1 => Sys2Proof.Machine.execVrmin c vd vs1 s
  | .vexp c vd vs1 => Sys2Proof.Machine.execVexp c vd vs1 s
  | .vrcp c vd vs1 => Sys2Proof.Machine.execVrcp c vd vs1 s
  | .vrsqrt c vd vs1 => Sys2Proof.Machine.execVrsqrt c vd vs1 s
  | .vsmxr c vd vs1 vs2 => Sys2Proof.Machine.execVsmxr c vd vs1 vs2 s
  | .engVld c size vd rs1 ecc => Sys2Proof.Machine.execEngVld c size vd rs1 ecc s
  | .engVst c size vs2 rs1 ecc => Sys2Proof.Machine.execEngVst c size vs2 rs1 ecc s
  | .cpyPush c rd rs1 => Sys2Proof.Machine.execCpyPush c rd rs1 s
  | .cpyPushnb c rd rs1 => Sys2Proof.Machine.execCpyPushnb c rd rs1 s
  | .cpyWait c rd rs1 => Sys2Proof.Machine.execCpyWait c rd rs1 s
  | .cpyTest c rd rs1 => Sys2Proof.Machine.execCpyTest c rd rs1 s
  | .semSig c rs1 rs2 => Sys2Proof.Machine.execSemSig c rs1 rs2 s
  | .semWait c rd rs1 rs2 => Sys2Proof.Machine.execSemWait c rd rs1 rs2 s
  | .semTry c rd rs1 rs2 => Sys2Proof.Machine.execSemTry c rd rs1 rs2 s
  | .barAw c rd rs1 => Sys2Proof.Machine.execBarAw c rd rs1 s
  | .barA c rd rs1 => Sys2Proof.Machine.execBarA c rd rs1 s
  | .barW c rd rs1 rs2 => Sys2Proof.Machine.execBarW c rd rs1 rs2 s
  | .hintDead c rs1 rs2 => Sys2Proof.Machine.execHintDead c rs1 rs2 s
  | .fenceE c => Sys2Proof.Machine.execFenceE c s
  | .fenceM c => Sys2Proof.Machine.execFenceM c s
  | .fenceH c => Sys2Proof.Machine.execFenceH c s
  | .fenceFab c => Sys2Proof.Machine.execFenceFab c s
  | .fenceAll c => Sys2Proof.Machine.execFenceAll c s
  | .fenceDone tile saddle => Sys2Proof.Machine.execFenceDone tile saddle s
  | .dbgTrace c rs1 => Sys2Proof.Machine.execDbgTrace c rs1 s
  | .dbgBrk c => Sys2Proof.Machine.execDbgBrk c s
  | .taskEnd c rs1 => Sys2Proof.Machine.execTaskEnd c rs1 s
  | .matrixIssueStart tile => Sys2Proof.Machine.execMatrixIssueStart tile s
  | .issueWriteOut tile upset => Sys2Proof.Machine.execIssueWriteOut tile upset s
  | .thresholdStepDown tile cls => Sys2Proof.Machine.execThresholdStepDown tile cls s
  | .csuSelftest tile perturbedPasses => Sys2Proof.Machine.execCsuSelftest tile perturbedPasses s
  | .strikeLapse tile => Sys2Proof.Machine.execStrikeLapse tile s
  | .bankStarved tile bank req => Sys2Proof.Machine.execBankStarved tile bank req s
  | .splitChangeDone tile => Sys2Proof.Machine.execSplitChangeDone tile s
  | .copyComplete copy => Sys2Proof.Machine.execCopyComplete copy s
  | .guardWindowEnd slice => Sys2Proof.Machine.execGuardWindowEnd slice s
  | .fillReturn line ecc blocked => Sys2Proof.Machine.execFillReturn line ecc blocked s
  | .gets agent line part cls ecc => Sys2Proof.Machine.execGets agent line part cls ecc s
  | .getx agent line part cls ecc => Sys2Proof.Machine.execGetx agent line part cls ecc s
  | .upg agent line part cls => Sys2Proof.Machine.execUpg agent line part cls s
  | .putf agent line => Sys2Proof.Machine.execPutf agent line s
  | .pute agent line => Sys2Proof.Machine.execPute agent line s
  | .putm agent line => Sys2Proof.Machine.execPutm agent line s
  | .ncrd agent line part cls ecc => Sys2Proof.Machine.execNcrd agent line part cls ecc s
  | .ncwi agent line part cls byteen data => Sys2Proof.Machine.execNcwi agent line part cls byteen data s
  | .ncwh agent line part cls byteen data target => Sys2Proof.Machine.execNcwh agent line part cls byteen data target s
  | .dead agent line part => Sys2Proof.Machine.execDead agent line part s
  | .fwdS agent line => Sys2Proof.Machine.execFwdS agent line s
  | .fwdX agent line => Sys2Proof.Machine.execFwdX agent line s
  | .fwdNc agent line => Sys2Proof.Machine.execFwdNc agent line s
  | .inv agent line => Sys2Proof.Machine.execInv agent line s
  | .invd agent line => Sys2Proof.Machine.execInvd agent line s
  | .push tile line home => Sys2Proof.Machine.execPush tile line home s
  | .dataS agent line => Sys2Proof.Machine.execDataS agent line s
  | .dataF agent line => Sys2Proof.Machine.execDataF agent line s
  | .dataE agent line => Sys2Proof.Machine.execDataE agent line s
  | .dataM agent line => Sys2Proof.Machine.execDataM agent line s
  | .grantM agent line => Sys2Proof.Machine.execGrantM agent line s
  | .ncdata agent line => Sys2Proof.Machine.execNcdata agent line s
  | .ncack agent line => Sys2Proof.Machine.execNcack agent line s
  | .invAck agent line => Sys2Proof.Machine.execInvAck agent line s
  | .fwdAck agent line => Sys2Proof.Machine.execFwdAck agent line s
  | .pushAck tile line => Sys2Proof.Machine.execPushAck tile line s
  | .pushNak tile line => Sys2Proof.Machine.execPushNak tile line s
  | .putAck agent line => Sys2Proof.Machine.execPutAck agent line s
  | .nack agent line => Sys2Proof.Machine.execNack agent line s
  | .nackBackoffExpiry agent line => Sys2Proof.Machine.execNackBackoffExpiry agent line s
  | .ticketAdmit line => Sys2Proof.Machine.execTicketAdmit line s
  | .agentUnresponsive line agent => Sys2Proof.Machine.execAgentUnresponsive line agent s
  | .ncModeChange agent => Sys2Proof.Machine.execNcModeChange agent s
  | .tswr agent tile offset data part ecc => Sys2Proof.Machine.execTswr agent tile offset data part ecc s
  | .tsrd agent tile offset len part ecc => Sys2Proof.Machine.execTsrd agent tile offset len part ecc s
  | .tsdata agent tile => Sys2Proof.Machine.execTsdata agent tile s
  | .tsack agent tile => Sys2Proof.Machine.execTsack agent tile s
  | .red router flit atDestination => Sys2Proof.Machine.execRed router flit atDestination s
  | .chainringRelease router => Sys2Proof.Machine.execChainringRelease router s
  | .redack copy => Sys2Proof.Machine.execRedack copy s
  | .branchHoldExpiry port place => Sys2Proof.Machine.execBranchHoldExpiry port place s
  | .branchFail copy target => Sys2Proof.Machine.execBranchFail copy target s
  | .creditReturn port net vc => Sys2Proof.Machine.execCreditReturn port net vc s
  | .cnDoorbell iod => Sys2Proof.Machine.execCnDoorbell iod s
  | .cnCmd iod => Sys2Proof.Machine.execCnCmd iod s
  | .cnCmpl iod => Sys2Proof.Machine.execCnCmpl iod s
  | .cnSwr src dst line offset data part => Sys2Proof.Machine.execCnSwr src dst line offset data part s
  | .cnSwrack agent => Sys2Proof.Machine.execCnSwrack agent s
  | .cnLaunch tile saddle => Sys2Proof.Machine.execCnLaunch tile saddle s
  | .cnTaskend tile saddle => Sys2Proof.Machine.execCnTaskend tile saddle s
  | .cnFault tile saddle => Sys2Proof.Machine.execCnFault tile saddle s
  | .cnEvent iod => Sys2Proof.Machine.execCnEvent iod s
  | .snSig sem count src => Sys2Proof.Machine.execSnSig sem count src s
  | .snWait sem count tile saddle => Sys2Proof.Machine.execSnWait sem count tile saddle s
  | .snTry sem count tile saddle => Sys2Proof.Machine.execSnTry sem count tile saddle s
  | .snBarA bar src => Sys2Proof.Machine.execSnBarA bar src s
  | .snBarAw bar tile saddle => Sys2Proof.Machine.execSnBarAw bar tile saddle s
  | .snBarW bar phase tile saddle => Sys2Proof.Machine.execSnBarW bar phase tile saddle s
  | .snGrant tile saddle => Sys2Proof.Machine.execSnGrant tile saddle s
  | .snFail tile saddle => Sys2Proof.Machine.execSnFail tile saddle s
  | .snRetry tile saddle => Sys2Proof.Machine.execSnRetry tile saddle s
  | .waitResend tile saddle => Sys2Proof.Machine.execWaitResend tile saddle s
  | .snRelease tile saddle => Sys2Proof.Machine.execSnRelease tile saddle s
  | .clkADivChange half => Sys2Proof.Machine.execClkADivChange half s
  | .seamPauseEnd die => Sys2Proof.Machine.execSeamPauseEnd die s
  | .auditSample ledger sample => Sys2Proof.Machine.execAuditSample ledger sample s
  | .memRead pa data redundancy lane => Sys2Proof.Machine.execMemRead pa data redundancy lane s
  | .memWrite pa data poison => Sys2Proof.Machine.execMemWrite pa data poison s
  | .parityDelta pa delta => Sys2Proof.Machine.execParityDelta pa delta s
  | .scrub pa data redundancy lane => Sys2Proof.Machine.execScrub pa data redundancy lane s
  | .refresh stack => Sys2Proof.Machine.execRefresh stack s
  | .memRegionSet blob => Sys2Proof.Machine.execMemRegionSet blob s
  | .regionFormingDone => Sys2Proof.Machine.execRegionFormingDone s
  | .memTrainStepDone stack chan ok weak weakCa loopbackPass => Sys2Proof.Machine.execMemTrainStepDone stack chan ok weak weakCa loopbackPass s
  | .stackThermalSample temps => Sys2Proof.Machine.execStackThermalSample temps s
  | .critParkDone stack => Sys2Proof.Machine.execCritParkDone stack s
  | .resyncEnd stack => Sys2Proof.Machine.execResyncEnd stack s
  | .stackCmdTimeout stack chan => Sys2Proof.Machine.execStackCmdTimeout stack chan s
  | .rebuildStart stack => Sys2Proof.Machine.execRebuildStart stack s
  | .rebuildStep stack redundancy => Sys2Proof.Machine.execRebuildStep stack redundancy s
  | .memTgStart stack chan service => Sys2Proof.Machine.execMemTgStart stack chan service s
  | .memTgStop stack chan => Sys2Proof.Machine.execMemTgStop stack chan s
  | .memTgDone stack chan errors first lanes => Sys2Proof.Machine.execMemTgDone stack chan errors first lanes s
  | .slotSet cmd => Sys2Proof.Machine.execSlotSet cmd s
  | .slotClear cmd => Sys2Proof.Machine.execSlotClear cmd s
  | .seqAdmit cmd => Sys2Proof.Machine.execSeqAdmit cmd s
  | .seqAppend cmd => Sys2Proof.Machine.execSeqAppend cmd s
  | .seqPark cmd => Sys2Proof.Machine.execSeqPark cmd s
  | .seqResume cmd => Sys2Proof.Machine.execSeqResume cmd s
  | .seqRetire cmd => Sys2Proof.Machine.execSeqRetire cmd s
  | .seqQuery cmd => Sys2Proof.Machine.execSeqQuery cmd s
  | .stepCmd cmd => Sys2Proof.Machine.execStepCmd cmd s
  | .stepEnd cmd => Sys2Proof.Machine.execStepEnd cmd s
  | .retireDone index => Sys2Proof.Machine.execRetireDone index s
  | .selectionStart cmd item => Sys2Proof.Machine.execSelectionStart cmd item s
  | .selectionMerge cmd item => Sys2Proof.Machine.execSelectionMerge cmd item s
  | .seqAstInit => Sys2Proof.Machine.execSeqAstInit s
  | .seqAstInitDone => Sys2Proof.Machine.execSeqAstInitDone s
  | .seqPoolSet blob => Sys2Proof.Machine.execSeqPoolSet blob s
  | .taskLaunch iod => Sys2Proof.Machine.execTaskLaunch iod s
  | .contextEvictable tile saddle => Sys2Proof.Machine.execContextEvictable tile saddle s
  | .evictionReceived tile saddle => Sys2Proof.Machine.execEvictionReceived tile saddle s
  | .saveDone tile saddle => Sys2Proof.Machine.execSaveDone tile saddle s
  | .restoreDone tile saddle ecc => Sys2Proof.Machine.execRestoreDone tile saddle ecc s
  | .parkedWaitDone handle => Sys2Proof.Machine.execParkedWaitDone handle s
  | .interfWindowEnd part active waited => Sys2Proof.Machine.execInterfWindowEnd part active waited s
  | .sqDoorbell fn qp tail => Sys2Proof.Machine.execSqDoorbell fn qp tail s
  | .cqDoorbell fn qp head => Sys2Proof.Machine.execCqDoorbell fn qp head s
  | .adminSqDoorbell fn tail => Sys2Proof.Machine.execAdminSqDoorbell fn tail s
  | .adminCqDoorbell fn head => Sys2Proof.Machine.execAdminCqDoorbell fn head s
  | .commandFetchDone fn qp slots => Sys2Proof.Machine.execCommandFetchDone fn qp slots s
  | .nop cmd => Sys2Proof.Machine.execNop cmd s
  | .launch cmd => Sys2Proof.Machine.execLaunch cmd s
  | .copyCmd cmd => Sys2Proof.Machine.execCopyCmd cmd s
  | .pwrite cmd => Sys2Proof.Machine.execPwrite cmd s
  | .collective cmd => Sys2Proof.Machine.execCollective cmd s
  | .pin cmd => Sys2Proof.Machine.execPin cmd s
  | .unpin cmd => Sys2Proof.Machine.execUnpin cmd s
  | .barAlloc cmd => Sys2Proof.Machine.execBarAlloc cmd s
  | .mmuInval cmd => Sys2Proof.Machine.execMmuInval cmd s
  | .frameTag cmd => Sys2Proof.Machine.execFrameTag cmd s
  | .qpCreate cmd => Sys2Proof.Machine.execQpCreate cmd s
  | .qpDelete cmd => Sys2Proof.Machine.execQpDelete cmd s
  | .qpRebind cmd => Sys2Proof.Machine.execQpRebind cmd s
  | .resultFetch cmd => Sys2Proof.Machine.execResultFetch cmd s
  | .resultAck cmd => Sys2Proof.Machine.execResultAck cmd s
  | .commandComplete cmd => Sys2Proof.Machine.execCommandComplete cmd s
  | .flushReturn => Sys2Proof.Machine.execFlushReturn s
  | .tlimitExpiry cmd => Sys2Proof.Machine.execTlimitExpiry cmd s
  | .msixCoalesceTimer qp => Sys2Proof.Machine.execMsixCoalesceTimer qp s
  | .hifAttach fn => Sys2Proof.Machine.execHifAttach fn s
  | .hifAqEn fn => Sys2Proof.Machine.execHifAqEn fn s
  | .pcieLinkDown => Sys2Proof.Machine.execPcieLinkDown s
  | .pcieHotReset => Sys2Proof.Machine.execPcieHotReset s
  | .pcieRecoveryTimeout => Sys2Proof.Machine.execPcieRecoveryTimeout s
  | .hifPortSelect port => Sys2Proof.Machine.execHifPortSelect port s
  | .flr fn => Sys2Proof.Machine.execFlr fn s
  | .vfEnableClear => Sys2Proof.Machine.execVfEnableClear s
  | .partCreate blob => Sys2Proof.Machine.execPartCreate blob s
  | .partDisable part => Sys2Proof.Machine.execPartDisable part s
  | .disableDone part => Sys2Proof.Machine.execDisableDone part s
  | .shrSet blob => Sys2Proof.Machine.execShrSet blob s
  | .shrSeal slot => Sys2Proof.Machine.execShrSeal slot s
  | .shrClear slot => Sys2Proof.Machine.execShrClear slot s
  | .shrRepair blob => Sys2Proof.Machine.execShrRepair blob s
  | .mcastSet part blob => Sys2Proof.Machine.execMcastSet part blob s
  | .migLogFlip part => Sys2Proof.Machine.execMigLogFlip part s
  | .migLogOnWrite part on => Sys2Proof.Machine.execMigLogOnWrite part on s
  | .fabPortMode port mode => Sys2Proof.Machine.execFabPortMode port mode s
  | .fabLinkUp port idHash claimed partnerAccepts lanes credit => Sys2Proof.Machine.execFabLinkUp port idHash claimed partnerAccepts lanes credit s
  | .fabLinkFailRetry port cause => Sys2Proof.Machine.execFabLinkFailRetry port cause s
  | .laneRemove port lane => Sys2Proof.Machine.execLaneRemove port lane s
  | .ethLaneLoss port goodLanes => Sys2Proof.Machine.execEthLaneLoss port goodLanes s
  | .frameReplay port frames => Sys2Proof.Machine.execFrameReplay port frames s
  | .keyRenew port => Sys2Proof.Machine.execKeyRenew port s
  | .laserModuleFault quad => Sys2Proof.Machine.execLaserModuleFault quad s
  | .vflWrite p => Sys2Proof.Machine.execVflWrite p s
  | .vflWriteReduce p => Sys2Proof.Machine.execVflWriteReduce p s
  | .vflRead p => Sys2Proof.Machine.execVflRead p s
  | .vflReadRsp p => Sys2Proof.Machine.execVflReadRsp p s
  | .vflSignal p => Sys2Proof.Machine.execVflSignal p s
  | .vflMulticast p => Sys2Proof.Machine.execVflMulticast p s
  | .vflDcmp p run => Sys2Proof.Machine.execVflDcmp p run s
  | .vflOpen p => Sys2Proof.Machine.execVflOpen p s
  | .vflOpenAck p grant => Sys2Proof.Machine.execVflOpenAck p grant s
  | .vflColl p => Sys2Proof.Machine.execVflColl p s
  | .vflSlow p => Sys2Proof.Machine.execVflSlow p s
  | .vflAbort p => Sys2Proof.Machine.execVflAbort p s
  | .vflMgmt p total => Sys2Proof.Machine.execVflMgmt p total s
  | .deliveryTimeout iod dst eseq => Sys2Proof.Machine.execDeliveryTimeout iod dst eseq s
  | .collTimeout group => Sys2Proof.Machine.execCollTimeout group s
  | .slowHintTimer => Sys2Proof.Machine.execSlowHintTimer s
  | .quarExpiry entry => Sys2Proof.Machine.execQuarExpiry entry s
  | .fabAllowSet blob => Sys2Proof.Machine.execFabAllowSet blob s
  | .fabRouteSet blob => Sys2Proof.Machine.execFabRouteSet blob s
  | .fabGroupSet blob => Sys2Proof.Machine.execFabGroupSet blob s
  | .fabEthQpSet blob => Sys2Proof.Machine.execFabEthQpSet blob s
  | .fabWinSet part blob => Sys2Proof.Machine.execFabWinSet part blob s
  | .fabRkeySet part blob => Sys2Proof.Machine.execFabRkeySet part blob s
  | .roceWrite port qpn rkey addr payload => Sys2Proof.Machine.execRoceWrite port qpn rkey addr payload s
  | .roceWriteImm port qpn rkey addr payload imm => Sys2Proof.Machine.execRoceWriteImm port qpn rkey addr payload imm s
  | .roceRead port qpn rkey addr len => Sys2Proof.Machine.execRoceRead port qpn rkey addr len s
  | .roceAck port qpn psn => Sys2Proof.Machine.execRoceAck port qpn psn s
  | .roceRetryTimeout port qpn => Sys2Proof.Machine.execRoceRetryTimeout port qpn s
  | .udlTrain link weak usable quick => Sys2Proof.Machine.execUdlTrain link weak usable quick s
  | .udlCapx link partner => Sys2Proof.Machine.execUdlCapx link partner s
  | .udlPropose link => Sys2Proof.Machine.execUdlPropose link s
  | .udlConfirm link sameParameters ownErrors partnerErrors => Sys2Proof.Machine.execUdlConfirm link sameParameters ownErrors partnerErrors s
  | .udlConfirmTimeout link => Sys2Proof.Machine.execUdlConfirmTimeout link s
  | .udlDataFlit link seq ack crcOk body => Sys2Proof.Machine.execUdlDataFlit link seq ack crcOk body s
  | .udlNak link seq => Sys2Proof.Machine.execUdlNak link seq s
  | .udlPartnerTraining link => Sys2Proof.Machine.execUdlPartnerTraining link s
  | .detourTimeout link => Sys2Proof.Machine.execDetourTimeout link s
  | .udlDetourReturn link => Sys2Proof.Machine.execUdlDetourReturn link s
  | .udl1TrainingPattern die => Sys2Proof.Machine.execUdl1TrainingPattern die s
  | .xsTrain site modules cap => Sys2Proof.Machine.execXsTrain site modules cap s
  | .combEmitterFail src => Sys2Proof.Machine.execCombEmitterFail src s
  | .ringLockLoss link wavelength => Sys2Proof.Machine.execRingLockLoss link wavelength s
  | .halfSidebandLoss half => Sys2Proof.Machine.execHalfSidebandLoss half s
  | .halfRequestTimeout half gateways sliceSilent => Sys2Proof.Machine.execHalfRequestTimeout half gateways sliceSilent s
  | .iodHeartbeat iod => Sys2Proof.Machine.execIodHeartbeat iod s
  | .heartbeatMiss iod seenAlive => Sys2Proof.Machine.execHeartbeatMiss iod seenAlive s
  | .iodTakeoverDone iod => Sys2Proof.Machine.execIodTakeoverDone iod s
  | .waypointTimer part => Sys2Proof.Machine.execWaypointTimer part s
  | .wpTake part => Sys2Proof.Machine.execWpTake part s
  | .waypointDrained part => Sys2Proof.Machine.execWaypointDrained part s
  | .waypointDrainTimeout part => Sys2Proof.Machine.execWaypointDrainTimeout part s
  | .wpRestore part => Sys2Proof.Machine.execWpRestore part s
  | .ftTileTest tile => Sys2Proof.Machine.execFtTileTest tile s
  | .tileTestDone tile pass => Sys2Proof.Machine.execTileTestDone tile pass s
  | .ftDieDrain die => Sys2Proof.Machine.execFtDieDrain die s
  | .dieDrained die => Sys2Proof.Machine.execDieDrained die s
  | .ftDieTest die => Sys2Proof.Machine.execFtDieTest die s
  | .ftDieReturn die => Sys2Proof.Machine.execFtDieReturn die s
  | .ftStackRetrain word => Sys2Proof.Machine.execFtStackRetrain word s
  | .stackRetrainChannelDone stack chan ok weak => Sys2Proof.Machine.execStackRetrainChannelDone stack chan ok weak s
  | .returnLossTrip port => Sys2Proof.Machine.execReturnLossTrip port s
  | .lossOfLight port => Sys2Proof.Machine.execLossOfLight port s
  | .transmitTapTimeout port => Sys2Proof.Machine.execTransmitTapTimeout port s
  | .shutterProbe port => Sys2Proof.Machine.execShutterProbe port s
  | .laserModuleRemove quad => Sys2Proof.Machine.execLaserModuleRemove quad s
  | .inputOvervoltage => Sys2Proof.Machine.execInputOvervoltage s
  | .inputUndervoltage => Sys2Proof.Machine.execInputUndervoltage s
  | .inputOvercurrent => Sys2Proof.Machine.execInputOvercurrent s
  | .fetReclose => Sys2Proof.Machine.execFetReclose s
  | .segmentOvercurrent segment => Sys2Proof.Machine.execSegmentOvercurrent segment s
  | .junctionTrip half => Sys2Proof.Machine.execJunctionTrip half s
  | .junctionRecover half celsius => Sys2Proof.Machine.execJunctionRecover half celsius s
  | .junctionCrit die => Sys2Proof.Machine.execJunctionCrit die s
  | .coolantFlowLow => Sys2Proof.Machine.execCoolantFlowLow s
  | .coolantTempHigh => Sys2Proof.Machine.execCoolantTempHigh s
  | .interlockOpen => Sys2Proof.Machine.execInterlockOpen s
  | .safKick => Sys2Proof.Machine.execSafKick s
  | .safRelease service interlockClosed flow inlet hottest inputV barrierPasses => Sys2Proof.Machine.execSafRelease service interlockClosed flow inlet hottest inputV barrierPasses s
  | .busConverterFail conv => Sys2Proof.Machine.execBusConverterFail conv s
  | .refclkLoss => Sys2Proof.Machine.execRefclkLoss s
  | .pwrRefSelect src presentForOneSecond => Sys2Proof.Machine.execPwrRefSelect src presentForOneSecond s
  | .pllLockLoss die => Sys2Proof.Machine.execPllLockLoss die s
  | .powerCapSample watts => Sys2Proof.Machine.execPowerCapSample watts s
  | .fastClamp watts => Sys2Proof.Machine.execFastClamp watts s
  | .thermalLoopSample half celsius => Sys2Proof.Machine.execThermalLoopSample half celsius s
  | .voltageLoopStep half margin atVmaxFor1ms => Sys2Proof.Machine.execVoltageLoopStep half margin atVmaxFor1ms s
  | .droopThrottle tile => Sys2Proof.Machine.execDroopThrottle tile s
  | .droopEnd tile => Sys2Proof.Machine.execDroopEnd tile s
  | .coolantSample flowMilli inletMilli => Sys2Proof.Machine.execCoolantSample flowMilli inletMilli s
  | .kdpDiscover t f => Sys2Proof.Machine.execKdpDiscover t f s
  | .kdpRead t f => Sys2Proof.Machine.execKdpRead t f s
  | .kdpWrite t f env => Sys2Proof.Machine.execKdpWrite t f env s
  | .kdpDescribe t f => Sys2Proof.Machine.execKdpDescribe t f s
  | .kdpLoginChallenge t f => Sys2Proof.Machine.execKdpLoginChallenge t f s
  | .kdpLoginResponse t f signatureOk => Sys2Proof.Machine.execKdpLoginResponse t f signatureOk s
  | .kdpLogout t f => Sys2Proof.Machine.execKdpLogout t f s
  | .kdpSubscribe t f => Sys2Proof.Machine.execKdpSubscribe t f s
  | .kdpFetchEvents t f => Sys2Proof.Machine.execKdpFetchEvents t f s
  | .eventFrameSend session => Sys2Proof.Machine.execEventFrameSend session s
  | .mbxGo fn f env => Sys2Proof.Machine.execMbxGo fn f env s
  | .sessionIdleTimeout session => Sys2Proof.Machine.execSessionIdleTimeout session s
  | .loginLockoutExpiry t => Sys2Proof.Machine.execLoginLockoutExpiry t s
  | .actionRunningTimeout number => Sys2Proof.Machine.execActionRunningTimeout number s
  | .actionDone number estat => Sys2Proof.Machine.execActionDone number estat s
  | .kdpServerFailover => Sys2Proof.Machine.execKdpServerFailover s
  | .mgmtFragmentTimeout port => Sys2Proof.Machine.execMgmtFragmentTimeout port s
  | .kodSave => Sys2Proof.Machine.execKodSave s
  | .saveDelayExpiry => Sys2Proof.Machine.execSaveDelayExpiry s
  | .configSaveDone => Sys2Proof.Machine.execConfigSaveDone s
  | .kodFactory => Sys2Proof.Machine.execKodFactory s
  | .fwWrite blob image => Sys2Proof.Machine.execFwWrite blob image s
  | .fwCommit type => Sys2Proof.Machine.execFwCommit type s
  | .fwActivate => Sys2Proof.Machine.execFwActivate s
  | .fwLiveIod => Sys2Proof.Machine.execFwLiveIod s
  | .liveUpdateStepDone ok => Sys2Proof.Machine.execLiveUpdateStepDone ok s
  | .fwSvnCommit type => Sys2Proof.Machine.execFwSvnCommit type s
  | .spdmReq session request => Sys2Proof.Machine.execSpdmReq session request s
  | .dbgUnlock signatureOk within60s => Sys2Proof.Machine.execDbgUnlock signatureOk within60s s
  | .odoCopy => Sys2Proof.Machine.execOdoCopy s
  | .odoClear number inst => Sys2Proof.Machine.execOdoClear number inst s
  | .dbgTrigSet blob byOperator => Sys2Proof.Machine.execDbgTrigSet blob byOperator s
  | .dbgResume word => Sys2Proof.Machine.execDbgResume word s
  | .dbgFreewheel scope => Sys2Proof.Machine.execDbgFreewheel scope s
  | .freewheelDrained scope => Sys2Proof.Machine.execFreewheelDrained scope s
  | .dbgFreewheelEnd scope => Sys2Proof.Machine.execDbgFreewheelEnd scope s
  | .dbgBrake => Sys2Proof.Machine.execDbgBrake s
  | .brakeCut => Sys2Proof.Machine.execBrakeCut s
  | .brakeMarker unit input => Sys2Proof.Machine.execBrakeMarker unit input s
  | .brakeFabMarkerTimeout port => Sys2Proof.Machine.execBrakeFabMarkerTimeout port s
  | .brakeUnitTimeout unit => Sys2Proof.Machine.execBrakeUnitTimeout unit s
  | .dbgBrakeRelease => Sys2Proof.Machine.execDbgBrakeRelease s
  | .traceSpaceReturn src => Sys2Proof.Machine.execTraceSpaceReturn src s
  | .powerOn refPresent segFail => Sys2Proof.Machine.execPowerOn refPresent segFail s
  | .powerOff => Sys2Proof.Machine.execPowerOff s
  | .modStart inputOk => Sys2Proof.Machine.execModStart inputOk s
  | .modStop => Sys2Proof.Machine.execModStop s
  | .secureBoot inputOk factoryOk iodSelfTestOk => Sys2Proof.Machine.execSecureBoot inputOk factoryOk iodSelfTestOk s
  | .coldBringup pllFail barrier => Sys2Proof.Machine.execColdBringup pllFail barrier s
  | .readyReached => Sys2Proof.Machine.execReadyReached s
  | .registerWrite fn reg value => Sys2Proof.Machine.execRegisterWrite fn reg value s
  | .laserModuleInsert quad => Sys2Proof.Machine.execLaserModuleInsert quad s
  | .shutterFullOpen port => Sys2Proof.Machine.execShutterFullOpen port s
  | .doeRequest request => Sys2Proof.Machine.execDoeRequest request s

end Sys2Proof.Machine
end

