-- ==== Sys2Proof/WellFormed.lean ====
section
/-! DEFINITION. Well-formed commands: their operands pass the check of their kind. A command that is not well-formed is refused by name;
the commands listed last have no operand that could be out of form. -/

namespace Sys2Proof

/-- Is a command well-formed? -/
def Instr.wellFormed (i : Instr) : Bool :=
  match i with
  | .integerOp c op => Machine.integerOpOk c op
  | .branch _ op => Machine.branchOk op
  | .tswr _ _ offset data _ _ => Machine.tsSpanOk offset data.length
  | .tsrd _ _ offset len _ _ => Machine.tsSpanOk offset len
  | .red _ flit _ => Machine.redOk flit
  | .creditReturn _ net vc => Machine.creditOk net vc.val
  | .cnSwr _ _ _ offset data _ => Machine.swrOk offset data.length
  | .auditSample ledger sample => Machine.sampleOk ledger sample
  | .stackThermalSample temps => Machine.tempsOk temps
  | .commandFetchDone _ _ slots => Machine.slotsOk slots
  | .fabLinkUp _ _ _ _ lanes _ => Machine.lanesOk lanes
  | .ethLaneLoss _ goodLanes => Machine.laneLossOk goodLanes
  | .frameReplay _ frames => Machine.replayOk frames
  | .vflDcmp _ run => Machine.dcmpOk run
  | .vflOpenAck _ grant => Machine.grantOk grant
  | .vflMgmt _ total => Machine.mgmtOk total
  | .kdpDiscover _ f => Machine.opIs f 0
  | .kdpRead _ f => Machine.opIs f 1
  | .kdpWrite _ f _ => Machine.opIs f 2
  | .kdpDescribe _ f => Machine.opIs f 3
  | .kdpLoginChallenge _ f => Machine.opIs f 4
  | .kdpLoginResponse _ f _ => Machine.opIs f 5
  | .kdpLogout _ f => Machine.opIs f 6
  | .kdpSubscribe _ f => Machine.opIs f 7
  | .kdpFetchEvents _ f => Machine.opIs f 8
  | .divRem .. | .load .. | .store .. | .fence .. | .fenceI .. | .csrAccess .. | .ebreak .. | .ecall .. | .taskFaultDrained .. |
    .contextRotate .. | .engMm .. | .vadd .. | .vsub .. | .vmul .. | .vfma .. | .vmin .. | .vmax .. | .vabs .. | .vneg .. |
    .vcmpEq .. | .vcmpLt .. | .vcmpLe .. | .vcmpUnord .. | .vsel .. | .vand .. | .vor .. | .vxor .. | .viadd .. | .visub .. |
    .vimul .. | .vsll .. | .vsrl .. | .vsra .. | .viadds .. | .vcvt .. | .vmxenc .. | .vrsum .. | .vrmax .. | .vrmin .. |
    .vexp .. | .vrcp .. | .vrsqrt .. | .vsmxr .. | .engVld .. | .engVst .. | .cpyPush .. | .cpyPushnb .. | .cpyWait .. |
    .cpyTest .. | .semSig .. | .semWait .. | .semTry .. | .barAw .. | .barA .. | .barW .. | .hintDead .. | .fenceE .. |
    .fenceM .. | .fenceH .. | .fenceFab .. | .fenceAll .. | .fenceDone .. | .dbgTrace .. | .dbgBrk .. | .taskEnd .. |
    .matrixIssueStart .. | .issueWriteOut .. | .thresholdStepDown .. | .csuSelftest .. | .strikeLapse .. | .bankStarved .. |
    .splitChangeDone .. | .copyComplete .. | .guardWindowEnd .. | .fillReturn .. | .gets .. | .getx .. | .upg .. | .putf .. |
    .pute .. | .putm .. | .ncrd .. | .ncwi .. | .ncwh .. | .dead .. | .fwdS .. | .fwdX .. | .fwdNc .. | .inv .. | .invd .. |
    .push .. | .dataS .. | .dataF .. | .dataE .. | .dataM .. | .grantM .. | .ncdata .. | .ncack .. | .invAck .. | .fwdAck .. |
    .pushAck .. | .pushNak .. | .putAck .. | .nack .. | .nackBackoffExpiry .. | .ticketAdmit .. | .agentUnresponsive .. |
    .ncModeChange .. | .tsdata .. | .tsack .. | .chainringRelease .. | .redack .. | .branchHoldExpiry .. | .branchFail .. |
    .cnDoorbell .. | .cnCmd .. | .cnCmpl .. | .cnSwrack .. | .cnLaunch .. | .cnTaskend .. | .cnFault .. | .cnEvent .. |
    .snSig .. | .snWait .. | .snTry .. | .snBarA .. | .snBarAw .. | .snBarW .. | .snGrant .. | .snFail .. | .snRetry .. |
    .waitResend .. | .snRelease .. | .clkADivChange .. | .seamPauseEnd .. | .memRead .. | .memWrite .. | .parityDelta .. |
    .scrub .. | .refresh .. | .memRegionSet .. | .regionFormingDone | .memTrainStepDone .. | .critParkDone .. | .resyncEnd .. |
    .stackCmdTimeout .. | .rebuildStart .. | .rebuildStep .. | .memTgStart .. | .memTgStop .. | .memTgDone .. | .slotSet .. |
    .slotClear .. | .seqAdmit .. | .seqAppend .. | .seqPark .. | .seqResume .. | .seqRetire .. | .seqQuery .. | .stepCmd .. |
    .stepEnd .. | .retireDone .. | .selectionStart .. | .selectionMerge .. | .seqAstInit | .seqAstInitDone | .seqPoolSet .. |
    .taskLaunch .. | .contextEvictable .. | .evictionReceived .. | .saveDone .. | .restoreDone .. | .parkedWaitDone .. |
    .interfWindowEnd .. | .sqDoorbell .. | .cqDoorbell .. | .adminSqDoorbell .. | .adminCqDoorbell .. | .nop .. | .launch .. |
    .copyCmd .. | .pwrite .. | .collective .. | .pin .. | .unpin .. | .barAlloc .. | .mmuInval .. | .frameTag .. | .qpCreate .. |
    .qpDelete .. | .qpRebind .. | .resultFetch .. | .resultAck .. | .commandComplete .. | .flushReturn | .tlimitExpiry .. |
    .msixCoalesceTimer .. | .hifAttach .. | .hifAqEn .. | .pcieLinkDown | .pcieHotReset | .pcieRecoveryTimeout |
    .hifPortSelect .. | .flr .. | .vfEnableClear | .partCreate .. | .partDisable .. | .disableDone .. | .shrSet .. |
    .shrSeal .. | .shrClear .. | .shrRepair .. | .mcastSet .. | .migLogFlip .. | .migLogOnWrite .. | .fabPortMode .. |
    .fabLinkFailRetry .. | .laneRemove .. | .keyRenew .. | .laserModuleFault .. | .vflWrite .. | .vflWriteReduce .. |
    .vflRead .. | .vflReadRsp .. | .vflSignal .. | .vflMulticast .. | .vflOpen .. | .vflColl .. | .vflSlow .. | .vflAbort .. |
    .deliveryTimeout .. | .collTimeout .. | .slowHintTimer | .quarExpiry .. | .fabAllowSet .. | .fabRouteSet .. |
    .fabGroupSet .. | .fabEthQpSet .. | .fabWinSet .. | .fabRkeySet .. | .roceWrite .. | .roceWriteImm .. | .roceRead .. |
    .roceAck .. | .roceRetryTimeout .. | .udlTrain .. | .udlCapx .. | .udlPropose .. | .udlConfirm .. | .udlConfirmTimeout .. |
    .udlDataFlit .. | .udlNak .. | .udlPartnerTraining .. | .detourTimeout .. | .udlDetourReturn .. | .udl1TrainingPattern .. |
    .xsTrain .. | .combEmitterFail .. | .ringLockLoss .. | .halfSidebandLoss .. | .halfRequestTimeout .. | .iodHeartbeat .. |
    .heartbeatMiss .. | .iodTakeoverDone .. | .waypointTimer .. | .wpTake .. | .waypointDrained .. | .waypointDrainTimeout .. |
    .wpRestore .. | .ftTileTest .. | .tileTestDone .. | .ftDieDrain .. | .dieDrained .. | .ftDieTest .. | .ftDieReturn .. |
    .ftStackRetrain .. | .stackRetrainChannelDone .. | .returnLossTrip .. | .lossOfLight .. | .transmitTapTimeout .. |
    .shutterProbe .. | .laserModuleRemove .. | .inputOvervoltage | .inputUndervoltage | .inputOvercurrent | .fetReclose |
    .segmentOvercurrent .. | .junctionTrip .. | .junctionRecover .. | .junctionCrit .. | .coolantFlowLow | .coolantTempHigh |
    .interlockOpen | .safKick | .safRelease .. | .busConverterFail .. | .refclkLoss | .pwrRefSelect .. | .pllLockLoss .. |
    .powerCapSample .. | .fastClamp .. | .thermalLoopSample .. | .voltageLoopStep .. | .droopThrottle .. | .droopEnd .. |
    .coolantSample .. | .eventFrameSend .. | .mbxGo .. | .sessionIdleTimeout .. | .loginLockoutExpiry .. |
    .actionRunningTimeout .. | .actionDone .. | .kdpServerFailover | .mgmtFragmentTimeout .. | .kodSave | .saveDelayExpiry |
    .configSaveDone | .kodFactory | .fwWrite .. | .fwCommit .. | .fwActivate | .fwLiveIod | .liveUpdateStepDone .. |
    .fwSvnCommit .. | .spdmReq .. | .dbgUnlock .. | .odoCopy | .odoClear .. | .dbgTrigSet .. | .dbgResume .. | .dbgFreewheel .. |
    .freewheelDrained .. | .dbgFreewheelEnd .. | .dbgBrake | .brakeCut | .brakeMarker .. | .brakeFabMarkerTimeout .. |
    .brakeUnitTimeout .. | .dbgBrakeRelease | .traceSpaceReturn .. | .powerOn .. | .powerOff | .modStart .. | .modStop |
    .secureBoot .. | .coldBringup .. | .readyReached | .registerWrite .. | .laserModuleInsert .. | .shutterFullOpen .. |
    .doeRequest .. => true

end Sys2Proof
end

