-- ==== Sys2Proof/Safety.lean ====
section
/-! DEFINITION. What counts as a safe run, in the terms the statements use: a command that completes, a factory record that has only
moved on, memories in canonical form. -/

namespace Sys2Proof.Machine

/-- A command completes in a state that satisfies a property. -/
def Completes (o : Out) (P : State → Prop) : Prop := ∃ t, o = .next t ∧ P t

/-- The factory record and fuses have moved on: what was made stands, a minimum SVN has not fallen, no key revoked is good again (22 R602,
24 Table 24.3). -/
def Fuse.Follows (a b : Fuse) : Prop :=
  b.order = a.order ∧ b.stepping = a.stepping ∧ b.serial = a.serial ∧ b.mac = a.mac ∧ b.xsIdent = a.xsIdent ∧ b.uds = a.uds ∧
  b.deviceCert = a.deviceCert ∧ b.caCert = a.caCert ∧ b.revoked = a.revoked ∧ ∀ t, a.svnMin.getD t 0 ≤ b.svnMin.getD t 0

/-- The memories of the module are in canonical form: external memory, every scratchpad, every firmware slot. -/
def Mod.canonical (m : Mod) : Bool :=
  m.mem.em.wf && (m.tiles.all fun e => e.2.ts.wf) && m.sec.slots.all fun e => e.2.bytes.wf

/-- A command completes and makes the module `m`. -/
def Becomes (s : State) (m : Mod) : Out := .next { s with m := m }

/-- The core executes the next instruction of the context at `a` and nothing besides it: the context can run, its fetch succeeds and leaves the
module as `n` (a fetch may fill lines), no trigger is set in its saddle, and it is not being stepped (04 R127, R153-R155). -/
def Mod.Issues (m : Mod) (a : At) (n : Mod) : Prop :=
  m.canRun a = true ∧ (∃ pc, m.fetch (halfOfTile a.tile.val) (m.ctxAt a) a.compressed = (.ok, pc, n)) ∧ n.canRun a = true ∧ n.ctxAt a = m.ctxAt a ∧
  (m.ctxAt a).stepOver = false ∧ (m.ctxAt a).single = false ∧ (m.ctxAt a).trig = []

/-- The outcome of an instruction of `k` bytes that retires and makes its context `c`: the pc moves past it, one more instruction is retired,
nothing else of the module changes. -/
def Retires (s : State) (n : Mod) (a : At) (k : Nat) (c : Ctx) : Out :=
  Becomes s (n.setCtx a.tile.val a.saddle.val (c.advance k))

/-- The outcome of an action that makes the module `m` and is answered `es` (21 Table 21.4). -/
def Acts (s : State) (m : Mod) (num es : Nat) : Out := Becomes s (m.acted num es)

/-- A home admits an agent's request for a line at once: the agent is not fenced and has no request for the line outstanding, the way to the home
is not paused, the partition comparison and the pin extents accept it, the line is the home's own to serve, not BUSY, not filling, without a
ticket or a request that waits (06 R187, R199; 07 R227, R229, R235). -/
def Mod.HomeFree (m : Mod) (k : Nat) (r : Req) : Prop :=
  (decide (r.agent.val < 1024) && (m.tile r.agent.val).fenced) = false ∧ m.seamHeld r.agent.val k = false ∧
  m.tagAccepts r.agent.val r.part.val k r.kind.write = true ∧ m.psRefused k r = false ∧ (isPs k = true ∨ m.foster k = none) ∧
  m.psLost k = false ∧ m.busy k = false ∧ (∀ t ∈ m.cache.tickets, t.2.2 ≠ k) ∧ m.cache.mshr.getD k [] = [] ∧ m.cache.waitq.getD k [] = [] ∧
  m.req? r.agent.val k = none

/-- `x` is the coherence message of a kind for an agent and a line that is the next to arrive, and `rest` the messages without it: it waits for none
sent before it (log 137), and the way between the agent and the home is not paused. -/
def Mod.InFlight (m : Mod) (kd : MsgKind) (a : AgentId) (l : LineRef) (x : Msg) (rest : List Msg) : Prop :=
  takeMsg (fun y => y.kind == kd && y.agent == a && y.line == lineKey l) [] m.cache.net = some (x, rest) ∧
  x.kind = kd ∧ x.agent = a ∧ x.line = lineKey l ∧ m.seamHeld a.val (lineKey l) = false

/-- The module with other coherence messages in flight. -/
def Mod.withNet (m : Mod) (l : List Msg) : Mod := { m with cache := { m.cache with net := l } }

/-- A packet of a type reaches this module: its port is UP in VFL mode, it spends link credit, its header and length are sound, its source is
not quarantined and one the partner speaks for, and it is addressed to this module (16 R457, R465, R480). -/
def Mod.Delivers (m : Mod) (type : Nat) (p : Packet) : Prop :=
  (m.port p.port.val).state = 4 ∧ (m.port p.port.val).mode = 1 ∧ p.credit = true ∧ p.malformed = false ∧ lenOk type p = true ∧
  m.quarSrc p.src = false ∧ m.srcOk p.port.val p.src = true ∧ p.dst.toNat = m.moduleId

/-- The module once a port has admitted a packet: its bytes are counted. -/
def Mod.admitted (m : Mod) (p : Packet) : Mod := m.countBy kFabRxBytes p.port.val p.payload.length

/-- A packet is neither a duplicate nor beyond the record of its source's transport (16 R462, R463). -/
def Mod.Fresh (m : Mod) (p : Packet) : Prop :=
  (m.rx (rxKey p)).isOpen = true ∧ (p.eseq - (m.rx (rxKey p)).low).toNat < 65536 ∧ (m.rx (rxKey p)).done.contains p.eseq = false ∧
  ((m.rx (rxKey p)).held.any fun h => h.eseq == p.eseq) = false

/-- The module once a packet has been performed: its ESEQ is recorded, it is traced (23 Table 23.5) and answered, and SIGNAL packets that waited for it are performed. -/
def Mod.settled (m : Mod) (p : Packet) (data : Option (List Byte)) (afl : BitVec 4) : Mod :=
  let n := (m.setRx (rxKey p) ((m.rx (rxKey p)).perform p.eseq)).traceRx p
  (n.answer p data afl).releaseHeld (rxKey p) ((n.rx (rxKey p)).held.length + 1)

/-- The state in which a frame of a transport reaches the serving block: its mailbox is BUSY; a frame over the fabric leaves the frames that were
put together (21 R585, R587). -/
def State.reached (s : State) (t : Transport) : State :=
  match t with
  | .udp _ => s
  | .pf0 => { s with m := s.m.updFn 0 fun g => { g with mbxBusy := true } }
  | .vf k => { s with m := s.m.updFn k.val fun g => { g with mbxBusy := true } }
  | .vfl i => { s with m := s.m.updKod fun k => { k with mgmt := match (k.mgmt.filter fun e => e.1 == i.val).getLast? with
      | some e => k.mgmt.erase e
      | none => k.mgmt } }

/-- The serving block acts on a frame: fewer than 32 requests wait, a VF's partition is ACTIVE, VER is 1, the session `x` is the frame's, the
frame is not malformed, and above the transport's starting role its tag holds and its SEQ has risen (21 R572, R578-R580, R586). -/
def State.Accepts (s : State) (t : Transport) (f : KFrame) (x : Session) : Prop :=
  s.m.kod.held.length < 32 ∧ (∀ k, t = .vf k → (s.m.part k.val).st = .active) ∧ f.ver = 1 ∧ s.m.sess t f.session.toNat = some x ∧
  malformed f = false ∧ (x.role = startRole t ∨ (f.tagged = true ∧ f.tagOk = true ∧ ∀ n, x.lastSeq = some n → n < f.seq.toNat))

/-- The session and the state once the SEQ of a frame has been taken: it is kept above the starting role only. -/
def Session.noted (x : Session) (t : Transport) (f : KFrame) : Session := if x.role = startRole t then x else { x with lastSeq := some f.seq.toNat }
def State.noted (s : State) (t : Transport) (f : KFrame) (x : Session) : State :=
  if x.role = startRole t then s else { s with m := s.m.setSess t f.session.toNat (x.noted t f) }

/-- A safe state: its next command, if any, completes. -/
def State.Safe (s : State) : Prop := ∃ t, step s = .next t

end Sys2Proof.Machine
end

