-- ==== Sys2Proof/Certificates/Slice0/Obligations.lean ====
section
/-! DEFINITION. The statements for the provers. -/

open Sys2Proof Sys2Proof.Machine

/-- A step runs the command at the front of the queue on the state with the queue's rest. With no command waiting the block idles: one cycle
of the root clock passes, each vector queue completes an operation, each bank of a tile array serves a starved requester, and the hints that wait
for earlier accesses take effect; nothing else changes. Queue and idling are the block model's own (log 2, log 54). -/
def Obligations.StepRunsFront : Prop :=
  (∀ (c : Instr) (rest : List Instr) (s : State), step { s with pending := c :: rest } = exec c { s with pending := rest }) ∧
  (∀ s : State, s.pending = [] → step s = Becomes s s.m.tick ∧
    (s.m.cache.hints = [] → s.m.tick = { s.m with
      ticks := s.m.ticks + 1, ctxs := s.m.ctxs.mapVals (fun c => { c with vq := c.vq - 1 }), tiles := s.m.tiles.mapVals Tile.serveStarved }))

/-! The control core (04). -/

/-- INTEGER_OP and DIV_REM, every form: the destination register gets the result, x0 discards it; nothing else but pc and the retired count
changes (04 R121, R655). Division corners (04 R655): a zero divisor gives all ones and the dividend, the overflowing quotient is the
dividend with remainder 0, and a quotient and remainder make up the dividend again. Register x0 reads zero, and a write to it changes
nothing (04 R121). A word that spells no instruction is illegal instruction, but for MRET and WFI in M-mode: MRET goes to mepc in the mode of
MPP, WFI retires (log 130, log 133). -/
def Obligations.IntegerResults : Prop :=
  (∀ (s : State) (a : At) (n : Mod), s.m.Issues a n → let c := s.m.ctxAt a
    (∀ op rd rs1 rs2, exec (.integerOp a (.rr op rd rs1 rs2)) s =
      Retires s n a (atLen a) (c.setX rd (aluResult op (c.getX rs1) (c.getX rs2)))) ∧
    (∀ op rd rs1 imm, aluHasImm op = true → immFits op imm = true → exec (.integerOp a (.ri op rd rs1 imm)) s =
      Retires s n a (atLen a) (c.setX rd (aluResult op (c.getX rs1) (imm.signExtend 64)))) ∧
    (∀ rd imm, exec (.integerOp a (.lui rd imm)) s =
      Retires s n a (atLen a) (c.setX rd ((imm ++ (0 : BitVec 12)).signExtend 64))) ∧
    (∀ rd imm, exec (.integerOp a (.auipc rd imm)) s =
      Retires s n a (atLen a) (c.setX rd (c.pc + (imm ++ (0 : BitVec 12)).signExtend 64))) ∧
    (∀ op rd rs1 rs2, exec (.divRem a op rd rs1 rs2) s =
      Retires s n a (atLen a) (c.setX rd (divResult op (c.getX rs1) (c.getX rs2)))) ∧
    (∀ w, integerOpOk a (.word w) = true →
      (c.mmode = false ∨ (w ≠ 0x30200073 ∧ w ≠ 0x10500073) → exec (.integerOp a (.word w)) s = Becomes s (n.illegal a)) ∧
      (c.mmode = true → w = 0x10500073 → exec (.integerOp a (.word w)) s = Retires s n a 4 c) ∧
      (c.mmode = true → w = 0x30200073 → ∃ d : Ctx, exec (.integerOp a (.word w)) s = Becomes s (n.setCtx a.tile.val a.saddle.val d) ∧
        d.pc = c.mcsr.getD 0x341 0 ∧ d.mmode = decide (bits (c.mcsr.getD 0x300 0).toNat 12 11 = 3) ∧ d.instret = c.instret + 1 ∧
        d.x = c.x ∧ d.v = c.v ∧ bits (d.mcsr.getD 0x300 0).toNat 12 11 = 0 ∧ (d.mcsr.getD 0x300 0).getLsbD 7 = true ∧
        (d.mcsr.getD 0x300 0).getLsbD 3 = (c.mcsr.getD 0x300 0).getLsbD 7))) ∧
  ((∀ x y : W64,
    divResult .div x 0 = BitVec.allOnes 64 ∧ divResult .rem x 0 = x ∧ divResult .divu x 0 = BitVec.allOnes 64 ∧
    divResult .remu x 0 = x ∧
    divResult .div (BitVec.intMin 64) (BitVec.allOnes 64) = BitVec.intMin 64 ∧
    divResult .rem (BitVec.intMin 64) (BitVec.allOnes 64) = 0 ∧
    divResult .div x y * y + divResult .rem x y = x ∧ divResult .divu x y * y + divResult .remu x y = x) ∧
  (∀ (c : Ctx) (r q : Reg) (v : W64), c.getX 0 = 0 ∧ c.setX 0 v = c ∧ (r ≠ 0 → (c.setX r v).getX r = v) ∧
    (q ≠ r → (c.setX r v).getX q = c.getX q)))

/-- BRANCH, every form: only the pc, the link register and the retired count change. FENCE, FENCE_I and DBG_TRACE retire; HINT_DEAD retires with its
lines marked once the context's earlier accesses are performed, or with nothing marked outside external memory; the fences of Table 4.7 retire
where their condition holds, and block their context where it does not, one for host-memory writes with a read flush issued (04 R128, R149,
R150, R156, 08 R255). EBREAK and DBG_BRK stop a context for which debug is enabled, under a fresh handle, with DBG_HALT raised; without it EBREAK
is an exception and DBG_BRK does nothing (04 R155). ECALL is the exception of an environment call from its mode (04 Table 4.3). -/
def Obligations.BranchesAndCalls : Prop :=
  (∀ (s : State) (a : At) (n : Mod), s.m.Issues a n → let c := s.m.ctxAt a
    let goesOn (d : Ctx) (pc : W64) : Out := Becomes s (n.setCtx a.tile.val a.saddle.val { d with pc := pc, instret := c.instret + 1 })
    let next := c.pc + BitVec.ofNat 64 (atLen a)
    (∀ k rs1 rs2 off, off.getLsbD 0 = false → condHolds k (c.getX rs1) (c.getX rs2) = true →
      exec (.branch a (.cond k rs1 rs2 off)) s = goesOn c (c.pc + off.signExtend 64)) ∧
    (∀ k rs1 rs2 off, off.getLsbD 0 = false → condHolds k (c.getX rs1) (c.getX rs2) = false →
      exec (.branch a (.cond k rs1 rs2 off)) s = goesOn c next) ∧
    (∀ rd off, off.getLsbD 0 = false → exec (.branch a (.jal rd off)) s = goesOn (c.setX rd next) (c.pc + off.signExtend 64)) ∧
    (∀ rd rs1 imm, exec (.branch a (.jalr rd rs1 imm)) s = goesOn (c.setX rd next) ((c.getX rs1 + imm.signExtend 64) &&& ~~~(1 : W64)))) ∧
  ((∀ (s : State) (a : At) (n : Mod), s.m.Issues a n → let c := s.m.ctxAt a
    (∀ p q, exec (.fence a p q) s = Retires s n a (atLen a) c) ∧ exec (.fenceI a) s = Retires s n a (atLen a) c ∧
    (∀ k : Fin 5, n.fenceMet a.tile.val a.saddle.val k.val = true →
      exec (match k with
        | 0 => .fenceE a | 1 => .fenceM a | 2 => .fenceH a | 3 => .fenceFab a | 4 => .fenceAll a) s =
      Retires s n a 4 { c with fabPend := if k.val = 3 ∨ k.val = 4 then false else c.fabPend }) ∧
    (∀ k : Fin 5, n.fenceMet a.tile.val a.saddle.val k.val = false →
      exec (match k with
        | 0 => .fenceE a | 1 => .fenceM a | 2 => .fenceH a | 3 => .fenceFab a | 4 => .fenceAll a) s =
      Becomes s ((if (k.val = 2 ∨ k.val = 4) ∧ c.hmPend = true ∧ n.enginesIdle a.tile.val a.saddle.val = true ∧ n.host.flush = false ∧
          n.host.portState ≠ 2 then n.issueFlush else n).block a.tile.val a.saddle.val (.fence k))) ∧
    (∀ rs1 rs2, let va := (c.getX rs1).toNat
      let h : DeadHint := { uid := c.uid, tile := a.tile, part := c.part, va := va % 2 ^ 62,
                            len := min (c.getX rs2).toNat (64 * 2 ^ 20), issue := c.issues, copy := n.copySeq }
      (va / 2 ^ 62 ≠ 2 ∨ 2 ^ 48 ≤ va % 2 ^ 62 → exec (.hintDead a rs1 rs2) s = Retires s n a 4 c) ∧
      (va / 2 ^ 62 = 2 → va % 2 ^ 62 < 2 ^ 48 → n.hintReady h = true →
        exec (.hintDead a rs1 rs2) s = Becomes s ((n.deadRange (Fin.ofNat 2048 a.tile.val) c.part.val h.va h.len).retire a 4 id)) ∧
      (va / 2 ^ 62 = 2 → va % 2 ^ 62 < 2 ^ 48 → n.hintReady h = false →
        exec (.hintDead a rs1 rs2) s = Retires s { n with cache := { n.cache with hints := n.cache.hints ++ [h] } } a 4 c)) ∧
    (∀ rs1, n.parB pDbgTraceOn = false → exec (.dbgTrace a rs1) s = Retires s n a 4 c) ∧
    (∀ rs1, let b := n.dbg.buf.getD (halfOfTile a.tile.val) []
      n.parB pDbgTraceOn = true → (n.parN pDbgTraceMask).testBit 0 = true → b.length < 4096 →
      ∃ r : TraceRec, Completes (exec (.dbgTrace a rs1) s) fun t =>
        t.m.dbg.buf.getD (halfOfTile a.tile.val) [] = b ++ [r] ∧ r.kind = 0 ∧ r.data = (c.getX rs1).truncate 32 ∧
        r.aux = c.pc.truncate 32 ∧ r.part.toNat = c.part.val ∧ t.m.ctxAt a = c.advance 4)) ∧
  (∀ (s : State) (a : At) (n : Mod), s.m.Issues a n → let c := s.m.ctxAt a
    exec (.ecall a) s = Becomes s (n.fault a (if c.mmode then 11 else 8) 0) ∧
    (n.debugOn c = false → exec (.ebreak a) s = Becomes s (n.fault a 3 c.pc) ∧ exec (.dbgBrk a) s = Retires s n a 4 c) ∧
    (n.debugOn c = true → ∀ i ∈ [Instr.ebreak a, .dbgBrk a], Completes (exec i s) fun t =>
      (t.m.ctxAt a).st = .halted ∧ (t.m.ctxAt a).pc = c.pc ∧ (t.m.ctxAt a).x = c.x ∧
      (t.m.ctxAt a).handle = some (c.handle.getD n.dbg.nextHandle) ∧
      Tab.find (c.handle.getD n.dbg.nextHandle).toNat t.m.dbg.halted = some c.uid ∧
      (∃ e, t.m.kod.evq = n.kod.evq ++ [e] ∧ e.code = evDbgHalt ∧ e.part.toNat = c.part.val) ∧ t.m.mem = n.mem ∧ t.m.cache = n.cache)))

/-- LOAD and STORE of a naturally aligned address outside space 3 whose array words are sound (04 R124-R126): the register gets what the address
holds; a store writes the register's low bytes. A misaligned load or store, and one in space 3, is an exception: cause and address are recorded, no
register and no memory is written; in U-mode it ends the task (04 R126, R129), in M-mode the pc goes to the handler (R121; log 133). -/
def Obligations.LoadsAndStores : Prop :=
  (∀ (s : State) (a : At) (n : Mod), s.m.Issues a n → let c := s.m.ctxAt a
    (∀ wd rd rs1 imm, let addr := effAddr (c.getX rs1) imm
      let r := n.coreRead a.tile a.saddle c.part.val addr.toNat (loadBytes wd) c.tcls.toNat
      addr.toNat % loadBytes wd = 0 → addr.toNat / 2 ^ 62 ≠ 3 → r.1.poison = false → r.2.ctxAt a = c →
      exec (.load a wd rd rs1 imm .ok) s = Retires s r.2 a (atLen a) (c.setX rd (loadValue wd r.1.bytes))) ∧
    (∀ wd rs1 rs2 imm, let addr := effAddr (c.getX rs1) imm
      let r := n.coreWrite a.tile a.saddle c.part.val addr.toNat (leBytes (c.getX rs2).toNat (storeBytes wd)) c.tcls.toNat
      addr.toNat % storeBytes wd = 0 → addr.toNat / 2 ^ 62 ≠ 3 → r.1.poison = false → r.2.ctxAt a = c →
      exec (.store a wd rs1 rs2 imm .ok) s = Retires s r.2 a (atLen a) c)) ∧
  (∀ (s : State) (a : At) (n : Mod), s.m.Issues a n → let c := s.m.ctxAt a
    (∀ wd rd rs1 imm e, let addr := effAddr (c.getX rs1) imm
      addr.toNat % loadBytes wd ≠ 0 → exec (.load a wd rd rs1 imm e) s = Becomes s (n.fault a 4 addr)) ∧
    (∀ wd rd rs1 imm e, let addr := effAddr (c.getX rs1) imm
      addr.toNat % loadBytes wd = 0 → addr.toNat / 2 ^ 62 = 3 →
      exec (.load a wd rd rs1 imm e) s = Becomes s (n.fault a 5 addr)) ∧
    (∀ wd rs1 rs2 imm e, let addr := effAddr (c.getX rs1) imm
      addr.toNat % storeBytes wd ≠ 0 → exec (.store a wd rs1 rs2 imm e) s = Becomes s (n.fault a 6 addr)) ∧
    (∀ wd rs1 rs2 imm e, let addr := effAddr (c.getX rs1) imm
      addr.toNat % storeBytes wd = 0 → addr.toNat / 2 ^ 62 = 3 →
      exec (.store a wd rs1 rs2 imm e) s = Becomes s (n.fault a 7 addr)) ∧
    (∀ cause mtval, let d := (n.fault a cause mtval).ctxAt a
      (c.mmode = false → d.ending = some stARITH ∧ d.endKind = fkPROGRAM ∧ d.endMcause = cause ∧ d.endMtval = mtval ∧ d.pc = c.pc) ∧
      (c.mmode = true → d = { c.trapped cause mtval with pc := d.pc } ∧ d.pc = c.mcsr.getD 0x305 0 &&& ~~~(3 : W64)) ∧
      d.mcsr.getD 0x341 0 = c.pc ∧ d.mcsr.getD 0x342 0 = BitVec.ofNat 64 cause ∧ d.mcsr.getD 0x343 0 = mtval ∧
      d.x = c.x ∧ d.v = c.v ∧ (n.fault a cause mtval).tiles.getD a.tile.val {} =
        { n.tile a.tile.val with cur := ((n.fault a cause mtval).tile a.tile.val).cur } ∧
      (n.fault a cause mtval).mem = n.mem ∧ (n.fault a cause mtval).cache = n.cache))

/-- CSR_ACCESS of a register that the context's mode may use (04 Table 4.4): the old value is written to rd, the new one to the register unless it is
not written. A CSR instruction that would write tarith, tflags or tctx raises illegal instruction and changes no register: CSRRW always
counts as writing, the others unless rs1 is x0 or the immediate is 0 (04 R656). So does any use of time (04 R123). -/
def Obligations.CsrAccess : Prop :=
  ∀ (s : State) (a : At) (n : Mod) (rd : Reg) (csr : BitVec 12), s.m.Issues a n → let c := s.m.ctxAt a
    let old := n.csrRead a.tile.val a.saddle.val csr.toNat
    (∀ rs1, csrWritable c.mmode csr.toNat = true →
      exec (.csrAccess a .rw rd (.reg rs1) csr) s = Retires s n a 4 ((c.csrWrite csr.toNat (c.getX rs1)).setX rd old)) ∧
    (∀ rs1, rs1 ≠ 0 → csrWritable c.mmode csr.toNat = true →
      exec (.csrAccess a .rs rd (.reg rs1) csr) s = Retires s n a 4 ((c.csrWrite csr.toNat (old ||| c.getX rs1)).setX rd old) ∧
      exec (.csrAccess a .rc rd (.reg rs1) csr) s = Retires s n a 4 ((c.csrWrite csr.toNat (old &&& ~~~(c.getX rs1))).setX rd old)) ∧
    (∀ u : BitVec 5, csrWritable c.mmode csr.toNat = true →
      exec (.csrAccess a .rw rd (.imm u) csr) s = Retires s n a 4 ((c.csrWrite csr.toNat (u.setWidth 64)).setX rd old)) ∧
    (∀ u : BitVec 5, u ≠ 0 → csrWritable c.mmode csr.toNat = true →
      exec (.csrAccess a .rs rd (.imm u) csr) s = Retires s n a 4 ((c.csrWrite csr.toNat (old ||| u.setWidth 64)).setX rd old) ∧
      exec (.csrAccess a .rc rd (.imm u) csr) s = Retires s n a 4 ((c.csrWrite csr.toNat (old &&& ~~~(u.setWidth 64))).setX rd old)) ∧
    (∀ op, op ≠ .rw → csrReadable c.mmode csr.toNat = true →
      exec (.csrAccess a op rd (.reg 0) csr) s = Retires s n a 4 (c.setX rd old) ∧
      exec (.csrAccess a op rd (.imm 0) csr) s = Retires s n a 4 (c.setX rd old)) ∧
    (∀ op src, csrReadable c.mmode csr.toNat = false → exec (.csrAccess a op rd src csr) s = Becomes s (n.illegal a)) ∧
    (∀ op src, csr ∈ [0x803#12, 0x804, 0xCC1] → (op = .rw ∨ (src ≠ .reg 0 ∧ src ≠ .imm 0)) →
      exec (.csrAccess a op rd src csr) s = Becomes s (n.illegal a)) ∧
    (∀ op src, csr = 0xC01 → exec (.csrAccess a op rd src csr) s = Becomes s (n.illegal a))

/-! The vector unit (03, 04). -/

/-- The lane-wise integer and logic operations: each of the 64 lanes gets its result, no flag changes (03 R98, 04 R138). Comparisons give all
ones or all zeros in a lane, and SEL picks a lane by the old destination (04 Table 4.8). Each joins the context's vector queue, which holds
fewer than eight operations; on a full queue ENG.V stalls and nothing changes (04 R136). -/
def Obligations.VectorInteger : Prop :=
  (∀ (s : State) (a : At) (n : Mod) (vd v1 v2 : VReg), s.m.Issues a n → (s.m.ctxAt a).vq < 8 → let c := s.m.ctxAt a
    ∀ p ∈ ([(.vand ⟨a, false⟩ vd v1 v2, fun x y => x &&& y), (.vor ⟨a, false⟩ vd v1 v2, fun x y => x ||| y),
        (.vxor ⟨a, false⟩ vd v1 v2, fun x y => x ^^^ y), (.viadd a vd v1 v2 false, fun x y => x + y),
        (.visub ⟨a, false⟩ vd v1 v2, fun x y => x - y), (.vimul ⟨a, false⟩ vd v1 v2, fun x y => x * y),
        (.vsll ⟨a, false⟩ vd v1 v2, fun x y => x <<< (y.toNat % 32)), (.vsrl ⟨a, false⟩ vd v1 v2, fun x y => x >>> (y.toNat % 32)),
        (.vsra ⟨a, false⟩ vd v1 v2, fun x y => x.sshiftRight (y.toNat % 32)),
        (.viadds ⟨a, false⟩ vd v1 v2, fun x y => BitVec.ofInt 32 (max (-2 ^ 31) (min (2 ^ 31 - 1) (x.toInt + y.toInt))))] :
        List (Instr × (W32 → W32 → W32))),
      ∃ v, exec p.1 s = Retires s n a 4 { c.setV vd.val v with vq := c.vq + 1 } ∧
        ∀ i < 64, lane v i = p.2 (lane (c.getV v1.val) i) (lane (c.getV v2.val) i)) ∧
  (∀ (s : State) (a : At) (vd v1 v2 : VReg) (res : Bool), 8 ≤ (s.m.ctxAt a).vq →
    ∀ i ∈ [Instr.vand ⟨a, res⟩ vd v1 v2, .vor ⟨a, res⟩ vd v1 v2, .vxor ⟨a, res⟩ vd v1 v2, .viadd a vd v1 v2 res, .visub ⟨a, res⟩ vd v1 v2,
      .vimul ⟨a, res⟩ vd v1 v2, .vsll ⟨a, res⟩ vd v1 v2, .vsrl ⟨a, res⟩ vd v1 v2, .vsra ⟨a, res⟩ vd v1 v2, .viadds ⟨a, res⟩ vd v1 v2,
      .vcmpEq ⟨a, res⟩ vd v1 v2, .vcmpLt ⟨a, res⟩ vd v1 v2, .vcmpLe ⟨a, res⟩ vd v1 v2, .vcmpUnord ⟨a, res⟩ vd v1 v2, .vsel ⟨a, res⟩ vd v1 v2],
      exec i s = .next s) ∧
  (∀ (s : State) (a : At) (n : Mod) (vd v1 v2 : VReg), s.m.Issues a n → (s.m.ctxAt a).vq < 8 → let c := s.m.ctxAt a
    let x (i : Nat) : Val := ofF32 (lane (c.getV v1.val) i).toNat
    let y (i : Nat) : Val := ofF32 (lane (c.getV v2.val) i).toNat
    (∀ p ∈ ([(.vcmpEq ⟨a, false⟩ vd v1 v2, Val.eqv), (.vcmpLt ⟨a, false⟩ vd v1 v2, Val.lt), (.vcmpLe ⟨a, false⟩ vd v1 v2, Val.le),
        (.vcmpUnord ⟨a, false⟩ vd v1 v2, fun x y => x.isNan || y.isNan)] : List (Instr × (Val → Val → Bool))),
      ∃ v fl, exec p.1 s = Retires s n a 4 { c.setV vd.val v with tflags := c.tflags ||| fl, vq := c.vq + 1 } ∧
        (fl = 0 ∨ fl = BitVec.ofNat 4 flNAN) ∧
        (fl = 0 ↔ ∀ i < 64, (x i).isNan = false ∧ (y i).isNan = false) ∧
        ∀ i < 64, lane v i = if p.2 (x i) (y i) then BitVec.allOnes 32 else 0) ∧
    ∃ v, exec (.vsel ⟨a, false⟩ vd v1 v2) s = Retires s n a 4 { c.setV vd.val v with vq := c.vq + 1 } ∧
      ∀ i < 64, lane v i = if lane (c.getV vd.val) i = 0 then lane (c.getV v2.val) i else lane (c.getV v1.val) i)

/-- The lane-wise FP32 operations: each lane gets the rounded result of its exact operands, NAN_SEEN is set where an operand lane is a NaN
and no other flag changes (02 R64, Table 2.8; 03 R98). -/
def Obligations.VectorFloat : Prop :=
  ∀ (s : State) (a : At) (n : Mod) (vd v1 v2 : VReg), s.m.Issues a n → (s.m.ctxAt a).nanFault = false → (s.m.ctxAt a).vq < 8 →
    let c := s.m.ctxAt a
    let x (i : Nat) : Val := ofF32 (lane (c.getV v1.val) i).toNat
    let y (i : Nat) : Val := ofF32 (lane (c.getV v2.val) i).toNat
    let z (i : Nat) : Val := ofF32 (lane (c.getV vd.val) i).toNat
    ∀ p ∈ ([(.vadd a vd v1 v2 false, [v1, v2], fun i => Val.add (x i) (y i)),
        (.vsub a vd v1 v2 false, [v1, v2], fun i => Val.add (x i) (y i).negate),
        (.vmul a vd v1 v2 false, [v1, v2], fun i => Val.mul (x i) (y i)),
        (.vfma a vd v1 v2 false, [v1, v2, vd], fun i => Val.add (Val.mul (x i) (y i)) (z i)),
        (.vmin ⟨a, false⟩ vd v1 v2, [v1, v2], fun i => vMin (x i) (y i)), (.vmax ⟨a, false⟩ vd v1 v2, [v1, v2], fun i => vMax (x i) (y i)),
        (.vabs ⟨a, false⟩ vd v1, [v1], fun i => (x i).abs), (.vneg ⟨a, false⟩ vd v1, [v1], fun i => (x i).negate)] :
        List (Instr × List VReg × (Nat → Val))),
      ∃ v, exec p.1 s = Retires s n a 4 { c.setV vd.val v with
          vq := c.vq + 1,
          tflags := c.tflags ||| (if (List.range 64).any (fun i => p.2.1.any fun r => isNan32 (lane (c.getV r.val) i)) then BitVec.ofNat 4 flNAN
            else 0) } ∧
        ∀ i < 64, (lane v i).toNat = toF32 (p.2.2 i) % 2 ^ 32

/-- Reductions leave their result in lane 0 and zero in the other lanes; special functions act lane by lane; SMXR writes four registers (03
R99-R101, 04 R139). A NaN that no operand holds ends the task ARITH while NANP is FAULT, and a residue mismatch of any vector operation ends it
with a mismatch recorded and counted (02 Table 2.7, 03 R102, R103, R111). -/
def Obligations.VectorReduceAndSpecial : Prop :=
  (∀ (s : State) (a : At) (n : Mod) (vd v1 v2 : VReg), s.m.Issues a n → (s.m.ctxAt a).nanFault = false → (s.m.ctxAt a).vq < 8 →
    let c := s.m.ctxAt a
    let xs := (lanesOf (c.getV v1.val)).map fun x => ofF32 x.toNat
    let nan := xs.any Val.isNan
    let fl : BitVec 4 := if nan then BitVec.ofNat 4 flNAN else 0
    (∀ p ∈ ([(.vrsum ⟨a, false⟩ vd v1, fun x y => rnd32 (Val.add x y)), (.vrmax ⟨a, false⟩ vd v1, vMax), (.vrmin ⟨a, false⟩ vd v1, vMin)] :
        List (Instr × (Val → Val → Val))),
      ∃ v, exec p.1 s = Retires s n a 4 { c.setV vd.val v with tflags := c.tflags ||| fl, vq := c.vq + 1 } ∧
        (lane v 0).toNat = toF32 (treeReduce p.2 xs) % 2 ^ 32 ∧ ∀ i, 0 < i → i < 64 → lane v i = 0) ∧
    (∀ p ∈ ([(.vexp ⟨a, false⟩ vd v1, sfuExp), (.vrcp ⟨a, false⟩ vd v1, sfuRcp), (.vrsqrt ⟨a, false⟩ vd v1, sfuRsqrt)] :
        List (Instr × (W32 → W32))),
      ∃ v, exec p.1 s = Retires s n a 4 { c.setV vd.val v with tflags := c.tflags ||| fl, vq := c.vq + 1 } ∧
        ∀ i < 64, lane v i = p.2 (lane (c.getV v1.val) i)) ∧
    (v1.val % 2 = 0 → v2.val % 2 = 0 → vd.val % 4 = 0 →
      ∃ w0 w1 w2 w3 g, exec (.vsmxr ⟨a, false⟩ vd v1 v2) s = Retires s n a 4
          { (((c.setV vd.val w0).setV (vd.val + 1) w1).setV (vd.val + 2) w2).setV (vd.val + 3) w3 with
            tflags := c.tflags ||| g, vq := c.vq + 1 } ∧
        ∀ i < 64, (lane w0 i, lane w1 i, lane w2 i, lane w3 i) =
          smxrLane (lane (c.getV v1.val) i) (lane (c.getV (v1.val + 1)) i) (lane (c.getV v2.val) i) (lane (c.getV (v2.val + 1)) i))) ∧
  (∀ (s : State) (a : At) (n : Mod) (vd v1 v2 : VReg) (res : Bool), s.m.Issues a n →
    v1.val % 2 ≠ 0 ∨ v2.val % 2 ≠ 0 ∨ vd.val % 4 ≠ 0 → exec (.vsmxr ⟨a, res⟩ vd v1 v2) s = Becomes s (n.illegal a)) ∧
  (∀ (s : State) (a : At) (n : Mod) (vd v1 v2 : VReg), s.m.Issues a n → (s.m.ctxAt a).vq < 8 → let c := s.m.ctxAt a
    let failed (i : Instr) : Prop := exec i s = Becomes s (n.residueFail a)
    (∀ i ∈ [Instr.vadd a vd v1 v2 true, .vsub a vd v1 v2 true, .vmul a vd v1 v2 true, .vfma a vd v1 v2 true, .vmin ⟨a, true⟩ vd v1 v2,
        .vmax ⟨a, true⟩ vd v1 v2, .vabs ⟨a, true⟩ vd v1, .vneg ⟨a, true⟩ vd v1, .vcmpEq ⟨a, true⟩ vd v1 v2, .vcmpLt ⟨a, true⟩ vd v1 v2,
        .vcmpLe ⟨a, true⟩ vd v1 v2, .vcmpUnord ⟨a, true⟩ vd v1 v2, .vsel ⟨a, true⟩ vd v1 v2, .vand ⟨a, true⟩ vd v1 v2, .vor ⟨a, true⟩ vd v1 v2,
        .vxor ⟨a, true⟩ vd v1 v2, .viadd a vd v1 v2 true, .visub ⟨a, true⟩ vd v1 v2, .vimul ⟨a, true⟩ vd v1 v2, .vsll ⟨a, true⟩ vd v1 v2,
        .vsrl ⟨a, true⟩ vd v1 v2, .vsra ⟨a, true⟩ vd v1 v2, .viadds ⟨a, true⟩ vd v1 v2, .vrsum ⟨a, true⟩ vd v1, .vrmax ⟨a, true⟩ vd v1,
        .vrmin ⟨a, true⟩ vd v1, .vexp ⟨a, true⟩ vd v1, .vrcp ⟨a, true⟩ vd v1, .vrsqrt ⟨a, true⟩ vd v1], failed i) ∧
    (v1.val % 2 = 0 → v2.val % 2 = 0 → vd.val % 4 = 0 → failed (.vsmxr ⟨a, true⟩ vd v1 v2)) ∧
    (isMX (bits c.tcvt.toNat 7 4) = true → failed (.vmxenc ⟨a, true⟩ vd v1)) ∧
    (let r : MatRec := { issue := c.issues, residue := true }
     let d := (n.residueFail a).ctxAt a
     d.ending = some stARITH ∧ d.endKind = fkCHECKSUM ∧ d.v = c.v ∧ d.mrec = some r ∧ ((n.residueFail a).tile a.tile.val).recValid = true ∧
       ((n.residueFail a).tile a.tile.val).mrec = r ∧
       ((∀ k x q, c.task = some k → n.cmd? k.cmd = some x → x.qp = some q → q < 2 ^ 32) →
         ((n.residueFail a).counter kTilCsuMismatch a.tile.val).value =
           (bumpCtr (ctrSticks kTilCsuMismatch) 1 (n.counter kTilCsuMismatch a.tile.val)).value)) ∧
    (c.nanFault = true → ∀ op ∈ [(Instr.vadd a vd v1 v2 false, fun x y : Val => Val.add x y),
        (.vsub a vd v1 v2 false, fun x y => Val.add x y.negate), (.vmul a vd v1 v2 false, fun x y => Val.mul x y)],
      (∃ i < 64, isNan32 (lane (c.getV v1.val) i) = false ∧ isNan32 (lane (c.getV v2.val) i) = false ∧
        isNan32 (BitVec.ofNat 32 (toF32 (op.2 (ofF32 (lane (c.getV v1.val) i).toNat) (ofF32 (lane (c.getV v2.val) i).toNat)))) = true) →
      exec op.1 s = Becomes s (n.nanFail a)) ∧
    (let d := (n.nanFail a).ctxAt a
     d.ending = some stARITH ∧ d.endKind = fkNAN ∧ d.v = c.v ∧ d.x = c.x ∧
       ((n.nanFail a).tile a.tile.val).running = (n.tile a.tile.val).running.filter (fun r => r.sd.val != a.saddle.val)))

/-- Conversions (04 R140): CVT packs the elements of vs1 in the destination format, rounded as the control word says, and MXENC the 64 FP32 lanes
in an MX format with its scales; the bytes that the result does not fill are a free value. An element that becomes a NaN ends the task while
NANP is FAULT (03 R102). -/
def Obligations.VectorConversions : Prop :=
  ∀ (s : State) (a : At) (n : Mod) (vd v1 : VReg), s.m.Issues a n → let c := s.m.ctxAt a
    let src := bits c.tcvt.toNat 3 0
    let dst := bits c.tcvt.toNat 7 4
    let part := bits c.tcvt.toNat 9 8
    let k := cvtCount src dst
    let vs := cvtSource src part k (bytesOf (c.getV v1.val))
    let mode := bits c.tarith.toNat 15 13
    let sat := c.tarith.toNat.testBit 12
    let rs : List Nat × Mod := if mode = 4 then n.draws k else ([], n)
    (fmtValid src = true → fmtValid dst = true → dst ≠ 12 → ¬(src = 12 ∧ part = 3) → c.vq < 8 →
      let o := encRow dst mode sat rs.1 vs
      let q : Mod := { rs.2 with free := rs.2.free + 1 }
      ((c.nanFault && cvtNewNan dst k vs o) = false → exec (.vcvt ⟨a, false⟩ vd v1) s = Retires s q a 4
        { c.setV vd.val (vecBytes (o.1 ++ o.2.1) (leBytes (Config.freeNat rs.2.free) 256)) with
          vq := c.vq + 1, tflags := c.tflags ||| BitVec.ofNat 4 (o.2.2 ||| if vs.any Val.isNan then flNAN else 0) }) ∧
      ((c.nanFault && cvtNewNan dst k vs o) = true → exec (.vcvt ⟨a, false⟩ vd v1) s = Becomes s (q.nanFail a)) ∧
      exec (.vcvt ⟨a, true⟩ vd v1) s = Becomes s (n.residueFail a)) ∧
    (fmtValid src = false ∨ fmtValid dst = false ∨ dst = 12 ∨ (src = 12 ∧ part = 3) →
      ∀ res, exec (.vcvt ⟨a, res⟩ vd v1) s = Becomes s (n.illegal a)) ∧
    (isMX dst = true → c.vq < 8 →
      let xs := (lanesOf (c.getV v1.val)).map fun x => ofF32 x.toNat
      let o := encRow dst 0 true [] xs
      let q : Mod := { n with free := n.free + 1 }
      ((c.nanFault && cvtNewNan dst 64 xs o) = false → exec (.vmxenc ⟨a, false⟩ vd v1) s = Retires s q a 4
        { c.setV vd.val (vecBytes (o.1 ++ o.2.1) (leBytes (Config.freeNat n.free) 256)) with
          vq := c.vq + 1, tflags := c.tflags ||| BitVec.ofNat 4 o.2.2 }) ∧
      ((c.nanFault && cvtNewNan dst 64 xs o) = true → exec (.vmxenc ⟨a, false⟩ vd v1) s = Becomes s (q.nanFail a))) ∧
    (isMX dst = false → ∀ res, exec (.vmxenc ⟨a, res⟩ vd v1) s = Becomes s (n.illegal a))

/-- Engine instructions (04 R133-R137): ENG.MM queues the 64-byte record at a TS offset of its window with the next issue number, ENG.VLD loads
a register or half of one, ENG.VST stores one. A bad operand is the exception ENG_OPERAND or an access fault, ENG.MM stalls on a full queue. -/
def Obligations.EngineInstructions : Prop :=
  ∀ (s : State) (a : At) (n : Mod), s.m.Issues a n → let c := s.m.ctxAt a
    (∀ wr acc rs1 r, c.iq.length < 4 → n.engBytes a (c.getX rs1) 64 = some r → r.poison = false →
      exec (.engMm ⟨a, .ok⟩ wr acc rs1) s = Retires s n a 4
        { c with iq := c.iq ++ [⟨wr, acc, BitVec.ofNat 512 (leNat r.bytes), c.issues⟩], issues := c.issues + 1 }) ∧
    (∀ wr acc rs1 e r, let q := n.accessEcc a.tile a.saddle c.part.val (c.getX rs1).toNat 64 e
      c.iq.length < 4 → q.engBytes a (c.getX rs1) 64 = some r → r.poison = true →
      exec (.engMm ⟨a, e⟩ wr acc rs1) s = Becomes s (q.consumed a r)) ∧
    (∀ wr acc rs1, c.iq.length < 4 → n.engBytes a (c.getX rs1) 64 = none →
      exec (.engMm ⟨a, .ok⟩ wr acc rs1) s = Becomes s (n.fault a 24 (c.getX rs1))) ∧
    (∀ wr acc rs1 e, 4 ≤ c.iq.length → exec (.engMm ⟨a, e⟩ wr acc rs1) s = .next s) ∧
    (∀ (size : Fin 4) vd rs1, let addr := c.getX rs1
      let r := n.coreRead a.tile a.saddle c.part.val addr.toNat (vldLen size.val) c.tcls.toNat
      let old := bytesOf (c.getV vd.val)
      vldFault size.val addr 4 5 = none → r.1.poison = false → r.2.ctxAt a = c →
      exec (.engVld a size vd rs1 .ok) s = Retires s r.2 a 4 (c.setV vd.val (vecBytes (old.take (vldOff size.val) ++ r.1.bytes) old))) ∧
    (∀ (size : Fin 4) vs rs1, let addr := c.getX rs1
      let r := n.coreWrite a.tile a.saddle c.part.val addr.toNat
        (((bytesOf (c.getV vs.val)).drop (vldOff size.val)).take (vldLen size.val)) c.tcls.toNat
      vldFault size.val addr 6 7 = none → r.1.poison = false → r.2.ctxAt a = c →
      exec (.engVst a size vs rs1 .ok) s = Retires s r.2 a 4 c) ∧
    (∀ (size : Fin 4) v rs1 e cause, (vldFault size.val (c.getX rs1) 4 5 = some cause →
        exec (.engVld a size v rs1 e) s = Becomes s (if cause = 2 then n.illegal a else n.fault a cause (c.getX rs1))) ∧
      (vldFault size.val (c.getX rs1) 6 7 = some cause →
        exec (.engVst a size v rs1 e) s = Becomes s (if cause = 2 then n.illegal a else n.fault a cause (c.getX rs1))))

/-- Copies of a context (04 R141-R143): a push of a descriptor with a free tag and slot takes one of each and returns the tag; CPY.WAIT and
CPY.TEST of a copy that has completed return its status and retire the tag; a tag not held reads -2; CPY.TEST of a copy under way reads -1
and CPY.WAIT blocks. COPY_COMPLETE (05 R171, R177, R180, R181): a copy that may not start yet does nothing; a refused descriptor completes ARITH
and moves nothing; another is walked, and where the walk meets no poison or fenced target and sends no reduction flits the copy of a context that
still runs completes OK with the elements it wrote. Either way its slot is free again. -/
def Obligations.CoreCopies : Prop :=
  (∀ (s : State) (a : At) (n : Mod), s.m.Issues a n → let c := s.m.ctxAt a
    (∀ rd rs1 r, s.m.canPush a.tile.val c = true → n.canPush a.tile.val c = true → n.engBytes a (c.getX rs1) 128 = some r → r.poison = false →
      let q := n.pushCopy (some c.uid) (match c.task with
        | some k => k.cmd
        | none => 0) c.part (Fin.ofNat 16 (halfOfTile a.tile.val)) (BitVec.ofNat 1024 (leNat r.bytes)) c.tarith
      let tag := nextTag c.tags c.nextTag 65
      q.2.ctxAt a = c → ∀ i ∈ [Instr.cpyPush a rd rs1, .cpyPushnb a rd rs1],
      exec i s = Retires s q.2 a 4 { c.setX rd (BitVec.ofNat 64 tag) with
        tags := c.tags.put tag q.1, nextTag := if tag = 65535 then 1 else tag + 1 }) ∧
    (∀ rd rs1, s.m.canPush a.tile.val c = false → exec (.cpyPush a rd rs1) s = .next s) ∧
    (∀ rd rs1 r, n.canPush a.tile.val c = false → n.engBytes a (c.getX rs1) 128 = some r →
      exec (.cpyPushnb a rd rs1) s = Retires s n a 4 (c.setX rd 0)) ∧
    (∀ rd rs1 id st, Tab.find (c.getX rs1).toNat c.tags = some id → n.copyStatus id = some st →
      ∀ i ∈ [Instr.cpyWait a rd rs1, .cpyTest a rd rs1], Completes (exec i s) fun t =>
        t.m.ctxAt a = { c.setX rd (BitVec.ofNat 64 st) with tags := c.tags.del (c.getX rs1).toNat }.advance 4 ∧
        t.m.copies = n.copies.del id ∧ t.m.mem = n.mem ∧ t.m.tiles = n.tiles ∧ t.m.halves = n.halves ∧ t.m.cache = n.cache) ∧
    (∀ rd rs1, Tab.find (c.getX rs1).toNat c.tags = none → ∀ i ∈ [Instr.cpyWait a rd rs1, .cpyTest a rd rs1],
      exec i s = Retires s n a 4 (c.setX rd (BitVec.ofInt 64 (-2)))) ∧
    (∀ rd rs1 id, Tab.find (c.getX rs1).toNat c.tags = some id → n.copyStatus id = none →
      exec (.cpyTest a rd rs1) s = Retires s n a 4 (c.setX rd (BitVec.allOnes 64)) ∧
      exec (.cpyWait a rd rs1) s = Becomes s (n.block a.tile.val a.saddle.val (.copy (c.getX rs1).toNat rd)))) ∧
  (∀ (s : State) (id : Nat) (c : Copy) (e : Ecc), Tab.find id s.m.copies = some c → c.started = false →
    exec (.copyComplete ⟨id, e⟩) s = .next s) ∧
  (∀ (s : State) (id u k : Nat) (c : Copy), Tab.find id s.m.copies = some c → c.status = none → c.started = true → c.owner = some u →
    c.crec = 0 → c.fld 611 611 = 0 →
    (c.refused = true → s.m.ctxOf u = some k → (s.m.ctx (k / 4) (k % 4)).wait = none →
      (∀ x ∈ s.m.copies, x.2.owner = some u → x.2.started = true) → ∀ e, Completes (exec (.copyComplete ⟨id, e⟩) s) fun t =>
      (∃ d, Tab.find id t.m.copies = some d ∧ d.status = some stARITH) ∧ t.m.mem = s.m.mem ∧ t.m.cache = s.m.cache ∧
      (t.m.half c.half.val).slots = (s.m.half c.half.val).slots + 1) ∧
    (c.refused = false → c.walked = false → c.wUncertain = false → c.wShared = false → c.wPoison = false → c.wDetached = false →
      c.sspace ≠ 4 → c.dspace ≠ 4 → c.fld 608 608 = 0 → c.undeliv = 0 → c.reds = 0 → s.m.branchesOut id = false → s.m.tsBusy c = false →
      (∀ t ∈ s.m.targets c, ∀ x, t.2.1 = some x → (s.m.tile x).fenced = false) →
      let r := ({ s.m with copies := s.m.copies.put id c } : Mod).walk c id
      r.1.hm = false → r.1.shared = false → r.1.poison = false → r.1.detached = false → r.1.reds = 0 → r.2.copyPending c id = false →
      Tab.find id r.2.copies = some c → r.2.ctxOf u = some k → (r.2.ctx (k / 4) (k % 4)).wait = none →
      (∀ x ∈ r.2.copies, x.2.owner = some u → x.2.started = true) → Completes (exec (.copyComplete ⟨id, .ok⟩) s) fun t =>
        (∃ d, Tab.find id t.m.copies = some d ∧ d.status = some stOK ∧
          d.elems = (r.1.counts.foldl (fun t e => t.upd e.1 0 (· + e.2)) c.counts).foldl (fun n e => n + e.2) 0) ∧
        t.m.mem = r.2.mem ∧ t.m.cache = r.2.cache ∧ (t.m.half c.half.val).slots = (r.2.half c.half.val).slots + 1))

/-- Synchronisation instructions on a semaphore or barrier that the partition owns (04 R145-R148): each sends its flit; a wait blocks its
context, SEM.TRY and BAR.A hold the core until they are answered, SEM.SIG and a BAR.W of a completed phase retire. On one that it does not own each is a violation, sends nothing and retires,
writing zero where it has a result (04 R145, 15 R444). -/
def Obligations.CoreSynchronisation : Prop :=
  ∀ (s : State) (a : At) (n : Mod), s.m.Issues a n → let c := s.m.ctxAt a
    let key := saddleKey a.tile a.saddle
    (∀ rs1 rs2, n.semOk c (c.getX rs1) = true → n.parB pDbgTraceOn = false →
      let v := n.nameSem c.part.val (c.getX rs1).toNat
      let k := bits (c.getX rs2).toNat 15 0
      exec (.semSig a rs1 rs2) s = Retires s (n.sendSn ⟨.sig, v, k, a.tile.val, key, c.uid, false⟩) a 4 c ∧
      ∀ rd, exec (.semWait a rd rs1 rs2) s =
          Becomes s ((n.sendSn ⟨.wait, v, k, a.tile.val, key, c.uid, false⟩).block a.tile.val a.saddle.val (.sem v k rd)) ∧
        exec (.semTry a rd rs1 rs2) s =
          Becomes s ((n.sendSn ⟨.try, v, k, a.tile.val, key, c.uid, false⟩).setCtx a.tile.val a.saddle.val ({ c with
            wait := some (.try v rd) }))) ∧
    (∀ rd rs1, n.barOk c (c.getX rs1) = true →
      let v := n.nameBar c.part.val (c.getX rs1).toNat
      let p := (n.bar v).phase
      exec (.barA a rd rs1) s =
        Becomes s ((n.sendSn ⟨.barA, v, 0, a.tile.val, key, c.uid, false⟩).setCtx a.tile.val a.saddle.val ({ c with
          wait := some (.arrive v rd) })) ∧
      exec (.barAw a rd rs1) s =
        Becomes s ((n.sendSn ⟨.barAw, v, p, a.tile.val, key, c.uid, false⟩).block a.tile.val a.saddle.val (.bar v p rd true)) ∧
      ∀ rs2, let q := bits (c.getX rs2).toNat 15 0
        (phaseDone p q = true → exec (.barW a rd rs1 rs2) s = Retires s n a 4 (c.setX rd (BitVec.ofNat 64 p))) ∧
        (phaseDone p q = false → exec (.barW a rd rs1 rs2) s =
          Becomes s ((n.sendSn ⟨.barW, v, q, a.tile.val, key, c.uid, false⟩).block a.tile.val a.saddle.val (.bar v q rd false)))) ∧
    (∀ rd rs1 rs2, n.semOk c (c.getX rs1) = false →
      exec (.semSig a rs1 rs2) s = Retires s (n.violate c.part.val) a 4 c ∧
      exec (.semWait a rd rs1 rs2) s = Retires s (n.violate c.part.val) a 4 (c.setX rd 0) ∧
      exec (.semTry a rd rs1 rs2) s = Retires s (n.violate c.part.val) a 4 (c.setX rd 0)) ∧
    (∀ rd rs1 rs2, n.barOk c (c.getX rs1) = false → ∀ i ∈ [Instr.barA a rd rs1, .barAw a rd rs1, .barW a rd rs1 rs2],
      exec i s = Retires s (n.violate c.part.val) a 4 (c.setX rd 0))

/-- TASK_END where the context's engine operations are complete ends the task OK with its exit code and reports it; else the context blocks
until FENCE_DONE; in M-mode it is illegal instruction (04 R152). TASK_FAULT_DRAINED reports a task that has ended once its copies and issues are over (04 R129).
CONTEXT_ROTATE hands the core to the next runnable saddle (13 R366). -/
def Obligations.TaskEnds : Prop :=
  (∀ (s : State) (a : At) (n : Mod) (rs1 : Reg), s.m.Issues a n → let c := s.m.ctxAt a
    let e : BitVec 16 := (c.getX rs1).truncate 16
    (c.mmode = true → exec (.taskEnd a rs1) s = Becomes s (n.illegal a)) ∧
    (c.mmode = false → n.fenceMet a.tile.val a.saddle.val 0 = true → c.task.isSome = true → Completes (exec (.taskEnd a rs1) s) fun t =>
      (t.m.ctxAt a).ending = some stOK ∧ (t.m.ctxAt a).endExit = e ∧ (t.m.ctxAt a).reported = true ∧
      (∃ f, t.m.net.cn = n.net.cn ++ [f] ∧ f.op = .taskend ∧ f.a = saddleKey a.tile a.saddle ∧ f.b = c.uid) ∧ t.m.mem = n.mem) ∧
    (c.mmode = false → n.fenceMet a.tile.val a.saddle.val 0 = false →
      exec (.taskEnd a rs1) s = Becomes s (n.block a.tile.val a.saddle.val (.taskEnd e)))) ∧
  (∀ (s : State) (t : TileId) (d : SaddleId), let c := s.m.ctx t.val d.val
    c.st = .blocked →
    (∀ k : Fin 5, c.wait = some (.fence k) → s.m.fenceMet t.val d.val k.val = true → Completes (exec (.fenceDone t d) s) fun u =>
      (u.m.ctx t.val d.val).st = .run ∧ (u.m.ctx t.val d.val).wait = none ∧ (u.m.ctx t.val d.val).pc = c.pc + 4 ∧
      (u.m.ctx t.val d.val).x = c.x ∧ u.m.mem = s.m.mem ∧ u.m.net = s.m.net) ∧
    (∀ k : Fin 5, c.wait = some (.fence k) → s.m.fenceMet t.val d.val k.val = false → c.hmPend = true → k.val = 2 ∨ k.val = 4 →
      s.m.enginesIdle t.val d.val = true → s.m.host.flush = false → s.m.host.portState ≠ 2 →
      exec (.fenceDone t d) s = Becomes s s.m.issueFlush) ∧
    (∀ e, c.wait = some (.taskEnd e) → c.ending = none → s.m.fenceMet t.val d.val 0 = true →
      Completes (exec (.fenceDone t d) s) fun u => (u.m.ctx t.val d.val).ending = some stOK ∧ (u.m.ctx t.val d.val).endExit = e)) ∧
  (∀ (s : State) (t : TileId) (d : SaddleId) (k : Task), let c := s.m.ctx t.val d.val
    c.task = some k → c.ending.isSome = true → c.reported = false → s.m.drained t.val d.val = true →
    Completes (exec (.taskFaultDrained t d) s) fun u => (u.m.ctx t.val d.val) = { c with reported := true } ∧
      ∃ f, u.m.net.cn = s.m.net.cn ++ [f] ∧ f.a = saddleKey t d ∧ f.b = c.uid ∧ f.dst = s.m.iodOfTask k) ∧
  (∀ (s : State) (t : TileId) (i : Nat), let cur := (s.m.tile t.val).cur.val
    [1, 2, 3].find? (fun i => (s.m.ctx t.val ((cur + i) % 4)).runnable) = some i →
    exec (.contextRotate t) s = Becomes s (s.m.setTile t.val { s.m.tile t.val with cur := Fin.ofNat 4 (cur + i) }))

/-! Tile engines (03). -/

/-- While a tile's split changes its engine neither starts nor writes (03 R86). MATRIX_ISSUE_START takes the oldest issue of the next saddle in round robin that has one, where the engine is free: a refused issue ends its
task ARITH; one whose operands are sound runs its K loop and leaves the accumulators, and with WR = 1 waits for its write-out (03 R91, R97,
04 R133). ISSUE_WRITE_OUT of an issue all of whose columns pass or are skipped writes C; a column that fails writes nothing, ends the task
ARITH with a mismatch record and counts the mismatch (03 R92, R104, R111). -/
def Obligations.MatrixIssue : Prop :=
  (∀ (s : State) (t : TileId) (j : SaddleId) (i : Issue) (q : List Issue), let x := s.m.tile t.val
    let sd := x.rr + j
    let c := s.m.ctx t.val sd.val
    s.m.serving = true → x.fenced = false → x.testing = false → x.changing = none → (s.m.half (halfOfTile t.val)).stopped = false →
    s.m.dbg.brake.val ≤ 1 → [0, 1, 2, 3].find? (fun (j : Fin 4) => !(s.m.ctx t.val (x.rr + j).val).iq.isEmpty) = some j →
    c.iq = i :: q → engineFree x i = true →
    let d := (match c.task with
      | some k => k.desc
      | none => 0).toNat
    let n := (s.m.updCtx t.val sd.val fun c => { c with iq := c.iq.drop 1 }).updTile t.val fun x => { x with rr := sd + 1 }
    let refused := i.refused (bits d 285 282) (bits d 289 286) c.acc
    (refused = true → ∀ e, exec (.matrixIssueStart ⟨t, e⟩) s = Becomes s (n.endTask t.val sd.val stARITH fkISSUE 0 0)) ∧
    (refused = false →
      let a := n.readOpnd t sd c.part.val c.tcls.toNat i.fa (i.fld 63 0) (i.fld 415 384) (i.fld 255 192) i.m i.k !i.ta
      let b := a.2.readOpnd t sd c.part.val c.tcls.toNat i.fb (i.fld 127 64) (i.fld 447 416) (i.fld 319 256) i.n i.k i.tb
      let r := kLoop i (((rateOf i.fa i.fb).getD 0).val) c.acc a.1.vecs b.1.vecs
      (a.1.res.join b.1.res).poison = false → bits c.tarith.toNat 11 10 ≠ 1 → Completes (exec (.matrixIssueStart ⟨t, .ok⟩) s) fun u =>
        (u.m.ctx t.val sd.val).acc = some r.1 ∧
        (u.m.tile t.val).running = (b.2.tile t.val).running ++ (if i.wr then [⟨sd, c.uid, i, r.1⟩] else []) ∧ u.m.mem = b.2.mem)) ∧
  (∀ (s : State) (t : TileId) (r : RunIssue) (rest : List RunIssue), let x := s.m.tile t.val
    let c := s.m.ctx t.val r.sd.val
    x.running = r :: rest → x.fenced = false → x.changing = none → s.m.dbg.brake.val ≤ 1 → c.uid = r.uid → c.st ≠ .empty →
    (match c.task with
      | some k => k.retry
      | none => []) = [] →
    let rate := ((rateOf r.issue.fa r.issue.fb).getD 0).val
    let all := checkAll rate (accFmt r.issue.fa r.issue.fb) (x.tvals.getD rate 0) r.acc
    let n := (forEach all (fun q m => m.countCheck t rate q) (s.m.updTile t.val fun x => { x with running := rest })).updCtx t.val r.sd.val
      fun c => { c with tflags := c.tflags ||| BitVec.ofNat 4 (all.foldl (fun f q => match q.out with
        | .skip x => f ||| x
        | _ => f) 0) }
    ((∀ q ∈ all, q.out ≠ .fail) → exec (.issueWriteOut t none) s = Becomes s (n.writeC t r)) ∧
    ((∃ q ∈ all, q.out = .fail) → Completes (exec (.issueWriteOut t none) s) fun u =>
      ((c.ending = none → (u.m.ctx t.val r.sd.val).ending = some stARITH ∧ (u.m.ctx t.val r.sd.val).endKind = fkCHECKSUM) ∧
       (u.m.tile t.val).recValid = true ∧ (u.m.tile t.val).mrec.issue = r.issue.index ∧
       (u.m.ctx t.val r.sd.val).mrec = some (u.m.tile t.val).mrec ∧ (∀ y ∈ (u.m.tile t.val).running, y.sd ≠ r.sd) ∧
       (u.m.tile t.val).ts = x.ts ∧ u.m.mem = s.m.mem))) ∧
  (∀ (s : State) (t : TileId) (u : Option Upset), (s.m.tile t.val).changing.isSome = true → exec (.issueWriteOut t u) s = .next s)

/-- The checksum unit's threshold, self-test and strikes, the bank order and the split (03 R86, R88, R109, R115, R118): a step down that has fallen
due lowers t by one; a self-test whose perturbed comparison fails clears, one on which it passes fences the tile; a starved requester joins its
bank's list once, behind those that starved earlier. A change of split keeps the bytes and the poison of the scratchpad banks that both splits
have, clears the rest, and then performs the accesses that waited for it (03 R86). -/
def Obligations.TileUnits : Prop :=
  (∀ (s : State) (t : TileId), let x := s.m.tile t.val
    (∀ cls : Fin 6, let d := x.stepDown.getD cls.val 0
      (d ≠ 0 → exec (.thresholdStepDown t cls) s = Becomes s (s.m.setTile t.val { x with
        stepDown := x.stepDown.put cls.val (d - 1), tvals := x.tvals.put cls.val (x.tvals.getD cls.val 0 - 1) })) ∧
      (d = 0 → exec (.thresholdStepDown t cls) s = .next s)) ∧
    (∀ p b, x.selftest = some p →
      ((p || b) = false → exec (.csuSelftest t b) s = Becomes s (s.m.setTile t.val { x with
        selftestDue := false, selftest := none })) ∧
      ((p || b) = true → x.fenced = false → Completes (exec (.csuSelftest t b) s) fun u =>
        (u.m.tile t.val).selftestFail = true ∧ (u.m.tile t.val).fenced = true)) ∧
    (∀ b, x.selftest = none → exec (.csuSelftest t b) s = .next s) ∧
    exec (.strikeLapse t) s = Becomes s (s.m.setTile t.val { x with strike := Fin.ofNat 3 (x.strike.val - 1) }) ∧
    (∀ bank req, let l := x.starved.getD bank.val []
      ((∀ e ∈ l, e.2 ≠ req) → ∃ b a, l = b ++ a ∧ (∀ e ∈ b, e.1 = s.m.ticks → bankRank e.2 ≤ bankRank req) ∧
        exec (.bankStarved t bank req) s = Becomes s (s.m.setTile t.val { x with
          starved := x.starved.put bank.val (b ++ (s.m.ticks, req) :: a) })) ∧
      ((∃ e ∈ l, e.2 = req) → exec (.bankStarved t bank req) s = Becomes s (s.m.setTile t.val x))) ∧
    (∀ n, x.changing = some n →
      let f := (s.m.flushL1 t.val).updTile t.val fun y => y.resplit n
      let waited := f.net.tsWait.filter fun q => q.tile == t
      exec (.splitChangeDone t) s = Becomes s (forEach waited (fun q m => m.tsServe q)
        (f.updNet fun y => { y with tsWait := y.tsWait.filter fun q => q.tile != t })))) ∧
  (∀ (x : Tile) (n : Fin 8) (a : Nat), (x.resplit n).split = n ∧ (x.resplit n).changing = none ∧
    (a / 2 ^ 17 < 4 * x.split.val → a / 2 ^ 17 < 4 * n.val → Mem.rd a (x.resplit n).ts = Mem.rd a x.ts) ∧
    (4 * x.split.val ≤ a / 2 ^ 17 ∨ 4 * n.val ≤ a / 2 ^ 17 → Mem.rd a (x.resplit n).ts = 0) ∧
    (x.ts.wf = true → (x.resplit n).ts.wf = true))

/-! Coherence (06, 07). -/

/-- Requests that a home admits at once, to a line that it holds (07 R227, R230, R231, R237, R239, R240): who gets what, what the directory says
then, and which holders are asked first. -/
def Obligations.CoherenceRequests : Prop :=
  ∀ (s : State) (a : AgentId) (l : LineRef) (p : PartId) (c : Fin 8) (x : Line), let k := lineKey l
    s.m.braked = false → s.m.line? k = some x →
    let about (kd : MsgKind) (b : AgentId) : Msg := { kind := kd, agent := b, line := k, fwdTo := a }
    let data (kd : MsgKind) : Msg := { kind := kd, agent := a, line := k, fwdTo := a, data := some x.data, poison := x.poison }
    let sent (i : Instr) (d : Dir) (msgs : List Msg) : Prop := Completes (exec i s) fun t =>
      t.m.cache.net = s.m.cache.net ++ msgs ∧ (∃ y, t.m.line? k = some y ∧ y.dir = d ∧ y.data = x.data ∧ y.dirty = x.dirty) ∧
      (∃ r, t.m.req? a.val k = some r) ∧ t.m.cache.l1 = s.m.cache.l1 ∧ t.m.mem = s.m.mem ∧ t.m.tiles = s.m.tiles ∧ t.m.ctxs = s.m.ctxs
    let busy : Dir := { x.dir with busy := true }
    let others := x.dir.holders.filter (· != a)
    let mine := x.dir.dstate = 3 → x.dir.fwd = a
    (s.m.caching a.val = true → s.m.l1 a.val k = none →
      (s.m.HomeFree k { kind := .gets, agent := a, part := p, cls := c } →
        let near := agentHalf a.val = agentHalf x.dir.fwd.val ∧ (agentHalf a.val).isSome = true ∧ agentHalf a.val ≠ some (homeOf k)
        (x.dir.dstate = 0 → sent (.gets a l p c .ok) (dirDX a) [data .dataE]) ∧
        (x.dir.dstate = 1 → sent (.gets a l p c .ok) { x.dir with dstate := 2, fwd := a, ptrs := x.dir.ptrs.filter (· != a) } [data .dataF]) ∧
        (x.dir.dstate = 2 → x.dir.fwd = a → sent (.gets a l p c .ok) x.dir [data .dataF]) ∧
        (x.dir.dstate = 2 → x.dir.fwd ≠ a → near → sent (.gets a l p c .ok) busy [about .fwdS x.dir.fwd]) ∧
        (x.dir.dstate = 2 → x.dir.fwd ≠ a → ¬near → sent (.gets a l p c .ok) (x.dir.addSharer a) [data .dataS]) ∧
        (x.dir.dstate = 3 → sent (.gets a l p c .ok) busy [about .fwdS x.dir.fwd])) ∧
      (s.m.HomeFree k { kind := .getx, agent := a, part := p, cls := c } →
        (mine → others = [] → sent (.getx a l p c .ok) (dirDX a) [data .dataM]) ∧
        (mine → others ≠ [] → sent (.getx a l p c .ok) busy (others.map (about .inv))) ∧
        (¬mine → sent (.getx a l p c .ok) busy [about .fwdX x.dir.fwd]))) ∧
    (∀ h, s.m.l1 a.val k = some h → h.st = .S ∨ h.st = .F → s.m.HomeFree k { kind := .upg, agent := a, part := p, cls := c } →
      x.dir.names a = true →
      (others = [] → sent (.upg a l p c) (dirDX a) [about .grantM a]) ∧
      (others ≠ [] → sent (.upg a l p c) busy (others.map (about .inv)))) ∧
    (s.m.nonCaching a.val = true → s.m.HomeFree k { kind := .ncrd, agent := a, part := p, cls := c } →
      (x.dir.dstate ≠ 3 → sent (.ncrd a l p c .ok) x.dir [data .ncdata]) ∧
      (x.dir.dstate = 3 → sent (.ncrd a l p c .ok) busy [about .fwdNc x.dir.fwd])) ∧
    (s.m.nonCaching a.val = true → ∀ be d,
      let wrote (t : State) (y : Line) : Prop := t.m.line? k = some y ∧ y.data = mergeLine be x.data d
      (s.m.cache.ncMode.getD a.val 0 = 0 → s.m.HomeFree k { kind := .ncwi, agent := a, part := p, cls := c, byteen := be, data := d } →
        (x.dir.holders = [] → Completes (exec (.ncwi a l p c be d) s) fun t => ∃ y, wrote t y ∧ y.dir = x.dir ∧
          ∃ lost, t.m.cache.net = s.m.cache.net ++ [{ about .ncack a with poison := lost }] ∧
            (isPs k = true ∨ s.m.durable (linePa k) = false → lost = false) ∧ t.m.tiles = s.m.tiles ∧ t.m.ctxs = s.m.ctxs) ∧
        (x.dir.holders ≠ [] → sent (.ncwi a l p c be d) busy (x.dir.holders.map (about .inv)))) ∧
      (s.m.cache.ncMode.getD a.val 0 = 1 → ∀ t : TileId, s.m.ownsTile p.val t.val = true → x.dir.holders = [] →
        (∀ tgt, s.m.HomeFree k { kind := .ncwh, agent := a, part := p, cls := c, byteen := be, data := d, target := tgt }) →
        Completes (exec (.ncwh a l p c be d (some t)) s) fun u => ∃ y lost, wrote u y ∧
          u.m.cache.net = s.m.cache.net ++ ({ about .ncack a with poison := lost } :: if mayHint a.val then
            [{ about .push ⟨t.val, by omega⟩ with data := some y.data, poison := y.poison }] else []) ∧
          (isPs k = true ∨ s.m.durable (linePa k) = false → lost = false))) ∧
    (agentDefined a.val = true → s.m.HomeFree k { kind := .dead, agent := a, part := p } → s.m.undelivered k = false → isPs k = false →
      s.m.durable (linePa k) = false → ¬(0x81 ≤ (s.m.tagOf (linePa k)).toNat ∧ (s.m.tagOf (linePa k)).toNat ≤ 0x8F) →
      s.m.tagAccepts a.val p.val k true = true →
      (x.dir.holders = [] → Completes (exec (.dead a l p) s) fun t =>
        t.m.cache.lines = s.m.cache.lines.del k ∧ t.m.cache.net = s.m.cache.net ∧ t.m.mem = s.m.mem) ∧
      (x.dir.holders ≠ [] → sent (.dead a l p) busy (x.dir.holders.map (about .invd))))

/-- Forwards, invalidations and offers at the agent that holds the copy (07 Table 7.5, R225, R232): what it keeps and what it sends; a copy in the
write-back buffer serves them too. A PUSH is taken in E by a tile that has no copy and no request, else declined; the answers settle the
directory (07 R240, R241). -/
def Obligations.CoherenceForwards : Prop :=
  (∀ (s : State) (a : AgentId) (l : LineRef) (x : Msg) (rest : List Msg) (c : L1Line), let k := lineKey l
    s.m.braked = false →
    let n := (s.m.withNet rest).hearMsg x
    let dirty := c.st == .M
    let back : Option LineData := if dirty then some c.data else none
    let ack (kd : MsgKind) (d : Option LineData) (p : Bool) : Msg := { kind := kd, agent := a, line := k, fwdTo := x.fwdTo, data := d, poison := p }
    let supply (kd : MsgKind) : Msg :=
      { kind := kd, agent := x.fwdTo, line := k, fwdTo := x.fwdTo, data := some c.data, poison := c.poison }
    (s.m.l1 a.val k = some c →
      let lost : Mod := match s.m.req? a.val k with
        | some r => if r.kind == .upg then (n.delL1 a.val k).setReq k { r with kind := .getx } else n.delL1 a.val k
        | none => n.delL1 a.val k
      (s.m.InFlight .fwdS a l x rest → exec (.fwdS a l) s = Becomes s (((n.setL1 a.val k { c with st := .S }).send (supply .dataF)).send
        (ack .fwdAck back (dirty && c.poison)))) ∧
      (s.m.InFlight .fwdX a l x rest → exec (.fwdX a l) s = Becomes s ((lost.send (supply .dataM)).send (ack .fwdAck none false))) ∧
      (s.m.InFlight .fwdNc a l x rest →
        (dirty = true → exec (.fwdNc a l) s = Becomes s ((n.setL1 a.val k { c with st := .E }).send (ack .fwdAck (some c.data) c.poison))) ∧
        (dirty = false → exec (.fwdNc a l) s = Becomes s (n.send (ack .fwdAck none false)))) ∧
      (s.m.InFlight .inv a l x rest → exec (.inv a l) s = Becomes s (lost.send (ack .invAck back (dirty && c.poison)))) ∧
      (s.m.InFlight .invd a l x rest → exec (.invd a l) s = Becomes s (lost.send (ack .invAck none false)))) ∧
    (s.m.l1 a.val k = none → Tab.find (l1Key a.val k) s.m.cache.wbuf = some c → s.m.req? a.val k = none →
      (s.m.InFlight .fwdS a l x rest →
        exec (.fwdS a l) s = Becomes s ((n.send (supply .dataF)).send (ack .fwdAck back (dirty && c.poison)))) ∧
      (s.m.InFlight .fwdX a l x rest →
        exec (.fwdX a l) s = Becomes s (((n.spendBuf a.val k).send (supply .dataM)).send (ack .fwdAck none false))) ∧
      (s.m.InFlight .inv a l x rest →
        exec (.inv a l) s = Becomes s ((n.spendBuf a.val k).send (ack .invAck back (dirty && c.poison))))) ∧
    (s.m.copyOf a.val k = none →
      (s.m.InFlight .inv a l x rest → exec (.inv a l) s = Becomes s (n.send (ack .invAck none false))) ∧
      (s.m.InFlight .invd a l x rest → exec (.invd a l) s = Becomes s (n.send (ack .invAck none false))))) ∧
  (∀ (s : State) (t : TileId) (l : LineRef) (x : Msg) (rest : List Msg), let k := lineKey l
    let a : AgentId := ⟨t.val, by omega⟩
    let n := (s.m.withNet rest).hearMsg x
    let answers (kd : MsgKind) : Msg := { kind := kd, agent := a, line := k, fwdTo := a }
    let goesOn (q : Mod) : Mod := (q.advance k [] advanceFuel).retryFills (plruKey k)
    let free := s.m.copyOf t.val k = none ∧ s.m.req? t.val k = none ∧ (s.m.tile t.val).fenced = false
    s.m.braked = false →
    (∀ d (h : SliceId), s.m.InFlight .push a l x rest → x.data = some d → homeOf k = h.val →
      (free → exec (.push t l h) s = Becomes s (((n.l1Room a k).setL1 t.val k { st := .E, data := d, poison := x.poison }).send (answers .pushAck))) ∧
      (¬free → exec (.push t l h) s = Becomes s (n.send (answers .pushNak)))) ∧
    (∀ q, Tab.find k s.m.cache.txns = some q → q.pushed = true → a ∈ q.await →
      (s.m.InFlight .pushAck a l x rest → exec (.pushAck t l) s = Becomes s (goesOn ((n.clearBusy k).setDir k (dirDX a)))) ∧
      (s.m.InFlight .pushNak a l x rest → exec (.pushNak t l) s = Becomes s (goesOn ((n.clearBusy k).count kCchPushNak (homeOf k))))) ∧
    (∀ q : Mod, q.cache.mshr.getD k [] = [] → q.cache.waitq.getD k [] = [] →
      (∀ e ∈ q.cache.mshr, plruKey e.1 = plruKey k → ∀ f ∈ e.2, f.data = none) → goesOn q = q))

/-- Grants and answers at the requester (07 Table 7.5): the copy is held in the state granted, with room made in the set of a tile's L1 portion (03
R83), and the request is over; an eviction's answer frees the write-back buffer; a NACK starts the back-off of R234, its random part a free
value (log 1), or leaves the request to its ticket (R235). -/
def Obligations.CoherenceGrants : Prop :=
  (∀ (s : State) (a : AgentId) (l : LineRef) (x : Msg) (rest : List Msg), let k := lineKey l
    let n := (s.m.withNet rest).hearMsg x
    s.m.braked = false →
    (∀ d, x.data = some d →
      let placed (st : L1St) : Mod := ((n.delReq a.val k).l1Room a k).setL1 a.val k { st := st, data := d, poison := x.poison }
      let held (st : L1St) : Out := Becomes s ((placed st).advance k [] advanceFuel)
      (s.m.InFlight .dataS a l x rest → exec (.dataS a l) s = held .S) ∧ (s.m.InFlight .dataF a l x rest → exec (.dataF a l) s = held .F) ∧
      (s.m.InFlight .dataE a l x rest → exec (.dataE a l) s = held .E) ∧ (s.m.InFlight .dataM a l x rest → exec (.dataM a l) s = held .M)) ∧
    (s.m.InFlight .grantM a l x rest →
      (∀ c, s.m.l1 a.val k = some c → exec (.grantM a l) s = Becomes s ((n.delReq a.val k).setL1 a.val k { c with st := .M })) ∧
      (s.m.l1 a.val k = none → exec (.grantM a l) s = Becomes s n)) ∧
    (s.m.InFlight .ncdata a l x rest → exec (.ncdata a l) s = Becomes s ((n.delReq a.val k).advance k [] advanceFuel)) ∧
    (s.m.InFlight .ncack a l x rest → exec (.ncack a l) s = Becomes s (n.delReq a.val k)) ∧
    (s.m.InFlight .putAck a l x rest → exec (.putAck a l) s =
      Becomes s (n.updCache fun c => { c with wbuf := c.wbuf.del (l1Key a.val k) })) ∧
    (∀ r, s.m.InFlight .nack a l x rest → s.m.req? a.val k = some r → r.agent = a →
      (x.ticket = true → exec (.nack a l) s = Becomes s (n.setReq k { r with nacks := r.nacks + 1, ticket := true })) ∧
      (x.ticket = false → Completes (exec (.nack a l) s) fun t =>
        ∃ q, t.m.req? a.val k = some q ∧ q.nacks = r.nacks + 1 ∧ q.backoff = true ∧ q.kind = r.kind ∧
          8 * 2 ^ min (r.nacks + 1) 4 ≤ q.delay ∧ q.delay ≤ 8 * 2 ^ min (r.nacks + 1) 4 + 7 ∧ t.m.cache.l1 = s.m.cache.l1 ∧
          t.m.cache.net = rest))) ∧
  (∀ (m : Mod) (a : AgentId) (k : Nat), let sets := m.l1Sets a.val
    let mine := m.cache.l1.keep fun j _ => j / 2 ^ 36 == a.val && j % 2 ^ 36 % sets == k % sets && j % 2 ^ 36 != k
    let cands := mine.keep fun j _ => !(m.cache.reqs.has j) && !(m.cache.wbuf.has j)
    sets = (8 - (m.tile a.val).split.val) * 512 ∧ (1024 ≤ a.val ∨ mine.length < 8 → m.l1Room a k = m) ∧
    (a.val < 1024 → 8 ≤ mine.length → cands ≠ [] →
      ∃ e ∈ cands, m.l1Room a k = ({ m with free := m.free + 1 } : Mod).putCopy a (e.1 % 2 ^ 36) e.2.st))

/-- Acknowledgements at the home (07 R228, R233): one that is not the last is taken off the transaction's list; the last ends it, and the data of a
DX holder goes into the slice. What a transaction then does (R230, R231). Evictions of a copy that the directory names as its owner (07 R232):
the line waits in the write-back buffer for PUT_ACK, the entry is cleared, and modified data is in the slice; that of a copy the entry does not
name is discarded. -/
def Obligations.CoherenceAcks : Prop :=
  (∀ (s : State) (a : AgentId) (l : LineRef) (x : Msg) (rest : List Msg) (t : Txn), let k := lineKey l
    let n := (s.m.withNet rest).hearMsg x
    s.m.braked = false → Tab.find k s.m.cache.txns = some t → t.pushed = false → a ∈ t.await →
    let left : Txn := { t with await := t.await.filter (· != a) }
    let took : Mod := match x.data, s.m.line? k with
      | some d, some y => if y.dir.dstate == 3 && y.dir.fwd == a then n.takeData k d x.poison else n
      | _, _ => n
    let after := took.updCache fun c => { c with txns := c.txns.put k left }
    (∀ i kd, (i, kd) ∈ [(Instr.invAck a l, MsgKind.invAck), (.fwdAck a l, .fwdAck)] → s.m.InFlight kd a l x rest →
      (left.await ≠ [] → exec i s = Becomes s after) ∧ (left.await = [] → exec i s = Becomes s (after.finishTxn k left)))) ∧
  (∀ (m : Mod) (k : Nat) (t : Txn) (y : Line) (d : LineData) (p : Bool), m.line? k = some y →
    let a := t.req.agent
    let n := m.clearBusy k
    let idle : Line := { y with dir := { y.dir with busy := false } }
    (t.req.kind = .getx → t.direct = true → m.concludeTxn k t = n.setDir k (dirDX a)) ∧
    (t.req.kind = .getx → t.direct = false → m.concludeTxn k t = (n.setDir k (dirDX a)).grant k a idle .dataM) ∧
    (t.req.kind = .upg → m.concludeTxn k t = (n.setDir k (dirDX a)).send { kind := .grantM, agent := a, line := k, fwdTo := a }) ∧
    (t.req.kind = .gets → t.direct = true → y.dir.dstate = 3 → y.dir.fwd ≠ a →
      m.concludeTxn k t = n.setDir k { dstate := 2, fwd := a, ptrs := [y.dir.fwd] }) ∧
    (t.req.kind = .ncrd → m.concludeTxn k t = n.grant k a idle .ncdata) ∧
    (t.req.kind = .dead → m.concludeTxn k t = ((n.setDir k dirDI).dropDead k).delReq a k) ∧
    (isPs k = true ∨ m.durable (linePa k) = false →
      (m.takeData k d p).line? k = some { y with data := d, poison := p, dirty := true } ∧ (m.takeData k d p).mem = m.mem)) ∧
  (∀ (s : State) (a : AgentId) (l : LineRef) (c : L1Line) (x : Line), let k := lineKey l
    s.m.braked = false → s.m.l1 a.val k = some c → s.m.line? k = some x → s.m.busy k = false → s.m.seamHeld a.val k = false →
    (isPs k = true ∨ s.m.foster k = none) → s.m.psLost k = false → (∀ t ∈ s.m.cache.tickets, t.2.2 ≠ k) → s.m.cache.mshr.getD k [] = [] →
    s.m.cache.waitq.getD k [] = [] → s.m.req? a.val k = none → Tab.find (l1Key a.val k) s.m.cache.wbuf = none →
    let put (i : Instr) (y : Line) : Prop := Completes (exec i s) fun t =>
      t.m.l1 a.val k = none ∧ Tab.find (l1Key a.val k) t.m.cache.wbuf = some c ∧ t.m.line? k = some y ∧
      t.m.cache.net = s.m.cache.net ++ [{ kind := .putAck, agent := a, line := k, fwdTo := a }] ∧ t.m.mem = s.m.mem
    (x.dir.fwd = a →
      (c.st = .E → x.dir.dstate = 3 → put (.pute a l) { x with dir := dirDI }) ∧
      (c.st = .F → x.dir.dstate = 2 → x.dir.sharers = [] → put (.putf a l) { x with dir := dirDI }) ∧
      (c.st = .F → x.dir.dstate = 2 → x.dir.sharers ≠ [] → put (.putf a l) { x with dir := { x.dir with dstate := 1, fwd := 0 } }) ∧
      (c.st = .M → x.dir.dstate = 3 → (isPs k = true ∨ s.m.durable (linePa k) = false) →
        put (.putm a l) { x with dir := dirDI, data := c.data, dirty := true, poison := c.poison })) ∧
    (x.dir.dstate.val < 2 ∨ x.dir.fwd ≠ a →
      (c.st = .E → put (.pute a l) x) ∧ (c.st = .F → put (.putf a l) x) ∧ (c.st = .M → put (.putm a l) x)))

/-- A back-off that ends sends its request again as a new arrival (07 R234); the oldest ticket of a free line is admitted (R235); an agent that
does not answer for 1 ms is counted, reported and dropped (R243); a mode change waits for the agent's requests to end (R242). A fill
allocates its line from memory and grants its one reader F, or holds the branch at a port without credit (06 R213, R214, R216); at the end of a
window a slice's rate stands in its guard register and the counts start again, and a rate below its partition's threshold is an event, a count
and the THRASH bit (06 R201-R203). -/
def Obligations.CoherenceRetries : Prop :=
  (∀ (s : State) (a : AgentId) (l : LineRef), let k := lineKey l
    (∀ r, s.m.braked = false → s.m.req? a.val k = some r → r.backoff = true → s.m.seamHeld a.val k = false →
      exec (.nackBackoffExpiry a l) s = Becomes s (s.m.reqArrive k { r with backoff := false })) ∧
    (∀ h r, s.m.braked = false → s.m.cache.tickets.find? (fun t => t.2.2 == k) = some (h, a, k) → s.m.busy k = false →
      s.m.cache.mshr.getD k [] = [] → s.m.cache.waitq.getD k [] = [] → s.m.req? a.val k = some r →
      let n := s.m.updCache fun c => { c with tickets := c.tickets.erase (h, a, k) }
      let q := if r.kind = .put ∨ r.kind = .dead then n else n.lookup k r.cls r.part
      let r' : Req := { r with ticket := false, nacks := 0 }
      exec (.ticketAdmit l) s = Becomes s (((q.setReq k r').admitReq k r').advance k [] advanceFuel)) ∧
    (∀ t, s.m.braked = false → Tab.find k s.m.cache.txns = some t → a ∈ t.await → t.pushed = false → t.await.filter (· != a) ≠ [] →
      Completes (exec (.agentUnresponsive l a) s) fun u =>
        Tab.find k u.m.cache.txns = some { t with await := t.await.filter (· != a), direct := false } ∧ u.m.l1 a.val k = none ∧
        (∀ y, u.m.line? k = some y → y.dir.coarse = false → a ∉ y.dir.holders) ∧
        (∃ e ∈ u.m.kod.evq, e.code = agentFaultCode a.val ∧ e.source = BitVec.ofNat 16 a.val) ∧ u.m.mem = s.m.mem ∧
        (u.m.counter kCchUnresp (homeOf k)).value = (bumpCtr true 1 (s.m.counter kCchUnresp (homeOf k))).value) ∧
    (∀ v, Tab.find a.val s.m.cache.ncPend = some v → v ≠ 2 → s.m.cache.ncMode.getD a.val 0 ≠ 2 →
      (∀ q ∈ s.m.cache.reqs, q.1 / 2 ^ 36 ≠ a.val) →
      exec (.ncModeChange a) s = Becomes s (s.m.updCache fun c => { c with ncMode := c.ncMode.put a.val v, ncPend := c.ncPend.del a.val })) ∧
    (∀ q ∈ s.m.cache.reqs, q.1 / 2 ^ 36 = a.val → exec (.ncModeChange a) s = Becomes s s.m)) ∧
  (∀ (s : State) (l : LineRef) (r : Req) (e : Ecc) (b : List AgentId) (w : Nat), let k := lineKey l
    let rd := s.m.memReadLine (linePa k) e .ok 0
    let n := rd.2
    let start := match nodeSeat (bankNode (homeOf k) (k % 2 ^ 34)) with
      | some x => x.1
      | none => 0
    let path := n.nodePath r.agent.val pathFuel start
    let x : Msg := { kind := .dataF, agent := r.agent, line := k, fwdTo := r.agent, data := some rd.1.data, poison := rd.1.poison }
    s.m.braked = false → s.m.cache.mshr.getD k [] = [{ readers := [r] }] → s.m.cache.waitq.getD k [] = [] → s.m.line? k = none → isPs k = false →
    s.m.awaitsRetrain (linePa k) = false → s.m.busy k = false → r.kind = .gets → n.place k r.part.val = .free w → (∀ p ∈ path, n.noCredit p 2 = false) →
    let placed (t : State) : Prop := t.m.cache.mshr.getD k [] = [] ∧ ∃ y, t.m.line? k = some y ∧ y.data = rd.1.data ∧ y.dirty = false ∧
      y.way = Fin.ofNat 16 w ∧ y.dir = { dstate := 2, fwd := r.agent } ∧ y.cls = r.cls
    (b.contains r.agent = false → Completes (exec (.fillReturn l e b) s) fun t =>
      t.m.cache.net = n.cache.net ++ [x] ∧ placed t) ∧
    (∀ p, b.contains r.agent = true → path.getLast? = some p → (n.net.hold.getD (creditKey p .bn 0) []).length < 4 →
      Completes (exec (.fillReturn l e b) s) fun t => t.m.cache.net = n.cache.net ∧ placed t ∧
        t.m.net.hold.getD (creditKey p .bn 0) [] = n.net.hold.getD (creditKey p .bn 0) [] ++ [Branch.fill x])) ∧
  (∀ (s : State) (l : LineRef) (e : Ecc) (b : List AgentId) st c cs, let pa := linePa (lineKey l)
    isPs (lineKey l) = false → s.m.durable pa = false → s.m.ft.retrain = some (st, c :: cs) → s.m.stackOf pa = st.val → chanOf pa = c →
    exec (.fillReturn l e b) s = Becomes s s.m) ∧
  (∀ (s : State) (h : SliceId), let g := s.m.cache.guard.getD h.val {}
    let rate := s.m.winRate (h.val * 256 + 255)
    (s.m.cache.extents = [] → exec (.guardWindowEnd h) s = Becomes s (s.m.updCache fun c => { c with
      guard := (c.guard.upd h.val {} fun g => { g with rate := rate.getD 0, valid := rate.isSome, thrash := false }).upd h.val {}
        fun x => { x with windows := g.windows + 1 },
      win := c.win.keep fun k _ => k / 256 != h.val })) ∧
    (∀ (p : PartId) r, s.m.cache.extents ≠ [] → (∀ e ∈ s.m.cache.extents, e.part = p) → (s.m.part p.val).strict = false →
      rate = some r → r < s.m.parN (pCchThrashThr + p.val) → Completes (exec (.guardWindowEnd h) s) fun t =>
        let y := t.m.cache.guard.getD h.val {}
        y.rate = r ∧ y.valid = true ∧ y.thrash = true ∧ y.lastPart = p ∧ y.windows = g.windows + 1 ∧
        (∃ e ∈ t.m.kod.evq, e.code = evCchThrash ∧ e.source = BitVec.ofNat 16 h.val) ∧
        (∀ q ∈ t.m.cache.win, q.1 / 256 ≠ h.val)))

/-! Networks (09). -/

/-- Scratchpad accesses and small writes over the networks (03 R84, R86, R87; 09 Tables 9.3, 9.4): an access of the partition that owns the tile
reads or writes its bytes and is answered; another partition's is a violation, reads zeros and writes nothing; one that finds the split changing
waits; the answer reaches its agent. Multicast branches and credits (09 R278, R286-R288): a branch held too long fails and is counted; three
unicast retries follow, then the target is undelivered; the credit of a freed entry takes a held branch with it, else its sender has it again. -/
def Obligations.NetworksAndCredits : Prop :=
  (∀ (s : State) (a : AgentId) (t : TileId) (p : PartId), s.m.braked = false →
    let answered (n : Mod) (d : Option (List Byte)) (q : Bool) : Out := Becomes s (n.updNet fun x => { x with tsResp := x.tsResp ++ [⟨a, t, d, q⟩] })
    (∀ off data len,
      (tsSpanOk off data.length = true → (s.m.tile t.val).changing = none →
        (s.m.ownsTile p.val t.val = true → (s.m.tsWriteN t.val off data).1.viol = false →
          exec (.tswr a t off data p .ok) s = answered (s.m.tsWriteN t.val off data).2 none false) ∧
        (s.m.ownsTile p.val t.val = false → exec (.tswr a t off data p .ok) s = answered (s.m.violate p.val) none false)) ∧
      (tsSpanOk off len = true → (s.m.tile t.val).changing = none →
        (s.m.ownsTile p.val t.val = true → (s.m.tsReadN t.val off len).viol = false →
          exec (.tsrd a t off len p .ok) s = answered (s.m.stampTo (agentDie a.val) (t.val / 128)) (some (s.m.tsReadN t.val off len).bytes)
            (s.m.tsReadN t.val off len).poison) ∧
        (s.m.ownsTile p.val t.val = false →
          exec (.tsrd a t off len p .ok) s = answered ((s.m.stampTo (agentDie a.val) (t.val / 128)).violate p.val) (some (List.replicate len 0)) false)) ∧
      ((s.m.tile t.val).changing.isSome = true → ∀ e,
        let waits (n : Mod) (q : TsReq) : Out := Becomes s (n.updNet fun x => { x with tsWait := x.tsWait ++ [q] })
        (tsSpanOk off data.length = true → exec (.tswr a t off data p e) s = waits s.m ⟨a, t, off, data.length, some data, p, e⟩) ∧
        (tsSpanOk off len = true → exec (.tsrd a t off len p e) s = waits (s.m.stampTo (agentDie a.val) (t.val / 128)) ⟨a, t, off, len, none, p, e⟩))) ∧
    (∀ r, s.m.net.tsResp.find? (fun r => r.agent == a && r.tile == t && r.data.isSome) = some r →
      exec (.tsdata a t) s = Becomes s (s.m.updNet fun n => { n with
        tsResp := n.tsResp.erase r, tsIn := n.tsIn.put a.val (r.data.getD [], r.poison) })) ∧
    (∀ r, s.m.net.tsResp.find? (fun r => r.agent == a && r.tile == t && r.data.isNone) = some r →
      exec (.tsack a t) s = Becomes s ((s.m.updNet fun n => { n with tsResp := n.tsResp.erase r }).stampTo (t.val / 128) (agentDie a.val))) ∧
    (∀ (dst : AgentId) l off data, swrOk off data.length = true → let k := lineKey l
      let acked (n : Mod) : Out := Becomes s (n.sendCn { op := .swrack, dst := a.val, src := some (homeOf k / 2) })
      let refused := isPs k = true ∧ carriesPart a.val = true ∧ s.m.psOwned p.val (psAddr k) = false
      (refused → exec (.cnSwr a dst l off data p) s = acked (s.m.violate p.val)) ∧
      (a.val < 1024 → ¬refused → exec (.cnSwr a dst l off data p) s =
        acked (s.m.cohWrite (Fin.ofNat 1024 a.val) k p.val 7 (enables off data.length) (placed off data))) ∧
      (1024 ≤ a.val → ¬refused → exec (.cnSwr a dst l off data p) s =
        acked (s.m.ncWrite a k p.val 7 (enables off data.length) (placed off data) none).1)) ∧
    (∀ f, s.m.net.cn.find? (fun f => f.op == .swrack && f.dst == a.val) = some f →
      exec (.cnSwrack a) s = Becomes s ((s.m.updNet fun n => { n with cn := n.cn.erase f }).stampTo (f.src.getD (agentDie a.val)) (agentDie a.val)))) ∧
  (∀ (s : State),
    (∀ (p : PortRef) (at' : Fin 4), s.m.braked = false → let key := creditKey p .bn 0
      let held := s.m.net.hold.getD key []
      let rest := held.eraseIdx at'.val
      (∀ id i, held[at'.val]? = some (.copy id i) →
        exec (.branchHoldExpiry p at') s = Becomes s ((s.m.updNet fun n => { n with
          hold := n.hold.put key rest, failed := n.failed ++ [(id, i)] }).count kTilRtrMcFail (routerOf p))) ∧
      (∀ x, held[at'.val]? = some (.fill x) →
        exec (.branchHoldExpiry p at') s = Becomes s ((s.m.updNet fun n => { n with
          hold := n.hold.put key rest, again := n.again.upd key [] (· ++ [x]) }).count kTilRtrMcFail (routerOf p))) ∧
      (held[at'.val]? = none → exec (.branchHoldExpiry p at') s = .next s)) ∧
    (∀ copy (g : Fin 64) c, (copy, g.val) ∈ s.m.net.failed → Tab.find copy s.m.copies = some c →
      let tries := s.m.net.retried.getD (copy * 64 + g.val) 0
      let n := s.m.updNet fun n => { n with failed := n.failed.erase (copy, g.val) }
      (3 ≤ tries → exec (.branchFail copy g) s = Becomes s { n with
        copies := n.copies.put copy { c with undeliv := c.undeliv ||| BitVec.ofNat 64 (2 ^ g.val) } }) ∧
      (tries < 3 → ∀ i x y, (s.m.targets c).find? (fun q => q.1 == g.val) = some (i, some x, y) →
        exec (.branchFail copy g) s =
          Becomes s ((n.updNet fun z => { z with retried := z.retried.put (copy * 64 + g.val) (tries + 1) }).branchOut copy c g.val x))) ∧
    (∀ (p : PortRef) n (v : Fin 3), creditOk n v.val = true →
      let key := creditKey p n v.val
      let back := Becomes s (s.m.updNet fun x => { x with
        spent := x.spent.adj key (fun k => k - 1), freed := x.freed.adj key (fun k => k - 1) })
      let port := creditKey p .bn 0
      let l := s.m.net.hold.getD port []
      let ofCopy (b : Branch) : Bool := match b with
        | .copy _ _ => true
        | .fill _ => false
      let without (b : Branch) : Mod := s.m.updNet fun x => { x with hold := x.hold.put port (l.erase b) }
      (s.m.net.freed.getD key 0 = 0 → exec (.creditReturn p n v) s = .next s) ∧
      (0 < s.m.net.freed.getD key 0 →
        (n ≠ .bn ∨ v = 1 → exec (.creditReturn p n v) s = back) ∧
        (n = .bn → v = 0 →
          (l.all (fun b => !ofCopy b) = true → exec (.creditReturn p n v) s = back) ∧
          (∀ b, l.find? ofCopy = some b → exec (.creditReturn p n v) s = Becomes s (without b))) ∧
        (n = .bn → v = 2 →
          (∀ x, l.find? (fun b => !ofCopy b) = some (.fill x) →
            exec (.creditReturn p n v) s = Becomes s ((without (.fill x)).send x)) ∧
          (l.all ofCopy = true →
            (s.m.net.again.getD port [] = [] → exec (.creditReturn p n v) s = back) ∧
            (∀ x r, s.m.net.again.getD port [] = x :: r →
              exec (.creditReturn p n v) s = Becomes s ((s.m.updNet fun y => { y with again := y.again.put port r }).send x)))))))

/-- Chainring reduction (09 R278, R281-R284): a flit in flight frees the entry it stands in when it moves on; at a router one that matches a
buffered flit leaves combined, another is held while there is room; the oldest leaves after 64 cycles; one for which the next port has no credit
stays. At its destination, once no split change holds it, each element is read, reduced with one rounding and written, and REDACKs bring flags,
elements and poison back to the copies. -/
def Obligations.ChainringReduction : Prop :=
  (∀ (s : State) (t : TileId) (f : RedFlit), s.m.braked = false → let buf := s.m.net.ring.getD t.val []
    let hold (n : Mod) (l : List RedFlit) : Mod := n.updNet fun x => { x with ring := x.ring.put t.val l }
    let leaves (n : Mod) (f : RedFlit) (stay : Mod) : Out := Becomes s ((n.redLeave t.val f).getD stay)
    let g : RedFlit := { f with via := none }
    (∀ d, redOk f = true → (t.val, d, f) ∉ s.m.net.red → exec (.red t f d) s = .next s) ∧
    (redOk f = true → (t.val, false, f) ∈ s.m.net.red →
      let gone := (s.m.updNet fun n => { n with red := n.red.erase (t.val, false, f) }).vacate f.via
      (f.nocomb = true ∨ 64 ≤ f.waited → exec (.red t f false) s = leaves gone g s.m) ∧
      (f.nocomb = false → f.waited < 64 →
        (∀ h, buf.find? (redMatches g) = some h →
          exec (.red t f false) s = leaves ((hold gone (buf.erase h)).count kTilRtrCrComb t.val) (redCombine h g) s.m) ∧
        (buf.find? (redMatches g) = none → buf.length < 32 → exec (.red t f false) s = Becomes s (hold gone (buf ++ [g]))) ∧
        (buf.find? (redMatches g) = none → 32 ≤ buf.length →
          exec (.red t f false) s = leaves (gone.count kTilRtrCrPass t.val) g s.m))) ∧
    (∀ h rest, buf = h :: rest →
      exec (.chainringRelease t) s = leaves (hold s.m rest) { h with waited := 64 } (hold s.m ({ h with waited := 64 } :: rest))) ∧
    (buf = [] → exec (.chainringRelease t) s = .next s) ∧
    (redOk f = true → (t.val, true, f) ∈ s.m.net.red →
      let gone := (s.m.updNet fun n => { n with red := n.red.erase (t.val, true, f) }).vacate f.via
      (s.m.redHeld g = true → exec (.red t f true) s = .next s) ∧
      (s.m.redHeld g = false → exec (.red t f true) s = Becomes s (gone.redApply g) ∧
        ∀ i v, f.nocomb = false → f.space = 0 → f.dst < 1024 → s.m.ownsTile f.part f.dst = true →
          redElems (fmtWidth f.fmt.val) f = [(i, v)] →
          let dw := fmtWidth f.fmt.val / 8
          let off := f.addr + i * dw
          let old := gone.tsReadN f.dst off dw
          let x := if 4 ≤ f.op.val then combine f.op.val 13 (leNat old.bytes) v
            else reduceElemBy f.op.val f.fmt.val 0 false 0 (leNat old.bytes) (decElem f.fmt.val v)
          let w := gone.tsWriteN f.dst off (leBytes x.1 dw)
          old.viol = false → old.poison = false → w.1.viol = false →
          gone.redApply g = w.2.updNet fun n => { n with redacks := n.redacks ++ f.parts.map fun p =>
            ⟨p.1, ([i].filter fun i => p.2.getLsbD (i * fmtWidth f.fmt.val / 8)).length, BitVec.ofNat 4 (f.afl.toNat ||| x.2), false⟩ }))) ∧
  (∀ (m : Mod) (t : Nat) (f : RedFlit) (p : PortRef) (onward : Option Nat), m.nextHop t f.dst = some (p, onward) →
    let paused := match p with
      | .seam d _ _ => (m.die d.val).seamPaused
      | _ => false
    let at' : Nat × Bool := match onward with
      | some r => (r, false)
      | none => (t, true)
    (m.noCredit p 0 = true ∨ paused = true → m.redLeave t f = none) ∧
    (m.noCredit p 0 = false → paused = false → m.redLeave t f =
      some ((m.spend p 0).updNet fun x => { x with red := x.red ++ [(at'.1, at'.2, { f with via := some (creditKey p .bn 0) })] }))) ∧
  (∀ (s : State) (c : Nat) (r : RedAck), s.m.net.redacks.find? (fun r => r.copy == c) = some r →
    exec (.redack c) s = Becomes s { s.m with
      net := { s.m.net with redacks := s.m.net.redacks.erase r },
      copies := s.m.copies.adj c fun x => { x with
        aflags := x.aflags ||| r.afl, counts := if r.elems = 0 then x.counts else x.counts.upd 0 0 (· + r.elems),
        wPoison := x.wPoison || r.poison, reds := x.reds - 1 } })

/-! Semaphores and barriers (04, 09). -/

/-- Flits at the home of a semaphore (04 R146, 09 R291, R292): a signal adds and saturates with OVF; a wait that the value covers and nobody
precedes is served at once with the value left, another is recorded, and a full home answers RETRY; SEM.TRY never waits. Barriers at their
home (04 R147, 09 R293): an arrival before the last is counted, and a BAR.A gets the phase it is registered at; the last completes the phase, sets arrivals to zero and releases who waits
for it; BAR.W waits unless its phase is over. -/
def Obligations.SynchronisationHomes : Prop :=
  (∀ (s : State) (sem count : BitVec 16) (t : TileId) (d : SaddleId) (f : SnFlit), s.m.braked = false →
    let v := s.m.sem sem.toNat
    let n := (s.m.updNet fun n => { n with sn := n.sn.erase f }).hearSn f
    let come (src : AgentId) : Mod := s.m.stampTo (agentDie src.val) (sem.toNat / 8192)
    let cut := n.setSem sem.toNat { v with value := v.value - count.toNat }
    let first (op : SnOp) : Prop := s.m.net.sn.find? (fun f => f.op == op && f.num == sem.toNat && f.count == count.toNat && f.key == saddleKey t d) = some f
    (∀ src : AgentId, 1024 ≤ src.val → s.m.net.waits = [] →
      (v.value + count.toNat ≤ 0xFFFFFFFF → exec (.snSig sem count src) s = Becomes s ((come src).setSem sem.toNat { v with
        value := v.value + count.toNat })) ∧
      (0xFFFFFFFF < v.value + count.toNat → exec (.snSig sem count src) s =
        Becomes s (((come src).setSem sem.toNat { value := 0xFFFFFFFF, ovf := true }).count kTilSemOvf (sem.toNat / 64)))) ∧
    (∀ (src : AgentId) w, 1024 ≤ src.val → s.m.net.waits = [w] → w.sem = sem.toNat → w.uid = 0 → v.value + count.toNat ≤ 0xFFFFFFFF →
      w.count ≤ v.value + count.toNat → Completes (exec (.snSig sem count src) s) fun u =>
        (u.m.sem sem.toNat).value = v.value + count.toNat - w.count ∧ u.m.net.waits = [] ∧ u.m.net.selGrants = s.m.net.selGrants ++ [w.key]) ∧
    (first .wait → 512 ≤ s.m.homeRecords (sem.toNat / 64) → exec (.snWait sem count t d) s = Becomes s (n.sendSn { f with op := .retry })) ∧
    (first .wait → s.m.homeRecords (sem.toNat / 64) < 512 →
      (v.value < count.toNat → exec (.snWait sem count t d) s =
        Becomes s (n.updNet fun x => { x with waits := x.waits ++ [⟨sem.toNat, count.toNat, f.uid, f.key⟩] })) ∧
      ((∀ w ∈ s.m.net.waits, w.sem ≠ sem.toNat) → count.toNat ≤ v.value → ∀ k, f.uid ≠ 0 → s.m.ctxOf f.uid = some k →
        exec (.snWait sem count t d) s = Becomes s (cut.sendSn ⟨.grant, sem.toNat, v.value - count.toNat, 0, k, f.uid, false⟩))) ∧
    (first .try →
      (count = 0 → exec (.snTry sem count t d) s = Becomes s (n.sendSn { f with op := .grant, count := v.value })) ∧
      (count ≠ 0 → n.semQueued sem.toNat = true ∨ v.value < count.toNat →
        exec (.snTry sem count t d) s = Becomes s (n.sendSn { f with op := .fail })) ∧
      (count ≠ 0 → n.semQueued sem.toNat = false → count.toNat ≤ v.value →
        exec (.snTry sem count t d) s = Becomes s (cut.sendSn { f with op := .grant, count := v.value - count.toNat })))) ∧
  (∀ (s : State) (bar : BitVec 12), s.m.braked = false → let b := bar.toNat
    let x := s.m.bar b
    (∀ src : AgentId, 1024 ≤ src.val →
      (x.arrived < x.count1 → exec (.snBarA bar src) s =
        Becomes s ((s.m.stampTo (agentDie src.val) (b / 512)).setBar b { x with arrived := x.arrived + 1 })) ∧
      (x.count1 ≤ x.arrived → Completes (exec (.snBarA bar src) s) fun u =>
        (u.m.bar b).phase = (x.phase + 1) % 65536 ∧ (u.m.bar b).arrived = 0 ∧ (u.m.bar b).count1 = x.count1 ∧
        (u.m.bar b).waiters = x.waiters.filter (fun w => !phaseDone ((x.phase + 1) % 65536) w.2.2))) ∧
    (∀ (src : AgentId) f k v rd, let c := s.m.ctx (k / 4) (k % 4)
      src.val < 1024 → s.m.net.sn.find? (fun f => f.op == .barA && f.num == b && f.src == src.val) = some f → s.m.ctxOf f.uid = some k →
      c.wait = some (.arrive v rd) → x.arrived < x.count1 → Completes (exec (.snBarA bar src) s) fun u =>
        u.m.ctx (k / 4) (k % 4) = { (c.setX rd (BitVec.ofNat 64 x.phase)).advance 4 with
          wait := none, st := if c.st = .blocked then .run else c.st, evictable := false } ∧
        (u.m.bar b).arrived = x.arrived + 1 ∧ (u.m.bar b).phase = x.phase ∧ u.m.net.sn = s.m.net.sn.erase f) ∧
    (∀ (t : TileId) (d : SaddleId) f, let n := (s.m.updNet fun n => { n with sn := n.sn.erase f }).hearSn f
      (s.m.net.sn.find? (fun f => f.op == .barAw && f.num == b && f.key == saddleKey t d) = some f → x.arrived < x.count1 →
        exec (.snBarAw bar t d) s = Becomes s ((n.setBar b { x with waiters := x.waiters ++ [(f.uid, f.key, x.phase)] }).setBar b { x with
          waiters := x.waiters ++ [(f.uid, f.key, x.phase)], arrived := x.arrived + 1 })) ∧
      (∀ ph : BitVec 16,
        s.m.net.sn.find? (fun f => f.op == .barW && f.num == b && f.count == ph.toNat && f.key == saddleKey t d) = some f →
        (phaseDone x.phase ph.toNat = false → exec (.snBarW bar ph t d) s =
          Becomes s (n.setBar b { x with waiters := x.waiters ++ [(f.uid, f.key, ph.toNat)] })) ∧
        (∀ k, phaseDone x.phase ph.toNat = true → s.m.ctxOf f.uid = some k →
          exec (.snBarW bar ph t d) s = Becomes s (n.sendSn ⟨.release, b, ph.toNat, 0, k, f.uid, false⟩)))))

/-- Answers at the core (04 R146-R148): GRANT ends a SEM.WAIT or SEM.TRY with the value left, which is an acquire and traced as one (23 Table 23.5); FAIL ends a SEM.TRY with -1, RELEASE ends a barrier wait
with its phase; the context runs on past its instruction. RETRY makes the core send its WAIT again. -/
def Obligations.SynchronisationAnswers : Prop :=
  ∀ (s : State) (t : TileId) (d : SaddleId) (f : SnFlit), let c := s.m.ctx t.val d.val
    let n := (s.m.updNet fun n => { n with sn := n.sn.erase f }).hearSn f
    let ends (i : Instr) (r : Reg) (v : W64) : Prop := Completes (exec i s) fun u => u.m.ctx t.val d.val =
      { (c.setX r v).advance 4 with wait := none, st := if c.st = .blocked then .run else c.st, evictable := false } ∧
      u.m.net.sn = s.m.net.sn.erase f ∧ u.m.mem = s.m.mem ∧ u.m.cache = s.m.cache
    let acquires (i : Instr) : Prop := Completes (exec i s) fun u => u.m.dbg = (n.trace (halfOfTile t.val) 5 t.val c.part.val 0 f.num).dbg
    s.m.braked = false →
    (s.m.ctxOf f.uid = some (saddleKey t d) →
      (∀ n k rd, s.m.net.sn.find? (fun f => f.op == .grant && f.key == saddleKey t d) = some f → c.wait = some (.sem n k rd) →
        ends (.snGrant t d) rd (BitVec.ofNat 64 f.count) ∧ acquires (.snGrant t d)) ∧
      (∀ n rd, s.m.net.sn.find? (fun f => f.op == .grant && f.key == saddleKey t d) = some f → c.wait = some (.try n rd) →
        ends (.snGrant t d) rd (BitVec.ofNat 64 f.count) ∧ acquires (.snGrant t d)) ∧
      (∀ n rd, s.m.net.sn.find? (fun f => f.op == .fail && f.key == saddleKey t d) = some f → c.wait = some (.try n rd) →
        ends (.snFail t d) rd (BitVec.allOnes 64)) ∧
      (∀ b p rd ar, s.m.net.sn.find? (fun f => f.op == .release && f.key == saddleKey t d) = some f → c.wait = some (.bar b p rd ar) →
        ends (.snRelease t d) rd (BitVec.ofNat 64 (if ar then f.count else (s.m.bar f.num).phase)))) ∧
    (s.m.net.sn.find? (fun f => f.op == .retry && f.key == saddleKey t d) = some f →
      exec (.snRetry t d) s = Becomes s (n.updNet fun n => { n with resend := n.resend ++ [{ f with op := .wait, again := true }] })) ∧
    (s.m.net.resend.find? (fun f => f.key == saddleKey t d) = some f →
      exec (.waitResend t d) s = Becomes s (s.m.updNet fun n => { n with resend := n.resend.erase f, sn := n.sn ++ [f] }))

/-! The scheduler and the control network (09, 13). -/

/-- TASK_LAUNCH puts the first task that a tile can take into the saddle chosen: its window is written, its launch is sent; CN_LAUNCH gives it the
registers of 04 R130: sp at the end of its window, a0 and a1, the descriptor's entry point, all else zero. -/
def Obligations.TaskLaunch : Prop :=
  (∀ (s : State) (iod : IodId) (k : Task) (rest : List Work) (p : Place), s.m.braked = false → s.m.workOf iod.val = .task k :: rest →
    s.m.mayPlace k.part.val = true → s.m.choose k ((s.m.eligible k).filterMap (s.m.placeFree k)) = some p → p.change = false →
    Completes (exec (.taskLaunch iod) s) fun t => let c := t.m.ctx p.tile.val p.saddle.val
      c.st = .loading ∧ c.uid = s.m.uidSeq ∧ c.task = some { k with uid := s.m.uidSeq } ∧ c.part = k.part ∧ t.m.uidSeq = s.m.uidSeq + 1 ∧
      t.m.sched.ready = s.m.sched.ready.erase k ∧
      (t.m.tile p.tile.val).win.getD p.saddle.val (0, 0) = (p.base, descWin k.desc) ∧
      t.m.net.cn = s.m.net.cn ++ [{
        op := .launch, dst := saddleKey p.tile p.saddle, a := saddleKey p.tile p.saddle, b := s.m.uidSeq, src := some (8 + iod.val) }] ∧
      t.m.mem = s.m.mem ∧ t.m.cache = s.m.cache) ∧
  (∀ (s : State) (t : TileId) (d : SaddleId) (f : CnFlit) (k : Task), let c := s.m.ctx t.val d.val
    s.m.dbg.brake.val ≤ 1 → (s.m.tile t.val).changing = none →
    s.m.net.cn.find? (fun f => f.op == .launch && f.a == saddleKey t d) = some f → c.task = some k → c.uid = f.b → c.st = .loading → c.ending = none →
    Completes (exec (.cnLaunch t d) s) fun u => let e := u.m.ctx t.val d.val
      e = c.launched k s.m.ticks ∧ e.st = .run ∧ e.getX 2 = BitVec.ofNat 64 (taskWin k) ∧ e.getX 10 = k.a0 ∧ e.getX 11 = k.a1 ∧
      (∀ r, r ≠ 2 → r ≠ 10 → r ≠ 11 → e.getX r = 0) ∧ e.pc = BitVec.ofNat 64 (bits k.desc.toNat 63 0) ∧ (∀ i, e.getV i = 0) ∧
      u.m.net.cn = s.m.net.cn.erase f ∧ u.m.mem = s.m.mem)

/-- What the control network carries (09 Table 9.4): a relayed doorbell rings at its front end where the die links reach it (01 R21), a command is handed to its unit, a report of its end
arrives, the end of a task empties its saddle, a first checksum failure relaunches its task elsewhere or, where the partition has no other tile,
ends it ARITH (03 R112), an event gets the next EVSEQ. -/
def Obligations.ControlNetwork : Prop :=
  ∀ (s : State), s.m.braked = false →
    let took (k : IodId) (f : CnFlit) : Mod := (s.m.updNet fun n => { n with cn := n.cn.erase f }).stampTo (f.src.getD (8 + k.val)) (8 + k.val)
    (∀ (k : IodId), s.m.iodReach s.fuse.order.val s.m.portIod.val k.val = false → exec (.cnDoorbell k) s = Becomes s s.m) ∧
    (∀ (k : IodId) f, s.m.iodReach s.fuse.order.val s.m.portIod.val k.val = true →
      s.m.net.cn.find? (fun f => f.op == .doorbell && s.m.servedBy f.dst == some k.val) = some f →
      exec (.cnDoorbell k) s = Becomes s (if f.c % 2 = 0 then (took k f).sqDoorbell (Fin.ofNat 128 (f.c / 2)) f.a f.b
        else (took k f).cqDoorbell (Fin.ofNat 128 (f.c / 2)) f.a f.b)) ∧
    (∀ (k : IodId) f, s.m.net.cn.find? (fun f => f.op == .cmd && s.m.servedBy f.dst == some k.val) = some f →
      exec (.cnCmd k) s = Becomes s ((took k f).updCmd f.a fun c => { c with handed := true })) ∧
    (∀ (k : IodId) f, s.m.net.cn.find? (fun f => f.op == .cmpl && s.m.servedBy f.dst == some k.val) = some f → exec (.cnCmpl k) s = Becomes s (took k f)) ∧
    (∀ (k : IodId) e rest, s.m.kod.server = k → s.m.kod.evq = e :: rest →
      exec (.cnEvent k) s = Becomes s (s.m.updKod fun x => { x with
        evq := rest, evseq := x.evseq + 1,
        events := (x.events ++ [{ e with seq := x.evseq + 1 }]).drop (x.events.length + 1 - 1024) })) ∧
    (∀ (t : TileId) (d : SaddleId) f k, let c := s.m.ctx t.val d.val
      s.m.net.cn.find? (fun f => f.op == .taskend && f.a == saddleKey t d) = some f → c.task = some k → k.retry = [] →
      (∀ st, c.ending = some st → Completes (exec (.cnTaskend t d) s) fun u =>
        u.m.ctx t.val d.val = { trig := c.trig, mcsr := c.mcsr } ∧ u.m.net.cn = s.m.net.cn.erase f ∧
        (u.m.tile t.val).win.getD d.val (0, 0) = (0, 0) ∧
        ∀ h, s.m.cmd? k.cmd = some h → k.item = none → ∃ g, u.m.cmd? k.cmd = some g ∧ g.tasksEnded = h.tasksEnded + 1 ∧
          g.status = worse h.status st ∧ g.aflags = h.aflags ||| c.tflags)) ∧
    (∀ (t : TileId) (d : SaddleId) f k r, let c := s.m.ctx t.val d.val
      s.m.net.cn.find? (fun f => f.op == .fault && f.a == saddleKey t d) = some f → c.task = some k → k.retry = [] → c.mrec = some r →
      (s.m.otherTile k.part.val t = true → Completes (exec (.cnFault t d) s) fun u =>
        u.m.ctx t.val d.val = { trig := c.trig, mcsr := c.mcsr } ∧
        u.m.sched.ready = s.m.sched.ready ++ [{ k with retry := [(t, r)], avoid := t :: k.avoid.filter (fun x => x != t) }] ∧
        u.m.host = s.m.host) ∧
      (s.m.otherTile k.part.val t = false → Completes (exec (.cnFault t d) s) fun u =>
        u.m.ctx t.val d.val = { trig := c.trig, mcsr := c.mcsr } ∧ u.m.sched.ready = s.m.sched.ready ∧
        ∀ h, s.m.cmd? k.cmd = some h → ∃ g, u.m.cmd? k.cmd = some g ∧ g.tasksEnded = h.tasksEnded + 1 ∧ g.status = worse h.status stARITH))

/-- Eviction, save and restore (13 R369-R376): a blocked context becomes evictable; the eviction stops it; its image is saved and its saddle
emptied; a restored image is the context again, waiting as before; a parked wait that is over makes its context runnable. An interference
window whose waiting exceeds its activity has no value in the spec: a free value (13 R383, log 28). -/
def Obligations.EvictionAndRestore : Prop :=
  (∀ (s : State) (t : TileId) (d : SaddleId), let c := s.m.ctx t.val d.val
    let key := saddleKey t d
    s.m.braked = false →
    (c.st = .blocked → exec (.contextEvictable t d) s = Becomes s (s.m.setCtx t.val d.val { c with evictable := true })) ∧
    (∀ w, Tab.find key s.m.sched.evicting = some w → c.st = .blocked ∨ c.st = .halted → c.ending = none →
      Completes (exec (.evictionReceived t d) s) fun u => u.m.ctx t.val d.val = { c with st := .saving } ∧ u.m.sched = s.m.sched ∧
        u.m.mem = s.m.mem ∧ u.m.cache = s.m.cache) ∧
    (∀ k w, Tab.find key s.m.sched.evicting = some (.task w) → c.st = .saving → c.ending = none → c.iq = [] → c.vq = 0 → c.task = some k →
      (∀ r ∈ (s.m.tile t.val).running, r.sd ≠ d) → s.m.mayPlace w.part.val = false → Completes (exec (.saveDone t d) s) fun u =>
        u.m.ctx t.val d.val = { mcsr := c.mcsr } ∧ u.m.sched.ready = w :: s.m.sched.ready ∧
        ∃ v, Tab.find s.m.sched.saved.fresh u.m.sched.saved = some v ∧ v.ctx = c.saved ∧ v.parked = c.wait.isSome ∧
          (v.ts, v.poison) = (s.m.tile t.val).liveImage ((s.m.tile t.val).win.getD d.val (0, 0)).1 (taskLive k)) ∧
    (∀ h v, Tab.find key s.m.sched.restoring = some h → (s.m.tile t.val).changing = none → Tab.find h s.m.sched.saved = some v →
      Completes (exec (.restoreDone t d .ok) s) fun u => u.m.ctx t.val d.val = { v.ctx with
        mcsr := c.mcsr, blockedAt := s.m.ticks, st := if v.ctx.wait.isSome then .blocked else .run } ∧
        u.m.sched.saved = s.m.sched.saved.del h ∧ u.m.sched.restoring = s.m.sched.restoring.del key) ∧
    (∀ h v tag rd id cp st, Tab.find h s.m.sched.saved = some v → v.parked = true → v.ctx.wait = some (.copy tag rd) →
      Tab.find tag v.ctx.tags = some id → Tab.find id s.m.copies = some cp → cp.status = some st →
      Completes (exec (.parkedWaitDone h) s) fun u => u.m.copies = s.m.copies.del id ∧
        Tab.find h u.m.sched.saved = some { v with
          ctx := { v.ctx.endWait (some (rd, BitVec.ofNat 64 st)) with tags := v.ctx.tags.del tag },
          parked := false, ready := some s.m.sched.readySeq })) ∧
  (∀ (s : State) (p : PartId) (a w : Nat), a ≠ 0 → a < w → Completes (exec (.interfWindowEnd p a w) s) fun t =>
      Tab.find p.val t.m.sched.interf = some (Config.freeNat s.m.free % 2 ^ 32))

/-- At the end of a window a partition's interference is floor(1024 W / (A - W)), 0 for no activity or for A = W, and sticks at 0xFFFF_FFFF;
above SCH_INTERF_THR the event SCH_INTERF is raised with the partition and the value, and nothing else changes: no task is moved, throttled
or replaced (13 R384; a threshold of 0 is off, Table 13.5). -/
def Obligations.InterferenceWindow : Prop :=
  ∀ (s : State) (p : PartId) (a w : Nat), let thr := s.m.parN (pSchInterfThr + p.val)
    let put (n : Mod) (i : Nat) : Mod := n.updSched fun x => { x with interf := x.interf.put p.val i }
    let i := min 0xFFFFFFFF (1024 * w / (a - w))
    (a = 0 ∨ a = w → exec (.interfWindowEnd p a w) s = Becomes s (put s.m 0)) ∧
    (w < a → thr = 0 ∨ i ≤ thr → exec (.interfWindowEnd p a w) s = Becomes s (put s.m i)) ∧
    (w < a → thr ≠ 0 → thr < i → exec (.interfWindowEnd p a w) s = Becomes s ((put s.m i).raise evSchInterf 0 p.val i))

/-! External memory (11). -/

/-- MEM_WRITE of a line that its stack serves (11 R310, R317): the line holds the data and its poison mark, every other line and mark is as
before but for the mirror copy or the PARITY_P line, which takes old data xor new; a read then returns it. A line of an unavailable stack
without redundancy is not written and its block is marked lost (R328). Reads, parity deltas, scrubbing and refresh (11 R311, R312, R318,
R319, R322): a sound read counts and changes nothing else; a corrected one counts its lane; poison is counted; an uncorrectable line without
redundancy reads poisoned; an address outside the space is the one fault. -/
def Obligations.MemoryAccesses : Prop :=
  (∀ (s : State) (pa : Nat) (d : LineData) (p : Bool), pa < paLimit → s.m.mem.em.wf = true → let v := s.m.region (regionOf pa)
    let c := sameOffset (partnerOf v) pa
    let other (t : State) (l : List Nat) : Prop := ∀ q, (∀ a ∈ l, q / 128 ≠ a / 128) → t.m.emLine q = s.m.emLine q ∧ t.m.poisoned q = s.m.poisoned q
    let kept (t : State) : Prop := t.m.mem.em.wf = true ∧ t.m.mem.regions = s.m.mem.regions ∧ t.m.mem.frameTag = s.m.mem.frameTag ∧
      t.m.mem.hm = s.m.mem.hm ∧ t.m.cache = s.m.cache ∧ t.m.tiles = s.m.tiles ∧ t.m.ctxs = s.m.ctxs
    let holds (t : State) : Prop := t.m.emLine pa = d ∧ t.m.poisoned pa = p ∧ (t.m.memReadLine pa .ok .ok 0).1 = ⟨d, p⟩
    (s.m.lineUp pa = true → kindOf v ≠ kMIRROR → kindOf v ≠ kPARITY →
      Completes (exec (.memWrite pa d p) s) fun t => holds t ∧ other t [pa] ∧ kept t) ∧
    (s.m.lineUp pa = true → s.m.lineUp c = true → kindOf v = kMIRROR → c / 128 ≠ pa / 128 →
      Completes (exec (.memWrite pa d p) s) fun t => holds t ∧ t.m.emLine c = d ∧ other t [pa, c] ∧ kept t) ∧
    (s.m.lineUp pa = true → s.m.lineUp c = true → kindOf v = kPARITY → c / 128 ≠ pa / 128 →
      Completes (exec (.memWrite pa d p) s) fun t => holds t ∧ t.m.emLine c = s.m.emLine c ^^^ s.m.emLine pa ^^^ d ∧ other t [pa, c] ∧ kept t) ∧
    (s.m.lineUp pa = false → kindOf v ≠ kMIRROR → kindOf v ≠ kPARITY →
      exec (.memWrite pa d p) s = Becomes s (s.m.updStack (s.m.stackOf pa) fun k => { k with lostMap := k.lostMap.put (blockOf pa) () }))) ∧
  (∀ (s : State) (pa : Nat), let st := s.m.stackOf pa
    let ch := chanOf pa
    let n := (s.m.countBy kMemRdBytes st 128).count kMemAct (16 * st + ch)
    (pa < paLimit → s.m.lineUp pa = true → ∀ eR lane,
      (s.m.poisoned pa = false → exec (.memRead pa .ok eR lane) s = Becomes s n ∧
        exec (.memRead pa .corrected eR lane) s = Becomes s (n.laneError st ch lane.val) ∧
        (s.m.durable pa = false → exec (.memRead pa .uncorrectable eR lane) s = Becomes s (n.count kMemUe (16 * st + ch)) ∧
          (s.m.memReadLine pa .uncorrectable eR lane.val).1 = ⟨0, true⟩)) ∧
      (s.m.poisoned pa = true → exec (.memRead pa .ok eR lane) s = Becomes s (n.count kMemPoisonRd (16 * st + ch))) ∧
      (s.m.foster (emKeyOf pa) = none → (s.m.half (homeOf (emKeyOf pa))).dirtyFrames.has (pa / 65536) = false → s.m.poisoned pa = false →
        exec (.scrub pa .ok eR lane) s = Becomes s s.m ∧
        (s.m.durable pa = false → Completes (exec (.scrub pa .uncorrectable eR lane) s) fun t =>
          t.m.poisoned pa = true ∧ t.m.mem.em = s.m.mem.em))) ∧
    (pa < paLimit → kindOf (s.m.region (regionOf pa)) = kPARITYP → s.m.lineUp pa = true → s.m.mem.em.wf = true → ∀ delta,
      Completes (exec (.parityDelta pa delta) s) fun t => t.m.emLine pa = s.m.emLine pa ^^^ delta ∧
        (∀ q, q / 128 ≠ pa / 128 → t.m.emLine q = s.m.emLine q) ∧ t.m.mem.regions = s.m.mem.regions) ∧
    (paLimit ≤ pa → ∀ d q e eR lane, exec (.memRead pa e eR lane) s = .fault (.noSuchAddress pa) ∧ exec (.memWrite pa d q) s = .fault (.noSuchAddress pa) ∧
      exec (.parityDelta pa d) s = .fault (.noSuchAddress pa) ∧ exec (.scrub pa e eR lane) s = .fault (.noSuchAddress pa)) ∧
    (∀ k : SliceId, (s.m.stack k.val).selfRefresh = false →
      exec (.refresh k) s = Becomes s (s.m.updStack k.val fun x => { x with refreshes := x.refreshes + 1 })))

/-- Regions, training and test of external memory (11 R308, R320-R324, R333): a well-formed set of records makes its regions FORMING and zeroes
those that change kind, until they are formed; a training step moves its channel on, the third failure fails the stack; the generator runs
only where the stack is not in service. Stacks (11 R325-R331): a second sample at or above the high limit doubles refresh and raises
MEM_THERM_HIGH, 105 degrees parks; a stack that leaves a command unanswered fails; rebuild starts once, and places a line at a time; after
RESYNC the stack is ONLINE. -/
def Obligations.MemoryUpkeep : Prop :=
  (∀ (s : State) (st : SliceId) (ch : ChanId), let k := s.m.stack st.val
    let c := s.m.chan st.val ch.val
    (∀ blob, let rs := recordsOf 8 blob
      s.m.serving = true → s.m.seq.inService = false → s.m.seq.initing = false → blob.length % 8 = 0 → 0 < blob.length → blob.length ≤ 1024 →
      rs.all regionRecOk = true → (rs.map fun r => bits r 63 53).Nodup → regionMapOk (applyRegions rs s.m.mem.regions) = true →
      (∀ r ∈ rs, formingOf (s.m.region (bits r 63 53)) = false) → Completes (exec (.memRegionSet blob) s) fun t =>
        t.m.kod.lastAct = some (pMemRegionSet, esRUNNING) ∧
        ∀ r ∈ rs, (bits r 31 29 ≠ kindOf (s.m.region (bits r 63 53)) →
            formingOf (t.m.region (bits r 63 53)) = true ∧ ∀ a, regionOf a = bits r 63 53 → Mem.rd a t.m.mem.em = 0) ∧
          (bits r 31 29 = kindOf (s.m.region (bits r 63 53)) → t.m.region (bits r 63 53) = BitVec.ofNat 32 (bits r 31 0))) ∧
    ((∃ e ∈ s.m.mem.regions, formingOf e.2 = true) → exec .regionFormingDone s =
      Acts s (s.m.updMem fun e => { e with regions := e.regions.map fun x => (x.1, x.2 &&& 0xEFFFFFFF) }) pMemRegionSet esOK) ∧
    (3 ≤ s.m.mod.mstate.val → s.m.mod.mstate.val ≤ 5 → k.state = 0 → ∀ w ca lb,
      (c.step < 3 → exec (.memTrainStepDone st ch true w ca lb) s =
        Becomes s (s.m.updChan st.val ch.val fun _ => { c with step := c.step + 1, attempts := 0 })) ∧
      (c.step < 6 → c.step ≠ 4 → c.attempts < 2 → exec (.memTrainStepDone st ch false w ca lb) s =
        Becomes s (s.m.updChan st.val ch.val fun _ => { c with attempts := c.attempts + 1 })) ∧
      (c.step < 6 → c.step ≠ 4 → 2 ≤ c.attempts → Completes (exec (.memTrainStepDone st ch false w ca lb) s) fun t =>
        (t.m.stack st.val).state = 4 ∧ (t.m.chan st.val ch.val).step = c.step ∧
        ∃ e1 e2, t.m.kod.evq = s.m.kod.evq ++ [e1, e2] ∧ e1.code = evMemTrainFail ∧ e2.code = evMemStackFail)) ∧
    (tgAllowed k = true → c.tgStat.getLsbD 63 = false → exec (.memTgStart st ch true) s =
      Becomes s (s.m.updChan st.val ch.val fun c => { c with tgStat := 0x8000000000000000, tgLanes := 0 })) ∧
    (exec (.memTgStart st ch false) s = Becomes s s.m) ∧
    (exec (.memTgStop st ch) s = Becomes s (s.m.updChan st.val ch.val fun c => { c with tgStat := c.tgStat &&& 0x7FFFFFFFFFFFFFFF })) ∧
    (∀ n f l, c.tgStat.getLsbD 63 = true → Completes (exec (.memTgDone st ch n f l) s) fun t => let d := t.m.chan st.val ch.val
      d.tgStat.getLsbD 63 = false ∧ (d.tgStat.getLsbD 62 = true ↔ n ≠ 0) ∧ d.tgStat.toNat % 2 ^ 32 = min n 0xFFFFFFFF ∧
      d.tgLanes = l.setWidth 128 ∧ t.m.mem.em = s.m.mem.em)) ∧
  (∀ (s : State) (st : SliceId), let k := s.m.stack st.val
    (∀ (temps : List Int) (t : Int), temps.length = 16 → temps[st.val]? = some t → k.crit = false → let high := s.m.par pMemTHigh
      (k.state = 1 → k.refresh2x = false → k.hiRun = 1 → high ≤ t → t < 105 → Completes (exec (.stackThermalSample temps) s) fun u =>
        (u.m.stack st.val).state = 2 ∧ (u.m.stack st.val).refresh2x = true ∧ (u.m.stack st.val).temp = t ∧
        ∃ e ∈ u.m.kod.evq, e.code = evMemThermHigh ∧ e.source = BitVec.ofNat 16 st.val) ∧
      (k.state = 1 → 105 ≤ t → Completes (exec (.stackThermalSample temps) s) fun u =>
        (u.m.stack st.val).crit = true ∧ ∃ e ∈ u.m.kod.evq, e.code = evMemThermCrit ∧ e.source = BitVec.ofNat 16 st.val) ∧
      (k.state = 0 ∨ k.state = 4 → Completes (exec (.stackThermalSample temps) s) fun u => u.m.stack st.val = { k with temp := t })) ∧
    (k.crit = true → k.state = 1 ∨ k.state = 2 ∨ k.state = 5 → exec (.critParkDone st) s = Becomes s (s.m.updStack st.val fun k => { k with
      state := 3, selfRefresh := true, refresh2x := true, rebuild := none, coolRun := 0 })) ∧
    (k.state = 5 → s.m.nextDurable st.val k.resync = none → exec (.resyncEnd st) s = Becomes s (s.m.updStack st.val fun k => { k with
      state := if k.refresh2x then 2 else 1, rebuild := none, rebuilt := false, fromFailed := false, resync := 0, fresh := [], unplaced := [] })) ∧
    (∀ c, k.state ≠ 4 → Completes (exec (.stackCmdTimeout st c) s) fun t => (t.m.stack st.val).state = 4 ∧
      (t.m.stack st.val).failTick = s.m.ticks ∧ t.m.mem.em = s.m.mem.em ∧
      ∃ e, t.m.kod.evq = s.m.kod.evq ++ [e] ∧ e.code = evMemStackFail ∧ e.source = BitVec.ofNat 16 st.val) ∧
    (k.state = 4 → k.rebuild = none → k.rebuilt = false →
      exec (.rebuildStart st) s = Becomes s (s.m.updStack st.val fun k => { k with rebuild := some 0 })) ∧
    (∀ a e, k.state = 4 → k.skipped = [] → k.rebuild = some a → s.m.nextDurable st.val a = none →
      exec (.rebuildStep st e) s = Becomes s (s.m.updStack st.val fun k => { k with rebuild := none, rebuilt := true })) ∧
    (∀ l e, k.state = 4 → s.m.retryable st.val e = some l → exec (.rebuildStep st e) s =
      Becomes s ((s.m.updStack st.val fun k => { k with skipped := k.skipped.del l }).standinLine st.val (128 * l) e)) ∧
    (∀ l e, k.state ≠ 3 → k.state ≠ 4 → s.m.retryable st.val e = some l → exec (.rebuildStep st e) s =
      Becomes s ((s.m.updStack st.val fun k => { k with skipped := k.skipped.del l }).resyncLine st.val (128 * l) e)) ∧
    (∀ pa e, k.state = 5 → s.m.retryable st.val e = none → s.m.nextDurable st.val k.resync = some pa → exec (.rebuildStep st e) s =
      Becomes s ((s.m.resyncLine st.val pa e).updStack st.val fun k => { k with resync := pa + 128 })) ∧
    (∀ a pa x y, k.state = 4 → k.skipped = [] → k.rebuild = some a → s.m.nextDurable st.val a = some pa → s.m.standins st.val pa = [x, y] →
      let v := s.m.region (regionOf pa)
      let c := sameOffset (partnerOf v) pa
      kindOf v = kMIRROR → s.m.lineUp c = true → s.m.poisoned pa = false → s.m.poisoned c = false → s.m.mem.em.wf = true → x / 128 ≠ y / 128 →
      Completes (exec (.rebuildStep st .ok) s) fun t => t.m.emLine x = s.m.emLine c ∧ t.m.emLine y = s.m.emLine c ∧
        (t.m.stack st.val).rebuild = some (pa + 128)))

/-! The sequence engine (12). -/

/-- Commands on slots, sequences, table and pool (12 R334-R346, Tables 12.3 to 12.7): each that its unit may start ends with its result code; a name
of no sequence of the table ends NOSEQ and is counted. -/
def Obligations.SequenceCommands : Prop :=
  ∀ (s : State) (id op : Nat) (c : HCmd), s.m.startable id op = some c → let b := s.m.begin id c
    let ends (n : Mod) (code spec : Nat) : Out := Becomes s (n.seqEnd id code spec)
    let sl := c.wf 0 7 0
    let i := c.wf 0 31 0 % 2 ^ 20
    let e := s.m.ent i
    let desc := BitVec.ofNat 512 (bits c.hdr 767 256)
    (op = 0x10 → slotRefusal desc = none →
      (Tab.find sl s.m.seq.slots = none → exec (.slotSet id) s = ends (b.updSeq fun x => { x with slots := x.slots.put sl ⟨c.fn, desc⟩ }) scDONE 0) ∧
      (∀ o, Tab.find sl s.m.seq.slots = some o → o.part = c.fn → s.m.slotHeld sl = true → exec (.slotSet id) s = ends b scSTATE 0)) ∧
    (op = 0x10 → ∀ k, slotRefusal desc = some k → exec (.slotSet id) s = Becomes s (b.refuseCmd id (256 + k))) ∧
    (op = 0x11 → ∀ o, Tab.find sl s.m.seq.slots = some o → o.part = c.fn → s.m.slotHeld sl = false →
      exec (.slotClear id) s = ends (b.updSeq fun x => { x with slots := x.slots.del sl }) scDONE 0) ∧
    (op = 0x12 → ∀ o k j r, c.wf 2 23 0 ≠ 0 → s.m.seq.inService = true → Tab.find sl s.m.seq.slots = some o → o.part = c.fn →
      leastBy (fun (k : Nat) => [-((b.poolFree c.fn k false : Nat) : Int), (k : Int)])
        ([0, 1, 2, 3].filter fun k => b.served k && (b.freeEntry k).isSome) = some k →
      b.seqLive c.fn < b.parN (pSeqQuota + c.fn.val) → b.freeEntry k = some j → b.allocPage c.fn k true = some r →
      let a : SeqEnt := { state := 1, gen := (b.ent j).gen, slot := Fin.ofNat 256 sl, part := c.fn, prio := Fin.ofNat 8 (c.wf 0 10 8),
                          dline := c.wf 0 31 16, maxnew := c.wf 0 55 32, pend := c.wf 2 23 0, root := r.1, nnpage := r.1, nnidx := 1, pages := 1,
                          tokva := bits (c.w 1) 47 0, usertag := BitVec.ofNat 64 (c.w 3) }
      exec (.seqAdmit id) s = ends ((((((r.2.takeEntry k).physWrite (r.1 * 65536) (List.replicate 4096 0) 7).setEnt j a).enlist j a).count kSeqAdmits k))
        scDONE (seqIdOf j a)) ∧
    (s.m.seq.inService = true → e.state ≠ 0 → e.gen % 4096 = c.wf 0 31 0 / 2 ^ 20 → e.part = c.fn →
      (op = 0x13 → s.m.inStep i = false → e.state = 3 → e.pos + c.wf 0 55 32 ≤ 16777215 → exec (.seqAppend id) s =
        ends (b.setEnt i { e with state := 2, pbase := e.pos, pend := e.pos + c.wf 0 55 32, tokva := bits (c.w 1) 47 0, last := 0 }) scDONE 0) ∧
      (op = 0x13 → s.m.inStep i = false → e.state = 2 → exec (.seqAppend id) s = ends b scBUSY 0) ∧
      (op = 0x14 → s.m.inStep i = false → e.live = true →
        exec (.seqPark id) s = ends ((b.setEnt i { e with state := 4 }).unlist i e) scDONE 0) ∧
      (op = 0x15 → e.state = 4 → let r : SeqEnt := { e with state := if e.pos = 0 then 1 else if e.pos < e.pend then 2 else 3 }
        exec (.seqResume id) s = ends ((b.setEnt i r).enlist i r) scDONE 0) ∧
      (op = 0x16 → s.m.inStep i = false → e.state ≠ 5 →
        exec (.seqRetire id) s = Becomes s ((b.retireSeq i e 4).updSeq fun x => { x with retiring := x.retiring ++ [(i, id)] })) ∧
      (op = 0x17 → exec (.seqQuery id) s = ends b scDONE
        (e.state.val + e.reason.val * 2 ^ 3 + e.pos * 2 ^ 7 + e.pend * 2 ^ 32 + e.generated * 2 ^ 64 + e.pages * 2 ^ 88)) ∧
      (op ∈ [0x13, 0x14, 0x16] → s.m.inStep i = true → ∀ x, (op, x) ∈ [(0x13, Instr.seqAppend id), (0x14, .seqPark id), (0x16, .seqRetire id)] →
        exec x s = Becomes s (b.updSeq fun y => { y with held := y.held ++ [id] }))) ∧
    (e.state ≠ 0 → e.gen % 4096 ≠ c.wf 0 31 0 / 2 ^ 20 →
      ∀ x, (op, x) ∈ [(0x13, Instr.seqAppend id), (0x14, .seqPark id), (0x15, .seqResume id), (0x16, .seqRetire id), (0x17, .seqQuery id)] →
        exec x s = Becomes s (b.noSeqAt id (quarterOf i)))

/-- Steps, selections and retirement (12 R350-R359): a STEP starts where no step of its slot runs; an item that its task advanced moves its sequence on
and gets its record; selections read their queries when SEMQ is granted and list every block where they are few; retirement frees the entry. -/
def Obligations.SequenceSteps : Prop :=
  ∀ (s : State) (id : Nat),
    (∀ c x, s.m.startable id 2 = some c → let n := c.wf 0 7 0
      s.m.slotBusy n = false → s.m.frozenPart c.fn.val = false → c.w 3 ≠ 0 → c.wf 0 47 32 = 0 → Tab.find n s.m.seq.slots = some x → x.part = c.fn →
      (∀ k, s.m.listOf n k = []) → exec (.stepCmd id) s = Becomes s ((s.m.begin id c).updSeq fun y => { y with
        steps := y.steps.put id { slot := Fin.ofNat 256 n, part := c.fn, items := [], quarters := [], resva := c.w 3 } })) ∧
    (∀ c x, s.m.startable id 2 = some c → let n := c.wf 0 7 0
      s.m.slotBusy n = false → s.m.frozenPart c.fn.val = false → c.w 3 ≠ 0 → c.wf 0 47 32 = 0 → Tab.find n s.m.seq.slots = some x → x.part = c.fn →
      exec (.stepCmd id) s = Becomes s ((s.m.begin id c).buildStep ⟨id, c, n, x⟩)) ∧
    (∀ c r t q x, s.m.cmd? id = some c → Tab.find id s.m.seq.steps = some r → c.ended = false → c.tasksEnded = c.tasks → r.order = [(false, 0)] →
      r.items = [t] → r.npois = [] → r.quarters = [q] → s.m.finishes c.iod.val = true → s.m.finishes q = true → Tab.find r.slot.val s.m.seq.slots = some x → 1 ≤ 2 * (c.cext - b2n c.cstat) →
      let n := s.m.endItem id r.part.val x t
      (∀ k ∈ [0, 1, 2, 3], ∀ j ∈ n.2.listOf r.slot.val k, j = t.ent) → n.2.seq.held = [] →
      exec (.stepEnd id) s = Becomes s ((({ n.2.count kSeqSteps q with
        net := { n.2.net with
          waits := n.2.net.waits.filter (fun w => !(w.uid == 0 && w.key / 65536 == id)),
          selGrants := n.2.net.selGrants.filter (fun k => k / 65536 != id) }
        seq := { n.2.seq with
          steps := n.2.seq.steps.del id } } : Mod).updCmd id fun c => { c with recs := [n.1], spec := 1 + 2 ^ 32 }).endCmd id)) ∧
    (∀ p x t, let e := s.m.ent t.ent
      let r := s.m.seqRead id p (quarterOf t.ent) t.result 8
      let w := leNat r.1.bytes
      let d : SeqEnt := { e with
        pos := e.pos + t.ntok, credit := 0, last := BitVec.ofNat 32 w, generated := e.generated + 1, state := 3 }
      (e.gen = t.gen → e.live = true → t.poisoned = false → r.1.poison = false → w.testBit 34 = true → w.testBit 33 = false → t.kind = 0 → x.mode = 0 →
        e.maxnew = 0 → e.pos + t.ntok < 16777216 → s.m.endItem id p x t =
          (stepRec (seqIdOf t.ent { e with gen := t.gen }) (w % 2 ^ 32) (e.pos + t.ntok) true false false 0, r.2.setEnt t.ent d)) ∧
      (e.gen ≠ t.gen → s.m.endItem id p x t =
        (stepRec (seqIdOf t.ent { e with gen := t.gen }) 0 t.pos false true false 0, s.m.count kSeqItemNoadv (quarterOf t.ent)))) ∧
    (∀ item r t x, Tab.find id s.m.seq.steps = some r → r.items[item]? = some t → Tab.find r.slot.val s.m.seq.slots = some x → let q := quarterOf t.ent
      s.m.finishes q = true →
      (selKey id item ∈ s.m.net.selGrants → t.selecting = none →
        let h := (s.m.updNet fun n => { n with selGrants := n.selGrants.erase (selKey id item) }).seqRead id r.part.val q t.selbuf 64
        let b := h.2.seqRead id r.part.val q (t.selbuf + 64) (2 * x.d * x.hq)
        h.1.poison = false → b.1.poison = false → exec (.selectionStart id item) s =
          Becomes s (b.2.updItem id item fun t => { t with selecting := some (leField h.1.bytes 0 1, b.1.bytes) })) ∧
      (∀ l, t.selecting = some l →
        let n := forEach (List.range x.hq) (fun j m =>
          let g := m.selectFor x (s.m.ent t.ent) l.1 (t.pos / x.pb) j l.2
          (g.2.seqWrite id r.part.val q (t.selbuf + 0x8040 + 4 * j) (leBytes g.1.length 4) 7).seqWrite id r.part.val q
            (t.selbuf + 0x10000 + 0x4000 * j) (g.1.flatMap fun b => leBytes b 4) 7) s.m
        let d := (n.updItem id item fun t => { t with selecting := none }).countBy kSeqSel q x.hq
        exec (.selectionMerge id item) s =
          Becomes s ((d.signalFrom (1152 + 8 * q + 1) (d.nameSem r.part.val t.sems) 1).semWait ⟨d.nameSem r.part.val t.semq, 1, 0, selKey id item⟩))) ∧
    (∀ x e l n j qs, n ≤ x.sinkb + x.localb + x.topk → (s.m.selectFor x e l n j qs).1 = List.range n) ∧
    (∀ index : BitVec 20, let i := index.toNat
      let n := s.m.freeEnt i
      (s.m.ent i).state = 5 → s.m.inStep i = false → s.m.finishes (quarterOf i) = true → n.seq.retiring.filter (fun r => r.1 == i) = [(i, id)] →
      exec (.retireDone index) s = Becomes s ((n.updSeq fun y => { y with retiring := y.retiring.filter fun r => r.1 != i }).seqEnd id scDONE 0))

/-- The table, written whole to its memory when it is made, and the pool (12 R338, R339, R345, R346), and the division of a step's budget: no step is granted more tokens than its budget (R351). -/
def Obligations.SequencePools : Prop :=
  (∀ s : State,
    (s.m.seq.initing = true → exec .seqAstInitDone s = Acts s (s.m.updSeq fun x => { x with
      initing := false, inService := true, ents := [], freed := [], fresh := [], ready := [] }).putTable pSeqAstInit esOK) ∧
    (s.m.serving = true → exec .seqAstInit s = Acts s s.m.astInit.2 pSeqAstInit s.m.astInit.1) ∧
    (s.m.seq.inService = false → s.m.seq.initing = false → s.m.seq.extents = [] → let base := s.m.parN pSeqAstBase
      base % 2 ^ 27 = 0 → base + 2 ^ 27 ≤ paLimit → base + 2 ^ 27 ≤ s.m.parN pMemFktBase ∨ s.m.parN pMemFktBase + 2 ^ 25 ≤ base →
      (∀ i < 2048, kindOf (s.m.region (regionOf (base + i * 65536))) = kMIRROR ∧ s.m.tagOf (base + i * 65536) = 0xFE) →
      s.m.astInit = (esRUNNING, s.m.updSeq fun x => { x with initing := true, base := base })) ∧
    (∀ blob n, s.m.serving = true → blob.length = 16 → s.m.poolRecord (leNat blob) = some n →
      exec (.seqPoolSet blob) s = Acts s n pSeqPoolSet esOK ∧
      ((leNat blob).testBit 74 = false → let r := leNat blob
        n = s.m.updSeq fun x => { x with extents := x.extents ++ [{
          base := bits r 24 0, count := bits r 56 32, part := Fin.ofNat 128 (bits r 70 64), quarter := Fin.ofNat 4 (bits r 72 71),
          table := r.testBit 73 }] }))) ∧
  (∀ (x : Slot) (ds : List Demand), ((divideBudget x ds).map Prod.snd).sum ≤ x.budget)

/-! The host port (14). -/

/-- Commands that a unit of the module runs for the host (14 R404-R410, 06 R196-R199, 11 R315): each that may start is marked started, has its effect,
and its report sets out; a refused one ends ARITH with its bit. -/
def Obligations.HostCommands : Prop :=
  ∀ (s : State) (id op : Nat) (c : HCmd), s.m.startable id op = some c → let b := s.m.begin id c
    let ends (n : Mod) : Out := Becomes s (n.endCmd id)
    (c.cstat = false → b = s.m.updCmd id fun c => { c with started := true }) ∧
    (∀ (n : Mod) d, n.cmd? id = some d → (n.endCmd id).cmd? id = some { d with ended := true } ∧
      (n.endCmd id).net.cn = n.net.cn ++ [{ op := .cmpl, dst := d.iod.val, a := id }]) ∧
    (op = 0 → exec (.nop id) s = ends b) ∧
    (op = 0x30 → exec (.mmuInval id) s = ends (b.tlbDrop fun e => e.part.val == c.wf 0 6 0 &&
      (c.wf 0 8 8 == 1 || decide (e.page < c.w 1 + c.w 2 ∧ c.w 1 < e.page + e.size)))) ∧
    (op = 1 → let r := b.emReadN (.nc (feAgent (s.m.actingIod c.iod.val))) c.fn.val (c.w 0) 64 4
      let desc := BitVec.ofNat 512 (leNat r.1.bytes)
      r.1.viol = false → r.1.poison = false →
      (taskRefused desc = true → exec (.launch id) s = ends (r.2.markCmd id stARITH (faultDetail fkLAUNCH 0 0 0 0 0))) ∧
      (taskRefused desc = false → exec (.launch id) s = Becomes s ((r.2.updCmd id fun x => { x with tasks := c.wf 1 15 0 + 1 }).updSched fun x => { x with
        ready := x.ready ++ (List.range (c.wf 1 15 0 + 1)).map fun i => {
          uid := 0, cmd := id, index := i, part := c.fn, desc := desc, a0 := BitVec.ofNat 64 (bits desc.toNat 127 64),
          a1 := BitVec.ofNat 64 (bits desc.toNat 191 128) + BitVec.ofNat 64 i } }))) ∧
    (op = 3 → ∀ h, s.m.copyRefusal c = none → s.m.copyHalf c.iod.val = some h → c.retain = false →
      let r := b.pushCopy none id c.fn h (c.slots.getD 1 0) (BitVec.ofNat 16 (c.wf 0 15 0))
      exec (.copyCmd id) s = Becomes s (r.2.updCmd id fun c => { c with copy := some r.1 })) ∧
    (op = 3 → ∀ k, s.m.copyRefusal c = some k → exec (.copyCmd id) s = Becomes s (b.refuseCmd id k)) ∧
    (op = 4 → c.wf 1 3 3 = 0 → c.pannier ≠ [] →
      (let r := b.psWriteN (.nc (feAgent (s.m.actingIod c.iod.val))) c.fn.val (c.w 0) c.pannier
       c.wf 1 2 0 = 1 → r.1.viol = false → r.1.poison = false → r.1.unperformed = false → exec (.pwrite id) s = ends r.2) ∧
      (let r := b.emWriteN (.nc (feAgent (s.m.actingIod c.iod.val))) c.fn.val (c.w 0) c.pannier 7
       c.wf 1 2 0 = 2 → r.1.viol = false → r.1.poison = false → r.1.unperformed = false →
         exec (.pwrite id) s = ends (r.2.workDone id c.pannier.length 0 0 0))) ∧
    (op = 0x20 → c.wf 0 17 17 = 0 → 0 < c.wf 0 9 0 → c.wf 0 9 0 ≤ 768 →
      (s.m.parN (pCchPinQuota + c.fn.val) < s.m.pinUsed c.fn.val + c.wf 0 9 0 →
        exec (.pin id) s = ends ((b.markCmd id stPINQUOTA 0).updCmd id fun c => { c with spec := 0 })) ∧
      (∀ u, s.m.pinUsed c.fn.val + c.wf 0 9 0 ≤ s.m.parN (pCchPinQuota + c.fn.val) → s.m.cache.extents.length < 1024 →
        s.m.freeRun c.fn.val (c.wf 0 9 0) = some u → (∀ e ∈ s.m.cache.lines, coversWay u (c.wf 0 9 0) e.1 e.2 = false) →
        exec (.pin id) s = ends ((b.updCache fun x => { x with
          extents := x.extents ++ [{ base := u, units := c.wf 0 9 0, part := c.fn, order := x.extentSeq + 1 }],
          extentSeq := x.extentSeq + 1 }).updCmd id fun x => { x with spec := u * 2 ^ 21 }))) ∧
    (op = 0x21 → c.wf 0 32 32 = 0 →
      (∀ e, s.m.cache.extents.find? (fun e => e.base * 2 ^ 21 == c.wf 0 30 0 && e.part == c.fn) = some e →
        exec (.unpin id) s = ends ((b.unpin e false).workDone id 0 0 0 0)) ∧
      (s.m.cache.extents.find? (fun e => e.base * 2 ^ 21 == c.wf 0 30 0 && e.part == c.fn) = none →
        exec (.unpin id) s = ends (b.violate c.fn.val))) ∧
    (op = 0x22 → let k := s.m.nameBar c.fn.val (c.wf 0 11 0)
      (s.m.ownsBar c.fn.val k = true → (s.m.bar k).arrived = 0 →
        exec (.barAlloc id) s = ends (b.setBar k { s.m.bar k with count1 := c.wf 0 27 16 })) ∧
      (s.m.ownsBar c.fn.val k = false → exec (.barAlloc id) s = ends (b.violate c.fn.val))) ∧
    (op = 0x31 → let first := c.wf 0 24 0
      let n := c.wf 1 25 0
      let tag := c.wf 1 39 32
      (tagValid tag = false → exec (.frameTag id) s = Becomes s (b.refuseCmd id 224)) ∧
      (tagValid tag = true → first + n ≤ s.m.parN pMemFktBase / 65536 ∨ s.m.parN pMemFktBase / 65536 + 512 ≤ first →
        (∀ p < 128, (s.m.part p).st ≠ .disabling) → exec (.frameTag id) s = ends (b.retag first n tag)))

/-- Queue pairs, their results and what the host port does at the end of a command (14 R396-R403, R411, R412, R415-R420). -/
def Obligations.QueuePairs : Prop :=
  ∀ (s : State) (id op : Nat) (c : HCmd), s.m.startable id op = some c → let b := s.m.begin id c
    let ends (n : Mod) : Out := Becomes s (n.endCmd id)
    let q := c.wf 0 15 0
    (op = 0x38 → c.wf 2 12 12 = 0 → 6 ≤ c.wf 2 4 0 → c.wf 2 4 0 ≤ 16 → 6 ≤ c.wf 2 9 5 → c.wf 2 9 5 ≤ 16 → s.m.served (c.wf 2 11 10) = true →
      (b.parN (pHifQpQuota + c.fn.val) ≤ (b.host.qps.filter fun e => e.2.fn == c.fn).length → exec (.qpCreate id) s = Becomes s (b.noResource id)) ∧
      (∀ n, (b.host.qps.filter fun e => e.2.fn == c.fn).length < b.parN (pHifQpQuota + c.fn.val) → b.freeQp [c.wf 2 11 10] = some n →
        exec (.qpCreate id) s = ends ((b.updHost fun h => { h with qps := h.qps.put n {
          iod := Fin.ofNat 4 (n / 16384), fn := c.fn, sqBase := c.w 0, cqBase := c.w 1, sqLog2 := c.wf 2 4 0, cqLog2 := c.wf 2 9 5,
          vec := c.wf 2 26 16, ncoal := c.wf 2 39 32, tcoal := c.wf 2 55 40, jslot := b.freeJournal c.fn } }).updCmd id fun c => { c with spec := n }))) ∧
    (∀ x, b.qp? q = some x → x.fn = c.fn →
      (op = 0x39 → exec (.qpDelete id) s = ends (b.updQp q fun x => { x with deleting := true })) ∧
      (op = 0x3A → 6 ≤ c.wf 3 4 0 → c.wf 3 4 0 ≤ 16 → 6 ≤ c.wf 3 9 5 → c.wf 3 9 5 ≤ 16 → x.journal = [] →
        let n := (b.updQp q fun x => { x with
          sqBase := c.w 1, cqBase := c.w 2, sqLog2 := c.wf 3 4 0, cqLog2 := c.wf 3 9 5, vec := c.wf 3 26 16, ncoal := c.wf 3 39 32,
          tcoal := c.wf 3 55 40, sqTail := 0, sqHead := 0, cqHead := 0, cqTail := 0, unann := 0, bound := true, journal := [] }).countBy
            kHifJrnlReplay x.iod.val 0
        exec (.qpRebind id) s = ends (n.updCmd id fun c => { c with spec := 0 })) ∧
      (op = 0x3B → b.host.retained.find? (fun r => r.qp == q && r.jseq == some (c.wf 0 31 16)) = none → exec (.resultFetch id) s = ends b) ∧
      (op = 0x3B → ∀ r, b.host.retained.find? (fun r => r.qp == q && r.jseq == some (c.wf 0 31 16)) = some r → s.m.host.portState ≠ 2 →
        exec (.resultFetch id) s = ends (((forEach r.bytes (fun b m => m.hmWrite c.fn.val c.gen ((b.1 + c.w 1) % 2 ^ 64) [b.2]) b).workDone id 0
          r.bytes.length 0 0).updCmd id fun c => { c with hmUncertain := true, flushing := false })) ∧
      (op = 0x3C → exec (.resultAck id) s = ends (b.updHost fun h => { h with
        retained := h.retained.filter fun r => !(r.qp == q && r.jseq == some (c.wf 0 31 16)) }))) ∧
    (∀ x, b.qp? q = some x → x.fn ≠ c.fn →
      ∀ i, (op, i) ∈ [(0x39, Instr.qpDelete id), (0x3A, .qpRebind id), (0x3B, .resultFetch id), (0x3C, .resultAck id)] →
        exec i s = ends (b.violate c.fn.val))

/-- Completion (14 R396-R403, R415, R416, R402, R411): a finished command of a queue pair leaves the front end and enters the journal under the
next JSEQ; one whose host writes are uncertain has the port flush first; the flush's return makes them certain; a command's record is held in the lowest free slot of its front end's
area, written to memory where the area has a base, until its completion frees the slot for one that waits (18 R522); a time limit that expires on
a command not yet started ends it TIMEOUT. -/
def Obligations.Completions : Prop :=
  ∀ (s : State) (id : Nat) (c : HCmd), s.m.cmd? id = some c →
    (c.workOver = true → s.m.cmdCopies id = false → s.m.served c.iod.val = true → (∀ f ∈ s.m.net.cn, ¬(f.op = .cmpl ∧ f.a = id)) → c.opc ≠ 0x39 →
      ((s.m.part c.fn.val).gen ≠ c.gen →
        exec (.commandComplete id) s = Becomes s ((s.m.count kHifGenStale c.iod.val).dropCmd id)) ∧
      ((s.m.part c.fn.val).gen = c.gen → c.fabScope = false → c.hostScope = true → c.hmUncertain = true → s.m.host.flush = false → s.m.host.portState ≠ 2 →
        exec (.commandComplete id) s = Becomes s s.m.issueFlush ∧ s.m.issueFlush.host.flush = true) ∧
      (∀ q x, s.m.calls c = false → (s.m.part c.fn.val).gen = c.gen → c.fscope = 0 → c.qp = some q → s.m.qp? q = some x → x.journal.length < 4096 →
        s.m.host.portState = 2 → Completes (exec (.commandComplete id) s) fun t => t.m.cmd? id = none ∧
          ∃ y, t.m.qp? q = some y ∧ y.jseq = (x.jseq + 1) % 65536 ∧ y.journal = x.journal ++ [{
            jseq := x.jseq, entries := c.completion (x.sqHead % 2 ^ x.sqLog2) x.jseq q, certain := !c.hmUncertain }])) ∧
    (s.m.host.flush = true → Completes (exec .flushReturn s) fun t => t.m.host.flush = false ∧
      t.m.cmd? id = some (if c.flushing then { c with hmUncertain := false, flushing := false } else c)) ∧
    (s.m.dropCmd id = (s.m.updHost fun h => { h with cmds := h.cmds.del id }).recordWaiting c.iod.val) ∧
    (let used := s.m.cmdRecords c.iod.val
     (65536 ≤ used.length → s.m.recordCmd id = s.m.updCmd id fun c => { c with unrecorded := true }) ∧
     (used.length < 65536 → ∃ n, n < 65536 ∧ n ∉ used ∧
        s.m.recordCmd id = if s.m.parN pFtCfeStateBase = 0 then (s.m.updCmd id fun c => { c with recSlot := some n, unrecorded := false }) else
          (s.m.updCmd id fun c => { c with recSlot := some n, unrecorded := false }).physWriteBy
            (feAgent (s.m.actingIod c.iod.val)) (s.m.parN pFtCfeStateBase + 2 ^ 26 * c.iod.val + 1024 * n) c.recordBytes 4)) ∧
    (c.workOver = false → c.expired = false → c.started = false → s.m.dbg.brake.val ≤ 1 → Completes (exec (.tlimitExpiry id) s) fun t =>
      ∃ d, t.m.cmd? id = some d ∧ d.ended = true ∧ d.expired = true ∧ d.status = worse c.status stTIMEOUT) ∧
    (∀ (q : BitVec 16) x, s.m.qp? q.toNat = some x → x.unann ≠ 0 →
      exec (.msixCoalesceTimer q) s = Becomes s ((s.m.updQp q.toNat fun x => { x with unann := 0 }).msi x.fn.val x.vec))

/-- Doorbells, fetching, attaching and detaching (14 R387-R393, R413-R419): a doorbell that moves its index forward is taken, one that does not is
counted, one of another function's queue pair is a violation; the slots fetched become a command on its way to its unit; a detach unbinds
every queue pair; ATTACH brings the port back; clearing VF Enable resets every virtual function and disables its partition. -/
def Obligations.HostPort : Prop :=
  ∀ (s : State) (fn : PartId),
    (∀ (q v : BitVec 16) x, s.m.hears fn.val = true → s.m.qp? q.toNat = some x →
      let off (p : Nat) : Nat := (p + 2 ^ x.sqLog2 - x.sqHead % 2 ^ x.sqLog2) % 2 ^ x.sqLog2
      let adv := (v.toNat % 2 ^ x.cqLog2 + 2 ^ x.cqLog2 - x.cqHead % 2 ^ x.cqLog2) % 2 ^ x.cqLog2
      (s.m.servedBy x.iod.val = some s.m.portIod.val → x.fn = fn →
        (off (x.sqTail % 2 ^ x.sqLog2) ≤ off (v.toNat % 2 ^ x.sqLog2) → exec (.sqDoorbell fn q v) s =
          Becomes s (s.m.updQp q.toNat fun x => { x with sqTail := x.sqHead + off (v.toNat % 2 ^ x.sqLog2) })) ∧
        (off (v.toNat % 2 ^ x.sqLog2) < off (x.sqTail % 2 ^ x.sqLog2) → exec (.sqDoorbell fn q v) s = Becomes s (s.m.count kHifDbBad x.iod.val)) ∧
        (adv ≤ x.cqTail - x.cqHead → x.journal = [] → exec (.cqDoorbell fn q v) s =
          Becomes s (s.m.updQp q.toNat fun x => { x with cqHead := x.cqHead + adv }))) ∧
      (s.m.servedBy x.iod.val = some s.m.portIod.val → x.fn ≠ fn → exec (.sqDoorbell fn q v) s = Becomes s (s.m.violate fn.val) ∧
        exec (.cqDoorbell fn q v) s = Becomes s (s.m.violate fn.val)) ∧
      (s.m.servedBy x.iod.val ≠ some s.m.portIod.val →
        exec (.sqDoorbell fn q v) s = Becomes s (s.m.sendCn { op := .doorbell, dst := x.iod.val, a := q.toNat, b := v.toNat, c := 2 * fn.val, src := some (8 + s.m.portIod.val) }) ∧
        exec (.cqDoorbell fn q v) s = Becomes s (s.m.sendCn { op := .doorbell, dst := x.iod.val, a := q.toNat, b := v.toNat, c := 2 * fn.val + 1, src := some (8 + s.m.portIod.val) }))) ∧
    (∀ v : BitVec 16, s.m.hears fn.val = true → (s.m.fn fn.val).aqEn = true → let x := s.m.fn fn.val
      let off (p : Nat) : Nat := (p + 2 ^ x.sqLog2 - x.sqHead % 2 ^ x.sqLog2) % 2 ^ x.sqLog2
      let adv := (v.toNat % 2 ^ x.cqLog2 + 2 ^ x.cqLog2 - x.cqHead % 2 ^ x.cqLog2) % 2 ^ x.cqLog2
      (off (x.sqTail % 2 ^ x.sqLog2) ≤ off (v.toNat % 2 ^ x.sqLog2) → exec (.adminSqDoorbell fn v) s =
        Becomes s (s.m.updFn fn.val fun x => { x with sqTail := x.sqHead + off (v.toNat % 2 ^ x.sqLog2) })) ∧
      (adv ≤ x.cqTail - x.cqHead → exec (.adminCqDoorbell fn v) s = Becomes s (s.m.updFn fn.val fun x => { x with cqHead := x.cqHead + adv }))) ∧
    (∀ slots, slotsOk slots = true → s.m.serving = true → s.m.hears fn.val = true → s.m.frozenPart fn.val = false → slots.length ≤ s.m.unfetched fn none →
      let c : HCmd := { fn := fn, qp := none, iod := s.m.portIod, gen := (s.m.part fn.val).gen, ord := s.m.host.cmdSeq, slots := slots }
      let n := (s.m.updFn fn.val fun x => { x with sqHead := x.sqHead + slots.length }).count kHifFetch s.m.portIod.val
      (c.refusal = none → exec (.commandFetchDone fn none slots) s =
        Becomes s (((n.updHost fun h => { h with cmds := h.cmds.put s.m.host.cmdSeq c, cmdSeq := s.m.host.cmdSeq + 1 }).recordCmd
          s.m.host.cmdSeq).sendCn { op := .cmd, dst := s.m.portIod.val, a := s.m.host.cmdSeq })) ∧
      (∀ d, c.refusal = some d → exec (.commandFetchDone fn none slots) s =
        Becomes s ((n.updHost fun h => { h with
          cmds := h.cmds.put s.m.host.cmdSeq { c.mark stARITH d with ended := true }, cmdSeq := s.m.host.cmdSeq + 1 }).recordCmd s.m.host.cmdSeq))) ∧
    (s.m.host.portState ≠ 2 → ∀ i k, (i, k) ∈ [(Instr.pcieLinkDown, (1 : Fin 5)), (.pcieHotReset, 2), (.pcieRecoveryTimeout, 3)] →
      Completes (exec i s) fun t => t.m.host.portState = 2 ∧ t.m.host.cause = k ∧ t.m.host.flush = false ∧
        (∀ e ∈ t.m.host.qps, e.2.bound = false ∧ e.2.sqTail = e.2.sqHead) ∧ (∀ e ∈ t.m.host.fns, e.2.aqEn = false) ∧
        ((∀ e ∈ s.m.copies, e.2.started = true → e.2.walked = false → e.2.dspace ≠ 3) →
          (∀ e ∈ s.m.host.qps, ∀ j ∈ e.2.journal, j.certain = true) →
          t.m.mem = s.m.mem ∧ t.m.sched.ready = s.m.sched.ready ∧ t.m.seq = s.m.seq)) ∧
    (s.m.serving = true → s.m.host.portB = false → Completes (exec (.hifPortSelect 1) s) fun t =>
      t.m.host.portB = true ∧ t.m.host.portState = 2 ∧ t.m.host.cause = 4 ∧ t.m.kod.lastAct = some (pHifPortSelect, esOK)) ∧
    (s.m.serving = true → exec (.hifPortSelect 2) s = Acts s s.m pHifPortSelect esRANGE) ∧
    (s.m.host.portState = 2 → s.m.serving = true → exec (.hifAttach 0) s =
      Becomes s (s.m.updHost fun h => { h with portState := if h.portB then 1 else 0 })) ∧
    (s.m.portUp fn.val = true → (s.m.fn fn.val).aqEn = false → exec (.hifAqEn fn) s =
      Becomes s (s.m.updFn fn.val fun x => { x with aqEn := true, sqTail := 0, sqHead := 0, cqHead := 0, cqTail := 0 })) ∧
    (exec (.flr fn) s = Becomes s ((s.m.resetFn fn.val).disable fn.val)) ∧
    (Completes (exec .vfEnableClear s) fun t => (t.m.part 0).st = (s.m.part 0).st ∧ (t.m.part 0).gen = (s.m.part 0).gen ∧
      ∀ p : PartId, p ≠ 0 → let x := s.m.part p.val
        (t.m.fn p.val).aqEn = false ∧
        (x.st = .active → (t.m.part p.val).st = .disabling ∧ (t.m.part p.val).gen = x.gen + 1 ∧ (t.m.fn p.val).disabled = true) ∧
        (x.st ≠ .active → (t.m.part p.val).st = x.st ∧ (t.m.part p.val).gen = x.gen))

/-! Partitions (15). -/

/-- Partitions and shared regions (15 R425-R438, R445, R447, 24 R640): PART_CREATE refuses a record that breaks a rule and changes nothing;
a record accepted makes the partition ACTIVE with a fresh key and no violations, or adds resources; PART_DISABLE moves the generation on;
DISABLE_DONE destroys the key and frees what the partition had; regions are set, sealed, cleared and repaired; logs flip. -/
def Obligations.Partitions : Prop :=
  ∀ (s : State),
    (s.m.serving = true →
      (∀ blob : List Byte, blob.length = 32 → let r := partRec (leNat blob)
        let x := s.m.part r.part
        (r.clean = false ∨ r.tgmask = 0 ∨ x.st = .disabling ∨ (s.m.tagOf (r.ptroot * 4096) == 0xFE) = false ∨
          (r.strict = false ∧ (r.portmask ≠ 0 ∨ r.waymask ≠ 0 ∨ r.bwres ≠ 0)) ∨ (r.strict = true ∧ r.waymask = 0) ∨
          (∃ e ∈ s.m.parts.parts, e.1 ≠ r.part ∧ e.2.st ≠ .none ∧ x.st = .none ∧ e.2.tgmask &&& r.tgmask ≠ 0) ∨
          (∃ e ∈ s.m.parts.parts, e.1 ≠ r.part ∧ e.2.st ≠ .none ∧ r.strict = true ∧ e.2.strict = true ∧
            (e.2.waymask &&& r.waymask ≠ 0 ∨ e.2.portmask &&& r.portmask ≠ 0 ∨ 48 < e.2.bwres + r.bwres)) →
          exec (.partCreate blob) s = Acts s s.m pPartCreate esSTATE) ∧
        (s.m.partRecOk s.fuse.order.val r = true → x.st = .none → Completes (exec (.partCreate blob) s) fun t =>
          t.m.part r.part = {
            st := .active, gen := x.gen, tgmask := r.tgmask, portmask := r.portmask, waymask := r.waymask, bwres := r.bwres,
            strict := r.strict, ptroot := r.ptroot, migB := x.migB, migOvf := x.migOvf, interf := x.interf } ∧ (t.m.part r.part).viol = 0 ∧
          t.m.mem.keyGen.getD r.part 0 = s.m.mem.keyGen.getD r.part 0 + 1 ∧ t.m.mod.mstate = 5 ∧ t.m.kod.lastAct = some (pPartCreate, esOK) ∧
          (∀ q, q ≠ r.part → t.m.part q = s.m.part q) ∧ t.m.mem.em = s.m.mem.em ∧ t.m.host.qps = s.m.host.qps) ∧
        (s.m.partRecOk s.fuse.order.val r = true → x.st = .active → exec (.partCreate blob) s =
          Acts s (s.m.updPart r.part fun x => { x with tgmask := r.tgmask, portmask := r.portmask }) pPartCreate esOK)) ∧
      (∀ p : BitVec 8,
        (128 ≤ p.toNat → exec (.partDisable p) s = Acts s s.m pPartDisable esRANGE) ∧
        (p.toNat < 128 → (s.m.part p.toNat).st ≠ .active → exec (.partDisable p) s = Acts s s.m pPartDisable esSTATE) ∧
        (p.toNat < 128 → (s.m.part p.toNat).st = .active → exec (.partDisable p) s = Acts s (s.m.disable p.toNat) pPartDisable esRUNNING ∧
          ((s.m.disable p.toNat).part p.toNat).st = .disabling ∧
          ((s.m.disable p.toNat).part p.toNat).gen = (s.m.part p.toNat).gen + 1 ∧ ((s.m.disable p.toNat).fn p.toNat).disabled = true)) ∧
      (∀ (blob : List Byte) n first count, blob.length = 16 → leNat blob = n + first * 2 ^ 32 + count * 2 ^ 64 → 1 ≤ n → n ≤ 15 → 0 < count →
        first + count ≤ 2 ^ 25 →
        (s.m.shrState n ≠ 0 → exec (.shrSet blob) s = Acts s s.m pShrSet esSTATE) ∧
        (s.m.shrState n = 0 → (∀ e ∈ s.m.mem.frameTag, first ≤ e.1 → e.1 < first + count → 128 ≤ e.2.toNat) → exec (.shrSet blob) s =
          Acts s (((s.m.shrKey n).retag first count (0x80 + n)).setShr n (some (1, first, count))) pShrSet esOK)) ∧
      (∀ (n : BitVec 8) st f c, 1 ≤ n.toNat → n.toNat ≤ 15 → Tab.find n.toNat s.m.parts.shr = some (st, f, c) →
        (st = 1 → exec (.shrSeal n) s = Acts s (s.m.setShr n.toNat (some (2, f, c))) pShrSeal esOK) ∧
        (st ≠ 1 → exec (.shrSeal n) s = Acts s s.m pShrSeal esSTATE) ∧
        exec (.shrClear n) s = Acts s (((s.m.retag f c 0xFE).shrKey n.toNat).setShr n.toNat none) pShrClear esOK) ∧
      (∀ (n : BitVec 8), 1 ≤ n.toNat → n.toNat ≤ 15 → Tab.find n.toNat s.m.parts.shr = none →
        exec (.shrSeal n) s = Acts s s.m pShrSeal esSTATE ∧ exec (.shrClear n) s = Acts s s.m pShrClear esSTATE) ∧
      (∀ (h d : List Byte) n line, h.length = 16 → d.length = 128 → leNat h = n + line * 2 ^ 64 → 1 ≤ n → n ≤ 15 → line % 128 = 0 → line < 2 ^ 41 →
        (s.m.shrState n = 2 → (s.m.tagOf line).toNat = 0x80 + n → exec (.shrRepair (h ++ d)) s = Acts s (s.m.physWrite line d 7) pShrRepair esOK) ∧
        (s.m.shrState n ≠ 2 → exec (.shrRepair (h ++ d)) s = Acts s s.m pShrRepair esSTATE)) ∧
      (∀ (p : PartId) (h d : List Byte) k n, h.length = 8 → 1 ≤ n → n ≤ 64 → k < 256 → d.length = 8 * n → leNat h % 65536 = k + n * 256 →
        exec (.mcastSet p (h ++ d)) s = Acts s (s.m.updParts fun x => { x with
          mcast := x.mcast.put (p.val * 256 + k) ((recordsOf 8 d).map (BitVec.ofNat 64)) }) pMcastSet esOK) ∧
      (∀ p : PartId, exec (.migLogFlip p) s = Acts s (s.m.updPart p.val fun x => { x with migB := !x.migB }) (pMigLogFlip + p.val) esOK)) ∧
    (∀ p : PartId, (s.m.part p.val).st = .disabling → s.m.partDrained p.val = true → let x := s.m.part p.val
      exec (.disableDone p) s = Acts s (((((((s.m.retirePart p.val).releasePart p.val).zeroGroups x.tgmask).updPart p.val fun x => {
        gen := x.gen, viol := x.viol, violOvf := x.violOvf, migB := x.migB, migOvf := x.migOvf }).raise evDisableDone p.val p.val p.val).refreshState))
        pPartDisable esOK) ∧
    (∀ (n : Mod) (p : PartId), let x := n.releasePart p.val
      x.mem.keyGen.getD p.val 0 = n.mem.keyGen.getD p.val 0 + 1 ∧ (∀ e ∈ x.host.qps, e.2.fn ≠ p) ∧ (∀ e ∈ x.host.cmds, e.2.fn ≠ p) ∧
      (∀ r ∈ x.host.retained, r.fn ≠ p) ∧ (∀ e ∈ (n.retirePart p.val).seq.slots, e.2.part ≠ p) ∧
      (∀ e ∈ (n.retirePart p.val).seq.extents, e.part ≠ p)) ∧
    (s.m.writable = true → ∀ (p : PartId) on, exec (.migLogOnWrite p on) s =
      Becomes s ((s.m.setPar (pMigLogOn + p.val) (if on then 1 else 0)).updPart p.val fun x => { x with migOvf := false }))

/-! The optical fabric (16). -/

/-- Fabric ports (16 R448-R457, R480): a change of mode, bring-up and its failures, lanes lost, keys, lasers, quarantine. -/
def Obligations.FabricPorts : Prop :=
  ∀ (s : State) (i : PortId), let p := s.m.port i.val
    (∀ mode, s.m.writable = true → mode ≤ 2 →
      (portFitted s.fuse.order.val i.val = false → exec (.fabPortMode i mode) s = Becomes s s.m) ∧
      (∀ j, j < 4 → 4 * (i.val / 4) + j ≠ i.val → portFitted s.fuse.order.val (4 * (i.val / 4) + j) = true →
        s.m.parN (pFabPortMode + 4 * (i.val / 4) + j) = 2 → mode = 2 → exec (.fabPortMode i mode) s = Becomes s s.m) ∧
      (portFitted s.fuse.order.val i.val = true →
        (mode = 2 → ∀ j, j < 4 → 4 * (i.val / 4) + j ≠ i.val → s.m.parN (pFabPortMode + 4 * (i.val / 4) + j) ≠ 2) →
        let n := if s.m.saf.biasCut.getD (i.val / 4) 32 == i.val then s.m.updSaf fun x => { x with biasCut := x.biasCut.del (i.val / 4) } else s.m
        (s.m.parN (pFabPortMode + i.val) ≠ mode → exec (.fabPortMode i mode) s =
          Becomes s (((n.setPar (pFabPortMode + i.val) mode).portDown i.val .none).updPort i.val fun p => { p with
            mode := mode, ethHalf := false, removed := [], state := if mode = 0 then 1 else 2 })) ∧
        (s.m.parN (pFabPortMode + i.val) = mode → exec (.fabPortMode i mode) s = Becomes s (n.setPar (pFabPortMode + i.val) mode)))) ∧
    (∀ h c ok (lanes : List (Fin 8)) credit, lanes.Nodup → s.m.mayTrain s.fuse.order.val i.val = true →
      let up (t : State) (w : Nat) : Prop := (t.m.port i.val).state = 4 ∧ (t.m.port i.val).cause = .none ∧ (t.m.port i.val).width = w ∧
        (∀ k (hk : k < lanes.length), (t.m.port i.val).laneMap / 16 ^ k % 16 = lanes[k].val)
      (lanes = [] → exec (.fabLinkUp i h c ok lanes credit) s = Becomes s (s.m.portDown i.val .nolight)) ∧
      (p.mode = 1 → lanes ≠ [] → vflWidth lanes.length = 0 → exec (.fabLinkUp i h c ok lanes credit) s = Becomes s (s.m.portDown i.val .train)) ∧
      (p.mode = 1 → vflWidth lanes.length ≠ 0 → (s.m.allowed h c = none ∨ ok = false) →
        exec (.fabLinkUp i h c ok lanes credit) s = Becomes s ((s.m.portDown i.val .auth).count kFabAuthFail (i.val / 8))) ∧
      (∀ e, p.mode = 1 → vflWidth lanes.length ≠ 0 → s.m.allowed h c = some e → ok = true → Completes (exec (.fabLinkUp i h c ok lanes credit) s) fun t =>
        up t (vflWidth lanes.length) ∧ (t.m.port i.val).partner = c ∧ (t.m.port i.val).entry = e ∧
        (t.m.port i.val).credit = min credit (s.m.parN (pFabPeerCeil + i.val)) ∧ (t.m.port i.val).keyGen = p.keyGen + 1) ∧
      (p.mode = 2 → lanes.length = 8 → Completes (exec (.fabLinkUp i h c ok lanes credit) s) fun t => up t 8) ∧
      (p.mode = 2 → p.ethHalf = true → 4 ≤ lanes.length → lanes.length < 8 →
        Completes (exec (.fabLinkUp i h c ok lanes credit) s) fun t => up t 4) ∧
      (p.mode = 2 → lanes.length < 4 → lanes ≠ [] → exec (.fabLinkUp i h c ok lanes credit) s = Becomes s (s.m.portDown i.val .train))) ∧
    (∀ h c e, s.m.allowed h c = some e → s.m.moduleId ≠ 0 ∧ ∃ a, (e, a) ∈ s.m.fab.allow ∧ a.valid = true ∧ a.quar = false ∧ a.idHash = h ∧ a.module = c) ∧
    (∀ c : Fin 5, portFitted s.fuse.order.val i.val = true → p.mode ≠ 0 → p.state ≠ 4 → p.quarantined = false → s.m.serving = true →
      exec (.fabLinkFailRetry i c) s = Becomes s (((s.m.portDown i.val (linkCause c.val)).raise evFabLinkFail i.val noPart
        (i.val + (c.val + 1) * 2 ^ 32)).updPort i.val fun p => { p with state := if s.m.lit i.val then 2 else 1 })) ∧
    (p.state = 4 → p.mode = 1 →
      (∀ lane, p.removed.contains lane = false → let w := vflWidth (min p.width (8 - (p.removed.length + 1)))
        (w ≠ 0 → exec (.laneRemove i lane) s = Becomes s (s.m.updPort i.val fun p => { p with removed := lane :: p.removed, width := w })) ∧
        (w = 0 → exec (.laneRemove i lane) s = Becomes s ((s.m.portDown i.val .train).updPort i.val fun p => { p with state := 2, removed := [] }))) ∧
      exec (.keyRenew i) s = Becomes s (s.m.updPort i.val fun p => { p with keyGen := p.keyGen + 1 })) ∧
    (p.state = 4 → p.mode = 2 → ∀ good, good < 8 → exec (.ethLaneLoss i good) s =
      Becomes s ((s.m.portDown i.val .train).updPort i.val fun p => { p with
        ethHalf := decide (4 ≤ good), state := if 4 ≤ good then 2 else 1 })) ∧
    (p.state = 4 → ∀ n, n ≤ 1024 → exec (.frameReplay i n) s = Becomes s (s.m.countBy kFabReplay i.val n)) ∧
    (∀ q : QuadId, Completes (exec (.laserModuleFault q) s) fun t => t.m.saf.noModule.has q.val = true ∧
      ∀ j, j < 4 → (t.m.port (4 * q.val + j)).state = 1 ∧ (t.m.port (4 * q.val + j)).cause = .nolaser) ∧
    (p.drops = 16 → ¬ p.dropTick + ticksPerMs < s.m.ticks → ∀ k, let t := s.m.portDrop i.val k
      (t.port i.val).quarantined = true ∧ (t.port i.val).state = 1 ∧ ∀ a, Tab.find p.entry s.m.fab.allow = some a → Tab.find p.entry t.fab.allow = some { a with quar := true }) ∧
    (∀ e a, Tab.find e s.m.fab.allow = some a → Completes (exec (.quarExpiry e) s) fun t => Tab.find e t.m.fab.allow = some { a with quar := false } ∧
      ∀ x ∈ t.m.fab.ports, x.2.entry = e → x.2.quarantined = false)

/-- The tables of the fabric (16 R453, R466, R469, R470, R482, R486-R488, 00 R14): each record accepted is in force, its reserved bits
ignored, and records are applied whole or
not at all. -/
def Obligations.FabricTables : Prop :=
  ∀ (s : State), s.m.serving = true →
    (∀ (blob : List Byte), blob.length = 48 → let r := leNat blob
      (∀ n, s.m.allowPut r = some n → exec (.fabAllowSet blob) s = Acts s n pFabAllowSet esOK) ∧
      (s.m.allowPut r = none → exec (.fabAllowSet blob) s = Acts s s.m pFabAllowSet esSTATE) ∧
      (∀ i, r.testBit 63 = true →
        (((∃ e ∈ s.m.fab.allow, e.2.idHash = bits r 383 128) ∧ ∀ e ∈ s.m.fab.allow, e.2.idHash = bits r 383 128 → e.1 = i) ∨
         ((∀ e ∈ s.m.fab.allow, e.2.idHash ≠ bits r 383 128) ∧ i < 4096 ∧ s.m.fab.allow.has i = false ∧ ∀ j < i, s.m.fab.allow.has j = true)) →
        Completes (exec (.fabAllowSet blob) s) fun t => Tab.find i t.m.fab.allow = some {
          idHash := bits r 383 128, module := BitVec.ofNat 16 (bits r 127 112), fwdFirst := bits r 111 96, fwdCount := bits r 95 80,
          valid := true, quar := false })) ∧
    (∀ (blob : List Byte) id (pri : PortId), blob.length = 8 → 1 ≤ id → id < 65535 → portFitted s.fuse.order.val pri.val = true →
      (leNat blob = id * 2 ^ 48 + 2 ^ 15 + pri.val * 2 ^ 8 → exec (.fabRouteSet blob) s =
        Acts s (s.m.updFab fun b => { b with routes := b.routes.put id ⟨pri, none⟩ }) pFabRouteSet esOK) ∧
      (∀ alt : PortId, portFitted s.fuse.order.val alt.val = true → leNat blob = id * 2 ^ 48 + 2 ^ 15 + pri.val * 2 ^ 8 + 2 ^ 7 + alt.val →
        exec (.fabRouteSet blob) s = Acts s (s.m.updFab fun b => { b with routes := b.routes.put id ⟨pri, some alt⟩ }) pFabRouteSet esOK) ∧
      (leNat blob = id * 2 ^ 48 → exec (.fabRouteSet blob) s = Acts s (s.m.updFab fun b => { b with routes := b.routes.del id }) pFabRouteSet esOK)) ∧
    (∀ (blob : List Byte), blob.length % 8 = 0 → blob ≠ [] → blob.length ≤ 1024 → (∃ r ∈ recordsOf 8 blob, bits r 63 48 = 0 ∨ bits r 47 16 ≠ 0) →
      exec (.fabRouteSet blob) s = Acts s s.m pFabRouteSet esSTATE) ∧
    (∀ (blob : List Byte), blob.length = 32 → let r := leNat blob
      let g := bits r 15 0
      (bits r 111 108 ≤ 8 → (∀ x, Tab.find g s.m.fab.groups = some x → x.cur = none) →
        (Tab.find g s.m.fab.groups = none → s.m.fab.groups.length < 1024) → exec (.fabGroupSet blob) s =
          Acts s (s.m.updFab fun b => { b with groups := b.groups.put g { entry := BitVec.ofNat 256 (r - bits r 74 16 * 2 ^ 16) } }) pFabGroupSet esOK) ∧
      ((8 < bits r 111 108 ∨ (∃ x, Tab.find g s.m.fab.groups = some x ∧ x.cur ≠ none) ∨ (Tab.find g s.m.fab.groups = none ∧ 1024 ≤ s.m.fab.groups.length)) →
        exec (.fabGroupSet blob) s = Acts s s.m pFabGroupSet esSTATE)) ∧
    (∀ (p : PartId) (h d : List Byte) w, h.length = 8 → d.length = 32 → leNat h = w → w ≤ 255 → let e := leNat d
      (s.m.winOwner w = some p.val → ∃ v : Nat, v < 2 ^ 256 ∧ bits v 151 145 = p.val ∧ bits v 159 152 = 0 ∧ bits v 35 0 = 0 ∧
        bits v 255 160 = bits e 255 160 ∧ bits v 144 131 = bits e 144 131 ∧ bits v 127 36 = bits e 127 36 ∧
        bits v 130 128 = (if bits e 130 128 < 4 then bits e 130 128 else 0) ∧
        exec (.fabWinSet p (h ++ d)) s = Acts s (s.m.updFab fun b => { b with windows := b.windows.put w (BitVec.ofNat 256 v) }) pFabWinSet esOK) ∧
      (s.m.winOwner w ≠ some p.val → exec (.fabWinSet p (h ++ d)) s = Acts s s.m pFabWinSet esSTATE)) ∧
    (∀ (p : PartId) (blob : List Byte), blob.length = 32 → let r := leNat blob
      let k := p.val * 2 ^ 24 + bits r 127 104
      let n := s.m.updFab fun b => { b with rkeys := b.rkeys.put k ⟨BitVec.ofNat 64 (bits r 255 192), BitVec.ofNat 64 (bits r 191 128)⟩ }
      bits r 102 0 = 0 → r.testBit 103 = true →
      ((n.fab.rkeys.filter fun e => e.1 / 2 ^ 24 == p.val).length ≤ s.m.parN (pFabRkeyQuota + p.val) →
        exec (.fabRkeySet p blob) s = Acts s n pFabRkeySet esOK) ∧
      (s.m.parN (pFabRkeyQuota + p.val) < (n.fab.rkeys.filter fun e => e.1 / 2 ^ 24 == p.val).length →
        exec (.fabRkeySet p blob) s = Acts s s.m pFabRkeySet esSTATE)) ∧
    (∀ (blob : List Byte), blob.length = 64 → let r := leNat blob
      let port := bits r 416 412
      let pm := bits r 511 496
      (s.m.port port).mode = 2 →
      (r.testBit 474 = false → bits r 394 384 = 0 → bits r 111 0 = 0 → s.m.fab.eth.has (ethKey port (bits r 135 112)) = false → 0xF000 ≤ pm →
        pm ≠ 0xFFFF → (∀ e ∈ s.m.fab.eth, e.2.f 511 496 ≠ pm) →
        s.m.ownsSem (bits r 423 417) (s.m.nameSem (bits r 423 417) (bits r 495 480)) = true → 4 ≤ bits r 479 475 → bits r 479 475 ≤ 16 →
        bits r 473 472 ≠ 3 → bits r 471 424 % 8 = 0 → (s.m.fab.eth.filter fun e => e.1 / 2 ^ 24 == port).length < 1024 →
        exec (.fabEthQpSet blob) s = Acts s (s.m.updFab fun b => { b with eth := b.eth.put (ethKey port (bits r 135 112)) {
          bind := BitVec.ofNat 512 r, spsn := BitVec.ofNat 24 (bits r 183 160), rpsn := BitVec.ofNat 24 (bits r 207 184) } }) pFabEthQpSet esOK) ∧
      (r.testBit 474 = true → let k := ethKey port (bits r 135 112)
        exec (.fabEthQpSet blob) s = Acts s ((s.m.ethFail k).updFab fun b => { b with eth := b.eth.del k }) pFabEthQpSet esOK))

/-- Packets at the port (16 R457, R459, R465, R480): one that spends no credit, is malformed or speaks for another source is dropped and
counted; one for another module is forwarded with HOPS less one, or dropped where it has none left; a window access needs its owner, key,
source, right and range (R466); a duplicate is answered and not performed (R462). -/
def Obligations.PacketAdmission : Prop :=
  ∀ (s : State) (p : Packet) (i : Instr) (type : Nat),
    (i, type) ∈ [(Instr.vflWrite p, 0), (.vflRead p, 2), (.vflReadRsp p, 3), (.vflSignal p, 4), (.vflMulticast p, 5), (.vflOpen p, 7),
      (.vflColl p, 9), (.vflSlow p, 10), (.vflAbort p, 11)] ∨ (i = .vflWriteReduce p ∧ type = 1 ∧ isSegment p = true) →
    s.m.braked = false → let x := s.m.port p.port.val
    let k := p.port.val
    let n := s.m.admitted p
    ((x.state ≠ 4 ∨ x.mode ≠ 1) → exec i s = Becomes s s.m) ∧
    (x.state = 4 → x.mode = 1 →
      (p.credit = false → exec i s = Becomes s (s.m.portDrop k kFabCreditViol)) ∧
      (p.credit = true → (p.malformed = true ∨ lenOk type p = false) → exec i s = Becomes s (s.m.portDrop k kFabMalformed)) ∧
      (p.credit = true → p.malformed = false → lenOk type p = true →
        (s.m.quarSrc p.src = true → exec i s = Becomes s s.m) ∧
        (s.m.quarSrc p.src = false → s.m.srcOk k p.src = false → exec i s = Becomes s (s.m.portDrop k kFabSrcDrop)) ∧
        (s.m.quarSrc p.src = false → s.m.srcOk k p.src = true → p.dst.toNat ≠ s.m.moduleId →
          (p.hops = 0 → exec i s = Becomes s (n.count kFabTransitDrop (k / 8))) ∧
          (∀ j, p.hops.val ≠ 0 → s.m.strictPort k = none → s.m.transitPort s.fuse.order.val (k / 8) p.dst.toNat = some j → exec i s =
            Becomes s ((n.updFab fun b => { b with sent := (type, { p with hops := Fin.ofNat 8 (p.hops.val - 1), port := j }) :: b.sent }).countBy
              kFabTxBytes j.val p.payload.length))))) ∧
    (s.m.Delivers type p → type ∈ [0, 2, 4, 5] → n.carries p = true → (n.rx (rxKey p)).isOpen = true →
      ((2 ^ 31 ≤ (p.eseq - (n.rx (rxKey p)).low).toNat ∨ (n.rx (rxKey p)).done.contains p.eseq = true) → exec i s = Becomes s (n.answer p none 0)) ∧
      ((p.eseq - (n.rx (rxKey p)).low).toNat < 2 ^ 31 → 65536 ≤ (p.eseq - (n.rx (rxKey p)).low).toNat → (n.rx (rxKey p)).done.contains p.eseq = false →
        exec i s = Becomes s n)) ∧
    (∀ w src keyOk right off len kinds q e, s.m.window w src keyOk right off len kinds = some (q, e) ↔
      (s.m.winOwner w = some q ∧ Tab.find w s.m.fab.windows = some e ∧ (s.m.part q).st = .active ∧ winF e 255 192 ≠ 0 ∧
       keyOk (BitVec.ofNat 64 (winF e 255 192)) = true ∧
       (winF e 175 160 = 0 ∨ (winF e 191 176 ≤ src ∧ src < winF e 191 176 + winF e 175 160)) ∧ e.toNat.testBit right = true ∧
       off + len ≤ winF e 75 36 ∧ winKind e ∈ kinds))

/-- Packets performed (16 R460-R463, R466-R468, R477): writes, reads, signals and reductions into windows, a refused access, answers at the
sender, and the opening of transport. That OPEN_ACK carries its grant in OFFSET is the model's choice (log 145). -/
def Obligations.Packets : Prop :=
  ∀ (s : State) (p : Packet), s.m.braked = false → let n := s.m.admitted p
    let who : Who := .nc (ingressAgent p.port.val)
    (∀ i type right, (i, type, right) ∈ [(Instr.vflWrite p, 0, wrWR), (.vflMulticast p, 5, wrMC)] →
      s.m.Delivers type p → n.carries p = true → n.Fresh p →
      (∀ q e, n.window p.win.toNat p.src.toNat (· == p.key) right p.offset.toNat p.len [1, 2] = some (q, e) →
        let r := n.winWrite who q e p.offset.toNat p.payload
        exec i s = Becomes s ((if r.1.viol then r.2.winViol p.win.toNat else r.2).settled p none 0)) ∧
      (n.window p.win.toNat p.src.toNat (· == p.key) right p.offset.toNat p.len [1, 2] = none →
        exec i s = Becomes s ((n.winViol p.win.toNat).settled p none 0))) ∧
    (s.m.Delivers 2 p → n.carries p = true → n.Fresh p →
      (∀ q e, n.window p.win.toNat p.src.toNat (· == p.key) wrRD p.offset.toNat p.len [1, 2] = some (q, e) →
        let r := n.winRead who q e p.offset.toNat p.len
        (r.1.viol = false → r.1.poison = false → exec (.vflRead p) s = Becomes s (r.2.settled p (some r.1.bytes) 0)) ∧
        (r.1.viol = true → exec (.vflRead p) s = Becomes s ((r.2.winViol p.win.toNat).settled p (some (List.replicate p.len 0)) 0))) ∧
      (n.window p.win.toNat p.src.toNat (· == p.key) wrRD p.offset.toNat p.len [1, 2] = none →
        exec (.vflRead p) s = Becomes s ((n.winViol p.win.toNat).settled p (some (List.replicate p.len 0)) 0))) ∧
    (s.m.Delivers 4 p → n.carries p = true → n.Fresh p →
      ∀ q e, n.window p.win.toNat p.src.toNat (· == p.key) wrWR p.offset.toNat p.len [3] = some (q, e) → let r := n.rx (rxKey p)
      (p.eseq = r.low → exec (.vflSignal p) s = Becomes s ((n.signal p).settled p none 0)) ∧
      (p.eseq ≠ r.low → exec (.vflSignal p) s = Becomes s (n.setRx (rxKey p) { r with held := r.held ++ [p] }))) ∧
    (isSegment p = false → opPermits p.op.val p.fmt.val p.fmt.val = true → fmtValid p.fmt.val = true → s.m.Delivers 1 p → n.carries p = true →
      n.Fresh p → ∀ q e, n.window p.win.toNat p.src.toNat (· == p.key) wrRED p.offset.toNat p.len [1, 2] = some (q, e) →
      let d := n.winRead who q e p.offset.toNat p.len
      let c := combineBytes p.op.val p.fmt.val d.1.bytes p.payload
      let r := d.2.winWrite who q e p.offset.toNat c.1
      d.1.viol = false → d.1.poison = false → r.1.viol = false →
      exec (.vflWriteReduce p) s = Becomes s (r.2.settled p none (BitVec.ofNat 4 c.2))) ∧
    (isSegment p = false → opPermits p.op.val p.fmt.val p.fmt.val = false → (s.m.port p.port.val).state = 4 → (s.m.port p.port.val).mode = 1 →
      p.credit = true → exec (.vflWriteReduce p) s = Becomes s (s.m.portDrop p.port.val kFabMalformed)) ∧
    (s.m.Delivers 6 p →
      (∀ o, n.answered p p.eseq false = some o → exec (.vflDcmp p 1) s = Becomes s (n.delivered o p.afl [])) ∧
      (∀ run, 1 ≤ run → run ≤ 63 → ∀ x, exec (.vflDcmp p run) s = Becomes s x → exec (.vflDcmp p (run + 1)) s =
        Becomes s (match x.answered p (p.eseq + BitVec.ofNat 32 run) false with
          | some o => x.delivered o p.afl []
          | none => x)) ∧
      (n.answered p p.eseq false = none → exec (.vflDcmp p 1) s = Becomes s n)) ∧
    (s.m.Delivers 3 p →
      (∀ o, n.answered p p.eseq true = some o → exec (.vflReadRsp p) s = Becomes s (n.delivered o 0 p.payload)) ∧
      (n.answered p p.eseq true = none → exec (.vflReadRsp p) s = Becomes s n)) ∧
    (s.m.Delivers 7 p → exec (.vflOpen p) s = Becomes s ((n.setRx (rxKey p) { isOpen := true }).emit 8 { n.packet (p.port.val / 8) p.src.toNat 0
      (n.parN pFabE2eGrant) 0 0 0 [] with siod := p.siod })) ∧
    (∀ grant, grant < 65536 → s.m.Delivers 8 p → let t := s.m.e2e p.siod.val p.src.toNat
      (t.openSent = true → t.isOpen = false → exec (.vflOpenAck p grant) s =
        Becomes s ((n.setE2e p.siod.val p.src.toNat { t with
          isOpen := true, tokens := grant, grant := grant, next := 0 }).pump p.siod.val p.src.toNat)) ∧
      ((t.openSent = false ∨ t.isOpen = true) → exec (.vflOpenAck p grant) s = Becomes s n)) ∧
    (∀ (m : Mod) (o : OutPkt), let t := m.e2e o.iod.val o.p.dst.toNat
      t.isOpen = true → 0 < t.tokens → m.fab.out = [o] → o.waiting = true →
      let q : OutPkt := { o with waiting := false, p := { o.p with eseq := t.next } }
      m.pump o.iod.val o.p.dst.toNat = (((m.updFab fun b => { b with out := [q] }).setE2e o.iod.val o.p.dst.toNat { t with
        tokens := t.tokens - 1, next := t.next + 1 }).trace (16 + o.iod.val) 6 (unitOfIod o.iod.val) o.part.val t.next.toNat o.p.dst.toNat)) ∧
    (∀ (m : Mod) (o : OutPkt) afl data, o.copy = none → let t := m.e2e o.iod.val o.p.dst.toNat
      m.delivered o afl data = ((m.updFab fun b => { b with out := b.out.erase o }).setE2e o.iod.val o.p.dst.toNat { t with
        tokens := min t.grant (t.tokens + 1) }).pump o.iod.val o.p.dst.toNat)

/-- Collectives (16 R470-R476, 14 R408): refusals, the start of a collective, segments up and down the tree, stale packets, aborts, hints. -/
def Obligations.Collectives : Prop :=
  (∀ (s : State) (id : Nat) (c : HCmd), s.m.startable id 5 = some c → let b := s.m.begin id c
    let g := c.wf 1 15 0
    let fmt := c.wf 1 23 20
    (∀ k, s.m.collRefusal c = some k → exec (.collective id) s = Becomes s (b.refuseCmd id k)) ∧
    ((fmtBlock fmt ≠ 0 ∨ opPermits (c.wf 1 19 16) fmt fmt = false ∨ 2 ^ 24 * 512 < (c.wf 1 63 32 * fmtWidth fmt + 7) / 8 ∨
      Tab.find g s.m.fab.groups = none ∨ ∃ x, Tab.find g s.m.fab.groups = some x ∧ grpPart x.entry ≠ c.fn.val) → s.m.collRefusal c ≠ none) ∧
    (∀ x, s.m.collRefusal c = none → Tab.find g s.m.fab.groups = some x →
      (x.cur ≠ none → exec (.collective id) s = Becomes s s.m) ∧
      (x.cur = none →
        let k : Coll := {
          cmd := id, kind := Fin.ofNat 4 (c.wf 1 26 24), op := c.wf 1 19 16, fmt := fmt, count := c.wf 1 63 32, root := c.wf 2 15 0,
          va := c.w 0, part := c.fn }
        let n := b.updGroup g fun x => { x with cur := some k }
        (k.count = 0 → exec (.collective id) s = Becomes s ((n.updGroup g fun x => { x with cur := none, collSeq := x.collSeq + 1 }).endCmd id)) ∧
        (0 < k.count → k.kind = 3 → n.moduleId ≠ k.root → exec (.collective id) s = Becomes s n) ∧
        (0 < k.count → (k.kind ≠ 3 ∨ n.moduleId = k.root) → exec (.collective id) s =
          Becomes s (forEach (List.range k.segs) (fun i m => m.collLocal g i) n))))) ∧
  (∀ (s : State) (p : Packet), s.m.braked = false → let n := s.m.admitted p
    let g := p.group.toNat
    let iod := p.port.val / 8
    (∀ i type, (i = .vflColl p ∧ type = 9) ∨ (i = .vflWriteReduce p ∧ type = 1 ∧ isSegment p = true) → s.m.Delivers type p → n.Fresh p →
      (Tab.find g n.fab.groups = none → exec i s = Becomes s ((n.count kFabCollStale iod).settled p none 0)) ∧
      (∀ x, Tab.find g n.fab.groups = some x → let ahead := (p.offset.toNat / 2 ^ 24 + 65536 - x.collSeq.toNat) % 65536
        ((x.cur = none ∨ ahead ≠ 0) → 32768 ≤ ahead → exec i s = Becomes s ((n.count kFabCollStale iod).settled p none 0)) ∧
        ((x.cur = none ∨ ahead ≠ 0) → ahead < 32768 → exec i s = Becomes s (n.count kFabCollStale iod)))) ∧
    (∀ x c, Tab.find g n.fab.groups = some x → x.cur = some c → p.offset.toNat / 2 ^ 24 = x.collSeq.toNat → let seg := p.offset.toNat % 2 ^ 24
      (s.m.Delivers 9 p → n.Fresh p → grpParent x.entry = p.src.toNat →
        exec (.vflColl p) s = Becomes s ((n.collResult g seg p.payload p.afl).settled p none 0)) ∧
      (s.m.Delivers 1 p → isSegment p = true → n.Fresh p → ∀ i, (grpChildren x.entry).findIdx? (· == p.src.toNat) = some i →
        exec (.vflWriteReduce p) s = Becomes s ((n.collAdd g seg i p.payload p.afl).settled p none 0)) ∧
      (s.m.Delivers 11 p → exec (.vflAbort p) s = Becomes s (n.collAbort g (some p.src.toNat)))) ∧
    (s.m.Delivers 11 p → (Tab.find g n.fab.groups = none ∨
      ∃ x, Tab.find g n.fab.groups = some x ∧ (x.cur = none ∨ p.offset.toNat / 2 ^ 24 ≠ x.collSeq.toNat)) →
      exec (.vflAbort p) s = Becomes s (n.count kFabCollStale iod)) ∧
    (∀ x, s.m.Delivers 10 p → Tab.find g n.fab.groups = some x →
      let m := (n.updFab fun b => { b with slow := b.slow.put p.src.toNat n.ticks }).updGroup g fun x => { x with slow := x.slow.put p.src.toNat n.ticks }
      (∀ t, Tab.find p.src.toNat x.slow = some t → t < n.ticks → n.ticks < t + ticksPerMs → exec (.vflSlow p) s = Becomes s m) ∧
      (Tab.find p.src.toNat x.slow = none →
        exec (.vflSlow p) s = Becomes s (m.sendSlow g x p.src (some (m.port p.port.val).partner.toNat)))) ∧
    (s.m.Delivers 10 p → Tab.find g n.fab.groups = none → exec (.vflSlow p) s = Becomes s n)) ∧
  (∀ (n : Mod) g i bs afl x c, Tab.find g n.fab.groups = some x → x.cur = some c →
    (grpParent x.entry ≠ 0 → n.collUp g i bs afl = n.collPkt g x c (grpParent x.entry) 1 i bs afl) ∧
    (grpParent x.entry = 0 → n.collUp g i bs afl = n.collResult g i bs afl) ∧
    (∀ who acc, c.kind.val < 2 → Tab.find i c.parts = some ([who], acc) → acc ≠ [] → let r := combineBytes c.op c.fmt acc bs
      let fl := afl ||| BitVec.ofNat 4 r.2
      n.collAdd g i who bs afl = ((n.count kFabRedComb (grpIod x.entry)).updColl g fun c => { c with
        afl := c.afl ||| fl, parts := c.parts.del i }).collUp g i r.1 (c.afl ||| fl)) ∧
    (∀ f k, n.cmd? c.cmd = some k → (n.collAbort g f).cmd? c.cmd = some { k.mark stCOLLABORT 0 with ended := true } ∧
      Tab.find g (n.collAbort g f).fab.groups = some { x with cur := none, collSeq := x.collSeq + 1 })) ∧
  (∀ (s : State),
    (∀ g : BitVec 16, s.m.braked = false → exec (.collTimeout g) s = Becomes s (s.m.collAbort g.toNat none)) ∧
    ((∀ e ∈ s.m.mem.stackTab, e.2.state ≠ 2) → exec .slowHintTimer s = Becomes s s.m) ∧
    ((∃ e ∈ s.m.mem.stackTab, e.2.state = 2) → exec .slowHintTimer s =
      Becomes s (forEach s.m.fab.groups (fun (g : Nat × Group) m => m.sendSlow g.1 g.2 (BitVec.ofNat 16 m.moduleId) none) s.m)))

/-- Delivery and Ethernet partners (16 R464, R482-R485, 21 R587): a packet without delivery-complete is sent again three times, then its
destination is UNREACHABLE; RDMA WRITE, READ and the immediate record; acknowledgement and retries; dictionary fragments. -/
def Obligations.DeliveryAndEthernet : Prop :=
  ∀ (s : State), s.m.braked = false →
    (∀ (iod : IodId) (dst : BitVec 16) e o, let t := s.m.e2e iod.val dst.toNat
      (s.m.fab.out.find? fun o => o.iod == iod && o.p.dst == dst && (if t.isOpen then !o.waiting && o.p.eseq == e else o.waiting)) = some o →
      let n := (s.m.updFab fun b => { b with
        out := b.out.map fun x => if x = o then { x with resends := x.resends + 1 } else x }).count kFabResend iod.val
      (3 ≤ o.resends → exec (.deliveryTimeout iod dst e) s = Becomes s (s.m.unreachable iod.val dst.toNat)) ∧
      (o.resends < 3 → t.isOpen = true →
        (∀ i, n.altPort o.part.val dst.toNat = some i → exec (.deliveryTimeout iod dst e) s = Becomes s (n.transmit o.p i)) ∧
        (n.altPort o.part.val dst.toNat = none → exec (.deliveryTimeout iod dst e) s = Becomes s n)) ∧
      (o.resends < 3 → t.isOpen = false → exec (.deliveryTimeout iod dst e) s =
        Becomes s (n.emit 7 (n.packet iod.val dst.toNat 0 0 0 0 0 [])))) ∧
    (∀ (port : PortId) (qpn : BitVec 24) q, Tab.find (ethKey port.val qpn.toNat) s.m.fab.eth = some q →
      let k := ethKey port.val qpn.toNat
      let n (len : Nat) : Mod := (s.m.countBy kFabRxBytes port.val len).updFab fun b => { b with eth := b.eth.put k { q with rpsn := q.rpsn + 1 } }
      let who : Who := .nc (ingressAgent port.val)
      ((s.m.port port.val).state = 4 → (s.m.port port.val).mode = 2 → q.error = false →
        (∀ rkey addr bs, let n := n bs.length
          let w := rkey.toNat % 256
          (n.roceWindow q rkey wrWR addr bs.length = none → exec (.roceWrite port qpn rkey addr bs) s = Becomes s (n.winViol w)) ∧
          (∀ p e, n.roceWindow q rkey wrWR addr bs.length = some (p, e) → let r := n.winWrite who p e addr bs
            (r.1.viol = false → exec (.roceWrite port qpn rkey addr bs) s = Becomes s r.2) ∧
            (r.1.viol = true → exec (.roceWrite port qpn rkey addr bs) s = Becomes s (r.2.winViol w))) ∧
          (∀ imm, bs ≠ [] → n.roceWindow q rkey wrWR addr bs.length = none → exec (.roceWriteImm port qpn rkey addr bs imm) s = Becomes s (n.winViol w)) ∧
          (∀ (imm : BitVec 32) x, (bs = [] ∧ x = n) ∨ (∃ p e, bs ≠ [] ∧ n.roceWindow q rkey wrWR addr bs.length = some (p, e) ∧
              (n.winWrite who p e addr bs).1.viol = false ∧ x = (n.winWrite who p e addr bs).2) →
            let part := q.f 423 417
            let v := x.emWriteN who part (q.f 471 424 + 8 * (q.imms % 2 ^ q.f 479 475)) (leBytes (imm.toNat + bs.length * 2 ^ 32) 8) 7
            let y := (if v.1.viol then v.2.violate part else v.2).updFab fun b => { b with eth := b.eth.adj k fun x => { x with imms := x.imms + 1 } }
            exec (.roceWriteImm port qpn rkey addr bs imm) s = Becomes s (y.signalFrom (ingressAgent port.val) (y.nameSem part (q.f 495 480)) 1))) ∧
        (∀ rkey addr len, let n := n 0
          let reply (bs : List Byte) (m : Mod) : Mod :=
            (m.updFab fun b => { b with roceRsp := (port.val, qpn.toNat, bs) :: b.roceRsp }).countBy kFabTxBytes port.val bs.length
          (n.roceWindow q rkey wrRD addr len = none →
            exec (.roceRead port qpn rkey addr len) s = Becomes s (reply (List.replicate len 0) (n.winViol (rkey.toNat % 256)))) ∧
          (∀ p e, n.roceWindow q rkey wrRD addr len = some (p, e) → let r := n.winRead who p e addr len
            r.1.viol = false → r.1.poison = false → exec (.roceRead port qpn rkey addr len) s = Becomes s (reply r.1.bytes r.2)))) ∧
      (q.error = false →
        (∀ psn, exec (.roceAck port qpn psn) s = Becomes s (s.m.updFab fun b => { b with
          eth := b.eth.put k { q with retries := 0, outst := if psn = q.spsn - 1 then [] else q.outst } })) ∧
        (q.outst ≠ [] → q.retries < 7 → exec (.roceRetryTimeout port qpn) s = Becomes s ((s.m.updFab fun b => { b with
          eth := b.eth.put k { q with retries := q.retries + 1 } }).count kFabResend (port.val / 8))) ∧
        (q.outst ≠ [] → 7 ≤ q.retries → exec (.roceRetryTimeout port qpn) s = Becomes s (s.m.ethFail k)))) ∧
    (∀ (p : Packet) total, total ≤ 1536 → s.m.Delivers 12 p → let n := s.m.admitted p
      (p.win = 1 → exec (.vflMgmt p total) s = Becomes s (n.peerMarker p.port.val)) ∧
      (∀ f, p.win = 0 → n.parB pKdpVflEn = true → n.kod.frags.getD p.port.val [] = [] → wholeFrame total [(p.offset.toNat % 2048, p.payload)] = some f →
        exec (.vflMgmt p total) s = Becomes s (n.updKod fun k => { k with frags := k.frags.del p.port.val, mgmt := (p.port.val, f) :: k.mgmt })) ∧
      (p.win = 0 → n.parB pKdpVflEn = false → exec (.vflMgmt p total) s = Becomes s n)) ∧
    (∀ port : PortId, exec (.mgmtFragmentTimeout port) s = Becomes s (s.m.updKod fun k => { k with frags := k.frags.del port.val }))

/-! Die links (17). -/

/-- Die links (17 R489-R508): training and its spares, the parameters of R493, confirmation and its third failure, EPOCH, flits in order, CRC
errors and replay, detours, UDL 1.0, expansion sites, comb sources and rings. -/
def Obligations.DieLinks : Prop :=
  (∀ k (o c : CapBlock) p, linkChoice k o c = some p →
    let unit := if k < 64 then 8 else if k < 72 then 16 else 64
    (∃ i < 4, o.widths.getLsbD i = true ∧ c.widths.getLsbD i = true ∧ p.width = unit * (i + 1)) ∧ p.width ≤ o.usable.toNat ∧
    p.width ≤ c.usable.toNat ∧
    (∀ j < 4, o.widths.getLsbD j = true → c.widths.getLsbD j = true → unit * (j + 1) ≤ o.usable.toNat → unit * (j + 1) ≤ c.usable.toNat →
      unit * (j + 1) ≤ p.width) ∧
    p.rate < 4 ∧ o.rates.getLsbD p.rate = true ∧ c.rates.getLsbD p.rate = true ∧
    (∀ j < 4, o.rates.getLsbD j = true → c.rates.getLsbD j = true → j ≤ p.rate) ∧
    p.crc32c = (o.crct.getLsbD 1 && c.crct.getLsbD 1) ∧ (p.crc32c = false → o.crct.getLsbD 0 = true ∧ c.crct.getLsbD 0 = true) ∧
    p.replay = min o.replay.val c.replay.val ∧ p.proto = (o.proto &&& c.proto).toNat ∧
    (isCdCd k = true → p.proto &&& 0x07 = 0x07) ∧ (k < 72 → isCdCd k = false → p.proto &&& 0x0F = 0x0F) ∧ (72 ≤ k → p.proto &&& 0x12 = 0x12)) ∧
  (∀ (s : State) (r : LinkRef), let k := linkKey r
    let l := s.m.link k
    let order := s.fuse.order.val
    (linkNegotiates order k = false → ∀ weak usable quick c same a b, ∀ i ∈ [Instr.udlTrain r weak usable quick, .udlCapx r c, .udlPropose r,
      .udlConfirm r same a b, .udlConfirmTimeout r, .udlPartnerTraining r], exec i s = Becomes s s.m) ∧
    (linkNegotiates order k = true ↔ (k < 64 ∧ (isCdCd k = true ∨ order ≠ 2)) ∨ (64 ≤ k ∧ k < 72 ∧ order ≠ 2) ∨ (72 ≤ k ∧ order = 0)) ∧
    (linkNegotiates order k = true →
    (∀ weak usable quick, l.state = 0 → let n := weak.length + (l.lost.filter fun w => !(weak.any fun x : Fin 128 => x.val == w)).length
      let before := if quick then l.spares else 0
      let full := if k < 72 then linkFull k else 64 * l.modules.val
      exec (.udlTrain r weak usable quick) s = Becomes s (s.m.updLink k fun l => { l with
        state := 1, spares := min (linkSpares k) (before + n), usable := min usable (full - (before + n - linkSpares k)), lost := [] })) ∧
    (∀ c, l.state = 1 → let own := s.m.capOwn k (s.m.draw.1 % 5)
      own.epoch = s.m.mod.linkEpoch ∧ own.usable = BitVec.ofNat 8 l.usable ∧ own.vmaj = 2 ∧ own.vmin = 1 ∧ own.die.val = linkOwn k % 16 ∧
      (∀ p, linkChoice k own c = some p → Completes (exec (.udlCapx r c) s) fun t => let x := t.m.link k
        x.state = 2 ∧ x.proposal = (if isCdCd k = true ∧ k % 8 < k / 8 then none else some p) ∧ x.sent = some own ∧ x.partner = some c ∧ x.epoch = some c.epoch ∧
        (∀ e, l.epoch = some e → e ≠ c.epoch → x.txSeq = 0 ∧ x.rxSeq = 0 ∧ x.replay = [] ∧ x.flits = [] ∧ x.partSlots = []) ∧
        ((l.epoch = none ∨ l.epoch = some c.epoch) → x.txSeq = l.txSeq ∧ x.rxSeq = l.rxSeq ∧ x.replay = l.replay)) ∧
      (linkChoice k own c = none → Completes (exec (.udlCapx r c) s) fun t => let x := t.m.link k
        x.proposal = none ∧ (l.confFail < 2 → x.state = 0 ∧ x.confFail = l.confFail + 1) ∧ (2 ≤ l.confFail → x.state = 5))) ∧
    (∀ p, l.state = 2 → (if isCdCd k = true ∧ k % 8 < k / 8 then s.m.link (otherGate k) else l).proposal = some p →
      exec (.udlPropose r) s = Becomes s (s.m.updLink k fun l => { l with state := 3, proposal := some p })) ∧
    (l.state = 3 →
      exec (.udlConfirm r true 0 0) s = Becomes s (s.m.updLink k fun l => { l with
        state := 4, par := l.proposal, proposal := none, confFail := 0, holdCredits := false, crcRun := 0, replays := 0 }) ∧
      (∀ same own partner, (same = false ∨ own ≠ 0 ∨ partner ≠ 0) →
        exec (.udlConfirm r same own partner) s = Becomes s ((s.m.confFail k).cutOff s.fuse.order.val k)) ∧
      exec (.udlConfirmTimeout r) s = Becomes s ((s.m.confFail k).cutOff s.fuse.order.val k)) ∧
    (l.state = 4 → exec (.udlPartnerTraining r) s = Becomes s (s.m.updLink k Link.retrain))) ∧
    (l.confFail < 2 → ((s.m.confFail k).link k) = { l with state := 0, confFail := l.confFail + 1, proposal := none }) ∧
    (2 ≤ l.confFail → ((s.m.confFail k).link k) = { l with state := 5, confFail := 3, proposal := none }) ∧
    (∀ d seq ack ok stamp msgs, r = .electrical d → order ≠ 2 → (s.m.link (9 * d.val)).state ≠ 5 →
      exec (.udlDataFlit r seq ack ok ⟨stamp, msgs⟩) s = Becomes s s.m) ∧
    (∀ seq ack ok stamp msgs, l.carries = true →
      (∀ d, r = .electrical d → order = 2 ∨ (s.m.link (9 * d.val)).state = 5) →
      let n := (if isCdCd k then (s.m.countGate kUdlFlits (otherGate k) 1).updLink (otherGate k) fun x =>
          if x.replay.contains seq then x else { x with replay := x.replay ++ [seq], txSeq := seq + 1 }
        else s.m).updLink k fun x => x.sendFlit seq msgs
      let u := unpackSlots l.partSlots (l.flitOf seq msgs)
      let m := n.updLink k fun x => { x with
        rxSeq := x.rxSeq + 1, crcRun := 0, flits := x.flits.del seq.toNat, partSlots := u.cur, restored := u.out,
        replay := dropAcked ack x.replay, overDetour := dropAcked ack x.overDetour }
      (ok = false → exec (.udlDataFlit r seq ack ok ⟨stamp, msgs⟩) s = Becomes s ((n.countGate kUdlCrcErr k 1).updLink k fun l =>
        if 8 ≤ l.crcRun + 1 ∧ l.state = 4 then l.retrain else { l with crcRun := l.crcRun + 1 })) ∧
      (ok = true → seq ≠ l.rxSeq → exec (.udlDataFlit r seq ack ok ⟨stamp, msgs⟩) s = Becomes s n) ∧
      (ok = true → seq = l.rxSeq → stamp = none → exec (.udlDataFlit r seq ack ok ⟨stamp, msgs⟩) s = Becomes s m) ∧
      (∀ v, ok = true → seq = l.rxSeq → stamp = some v → exec (.udlDataFlit r seq ack ok ⟨stamp, msgs⟩) s =
        Becomes s (m.updDie (linkOwn k) fun x => { x with ccOff := x.ccOff + (v + 1 - m.cc (linkOwn k)) }))) ∧
    (∀ msgs : List UdlMsg, (packSlots msgs).length = (msgs.map udlLen).sum ∧ unpackSlots [] (packSlots msgs) = { cur := [], out := msgs } ∧
      ∀ n, let a := unpackSlots [] ((packSlots msgs).take n)
        let b := unpackSlots a.cur ((packSlots msgs).drop n)
        a.out ++ b.out = msgs ∧ b.cur = []) ∧
    (∀ seq, l.carries = true → let fresh := l.replayTick + ticksPerMs < s.m.ticks
      let c := if fresh then 1 else l.replays + 1
      exec (.udlNak r seq) s = Becomes s ((s.m.countGate kUdlReplay k (l.replay.dropWhile (· != seq)).length).updLink k fun l =>
        if 64 < c ∧ l.state = 4 then l.retrain
        else { l with replays := c, replayTick := if fresh then s.m.ticks else l.replayTick })) ∧
    (isCdCd k = true → l.state ≠ 4 → l.state ≠ 6 → l.detour = false → s.m.detourDie k = true →
      exec (.detourTimeout r) s = Becomes s ((s.m.countGate kUdlReplay k l.replay.length).updLink k fun l => { l with
        detour := true, overDetour := l.replay })) ∧
    (l.detour = true → l.state = 4 → exec (.udlDetourReturn r) s = Becomes s (s.m.updLink k fun l => { l with
      detour := false, replay := l.replay.filter fun x => !l.overDetour.contains x, overDetour := [] })) ∧
    (∀ (die q node c : Nat), q < 8 → (s.m.link (8 * die + q)).detour = true → (s.m.link (8 * die + q)).state ≠ 4 →
      let ds := (List.range 8).filter fun c => c ≠ die ∧ c ≠ q ∧ (s.m.link (8 * die + c)).state = 4 ∧ (s.m.link (8 * q + c)).state = 4
      ds[node % ds.length]? = some c → s.m.gateVia die q node = c) ∧
    (∀ d : DieId, s.fuse.order = 2 → exec (.udl1TrainingPattern d) s = Becomes s (s.m.updLink (64 + d.val) fun l => { l with
      state := 6, par := some { width := 64, rate := 0, crc32c := false, replay := 0, proto := 0x0F }, usable := 64, proposal := none,
      holdCredits := false })) ∧
    (∀ (site : Fin 2) (modules : Fin 3) (cap : CapBlock), let id := s.fuse.xsIdent.getD site.val 0
      (order ≠ 0 → exec (.xsTrain site modules cap) s = Becomes s s.m ∧ s.m.siteFault order site.val = s.m) ∧
      (order = 0 → (modules = 0 ∨ id = 0 ∨ cap.vendor.toNat * 65536 + cap.product.toNat ≠ id) →
        exec (.xsTrain site modules cap) s = Becomes s (s.m.siteFault order site.val)) ∧
      (order = 0 → modules ≠ 0 → id ≠ 0 → cap.vendor.toNat * 65536 + cap.product.toNat = id → exec (.xsTrain site modules cap) s =
        Becomes s ((s.m.updLink (72 + site.val) fun l => { l with
          state := 1, modules := modules, usable := 64 * modules.val, confFail := 0 }).capx (72 + site.val) cap))) ∧
    (∀ src : Fin 12, (s.m.die src.val).comb = false → Completes (exec (.combEmitterFail src) s) fun t => (t.m.die src.val).comb = true ∧
      ∀ k ∈ photonicOf src.val, t.m.link k = (if (s.m.link k).state == 4 then (s.m.link k).retrain else s.m.link k)) ∧
    (∀ src : Fin 12, (s.m.die src.val).comb = true → exec (.combEmitterFail src) s =
      Becomes s (forEach (photonicOf src.val) (fun k m => m.cutOff s.fuse.order.val k) (forEach (photonicOf src.val)
        (fun k m => m.updLink k fun l => { l with state := 5, proposal := none }) (s.m.updDie src.val fun d => { d with comb := true })))) ∧
    (∀ d g w, r = .photonic d g → w.val ∉ l.lost → exec (.ringLockLoss r w) s = Becomes s (s.m.updLink k fun l => { l with lost := w.val :: l.lost })))

/-! Fault tolerance (18). -/

/-- Lost halves and I/O dies (18 R511-R524): what declares a half FAILED, its foster home, the lines that are lost with it, the tile group
that stands in; heartbeats, the takeover of an I/O die by a partner in service, and the die that serves its numbers before and after (01 R20,
R31; where both dies of a pair have failed the takeover waits: the model's choice, log 123). -/
def Obligations.UnitFailures : Prop :=
  ∀ (s : State),
    (∀ h : SliceId, (s.m.serving = true ∨ s.m.mod.mstate = 3) →
      exec (.halfSidebandLoss h) s = Becomes s (s.m.halfFail s.fuse.order.val h.val) ∧
      (s.m.braked = false → ∀ g silent, (silent = true ∨ 2 ≤ g) →
        exec (.halfRequestTimeout h g silent) s = Becomes s (s.m.halfFail s.fuse.order.val h.val)) ∧
      (∀ g, g < 2 → exec (.halfRequestTimeout h g false) s = Becomes s s.m) ∧
      ((s.m.half h.val).state = 4 → exec (.halfSidebandLoss h) s = Becomes s s.m)) ∧
    (∀ h : SliceId,
      ((s.m.half (h.val ^^^ 1)).state ≠ 4 → s.m.fosterOf h.val = some (Fin.ofNat 16 (h.val ^^^ 1))) ∧
      (∀ i, i < 7 → (s.m.half (h.val ^^^ 1)).state = 4 → (∀ j < i, (s.m.half ((h.val + 2 * (j + 1)) % 16)).state = 4) →
        (s.m.half ((h.val + 2 * (i + 1)) % 16)).state ≠ 4 → s.m.fosterOf h.val = some (Fin.ofNat 16 ((h.val + 2 * (i + 1)) % 16))) ∧
      (let n := s.m.loseSlice h.val
       (∀ e ∈ n.cache.lines, homeOf e.1 ≠ h.val) ∧ (∀ e ∈ n.cache.l1 ++ n.cache.wbuf, homeOf (e.1 % 2 ^ 36) ≠ h.val) ∧ (∀ e ∈ n.cache.txns, homeOf e.1 ≠ h.val) ∧
       (∀ x ∈ n.cache.net, homeOf x.line ≠ h.val) ∧ n.mem.em = s.m.mem.em ∧
       (∀ f, (s.m.half h.val).dirtyFrames.has f = true → (n.half h.val).lostFrames.has f = true)) ∧
      (∀ e ∈ (s.m.loseTiles h.val).cache.l1, e.1 / 2 ^ 36 / 64 ≠ h.val)) ∧
    (∀ (p : PartId) g, g < 128 →
      (s.m.spareFor (g / 16) = none → s.m.substitute p g = s.m.raise evFtNoSpare g p.val g) ∧
      (∀ n, s.m.spareFor (g / 16) = some n → n < 128 ∧ (leNat (s.m.parBlob pFtSpareTg)).testBit n = true ∧ n / 16 ≠ g / 16 ∧
        (s.m.half (n / 8)).state ≠ 4 ∧ s.m.ft.unscrubbed.has n = false ∧
        (∀ e ∈ s.m.parts.parts, e.2.st ≠ .none → e.2.tgmask.getLsbD n = false) ∧
        ((s.m.substitute p g).part p.val).tgmask.getLsbD n = true ∧
        (∃ name, (p, name, Fin.ofNat 128 n) ∈ (s.m.substitute p g).ft.subst))) ∧
    (∀ k : IodId,
      exec (.iodHeartbeat k) s = Becomes s (s.m.updFt fun f => { f with missed := f.missed.del k.val }) ∧
      (s.m.braked = false → s.m.serving = true → s.m.iodState k.val = 0 → let n := s.m.ft.missed.getD k.val 0 + 1
        (n < 3 → ∀ seen, exec (.heartbeatMiss k seen) s = Becomes s (s.m.updFt fun f => { f with missed := f.missed.put k.val n })) ∧
        (3 ≤ n → exec (.heartbeatMiss k true) s = Becomes s (s.m.updFt fun f => { f with missed := f.missed.del k.val }) ∧
          exec (.heartbeatMiss k false) s = Becomes s (s.m.iodFail s.fuse.order.val k.val))) ∧
      ((s.m.ft.takeover.has k.val = false ∨ s.m.iodState (k.val ^^^ 1) ≠ 0) → exec (.iodTakeoverDone k) s = Becomes s s.m) ∧
      ((s.m.iodState k.val = 0 → s.m.servedBy k.val = some k.val) ∧
        (s.m.iodState k.val ≠ 0 → s.m.ft.takeover.has k.val = true → s.m.servedBy k.val = none) ∧
        (s.m.iodState k.val ≠ 0 → s.m.ft.takeover.has k.val = false → s.m.iodState (k.val ^^^ 1) = 0 → s.m.servedBy k.val = some (k.val ^^^ 1)) ∧
        ∀ j, s.m.servedBy k.val = some j → s.m.iodState j = 0 ∧ (j = k.val ∨ j = k.val ^^^ 1)) ∧
      (s.m.ft.takeover.has k.val = true → s.m.iodState (k.val ^^^ 1) = 0 → let n := (s.m.updFt fun f => { f with takeover := f.takeover.del k.val }).updSeq fun x => { x with
          freed := x.freed.adj k.val fun l => sortBy id l }
        exec (.iodTakeoverDone k) s = Becomes s (if k = 0 then n.portSelect 1 else n)))

/-- Waypoints and rollback (18 R525-R532): a waypoint starts, waits where it is deferred, is written whole into the older or invalid slot, or is
skipped where it does not fit; a rollback goes to the newest valid one. -/
def Obligations.WaypointCommands : Prop :=
  ∀ (s : State) (p : PartId), let x := p.val
    (s.m.serving = true → (s.m.part x).st = .active → s.m.parN (pWpSlotMib + x) ≠ 0 →
      (∀ n, ((s.m.wpDeferred x = true ∧ n = s.m.updWp x fun w => { w with wanted := true }) ∨
             (s.m.wpDeferred x = false ∧ n = s.m.updWp x fun w => { w with taking := true, wanted := false, since := s.m.ticks })) →
        (s.m.wp x).taking = false →
        ((s.m.parN (pWpPeriodMs + x) ≠ 0 ∨ (s.m.wp x).wanted = true) → exec (.waypointTimer p) s = Becomes s n) ∧
        exec (.wpTake p) s = Acts s n (pWpTake + x) esOK) ∧
      ((s.m.wp x).taking = true → exec (.wpTake p) s = Acts s s.m (pWpTake + x) esOK)) ∧
    (s.m.serving = true → ((s.m.part x).st ≠ .active ∨ s.m.parN (pWpSlotMib + x) = 0) → exec (.wpTake p) s = Acts s s.m (pWpTake + x) esSTATE) ∧
    (s.m.parN (pWpPeriodMs + x) = 0 → (s.m.wp x).wanted = false → exec (.waypointTimer p) s = Becomes s s.m) ∧
    ((s.m.wp x).taking = true → s.m.wpDrained x = true → let img := s.m.wpImage x
      let n := s.m.updWp x fun w => { w with taking := false }
      (s.m.parN (pWpSlotMib + x) * 2 ^ 20 < img.len + 64 → exec (.waypointDrained p) s = Becomes s ((n.count kWpSkip x).raise evWpToobig 0 x img.len)) ∧
      (img.len + 64 ≤ s.m.parN (pWpSlotMib + x) * 2 ^ 20 → s.m.wpAreaOk x = false → exec (.waypointDrained p) s = Becomes s (n.count kWpSkip x)) ∧
      (img.len + 64 ≤ s.m.parN (pWpSlotMib + x) * 2 ^ 20 → s.m.wpAreaOk x = true →
        (∀ second, ((second = false ∧ (s.m.wpValid x false = false ∨ (s.m.wpValid x true = true ∧ (s.m.wp x).seqOf false < (s.m.wp x).seqOf true))) ∨
            (second = true ∧ s.m.wpValid x false = true ∧ (s.m.wpValid x true = false ∨ (s.m.wp x).seqOf true ≤ (s.m.wp x).seqOf false))) →
          exec (.waypointDrained p) s = Becomes s (((s.m.putWaypoint x second img).updWp x fun w =>
            if second then { w with slotB := some img, seq := img.seq, taking := false }
            else { w with slotA := some img, seq := img.seq, taking := false }).count kWpTaken x)))) ∧
    ((s.m.wp x).taking = true → exec (.waypointDrainTimeout p) s =
      Becomes s ((s.m.updWp x fun w => { w with taking := false }).count kWpSkip x)) ∧
    ((s.m.wp x).taking = false → exec (.waypointDrainTimeout p) s = Becomes s s.m) ∧
    (s.m.serving = true → ((s.m.part x).st = .active → exec (.wpRestore p) s = Acts s (s.m.rollback x) (pWpRestore + x) esOK) ∧
      ((s.m.part x).st ≠ .active → exec (.wpRestore p) s = Acts s s.m (pWpRestore + x) esSTATE)) ∧
    (∀ a b, (s.m.wp x).slotA = some a → (s.m.wp x).slotB = some b → a.gen = (s.m.part x).gen → s.m.wpIntact x false a = true →
      (b.gen = (s.m.part x).gen → s.m.wpIntact x true b = true → s.m.wpNewest x = some (if a.seq < b.seq then b else a)) ∧
      ((b.gen ≠ (s.m.part x).gen ∨ s.m.wpIntact x true b = false) → s.m.wpNewest x = some a)) ∧
    (s.m.groupLost x = true → s.m.rollback x = ((s.m.abandonWp x).count kFtRollback x).rollbackTo x none)

/-- Live repair (18 R533-R536): actions refused where the rules say so; a fenced tile under test returns or stays fenced; a die drains, is
tested and returns; a stack retrains channel by channel. -/
def Obligations.LiveRepair : Prop :=
  ∀ (s : State),
    (s.m.serving = true →
      (∀ tile : BitVec 16, tile.toNat ≤ 1023 →
        ((s.m.tile tile.toNat).fenced = true → (s.m.half (halfOfTile tile.toNat)).state ≠ 4 → (∀ e ∈ s.m.tiles, e.2.testing = false) →
          exec (.ftTileTest tile) s = Acts s (s.m.updTile tile.toNat fun x => { x with testing := true }) pFtTileTest esRUNNING) ∧
        (((s.m.tile tile.toNat).fenced = false ∨ ∃ e ∈ s.m.tiles, e.2.testing = true) → exec (.ftTileTest tile) s = Acts s s.m pFtTileTest esSTATE)) ∧
      (∀ d : BitVec 8, d.toNat ≤ 7 →
        ((∀ h, h < 16 → (s.m.half h).state = 0) → exec (.ftDieDrain d) s = Acts s (s.m.setDie d.toNat 1) pFtDieDrain esRUNNING) ∧
        ((∃ h, h < 16 ∧ (s.m.half h).state ≠ 0) → exec (.ftDieDrain d) s = Acts s s.m pFtDieDrain esSTATE) ∧
        ((∃ h, h < 16 ∧ (s.m.half h).state = 4) → exec (.ftDieTest d) s = Acts s s.m pFtDieTest esSTATE ∧
          exec (.ftDieReturn d) s = Acts s s.m pFtDieReturn esSTATE) ∧
        (s.m.dieState d.toNat 2 = true → (∀ h, h < 16 → (s.m.half h).state ≠ 4) →
          (s.m.ft.dieTest = none → (∀ e ∈ s.m.tiles, e.2.testing = false) → Completes (exec (.ftDieTest d) s) fun t =>
            t.m.dieState d.toNat 3 = true ∧ t.m.ft.dieTest = some d.toNat ∧ t.m.ft.testResult = 0 ∧ t.m.kod.lastAct = some (pFtDieTest, esRUNNING) ∧
            (∀ i, i < 128 → (t.m.tile (128 * d.toNat + i)).testing = true) ∧ t.m.mem = s.m.mem ∧ t.m.cache = s.m.cache ∧ t.m.ctxs = s.m.ctxs) ∧
          Completes (exec (.ftDieReturn d) s) fun t => t.m.dieState d.toNat 0 = true ∧ t.m.kod.lastAct = some (pFtDieReturn, esOK) ∧
            (∀ i, i < 128 → (t.m.tile (128 * d.toNat + i)).ts = [] ∧ (t.m.tile (128 * d.toNat + i)).strike = 0) ∧
            (∀ e ∈ t.m.ctxs, dieOfTile (e.1 / 4) ≠ d.toNat) ∧ t.m.mem = s.m.mem)) ∧
      (∀ d : BitVec 8, 8 ≤ d.toNat → exec (.ftDieDrain d) s = Acts s s.m pFtDieDrain esRANGE ∧ exec (.ftDieTest d) s = Acts s s.m pFtDieTest esRANGE ∧
        exec (.ftDieReturn d) s = Acts s s.m pFtDieReturn esRANGE) ∧
      (∀ w : BitVec 32, w.toNat < 2 ^ 20 →
        ((s.m.ft.retrain ≠ none ∨ ∃ i, i < 16 ∧ stackDown (s.m.stack i) = true) → exec (.ftStackRetrain w) s = Acts s s.m pFtStackRetrain esSTATE) ∧
        (s.m.ft.retrain = none → (∀ i, i < 16 → stackDown (s.m.stack i) = false) → w.toNat % 2 ^ 16 ≠ 0 → ∃ cs, (∀ c : Nat, c ∈ cs ↔ c < 16 ∧ w.toNat.testBit c = true) ∧
          exec (.ftStackRetrain w) s = Acts s (s.m.updFt fun f => { f with
            retrain := some (Fin.ofNat 16 (w.toNat / 2 ^ 16), cs) }) pFtStackRetrain esRUNNING))) ∧
    (∀ t : TileId, (s.m.tile t.val).testing = true → s.m.ft.dieTest = none →
      (Completes (exec (.tileTestDone t true) s) fun u => (u.m.tile t.val).fenced = false ∧ (u.m.tile t.val).testing = false ∧
        (u.m.tile t.val).strike = 0 ∧ (u.m.tile t.val).selftestFail = false ∧ (u.m.tile t.val).tvals = [] ∧
        u.m.ft.testResult.getLsbD (t.val % 128) = false ∧ u.m.kod.lastAct = some (pFtTileTest, esOK)) ∧
      (Completes (exec (.tileTestDone t false) s) fun u => (u.m.tile t.val).fenced = true ∧ (u.m.tile t.val).testing = false ∧
        u.m.ft.testResult.getLsbD (t.val % 128) = true ∧ u.m.kod.lastAct = some (pFtTileTest, esOK) ∧
        ∀ j, j ≠ t.val → u.m.tile j = s.m.tile j)) ∧
    (∀ (t : TileId) d pass, (s.m.tile t.val).testing = true → s.m.ft.dieTest = some d → s.m.ft.testing = [t.val] →
      Completes (exec (.tileTestDone t pass) s) fun u => u.m.dieState d 2 = true ∧ u.m.ft.dieTest = none ∧ (u.m.tile t.val).fenced = !pass ∧
        u.m.kod.lastAct = some (pFtDieTest, esOK)) ∧
    (∀ d : DieId, s.m.dieState d.val 1 = true → (∀ e ∈ s.m.ctxs, dieOfTile (e.1 / 4) = d.val → e.2.st ≠ .empty →
        e.2.ending = none ∧ e.2.st ≠ .loading ∧ e.2.st ≠ .saving ∧ e.2.iq = [] ∧ e.2.vq = 0 ∧ (∀ r ∈ (s.m.tile (e.1 / 4)).running, r.sd.val ≠ e.1 % 4) ∧
        ∀ n rd, e.2.wait ≠ some (.try n rd)) →
      (∀ e ∈ s.m.sched.evicting, dieOfTile (e.1 / 4) ≠ d.val) → exec (.dieDrained d) s =
        Acts s ((forEach (s.m.ctxs.filter fun e => dieOfTile (e.1 / 4) == d.val && e.2.st != .empty) (fun e m => m.drainCtx e.1 e.2) s.m).setDie d.val 2)
          pFtDieDrain esOK) ∧
    (∀ d : DieId, ∀ e ∈ s.m.ctxs, dieOfTile (e.1 / 4) = d.val → e.2.st ≠ .empty → (e.2.st = .loading ∨ e.2.st = .saving ∨ e.2.iq ≠ [] ∨ e.2.vq ≠ 0) →
      exec (.dieDrained d) s = Becomes s s.m) ∧
    (∀ st ch rest weak, s.m.ft.retrain = some (st, ch.val :: rest) →
      (∀ sm, spareMapFor (weak.map (·.val)) (s.m.chan st.val ch.val).weakCa = some sm →
        let n := s.m.updChan st.val ch.val fun y => { y with weak := weak.map (·.val), spareMap := sm, laneCe := [] }
        (rest = [] → exec (.stackRetrainChannelDone st ch true weak) s = Acts s (n.updFt fun f => { f with retrain := none }) pFtStackRetrain esOK) ∧
        (rest ≠ [] → exec (.stackRetrainChannelDone st ch true weak) s = Becomes s (n.updFt fun f => { f with retrain := some (st, rest) }))) ∧
      exec (.stackRetrainChannelDone st ch false weak) s =
        Acts s ((s.m.stackFail st.val).updFt fun f => { f with retrain := none }) pFtStackRetrain esSTATE)

/-! Safety (19) and power (20). -/

/-- The hardware barriers and Kickstand (19 R541-R556, Table 19.5): lasers, the input and its segments, heat, the interlock; a cause is recorded,
the first one kept, and the module enters Kickstand from every state but OFF; a release needs every cause absent. -/
def Obligations.SafetyBarriers : Prop :=
  ∀ (s : State),
    (∀ i : PortId,
      (s.m.saf.shutter.has i.val = true → exec (.returnLossTrip i) s = Becomes s ((s.m.shut i.val).count kSafLaserB1 i.val)) ∧
      (portFitted s.fuse.order.val i.val = true → exec (.lossOfLight i) s =
        Becomes s ((s.m.shut i.val).updSaf fun x => { x with dark := x.dark.put i.val () })) ∧
      ((s.m.shut i.val).saf.shutter.has i.val = false ∧ ((s.m.shut i.val).port i.val).state ≠ 4) ∧
      (s.m.saf.dark.has i.val = true → s.m.saf.biasCut.has (i.val / 4) = false → exec (.transmitTapTimeout i) s =
        Becomes s (((s.m.updSaf fun x => { x with biasCut := x.biasCut.put (i.val / 4) i.val }).count kSafLaserB2 (i.val / 4)).quadDark (i.val / 4))) ∧
      (∀ q j, j < 4 → ((s.m.quadDark q).port (4 * q + j)).state = 1 ∧ ((s.m.quadDark q).port (4 * q + j)).cause = .nolaser) ∧
      (s.m.mayProbe s.fuse.order.val i.val = true →
        (s.m.saf.shutter.has i.val = false → exec (.shutterProbe i) s = Becomes s (s.m.updSaf fun x => { x with shutter := x.shutter.put i.val 1 })) ∧
        (s.m.saf.shutter.getD i.val 0 = 1 → exec (.shutterFullOpen i) s = Becomes s (s.m.updSaf fun x => { x with
          shutter := x.shutter.put i.val 2, dark := x.dark.del i.val })))) ∧
    (∀ q : QuadId, exec (.laserModuleRemove q) s = Becomes s ((s.m.updSaf fun x => { x with noModule := x.noModule.put q.val () }).quadDark q.val) ∧
      Completes (exec (.laserModuleInsert q) s) fun t => t.m.saf.noModule.has q.val = false ∧ t.m.saf.biasCut.has q.val = false ∧
        ∀ j, j < 4 → let i := 4 * q.val + j
          (s.m.serving = true → portFitted s.fuse.order.val i = true → (s.m.port i).mode ≠ 0 → s.m.saf.segOpen.has 20 = false →
            (s.m.port i).state = 1 → (s.m.port i).cause = .nolaser → (t.m.port i).state = 2 ∧ (t.m.port i).cause = .none) ∧
          ((s.m.port i).state ≠ 1 → t.m.port i = s.m.port i)) ∧
    (∀ i bit under, (i, bit, under) ∈ [(Instr.inputOvervoltage, 4, false), (.inputUndervoltage, 5, true), (.inputOvercurrent, 6, false)] →
      (s.m.mod.mstate ≠ 0 → exec i s =
        Becomes s ((s.m.updSaf fun x => { x with inputOpen := true, undervolt := x.undervolt || under }).kick bit)) ∧
      (s.m.mod.mstate = 0 → exec i s = Becomes s s.m)) ∧
    (s.m.saf.undervolt = true → exec .fetReclose s = Becomes s (s.m.updSaf fun x => { x with inputOpen := false, undervolt := false })) ∧
    (s.m.saf.undervolt = false → exec .fetReclose s = Becomes s s.m) ∧
    (∀ g : Fin 23, s.m.saf.segOpen.has g.val = false →
      ((3 ≤ s.m.mod.mstate.val ∧ s.m.mod.mstate.val ≤ 5) ∨ (16 ≤ g.val ∧ g.val < 20 ∧ (s.m.mod.mstate = 2 ∨ s.m.mod.mstate = 6))) →
      let n := (s.m.updSaf fun x => { x with segOpen := x.segOpen.put g.val () }).count kSafEfuseTrip g.val
      (g.val < 16 → exec (.segmentOvercurrent g) s = Becomes s (n.halfFail s.fuse.order.val g.val)) ∧
      (16 ≤ g.val → g.val < 20 → s.m.iodState (g.val - 16) ≠ 1 → exec (.segmentOvercurrent g) s = Becomes s (n.iodFail s.fuse.order.val (g.val - 16))) ∧
      (g.val = 20 → exec (.segmentOvercurrent g) s = Becomes s (forEach (List.range 8) (fun q m => m.quadDark q) n)) ∧
      (21 ≤ g.val → exec (.segmentOvercurrent g) s = Becomes s (n.siteFault s.fuse.order.val (g.val - 21)))) ∧
    (∀ h : SliceId,
      ((s.m.serving = true ∨ s.m.mod.mstate = 3) → exec (.junctionTrip h) s =
        Becomes s (((s.m.updHalf h.val fun x => { x with stopped := true }).count kSafTjTrip (h.val / 2 + 1)).raise evSafTjTrip (h.val / 2) noPart h.val)) ∧
      (∀ c : Int, c < 110 → exec (.junctionRecover h c) s = Becomes s (s.m.updHalf h.val fun x => { x with stopped := false, tj := c })) ∧
      (∀ c : Int, 110 ≤ c → exec (.junctionRecover h c) s = Becomes s s.m)) ∧
    (∀ d, ∀ i bit, (i, bit) ∈ [(Instr.junctionCrit d, 3), (.coolantFlowLow, 1), (.coolantTempHigh, 2), (.interlockOpen, 0)] →
      exec i s = Becomes s (s.m.kick bit)) ∧
    ((s.m.mod.mstate ≠ 0 ∧ s.m.mod.mstate ≠ 6) → exec .safKick s = Acts s (s.m.kick 8) pSafKick esOK) ∧
    ((s.m.mod.mstate = 0 ∨ s.m.mod.mstate = 6) → exec .safKick s = Acts s s.m pSafKick esSTATE) ∧
    (∀ b : Nat, b < 9 → (s.m.mod.mstate = 0 → s.m.kick b = s.m) ∧
      (s.m.mod.mstate = 7 → s.m.kick b = s.m.updSaf fun x => { x with
        first := if x.cause = 0 then b else x.first, cause := x.cause ||| BitVec.ofNat 9 (2 ^ b) }) ∧
      (s.m.mod.mstate ≠ 0 → (s.m.kick b).mod.mstate = 7) ∧
      (s.m.mod.mstate = 1 ∨ s.m.mod.mstate = 2 → s.m.host.portState = 2 → (s.m.kick b).saf.cause.getLsbD b = true ∧
        (s.m.kick b).saf.kickCount = min 0xFFFFFFFF (s.m.saf.kickCount + 1))) ∧
    (∀ service closed (flow inlet hot v : Int) pass,
      (s.m.mod.mstate = 7 → (service = true ∨ s.m.saf.latch = false) → closed = true → 10 ≤ flow → inlet ≤ 40 → hot < 90 → 60 ≤ v → v ≤ 80 →
        (s.m.saf.cause.getLsbD 7 = true → pass = true) → exec (.safRelease service closed flow inlet hot v pass) s =
          Acts s (s.m.kickLeave.updSaf fun x => { x with barrier := 0 }) pSafRelease esOK) ∧
      ((s.m.mod.mstate ≠ 7 ∨ (service = false ∧ s.m.saf.latch = true) ∨ closed = false ∨ flow < 10 ∨ 40 < inlet ∨ 90 ≤ hot ∨ v < 60 ∨ 80 < v ∨
        (s.m.saf.cause.getLsbD 7 = true ∧ pass = false)) → exec (.safRelease service closed flow inlet hot v pass) s = Acts s s.m pSafRelease esSTATE)) ∧
    ((s.m.saf.entered = 4 ∨ s.m.saf.entered = 5) → s.m.kickLeave.mod.mstate = 3 ∧ s.m.kickLeave.mod.warm = true ∧ s.m.kickLeave.saf.cause = 0 ∧
      s.m.kickLeave.mem.em = s.m.mem.em ∧ s.m.kickLeave.parts = s.m.parts ∧ s.m.kickLeave.seq = s.m.seq) ∧
    (s.m.saf.entered = 1 → s.m.kickLeave.mod.mstate = 1 ∧ s.m.kickLeave.saf.cause = 0) ∧
    ((s.m.saf.entered = 2 ∨ s.m.saf.entered = 6) → s.m.kickLeave.mod.mstate = 2 ∧ s.m.kickLeave.saf.cause = 0)

/-- Power, clocks and thermal control (20 R557-R568, 09 R294, R295): input converters, the reference, divisions of CLK_A and the pair rule, the
cap, the fast clamp, the thermal and the voltage loop, droop, coolant. -/
def Obligations.PowerAndClocks : Prop :=
  ∀ (s : State),
    (∀ c : Fin 5, s.m.mod.mstate ≠ 0 → s.m.pwr.convOk.getLsbD c.val = true →
      let n := s.m.updPwr fun p => { p with convOk := p.convOk &&& ~~~(BitVec.ofNat 5 (2 ^ c.val)) }
      (s.m.pwr.convOk = 0x1F → exec (.busConverterFail c) s = Becomes s (n.raise evPwrConvFail 0 noPart c.val)) ∧
      (s.m.pwr.convOk ≠ 0x1F → exec (.busConverterFail c) s = Becomes s (n.kick 6))) ∧
    (s.m.mod.mstate ≠ 0 → s.m.pwr.refOsc = false → exec .refclkLoss s =
      Becomes s (((s.m.updPwr fun p => { p with refOsc := true }).count kPwrRefSwitch 0).raise evPwrRefLost 0 noPart 0)) ∧
    (s.m.serving = true →
      (s.m.pwr.refOsc = true → exec (.pwrRefSelect 0 true) s =
        Acts s ((s.m.updPwr fun p => { p with refOsc := false }).count kPwrRefSwitch 0) pPwrRefSelect esOK) ∧
      exec (.pwrRefSelect 0 false) s = Acts s s.m pPwrRefSelect esSTATE ∧
      (∀ b, s.m.pwr.refOsc = false → exec (.pwrRefSelect 1 b) s =
        Acts s ((s.m.updPwr fun p => { p with refOsc := true }).count kPwrRefSwitch 0) pPwrRefSelect esOK) ∧
      (∀ n b, 2 ≤ n → exec (.pwrRefSelect n b) s = Acts s s.m pPwrRefSelect esRANGE)) ∧
    (s.m.powered = true →
      (∀ d : Fin 12, (d.val < 8 → exec (.pllLockLoss d) s = Becomes s ((s.m.halfFail s.fuse.order.val (2 * d.val)).halfFail s.fuse.order.val (2 * d.val + 1))) ∧
        (8 ≤ d.val → s.m.iodState (d.val - 8) ≠ 1 → exec (.pllLockLoss d) s = Becomes s (s.m.iodFail s.fuse.order.val (d.val - 8)))) ∧
      (∀ (h : SliceId) d, (s.m.half h.val).reqDiv = some d → let o := h.val ^^^ 1
        let e := (s.m.half o).div
        let both := (s.m.setDiv h.val (max d e)).setDiv o (max d e)
        (pairOk d e = true → exec (.clkADivChange h) s = Becomes s (s.m.setDiv h.val d)) ∧
        (∀ f, pairOk d e = false → (s.m.half o).reqDiv = some f → pairOk d f = true →
          exec (.clkADivChange h) s = Becomes s ((s.m.setDiv h.val d).setDiv o f)) ∧
        (∀ f, pairOk d e = false → (s.m.half o).reqDiv = some f → pairOk d f = false → exec (.clkADivChange h) s = Becomes s both) ∧
        (pairOk d e = false → (s.m.half o).reqDiv = none → exec (.clkADivChange h) s = Becomes s both)) ∧
      (∀ w, s.m.clampW < w → Completes (exec (.fastClamp w) s) fun t => ∀ h, h < 16 → (t.m.half h).div = 8 ∧ (t.m.half h).capDiv = 8) ∧
      (∀ w, w ≤ s.m.clampW → exec (.fastClamp w) s = Becomes s s.m) ∧
      (∀ w : Nat, let cap := s.m.effCap s.fuse.order.val
        let above := decide (cap < 12000 * (w : Int))
        let low := decide (12000 * (w : Int) ≤ cap - 12000 * s.m.par pPwrHyst)
        let n := s.m.updPwr fun p => { p with
          inputW := w, runs := trimRuns secondSamples (pushRun above p.runs), samples := p.samples + 1,
          lowRun := if low then p.lowRun + 1 else 0 }
        (4500 ≤ n.pwr.excess → above = true → since n.pwr.samples n.pwr.lastSlow 10 = true → exec (.powerCapSample w) s = Becomes s n.capSlow) ∧
        (n.pwr.excess < 2500 → 1000 ≤ n.pwr.lowRun → since n.pwr.samples n.pwr.lastFast 10 = true → exec (.powerCapSample w) s = Becomes s n.capRestore) ∧
        (n.pwr.excess < 2500 → n.pwr.lowRun < 1000 → exec (.powerCapSample w) s = Becomes s n) ∧
        (2500 ≤ n.pwr.excess → (n.pwr.excess < 4500 ∨ above = false ∨ since n.pwr.samples n.pwr.lastSlow 10 = false) →
          exec (.powerCapSample w) s = Becomes s n) ∧
        (n.pwr.excess < 2500 → since n.pwr.samples n.pwr.lastFast 10 = false → exec (.powerCapSample w) s = Becomes s n)) ∧
      (∀ (h : SliceId) (c : Int), let n := s.m.updHalf h.val fun x => { x with tj := c, thermAge := x.thermAge + 1 }
        let x := n.half h.val
        (s.m.par pPwrTjTarget < c → 10 ≤ x.thermAge → x.thermDiv ≠ 8 → exec (.thermalLoopSample h c) s =
          Becomes s ((n.updHalf h.val fun x => { x with thermDiv := slower x.thermDiv, thermAge := 0 }).askDivs)) ∧
        (c < s.m.par pPwrTjTarget - 5 → 100 ≤ x.thermAge → x.thermDiv ≠ 4 → exec (.thermalLoopSample h c) s =
          Becomes s ((n.updHalf h.val fun x => { x with thermDiv := faster x.thermDiv, thermAge := 0 }).askDivs)) ∧
        (s.m.par pPwrTjTarget - 5 ≤ c → c ≤ s.m.par pPwrTjTarget → exec (.thermalLoopSample h c) s = Becomes s n)) ∧
      (∀ (h : SliceId) (g : Fin 3), let x := s.m.half h.val
        let v := if g = 0 then x.vdd + 1 else if g = 1 then x.vdd else x.vdd - 1
        exec (.voltageLoopStep h g false) s = Becomes s (s.m.updHalf h.val fun x => { x with
          vdd := min (min 140 (Config.vddFuse h.val x.div 1)) (max (min 140 (Config.vddFuse h.val x.div 0)) v) }) ∧
        (g = 0 → x.holdDiv ≠ slower x.div → exec (.voltageLoopStep h g true) s = Becomes s ((((s.m.updHalf h.val fun x => { x with
          vdd := min (min 140 (Config.vddFuse h.val x.div 1)) (max (min 140 (Config.vddFuse h.val x.div 0)) v) }).updHalf h.val fun x => { x with
          holdDiv := max x.holdDiv (slower (s.m.half h.val).div) }).askDivs).raise evPwrVmaxHold 0 noPart h.val))) ∧
      (∀ t : TileId, (s.m.tile t.val).droop = false → let h := halfOfTile t.val
        exec (.droopThrottle t) s = Becomes s (((s.m.updTile t.val fun x => { x with droop := true }).updHalf h fun x => { x with
          droop := true }).count kPwrDroop h))) ∧
    (∀ t : TileId, exec (.droopEnd t) s = Becomes s (s.m.updTile t.val fun x => { x with droop := false })) ∧
    (∀ d : DieId, (s.m.die d.val).seamPaused = true → let a := (s.m.half (2 * d.val)).div
      let b := (s.m.half (2 * d.val + 1)).div
      let r := (s.m.die d.val).seamRatio
      let n := s.m.updDie d.val fun x => { x with seamPaused := false, seamRatio := (a, b) }
      (a * r.2 = b * r.1 → exec (.seamPauseEnd d) s = Becomes s n) ∧
      (a * r.2 ≠ b * r.1 → exec (.seamPauseEnd d) s = Becomes s (n.count kCchSeamRatioChg d.val))) ∧
    (∀ f i : Nat, s.m.mod.mstate ≠ 0 → let d := decide (40000 < i ∨ f < 12000)
      let n := s.m.updPwr fun p => { p with flowMilli := f, inletMilli := i, derate := d }
      (d = s.m.pwr.derate → exec (.coolantSample f i) s = Becomes s n) ∧
      (d ≠ s.m.pwr.derate → exec (.coolantSample f i) s = Becomes s (n.raise evPwrDerate 0 noPart (n.effCap s.fuse.order.val / 12000).toNat))) ∧
    (s.m.pwr.inletMilli ≤ 40000 → 12000 ≤ s.m.pwr.flowMilli → s.m.effCap s.fuse.order.val = 12000 * s.m.kod.params.getD pPwrCap (tdp s.fuse.order.val)) ∧
    (s.m.pwr.flowMilli < 12000 → s.m.effCap s.fuse.order.val ≤ tdp s.fuse.order.val * s.m.pwr.flowMilli) ∧
    (∀ a b, pairOk a b = true ↔ (a = b ∨ a = 4 ∨ b = 4))

/-! The dictionary (21). -/

/-- Frames of the dictionary protocol (21 R570-R572, R578-R581, R585-R587): a frame that its transport serves reaches the serving block, one that is
not served, or that a busy mailbox ignores, changes nothing; the block refuses with BUSY, STATE, VERSION, MALFORMED or SESSION, drops a
frame whose tag fails, and answers every other with what the request gave. -/
def Obligations.KdpFrames : Prop :=
  (∀ (s : State) (t : Transport) (f : KFrame) (env : List ActEnv) (sig : Bool) (i : Instr),
    ((i, env, sig) ∈ [(Instr.kdpDiscover t f, [], false), (.kdpRead t f, [], false), (.kdpWrite t f env, env, false), (.kdpDescribe t f, [], false),
      (.kdpLoginChallenge t f, [], false), (.kdpLoginResponse t f sig, [], sig), (.kdpLogout t f, [], false), (.kdpSubscribe t f, [], false),
      (.kdpFetchEvents t f, [], false)] ∧ i.wellFormed = true) ∨
    (∃ fn, i = .mbxGo fn f env ∧ t = (if fn = 0 then .pf0 else .vf fn) ∧ sig = (env.headD {}).signatureOk) →
    (s.m.kdpServed t = true → (∀ p, mailboxOf t = some p → (s.m.fn p.val).mbxBusy = false) → exec i s = .next ((s.reached t).serve t f env sig)) ∧
    (s.m.kdpServed t = false → exec i s = .next s) ∧
    (∀ p, mailboxOf t = some p → (s.m.fn p.val).mbxBusy = true → exec i s = .next s)) ∧
  (∀ (s : State) (t : Transport) (f : KFrame) (env : List ActEnv) (sig : Bool), let sid := f.session.toNat
    let no (st : Fin 6) (tagged : Bool) (n : Mod) : State := { s with m := n.reply ⟨t, f.op ||| 0x80, st, sid, f.seq.toNat, tagged, []⟩ }
    let inactive := ∃ k, t = .vf k ∧ (s.m.part k.val).st ≠ .active
    (32 ≤ s.m.kod.held.length → s.serve t f env sig = no 4 false s.m) ∧
    (s.m.kod.held.length < 32 →
      (inactive → s.serve t f env sig = no 5 false s.m) ∧
      (¬ inactive → f.ver ≠ 1 → s.serve t f env sig = no 2 false s.m) ∧
      (¬ inactive → f.ver = 1 →
        (s.m.sess t sid = none → malformed f = true → s.serve t f env sig = no 1 false s.m) ∧
        (s.m.sess t sid = none → malformed f = false → s.serve t f env sig = no 3 false s.m) ∧
        (∀ x, s.m.sess t sid = some x → x.role = startRole t → malformed f = true → s.serve t f env sig = no 1 false s.m) ∧
        (∀ x, s.m.sess t sid = some x → x.role ≠ startRole t →
          (f.tagged = false ∨ f.tagOk = false ∨ ∃ n, x.lastSeq = some n ∧ f.seq.toNat ≤ n) →
          (s.serve t f env sig).m.kod.held = s.m.kod.held ∧ (s.serve t f env sig).m.kod.sent = s.m.kod.sent ∧
          ((s.serve t f env sig).m.kod.badTag, (s.serve t f env sig).m.kod.badTagOvf) = stick32 s.m.kod.badTag s.m.kod.badTagOvf))) ∧
    (∀ x, s.Accepts t f x → let a := (s.noted t f x).request t f (x.noted t f) env sig
      s.serve t f env sig = { a.2 with m := a.2.m.reply ⟨t, f.op ||| 0x80, Fin.ofNat 6 a.1.1, a.1.2.1, f.seq.toNat, x.role != startRole t, a.1.2.2⟩ }))

/-- Requests of the dictionary protocol (21 R573-R575, R577, R579-R584, R588, R594): reads and writes of one number with ESTAT in the order of R573,
values that take effect, actions, DISCOVER, DESCRIBE, login and logout, events. -/
def Obligations.KdpRequests : Prop :=
  ∀ (s : State) (t : Transport) (x : Session),
    (∀ n r, paramRow n = some r → let zero := entry n r.type esOK ((zeroVal r.type).bytes r.type)
      (reaches x r (n - r.num) false = false → s.readOne x n = (zero, { s with m := s.m.kodViolate x })) ∧
      (reaches x r (n - r.num) false = true →
        (s.m.readable r = false → s.readOne x n = (entry n 0 esSTATE [], s)) ∧
        (s.m.readable r = true →
          ((r.access = 3 ∨ r.access = 4) → s.readOne x n = (zero, s)) ∧
          ((r.access = 1 ∨ r.access = 2) → isBytes r.type = false → r.num ≠ pOdoInst → r.num ≠ pDbgCtxSel → r.num ≠ pEvtName →
            (∀ v, Tab.find n s.m.kod.params = some v → s.readOne x n = (entry n r.type esOK (numBytes r.type v), s)) ∧
            (Tab.find n s.m.kod.params = none →
              s.readOne x n = (entry n r.type esOK ((defaultOf s.fuse.order.val n).bytes r.type), s)))))) ∧
    (∀ n, paramRow n = none → ctrDef n = none → s.readOne x n = (entry n 0 esNOPARAM [], s)) ∧
    (∀ n rest, s.readAll x (n :: rest) = ((s.readOne x n).1 :: ((s.readOne x n).2.readAll x rest).1, ((s.readOne x n).2.readAll x rest).2)) ∧
    (∀ (sid : Nat) (e : KEntry) (env : ActEnv), let n := e.number.toNat
      (paramRow n = none → ctrDef n = none → s.writeOne t sid x e env = (esNOPARAM, s)) ∧
      (∀ r, paramRow n = some r → let i := n - r.num
        (reaches x r i true = false → s.m.firstKey x n = false → s.writeOne t sid x e env = (esOK, { s with m := s.m.kodViolate x })) ∧
        (reaches x r i true = true →
          (r.access = 0 → s.writeOne t sid x e env = (esACCESS, s)) ∧
          (r.access ≠ 0 → r.value e = none → s.writeOne t sid x e env = (esTYPE, s)) ∧
          (∀ v, r.access ≠ 0 → r.value e = some v → r.inRange s.fuse.order.val i v = false → s.writeOne t sid x e env = (esRANGE, s)) ∧
          (∀ v, r.value e = some v → r.inRange s.fuse.order.val i v = true →
            ((r.access = 1 ∨ r.access = 2) → (s.m.writable = false ∨ s.m.ruleAllows r n i v = false) → s.writeOne t sid x e env = (esSTATE, s)) ∧
            (r.access = 1 → s.m.writable = true → s.m.ruleAllows r n i v = true → s.writeOne t sid x e env = s.setParam t sid r n i v) ∧
            (r.access = 2 → s.m.writable = true → s.m.ruleAllows r n i v = true → let y := s.setParam t sid r n i v
              (y.1 = esOK → s.writeOne t sid x e env =
                (esOK, { y.2 with m := y.2.m.updKod fun k => { k with dirty := true, lastRws := some s.m.ticks } })) ∧
              (y.1 ≠ esOK → s.writeOne t sid x e env = y)) ∧
            (r.access = 4 → s.m.actAllowed r.num = false → s.writeOne t sid x e env = (s.actRefused x r n i v env esSTATE, s)) ∧
            (r.access = 4 → s.m.actAllowed r.num = true → s.m.kod.actions.has n = true →
              s.writeOne t sid x e env = (s.actRefused x r n i v env esBUSY, s)) ∧
            (r.access = 4 → s.m.actAllowed r.num = true → s.m.kod.actions.has n = false → s.writeOne t sid x e env = s.act x r n i v env)))) ∧
      (∀ rest envs, (s.writeAll t sid x (e :: rest) (env :: envs)).1.head? =
        some (entry n e.type.val (s.writeOne t sid { (s.m.sess t sid).getD x with role := x.role } e env).1 []))) ∧
    (∀ sid r n i (v : Int), r.num ∉ [pFabPortMode, pOdoInst, pDbgCtxSel, pMigLogOn, pWpBase, pWpSlotMib, pPwrDivLimit, pCchNcMode + 1024, pCsuQuietChecks, pFtDirtymapBase] →
      isBytes r.type = false → s.setParam t sid r n i (.num v) = (esOK, { s with m := s.m.setPar n v })) ∧
    (∀ (f : KFrame) env sig, let sid := f.session.toNat
      (f.op = 0 → s.request t f x env sig = (let a := s.readAll x [0x010001, 0x010002, 0x010003, 0x010004, 0x010005, 0x010006]
        ((0, sid, a.1), a.2))) ∧
      (f.op = 1 → s.request t f x env sig = (let a := s.readAll x (f.body.map fun e => e.number.toNat); ((0, sid, a.1), a.2))) ∧
      (f.op = 2 → s.request t f x env sig = (let a := s.writeAll t sid x f.body env; ((0, sid, a.1), a.2))) ∧
      (f.op = 3 → s.request t f x env sig = ((0, sid, f.body.map fun e => describe s.fuse.order.val e.number.toNat), s)) ∧
      (f.op = 4 → 32 ≤ s.m.kod.sessions.length → s.request t f x env sig = ((4, sid, []), s)) ∧
      (f.op = 4 → s.m.kod.sessions.length < 32 → ∀ role, challengeRole f.body = some role → let r := s.request t f x env sig
        r.1.1 = 0 ∧ r.1.2.1 ≠ 0 ∧ r.1.2.2.length = 3 ∧ s.m.kod.sessions.has r.1.2.1 = false ∧
        ∃ y, Tab.find r.1.2.1 r.2.m.kod.sessions = some y ∧ y.transport = t ∧ y.role = startRole t ∧ y.challenge = some (Fin.ofNat 5 role)) ∧
      (f.op = 5 → x.challenge = none → s.request t f x env sig = ((3, sid, []), s)) ∧
      (f.op = 5 → ∀ role, x.challenge = some role → s.m.lockedOut t = true →
        s.request t f x env sig = ((0, sid, [entry 0 2 esOK [BitVec.ofNat 8 x.role.val]]), { s with m := s.m.setSess t sid { x with challenge := none } })) ∧
      (f.op = 5 → ∀ role, x.challenge = some role → s.m.lockedOut t = false → sig = false → s.request t f x env sig =
        ((0, sid, [entry 0 2 esOK [BitVec.ofNat 8 x.role.val]]), { s with m := (s.m.setSess t sid { x with challenge := none }).loginFailed t })) ∧
      (f.op = 5 → ∀ role k b key (sg : List Byte), x.challenge = some role → s.m.lockedOut t = false → sig = true → loginReaches t role.val = true →
        f.body = [⟨k, 2, b, [key]⟩, ⟨k + 1, 11, b, sg⟩] → sg.length = 64 → s.m.loginKey role.val key.toNat = true → sid ≠ 0 →
        s.request t f x env sig = ((0, sid, [entry 0 2 esOK [BitVec.ofNat 8 role.val]]),
          { s with m := (s.m.setSess t sid { x with challenge := none }).setSess t sid { x with
            challenge := none, role := role, lastSeq := some f.seq.toNat } })) ∧
      (f.op = 6 → sid ≠ 0 → s.request t f x env sig = ((0, sid, []), { s with m := s.m.updKod fun k => { k with sessions := k.sessions.del sid } })) ∧
      (f.op = 7 → sid ≠ 0 → ∀ e, f.body = [e] → s.request t f x env sig = ((0, sid, []), { s with m := s.m.setSess t sid { x with
        mask := BitVec.ofNat 16 (leNat e.value), evNext := s.m.kod.evseq + 1 } })) ∧
      ((f.op = 6 ∨ f.op = 7) → sid = 0 → s.request t f x env sig = ((3, 0, []), s)) ∧
      (f.op = 8 → ∀ e, f.body = [e] → s.request t f x env sig =
        ((0, sid, eventEntries ((s.m.kod.events.filter fun v => decide (leNat e.value ≤ v.seq) && x.sees v).take 32)), s)))

/-- Actions that end, events, sessions and the saved configuration (21 R570, R577, R581, R588-R592, 22 R600): an action's end answers the request that waits
for it, or raises KOD_ACT_DONE; EVENT frames; idle sessions and lockouts; fail-over; a save takes the copy that is not the newest, with
SEQ one more. -/
def Obligations.DictionaryUpkeep : Prop :=
  ∀ (s : State),
    (∀ n : BitVec 24, exec (.actionRunningTimeout n) s =
      Becomes s (s.m.updKod fun k => { k with actions := k.actions.adj n.toNat fun a => { a with answered := true } }).release) ∧
    (∀ (n : BitVec 24) (e : Fin 8) a, Tab.find n.toNat s.m.kod.actions = some a → a.final = some e.val →
      (a.answered = false → exec (.actionDone n e) s = Becomes s (s.m.updKod fun k => { k with
        actions := k.actions.del n.toNat, held := k.held.map fun r => { r with entries := r.entries.map fun x =>
          if x.number == n && x.estat == 7 then { x with estat := Fin.ofNat 16 e.val } else x } }).release) ∧
      (a.answered = true → exec (.actionDone n e) s = Becomes s ((s.m.updKod fun k => { k with actions := k.actions.del n.toNat }).raise
        evKodActDone s.m.kod.server.val noPart (n.toNat + e.val * 2 ^ 24)).release)) ∧
    (∀ (id : BitVec 32) x last, Tab.find id.toNat s.m.kod.sessions = some x → mailboxOf x.transport = none →
      let ev := (s.m.kod.events.filter fun e => decide (x.evNext ≤ e.seq) && x.mask.getLsbD (e.code.toNat / 2 ^ 24) && x.sees e).take 32
      ev.getLast? = some last → Completes (exec (.eventFrameSend id) s) fun t => ∃ q,
        t.m.kod.sent = ⟨x.transport, 0x10, 0, id.toNat, q, x.role != startRole x.transport, eventEntries ev⟩ :: s.m.kod.sent ∧
        (id.toNat ≠ 0 → Tab.find id.toNat t.m.kod.sessions = some { x with evNext := last.seq + 1 })) ∧
    (∀ id : BitVec 32, exec (.sessionIdleTimeout id) s = Becomes s (s.m.updKod fun k => { k with sessions := k.sessions.del id.toNat })) ∧
    (∀ t, exec (.loginLockoutExpiry t) s = Becomes s (s.m.updKod fun k => { k with locked := k.locked.filter fun e => e.1 != t })) ∧
    (∀ j, j < 4 → s.m.iodState s.m.kod.server.val = 1 → s.m.iodState j ≠ 1 → (∀ k < j, s.m.iodState k = 1) →
      exec .kdpServerFailover s = Becomes s (s.m.endSessions.updKod fun x => { x with server := Fin.ofNat 4 j })) ∧
    (s.m.iodState s.m.kod.server.val ≠ 1 → exec .kdpServerFailover s = Becomes s s.m) ∧
    ((s.m.serving = true ∨ s.m.mod.mstate = 7) →
      exec .kodSave s = Acts s (s.m.updKod fun k => k.save s.fuse.order.val s.m.fwVersion true) pKodSave esRUNNING) ∧
    (s.m.kod.dirty = true → s.m.kod.lastRws ≠ none → s.m.parN pKodSaveDelay ≠ 0 → exec .saveDelayExpiry s =
      Becomes s (s.m.updKod fun k => ({ k with lastRws := none } : Kod).save s.fuse.order.val s.m.fwVersion false)) ∧
    (∀ (k : Kod) order fw act a b, k.saving = none → k.cfgA = some a → k.cfgB = some b → let n := k.save order fw act
      (b.seq ≤ a.seq → n.cfgA = some a ∧ n.cfgB = none ∧ n.saving = some (true, { seq := a.seq + 1, fwver := fw, entries := k.savedEntries order })) ∧
      (a.seq < b.seq → n.cfgB = some b ∧ n.cfgA = none ∧ n.saving = some (false, { seq := b.seq + 1, fwver := fw, entries := k.savedEntries order }))) ∧
    (∀ toB c, s.m.kod.saving = some (toB, c) → s.m.kod.saveAgain = false → let n := s.m.updKod fun k => { k with
        cfgA := if toB then k.cfgA else some c, cfgB := if toB then some c else k.cfgB,
        saving := none, saveAct := false, cfgSeq := c.seq, cfgSlot := if toB then 1 else 0, defaulted := false }
      exec .configSaveDone s = (if s.m.kod.saveAct then Acts s n pKodSave esOK else Becomes s n)) ∧
    (s.m.mod.mstate ≠ 0 → s.m.mod.mstate ≠ 6 → s.m.mod.mstate ≠ 7 →
      exec .kodFactory s = Acts s (s.m.updKod fun k => { k with cfgA := none, cfgB := none }) pKodFactory esOK) ∧
    ((s.m.mod.mstate = 0 ∨ s.m.mod.mstate = 6 ∨ s.m.mod.mstate = 7) → exec .kodFactory s = Acts s s.m pKodFactory esSTATE)

/-! Security and firmware (22). -/

/-- Firmware and security (22 R602-R613): images that are valid and sets that are tested, staging, committing, activation, live update step by step,
SVN fuses, attestation answers (the message codes and layouts are log 150's), debug unlock. -/
def Obligations.FirmwareAndSecurity : Prop :=
  (∀ (f : Fuse) t (i : Image), imageValid f t i = true ↔ (i.magicOk = true ∧ i.type = t ∧ i.reservedZero = true ∧ i.blen ≤ bodyMax t ∧ i.keyidx < 4 ∧
    f.revoked.testBit i.keyidx = false ∧ leNat (sha256 i.signer) = f.keyHash.getD i.keyidx 0 ∧ i.sigOk = true ∧ f.svnMin.getD t 0 ≤ i.svn)) ∧
  (∀ (c : SecS) (f : Fuse) idx, c.tested f idx = true ↔ ∃ is, c.setOf f idx = some is ∧ ∀ i ∈ is, i.stepMin ≤ f.stepping.toNat ∧ f.stepping.toNat ≤ i.stepMax ∧
    ∀ j ∈ is, i.type ≠ j.type → lists i j = true) ∧
  (∀ (s : State), let c := s.m.sec
    (s.m.fwOpen = true →
      (∀ (h d : List Byte) t off image k, h.length = 8 → d.length ≤ 1016 → 1 ≤ t → t ≤ 4 → off < 2 ^ 32 → leNat h = t + off * 2 ^ 32 →
        off + d.length ≤ 256 + bodyMax t →
        (s.m.freeSlotFw t = some k → exec (.fwWrite (h ++ d) image) s = Acts s (s.m.updSec fun c => { c with
          slots := c.slots.put k { bytes := Mem.wrs off d (if off = 0 then [] else (c.slots.getD k {}).bytes), image := image },
          staging := c.staging.put k () }) pFwWrite esOK) ∧
        (s.m.freeSlotFw t = none → exec (.fwWrite (h ++ d) image) s = Acts s s.m pFwWrite esSTATE)) ∧
      (∀ (t : BitVec 8) k, 1 ≤ t.toNat → t.toNat ≤ 4 → s.m.freeSlotFw t.toNat = some k → let n := s.m.updSec fun c => { c with staging := c.staging.del k }
        (c.image s.fuse k ≠ none → exec (.fwCommit t) s = Acts s (n.updSec fun c => { c with pending := setIdx c.pending k }) pFwCommit esOK) ∧
        (c.image s.fuse k = none → exec (.fwCommit t) s = Acts s n pFwCommit esSTATE)) ∧
      ((s.m.serving = false ∨ c.tested s.fuse c.pending = true) →
        exec .fwActivate s = Acts s (s.m.updSec fun c => { c with unlockFlag := false }).restart pFwActivate esOK) ∧
      (s.m.serving = true → c.tested s.fuse c.pending = false → exec .fwActivate s = Acts s s.m pFwActivate esSTATE)) ∧
    (s.m.serving = true →
      (∀ i j, c.live = none → c.pending ^^^ c.running = 1 → c.tested s.fuse c.pending = true → c.image s.fuse (idxSlot c.running 1) = some i →
        c.image s.fuse (idxSlot c.pending 1) = some j → lists i j = true → lists j i = true → (∀ k, k < 4 → s.m.iodState k = 0) →
        exec .fwLiveIod s = Acts s (s.m.liveBegin 3) pFwLiveIod esRUNNING) ∧
      ((c.live ≠ none ∨ c.pending ^^^ c.running ≠ 1 ∨ c.tested s.fuse c.pending = false ∨ ∃ k, k < 4 ∧ s.m.iodState k ≠ 0) →
        exec .fwLiveIod s = Acts s s.m pFwLiveIod esSTATE)) ∧
    (∀ k n ok, c.live = some (k, n) →
      (n = 1 → exec (.liveUpdateStepDone ok) s = Becomes s (s.m.updSec fun c => { c with live := some (k, 2) })) ∧
      (n = 2 → exec (.liveUpdateStepDone ok) s = Becomes s (((s.m.updFt fun f => { f with takeover := f.takeover.del k.val }).updSeq fun x => { x with
        freed := x.freed.adj k.val fun l => sortBy id l }).updSec fun c => { c with live := some (k, 3) })) ∧
      (n = 3 → let m := if k = s.m.kod.server then s.m.endSessions else s.m
        exec (.liveUpdateStepDone true) s = Becomes s (m.updSec fun c => { c with live := some (k, 4), updated := c.updated.insert k }) ∧
        exec (.liveUpdateStepDone false) s = Becomes s (m.liveAbandon.raise evFwUpdateFail k.val noPart k.val)) ∧
      (4 ≤ n → let m := s.m.updFt fun f => { f with iodState := f.iodState.del k.val }
        (k ≠ 0 → exec (.liveUpdateStepDone ok) s = Becomes s (m.liveBegin (k - 1))) ∧
        (k = 0 → exec (.liveUpdateStepDone ok) s = Acts s (m.updSec fun c => { c with
          live := none, updated := [], running := c.running ^^^ 1, lkg := c.running ^^^ 1, liveCount := c.liveCount + 1 }) pFwLiveIod esOK))) ∧
    (∀ t : BitVec 8, Completes (exec (.fwSvnCommit t) s) fun u => u.m = s.m.acted pFwSvnCommit (s.svnCommit t.toNat).1 ∧
      (1 ≤ t.toNat → t.toNat ≤ 4 → s.m.serving = true → idxSlot c.running t.toNat = idxSlot c.lkg t.toNat →
        ∀ i, (c.slots.getD (idxSlot c.running t.toNat) {}).image = some i → i.svn ≤ 64 → u.m.kod.lastAct = some (pFwSvnCommit, esOK) ∧
          u.fuse.svnMin.getD t.toNat 0 = max (s.fuse.svnMin.getD t.toNat 0) i.svn ∧ ∀ q, q ≠ t.toNat → u.fuse.svnMin.getD q 0 = s.fuse.svnMin.getD q 0) ∧
      (idxSlot c.running t.toNat ≠ idxSlot c.lkg t.toNat → u.fuse = s.fuse)) ∧
    (∀ (id : BitVec 32) req x, (s.m.serving = true ∨ s.m.mod.mstate = 7) → req.length ≤ 1024 → Tab.find id.toNat s.m.kod.sessions = some x →
      Completes (exec (.spdmReq id req) s) fun t => let r := s.spdmAnswer x.spdmAt req
        Tab.find id.toNat t.m.kod.sessions = some { x with spdm := r.1, spdmAt := r.2.1 } ∧ t.m.free = r.2.2.free) ∧
    (∀ req, s.m.host.portState ≠ 2 → (s.m.mod.mstate = 3 ∨ s.m.fwOpen = true) → Completes (exec (.doeRequest req) s) fun t =>
      let r := s.spdmAnswer c.doeAt req
      t.m.sec.doe = r.1 ∧ t.m.sec.doeAt = r.2.1 ∧ t.m.free = r.2.2.free) ∧
    (∀ (x : Spdm) (q : List Byte) code, 4 ≤ q.length → leField q 0 1 = 0x12 → leField q 1 1 = code → code ≠ 0x85 → code ≠ 0x86 →
      s.spdmAnswer x q = spdmFit (s.spdmPlain { x with out := [], outSeq := 0 } q) ∧
      (code = 0x84 → s.spdmAnswer x q = (spdmVersion, { stage := 1 }, s.m)) ∧
      (spdmSupported.contains code = false → (s.spdmAnswer x q).1 = spdmError 7 code) ∧
      (spdmSupported.contains code = true → code ≠ 0x84 → x.stage.val ≠ spdmNeeds code → (s.spdmAnswer x q).1 = spdmError 4 0) ∧
      (code = 0x82 → x.stage = 3 → leField q 2 1 % 16 ≠ 0 → (s.spdmAnswer x q).1 = spdmError 1 0) ∧
      (code = 0xE0 → x.stage = 3 → leField q 2 1 % 2 = 0 → 1 ≤ leField q 3 1 → leField q 3 1 ≤ 10 → ∃ nonce : List Byte, nonce.length = 32 ∧
        (s.spdmPlain x q).1 = spdmHead 0x60 0 0 ++ [1] ++ leBytes (s.measureBlock (leField q 3 1)).length 3 ++ s.measureBlock (leField q 3 1) ++ nonce ++ [0, 0])) ∧
    (∀ t i, 2 ≤ t → t ≤ 4 → (c.slots.getD (idxSlot c.running t) {}).image = some i → s.measured (t + 1) = leBytes i.digest 32) ∧
    (∀ k i, (c.slots.getD (c.runs k) {}).image = some i → ((s.measured 2).drop (32 * k.val)).take 32 = leBytes i.digest 32) ∧
    (s.m.serving = true →
      (c.nonce ≠ none → (∀ e ∈ s.m.parts.parts, e.1 ≠ 0 → e.2.st ≠ .active) → exec (.dbgUnlock true true) s =
        Acts s (((s.m.updSec fun c => { c with nonce := none }).updSec fun c => { c with unlockFlag := true }).endSessions).restart pDbgUnlock esOK) ∧
      (∀ sig t, (c.nonce = none ∨ sig = false ∨ t = false ∨ ∃ e ∈ s.m.parts.parts, e.1 ≠ 0 ∧ e.2.st = .active) →
        exec (.dbgUnlock sig t) s = Acts s (s.m.updSec fun c => { c with nonce := none }) pDbgUnlock esSTATE)))

/-! Counters and debug (23), audits (10). -/

/-- Counters, debug and audits (23 R615-R637, 10 R297-R305): the Odometer copy and ODO_CLEAR, triggers, halted contexts, Freewheel and its end, the stages of
the Brake, the trace ring, an audit sample: its count is the capacity of the instance less its stable terms as the state of the sampled cycle
has them (of a link the receiver's from its sideband report, R300), and one that is not the number of items in excused windows is a fault. -/
def Obligations.DebugAndCounters : Prop :=
  ∀ (s : State),
    (let copy (e : Nat × Ctr) : Nat × Ctr := if s.m.ctrLive (e.1 / 2 ^ 32) (e.1 % 2 ^ 32) then (e.1, { e.2 with stored := e.2.value }) else e
     exec .odoCopy s = Becomes s { s.m with ctr := s.m.ctr.map copy }) ∧
    (s.m.serving = true →
      (∀ (num inst : BitVec 32) d, ctrDefs.find? (fun d => d.num == num.toNat) = some d →
        (s.m.ctrExists d inst.toNat = true → exec (.odoClear num inst) s = Acts s (s.m.clearCtr num.toNat inst.toNat) pOdoClear esOK) ∧
        (inst = 0xFFFFFFFF → exec (.odoClear num inst) s =
          Acts s (forEach (s.m.ctrInsts d) (fun i m => m.clearCtr num.toNat i) s.m) pOdoClear esOK) ∧
        (s.m.ctrExists d inst.toNat = false → inst ≠ 0xFFFFFFFF → exec (.odoClear num inst) s = Acts s s.m pOdoClear esRANGE)) ∧
      (∀ (num inst : BitVec 32), ctrDefs.find? (fun d => d.num == num.toNat) = none → exec (.odoClear num inst) s = Acts s s.m pOdoClear esRANGE) ∧
      (∀ (blob : List Byte) op, blob.length = 24 → let r := leNat blob
        let t := bits r 9 0
        let k := bits r 17 16
        let i := bits r 25 24
        ((s.m.ctx t k).st = .empty ∨ (s.m.ctx t k).part.val ≠ bits r 38 32 → exec (.dbgTrigSet blob op) s = Acts s s.m pDbgTrigSet esOK) ∧
        ((s.m.ctx t k).st ≠ .empty → (s.m.ctx t k).part.val = bits r 38 32 → exec (.dbgTrigSet blob op) s = Acts s (s.m.updCtx t k fun c => { c with
          trig := c.trig.put i (trigWrite i (!op && s.m.unlocked) (c.trig.getD i {}).ctl (bits r 127 64) (bits r 191 128)) }) pDbgTrigSet esOK)) ∧
      (∀ (w : BitVec 32) uid k, w.toNat < 2 ^ 17 → Tab.find (bits w.toNat 15 0) s.m.dbg.halted = some uid →
        (s.m.updDbg fun d => { d with halted := d.halted.del (bits w.toNat 15 0) }).ctxOf uid = some k → exec (.dbgResume w) s =
          Acts s (((s.m.updDbg fun d => { d with halted := d.halted.del (bits w.toNat 15 0) }).updCtx (k / 4) (k % 4) fun c =>
            c.resumed (w.toNat.testBit 16)).pickCur (k / 4)) pDbgResume esOK) ∧
      (∀ w : BitVec 32, Tab.find (bits w.toNat 15 0) s.m.dbg.halted = none → exec (.dbgResume w) s = Acts s s.m pDbgResume esSTATE) ∧
      (∀ p : BitVec 8, (p.toNat < 128 ∨ p.toNat = 255) →
        (s.m.dbg.fwl.has p.toNat = false → exec (.dbgFreewheel p) s = Acts s ((s.m.count kDbgFreewheelCnt 0).updDbg fun d => { d with
          fwl := d.fwl.put p.toNat false, fwlState := 1 }) pDbgFreewheel esOK) ∧
        (s.m.dbg.fwl.has p.toNat = true → exec (.dbgFreewheel p) s = Acts s s.m pDbgFreewheel esOK) ∧
        exec (.dbgFreewheelEnd p) s = Acts s (s.m.updDbg fun d => ({ d with fwl := d.fwl.del p.toNat } : DbgS).refreshFwl) pDbgFreewheelEnd esOK) ∧
      (∀ p : BitVec 8, 128 ≤ p.toNat → p.toNat ≠ 255 → exec (.dbgFreewheel p) s = Acts s s.m pDbgFreewheel esRANGE ∧
        exec (.dbgFreewheelEnd p) s = Acts s s.m pDbgFreewheelEnd esRANGE) ∧
      (s.m.unlocked = true → s.m.dbg.brake = 0 → exec .dbgBrake s = Acts s (((s.m.count kDbgBrakeCnt 0).freewheel 255).updDbg fun d => { d with
        brake := 1, brakeUnit := unitOfIod s.m.kod.server.val, brakeRecs := [] }) pDbgBrake esOK) ∧
      ((s.m.unlocked = false ∨ s.m.dbg.brake ≠ 0) → exec .dbgBrake s = Acts s s.m pDbgBrake esSTATE) ∧
      (s.m.dbg.brake = 3 → exec .dbgBrakeRelease s = Acts s (s.m.updDbg fun d => { d with brake := 0 }) pDbgBrakeRelease esOK) ∧
      (s.m.dbg.brake ≠ 3 → exec .dbgBrakeRelease s = Acts s s.m pDbgBrakeRelease esSTATE)) ∧
    (∀ p : BitVec 8, Tab.find p.toNat s.m.dbg.fwl = some false → s.m.quiet p.toNat = true → exec (.freewheelDrained p) s =
      Becomes s ((s.m.updDbg fun d => ({ d with fwl := d.fwl.put p.toNat true } : DbgS).refreshFwl).raise evFreewheelDone 0
        (if p.toNat < 128 then p.toNat else noPart) p.toNat)) ∧
    (∀ p : BitVec 8, s.m.quiet p.toNat = false → exec (.freewheelDrained p) s = Becomes s s.m) ∧
    (s.m.dbg.brake = 1 → let u := s.m.dbg.brakeUnit
      exec .brakeCut s = Becomes s ((((s.m.updDbg fun d => { d with brake := 2 }).takeStop u).updDbg fun d => { d with
        brakeRecs := d.brakeRecs.adj u fun r => { r with undrained := s.m.dbg.fwl.getD 255 false == false } }).brakeCheck)) ∧
    (s.m.dbg.brake = 2 →
      (∀ u input v, ((brakeInputs u).find? (fun e => e.1 == input) = some (input, .unit v) ∨
          ∃ k, (brakeInputs u).find? (fun e => e.1 == input) = some (input, .link k v)) → s.m.unitIn u = true →
        (s.m.heldAt v = true → exec (.brakeMarker u input) s =
          Becomes s (((if s.m.heldAt u then s.m else s.m.takeStop u).markInput u input false).brakeCheck)) ∧
        (s.m.heldAt v = false → exec (.brakeMarker u input) s = Becomes s s.m)) ∧
      (∀ port : PortId, let u := unitOfIod (port.val / 8)
        s.m.heldAt u = true → (s.m.dbg.brakeRecs.getD u {}).marked.has (2 + port.val % 8) = false →
        exec (.brakeFabMarkerTimeout port) s = Becomes s ((s.m.markInput u (2 + port.val % 8) true).brakeCheck)) ∧
      (∀ u, s.m.heldAt u = true → (s.m.dbg.brakeRecs.getD u {}).stopped = false → exec (.brakeUnitTimeout u) s =
        Becomes s ((s.m.updDbg fun d => { d with brakeRecs := d.brakeRecs.adj u fun r => { r with stopped := true, incomplete := true } }).brakeCheck))) ∧
    (∀ src : Fin 20, s.m.serving = true →
      let n := (forEach (s.m.dbg.buf.getD src.val []) (fun r m => m.ringWrite r) s.m).updDbg fun d => { d with buf := d.buf.del src.val }
      let q := n.dbg.tseq.getD src.val 0
      let die := dieOfSource src.val
      let node := if src.val < 16 then unitOfSlice src.val else unitOfIod (src.val - 16)
      (n.dbg.lost.getD src.val 0 = 0 → exec (.traceSpaceReturn src) s = Becomes s n) ∧
      (∀ k, n.dbg.lost.getD src.val 0 = k → k ≠ 0 → Completes (exec (.traceSpaceReturn src) s) fun t =>
        t.m.dbg.buf.getD src.val [] = [⟨n.cc die, n.cycleC die, BitVec.ofNat 32 k, BitVec.ofNat 11 node, 9, 0x7F, q, 0⟩] ∧
        t.m.dbg.tseq.getD src.val 0 = q + 1 ∧ t.m.dbg.lost.getD src.val 0 = 0 ∧ t.m.dbg.wptr = n.dbg.wptr ∧ t.m.mem = n.mem)) ∧
    (∀ r : TraceRec, s.m.ringWrite r = (s.m.physWrite (s.m.parN pDbgTraceBase + 32 * (s.m.dbg.wptr % 2 ^ s.m.parN pDbgTraceLog2)) r.bytes 7).updDbg
      fun d => { d with wptr := d.wptr + 1 }) ∧
    (∀ l x, sampleOk l x = true → s.m.audited l = true → s.m.hasWindow l x = true → let n := s.m.sideband l
      let v := n.ledgerTerms l
      let w := v.window x
      let key := s.m.auditKey l
      let old := s.m.net.audits.getD key {}
      (v.count + x.leak = v.windows → (∀ b, s.m.windowBound l w (v.windows + x.excused) = some b → x.age ≤ b) → exec (.auditSample l x) s =
        Becomes s (n.updNet fun n => { n with audits := n.audits.put key {
          fault := old.fault, kind := old.kind, window := Fin.ofNat 8 w, inst := if old.fault then old.inst else s.m.ledgerInst l,
          age := min x.age 0x3FFFF, inflight := (v.count + x.excused + x.leak).toNat % 2 ^ 24 } })) ∧
      (v.count + x.leak ≠ v.windows → let r : AuditReg := {
          fault := true, kind := false, window := Fin.ofNat 8 w, inst := s.m.ledgerInst l, age := min x.age 0x3FFFF,
          inflight := (v.count + x.excused + x.leak).toNat % 2 ^ 24 }
        exec (.auditSample l x) s = Becomes s ((((n.updNet fun n => { n with audits := n.audits.put key r }).raise evLedgerFault (s.m.ledgerUnit l) noPart
          (auditWord r + ledgerCode l * 2 ^ 64 + s.m.ticks % 2 ^ 48 * 2 ^ 80)).count kOdoLedgerFault 0).ledgerAction l false))) ∧
    (∀ q n vc, let key := creditKey q n vc.val
      let m := s.m.sideband (.credit q n vc)
      Tab.find key m.net.reports = some (s.m.net.freed.getD key 0, s.m.ticks) ∧
      m.ledgerTerms (.credit q n vc) = ⟨creditCap n vc.val, [(creditCap n vc.val : Int) - (s.m.net.spent.getD key 0 : Nat),
        ((s.m.net.red.filter fun e => e.2.2.via == some key).length : Nat)], s.m.net.freed.getD key 0⟩) ∧
    (∀ h : SliceId, (s.m.ledgerTerms (.slots h)).count = 256 - (s.m.half h.val).slots -
      (s.m.copies.filter fun e => e.2.half == h && e.2.status.isNone).length) ∧
    (∀ l x, sampleOk l x = true → s.m.audited l = false → exec (.auditSample l x) s = Becomes s s.m)

/-! Start-up (24), registers (00, 14). -/

/-- Start-up and registers (24 R638-R647, 22 R596, R597, R604-R606, 00 R14): power on and off, start and stop, the candidates of SECURE_BOOT and RECOVERY_ONLY, the keys
that each die's boot ROM derives from its UDS before it locks the read, cold bring-up, READY; register writes and what ignores them. -/
def Obligations.StartUp : Prop :=
  ∀ (s : State),
    (∀ ref seg, s.m.mod.mstate = 0 → Completes (exec (.powerOn ref seg) s) fun t =>
      t.m.mod.mstate = 1 ∧ t.m.ticks = 0 ∧ t.m.pwr.refOsc = !ref ∧ (∀ i, i < 23 → (t.m.saf.segOpen.has i = seg.getLsbD i)) ∧ t.fuse = s.fuse) ∧
    (∀ ref seg, s.m.mod.mstate ≠ 0 → exec (.powerOn ref seg) s = Becomes s s.m) ∧
    (Completes (exec .powerOff s) fun t => t.m.mod.mstate = 0 ∧ t.m.ctr = [] ∧ t.m.kod.sessions = [] ∧ t.m.kod.cfgA = s.m.kod.cfgA ∧
      t.m.kod.cfgB = s.m.kod.cfgB ∧ t.m.mem.em = [] ∧ t.m.parts.parts = [] ∧ t.m.sec.unlockFlag = false ∧ t.m.sec.pending = s.m.sec.pending ∧
      t.m.sec.lkg = s.m.sec.lkg ∧ t.fuse = s.fuse) ∧
    (s.m.mod.mstate = 1 → s.m.saf.cause = 0 → exec (.modStart true) s = Acts s { s.m with mod := { s.m.mod with startReq := true } } pModStart esOK) ∧
    (∀ ok, (s.m.mod.mstate ≠ 1 ∨ ok = false ∨ s.m.saf.cause ≠ 0) → exec (.modStart ok) s = Acts s s.m pModStart esSTATE) ∧
    ((s.m.mod.mstate = 4 ∨ s.m.mod.mstate = 6) → Completes (exec .modStop s) fun t => t.m.mod.mstate = 1 ∧ t.m.ctr = s.m.ctr ∧
      t.m.mem.em = [] ∧ t.m.parts.parts = [] ∧ t.m.kod.lastAct = some (pModStop, esOK)) ∧
    (s.m.mod.mstate ≠ 4 → s.m.mod.mstate ≠ 6 → exec .modStop s = Acts s s.m pModStop esSTATE) ∧
    (∀ ok st, s.m.mod.mstate = 1 → (s.m.autostart = true ∨ s.m.mod.startReq = true) → s.m.saf.cause = 0 →
      exec (.secureBoot true ok st) s = Becomes s (s.m.secureBoot s.fuse ok st)) ∧
    (∀ inp ok st, s.m.mod.mstate = 2 → s.m.mod.bringStep = 0 → exec (.secureBoot inp ok st) s = Becomes s (s.m.secureBoot s.fuse ok st)) ∧
    (∀ inp ok st, s.m.mod.mstate = 1 → ((s.m.autostart = false ∧ s.m.mod.startReq = false) ∨ inp = false ∨ s.m.saf.cause ≠ 0) →
      exec (.secureBoot inp ok st) s = Becomes s s.m) ∧
    (s.m.saf.segOpen = [] →
      (s.m.secureBoot s.fuse false 15).mod.mstate = 6 ∧ (s.m.secureBoot s.fuse false 15).sec.factoryBad = true ∧
      (∀ i rest pre, s.m.sec.candidates = pre ++ i :: rest → (∀ j ∈ pre, s.m.sec.tested s.fuse j = false) → s.m.sec.tested s.fuse i = true →
        let n := s.m.secureBoot s.fuse true 15
        n.mod.mstate = 2 ∧ n.mod.bringStep = 3 ∧ n.sec.running = i ∧
        n.sec.bootResult = (if i = s.m.sec.pending then 0 else if i = s.m.sec.lkg then 1 else 2)) ∧
      ((∀ i ∈ s.m.sec.candidates, s.m.sec.tested s.fuse i = false) → (s.m.secureBoot s.fuse true 15).mod.mstate = 6)) ∧
    (∀ c : SecS, c.candidates.head? = some c.pending ∧ (c.lkg ≠ c.pending → c.candidates[1]? = some c.lkg) ∧ (∀ i < 16, i ∈ c.candidates)) ∧
    (∀ pll b, s.m.mod.mstate = 2 → s.m.mod.bringStep = 3 →
      exec (.coldBringup pll b) s = Becomes s ((s.m.coldBringup s.fuse.order.val).bringFaults s.fuse.order.val pll b)) ∧
    (∀ fac st k, k < 4 → st.getLsbD k = true → s.m.saf.segOpen.has (16 + k) = false → let n := s.m.secureBoot s.fuse fac st
      n.readUds s.fuse k = none ∧ (s.m.sec.dieKeys.has k = true → Tab.find k n.sec.dieKeys = Tab.find k s.m.sec.dieKeys) ∧
      (s.m.sec.dieKeys.has k = false → ∃ a, Tab.find k n.sec.dieKeys = some ⟨deviceIdKey s.fuse.uds, a⟩ ∧ (n.mod.mstate = 6 → a = none) ∧
        ∀ d v b, n.mod.mstate ≠ 6 → n.sec.measured = some (d, v, b) → a = aliasKeyOf s.fuse.uds d v b)) ∧
    (∀ ikm info d, hkdfScalar ikm info = some d → 1 ≤ d ∧ d < p256Order ∧ ∃ i t, 1 ≤ i ∧ i ≤ 255 ∧
      d = beNat (hmac256 (hmac256 (List.replicate 32 0) ikm) (t ++ info ++ [BitVec.ofNat 8 i]))) ∧
    (let n := s.m.coldBringup s.fuse.order.val
     n.mod.mstate = 3 ∧ n.mod.warm = false ∧ n.mem.frameTag = [] ∧ n.mem.keyGen.getD 0xFE 0 = s.m.mem.keyGen.getD 0xFE 0 + 1 ∧ n.seq.inService = false ∧
     ∀ i, i < 32 → (n.port i).state = (if portFitted s.fuse.order.val i then 1 else 0)) ∧
    (s.m.mod.mstate = 3 → (∀ i, i < 16 → (s.m.stack i).state ≠ 0) → exec .readyReached s = Becomes s (s.m.reachReady s.fuse.order.val)) ∧
    (s.m.mod.mstate = 3 → (∃ i, i < 16 ∧ (s.m.stack i).state = 0) → exec .readyReached s = Becomes s s.m) ∧
    (s.m.mod.warm = false → (∀ k, k < 4 → s.m.iodState k ≠ 1) → s.m.parts.parts = [] → let n := s.m.reachReady s.fuse.order.val
      n.mod.mstate = 4 ∧ n.sec.lkg = s.m.sec.running ∧ n.mod.readyMs = (s.m.ticks - s.m.mod.startTick) / ticksPerMs) ∧
    (∀ (fn : PartId) (v : BitVec 64), let up := s.m.portUp fn.val
      (∀ off, exec (.registerWrite fn (.undefinedOffset off) v) s = Becomes s s.m) ∧
      (up = true → (s.m.fn fn.val).aqEn = false →
        exec (.registerWrite fn .hifAqSqbase v) s = Becomes s (s.m.updFn fn.val fun x => { x with sqBase := v }) ∧
        exec (.registerWrite fn .hifAqCqbase v) s = Becomes s (s.m.updFn fn.val fun x => { x with cqBase := v }) ∧
        exec (.registerWrite fn .hifAqCfg v) s = Becomes s (s.m.updFn fn.val (aqCfgWrite v.toNat))) ∧
      ((s.m.fn fn.val).aqEn = true → ∀ r ∈ [RegRef.hifAqSqbase, .hifAqCqbase, .hifAqCfg], exec (.registerWrite fn r v) s = Becomes s s.m) ∧
      (up = true → v.getLsbD 31 = false → v.getLsbD 30 = false → exec (.registerWrite fn .hifCtl v) s =
        Becomes s (s.m.updFn fn.val fun x => { x with aqEn := false })) ∧
      (up = true → v.getLsbD 31 = false → v.getLsbD 30 = true → (s.m.fn fn.val).aqEn = false → exec (.registerWrite fn .hifCtl v) s =
        Becomes s (s.m.updFn fn.val fun x => { x with aqEn := true, sqTail := 0, sqHead := 0, cqHead := 0, cqTail := 0 })) ∧
      (∀ w, up = true → w < 4 * msixVectors fn.val → w % 4 ≠ 3 → exec (.registerWrite fn (.msix w) v) s =
        Becomes s (s.m.updFn fn.val fun x => { x with msix := x.msix.put w (v.setWidth 32) })) ∧
      (∀ w, up = true → w < 4 * msixVectors fn.val → w % 4 = 3 → v.getLsbD 0 = true → exec (.registerWrite fn (.msix w) v) s =
        Becomes s (s.m.updFn fn.val fun x => { x with msix := x.msix.put w 1 })) ∧
      (∀ w, up = true → w < 4 * msixVectors fn.val → w % 4 = 3 → v.getLsbD 0 = false → let n := s.m.updFn fn.val fun x => { x with msix := x.msix.put w 0 }
        ((n.fn fn.val).pba.has (w / 4) = false → exec (.registerWrite fn (.msix w) v) s = Becomes s n) ∧
        ((n.fn fn.val).pba.has (w / 4) = true → exec (.registerWrite fn (.msix w) v) s =
          Becomes s ((n.updFn fn.val fun x => { x with pba := x.pba.del (w / 4) }).msi fn.val (w / 4)))) ∧
      (∀ w, up = true → 4 * msixVectors fn.val ≤ w → exec (.registerWrite fn (.msix w) v) s = Becomes s s.m) ∧
      (s.m.unitsUp = true →
        (∀ st ch, exec (.registerWrite fn (.memTgCtl st ch) v) s = Becomes s (s.m.updChan st.val ch.val fun c => { c with tgCtl := tgCtlWrite v })) ∧
        (∀ t, v.getLsbD 27 = true → exec (.registerWrite fn (.csuStat t) v) s = Becomes s (s.m.updTile t.val fun x => { x with recValid := false })) ∧
        (∀ t, v.getLsbD 27 = false → exec (.registerWrite fn (.csuStat t) v) s = Becomes s s.m) ∧
        (∀ h, v.getLsbD 7 = true → exec (.registerWrite fn (.halfStat h) v) s = Becomes s (s.m.updHalf h.val fun x => { x with droop := false })) ∧
        (∀ l, v.getLsbD 63 = true → exec (.registerWrite fn (.audit l) v) s =
          Becomes s (s.m.updNet fun n => { n with audits := n.audits.adj (s.m.auditKey l) fun a => { a with fault := false } }))) ∧
      (up = true → v.getLsbD 30 = true → exec (.registerWrite fn .mbxStat v) s = Becomes s (s.m.updFn fn.val fun x => { x with mbxDone := false })) ∧
      (s.m.diePowered true = true → exec (.registerWrite fn .tbyp v) s = Becomes s (s.m.updDbg fun d => { d with tbyp := v.setWidth 14 })))

/-! The whole block. -/

/-- Counters (23 R615, R616, R621, R622, Table 23.1): a STICK counter counts up to 0xFFFF_FFFF, stays there and sets OVF until it is cleared; a WRAP
counter counts modulo 2^64; ODO_MAX is raised once an epoch, with the counter's number and instance (their places in the data: log 66); a clear begins a new epoch;
no other instance changes. -/
def Obligations.CountersCount : Prop :=
  ∀ (m : Mod) (num inst : Nat), let c := m.counter num inst
    (∀ n, let d := (Nat.repeat (fun x : Mod => x.count num inst) n m).counter num inst
      d.epoch = c.epoch ∧ d.stored = c.stored ∧
      (ctrSticks num = true → c.value ≤ 0xFFFFFFFF →
        d.value = min (c.value + n) 0xFFFFFFFF ∧ (0 < n → d.ovf = (c.ovf || decide (0xFFFFFFFF ≤ c.value + n)))) ∧
      (ctrSticks num = false → c.value < 2 ^ 64 → d.value = (c.value + n) % 2 ^ 64 ∧ d.ovf = c.ovf)) ∧
    (∀ n k j, inst < 2 ^ 32 → j < 2 ^ 32 → (k ≠ num ∨ j ≠ inst) → (m.countBy num inst n).counter k j = m.counter k j) ∧
    (∀ n, ctrSticks num = true → m.parB pOdoMaxEn = true → 0xFFFFFFFF ≤ c.value + n → c.maxSent = false →
      ((m.countBy num inst n).counter num inst).maxSent = true ∧ ∃ e, (m.countBy num inst n).kod.evq = m.kod.evq ++ [e] ∧ e.code = evOdoMax ∧
        e.data = BitVec.ofNat 128 (num + inst * 2 ^ 32)) ∧
    (∀ n, c.maxSent = true → (m.countBy num inst n).kod.evq = m.kod.evq) ∧
    (m.clearCtr num inst).counter num inst = { c with value := 0, ovf := false, epoch := c.epoch + 1, maxSent := false }

/-- Every step leaves the factory record as it was made, lets no minimum SVN fall, and never blows more than the 64 fuses of a type (22 R602, R606,
R611, 24 Table 24.3), from every state and whatever the command. -/
def Obligations.FusesOnlyMoveOn : Prop :=
  ∀ (s t : State), step s = .next t → Fuse.Follows s.fuse t.fuse ∧
    ((∀ k, s.fuse.svnMin.getD k 0 ≤ 64) → ∀ k, t.fuse.svnMin.getD k 0 ≤ 64)

/-- Every well-formed command completes from every state, but for an access of a memory controller to an address that does not exist (11 R306); a
command that completes leaves the queue as it was; one that is not well-formed is refused by name. -/
def Obligations.EveryCommandAnswers : Prop :=
  ∀ (c : Instr) (s : State),
    (c.wellFormed = true → (∃ t, exec c s = .next t ∧ t.pending = s.pending) ∨
      ∃ pa, paLimit ≤ pa ∧ exec c s = .fault (.noSuchAddress pa) ∧
        ((∃ a b d, c = .memRead pa a b d) ∨ (∃ a b, c = .memWrite pa a b) ∨ (∃ a, c = .parityDelta pa a) ∨ (∃ a b d, c = .scrub pa a b d))) ∧
    (c.wellFormed = false → ∃ name, exec c s = .refused (.illFormed name))

/-- The module after reset: STANDBY with an empty queue and no cause of Kickstand, every memory in canonical form, every counter and epoch zero, every
partition NONE, the sequence table OFFLINE, no Freewheel and no Brake, the admin queues disabled at their smallest size, no more fuses blown
than there are; its step completes. That reset is STANDBY with empty firmware slots is the model's choice (log 12). -/
def Obligations.ResetState : Prop :=
  let s := State.reset
  s.pending = [] ∧ s.m.mod.mstate = 1 ∧ s.m.saf.cause = 0 ∧ s.m.canonical = true ∧ (∀ n i, s.m.counter n i = {}) ∧
  (∀ n i, (s.m.counter n i).value = 0 ∧ (s.m.counter n i).epoch = 0 ∧ (s.m.counter n i).ovf = false) ∧
  (∀ p, (s.m.part p).st = .none ∧ (s.m.part p).viol = 0) ∧ s.m.seq.inService = false ∧ s.m.dbg.fwlState = 0 ∧ s.m.dbg.brake = 0 ∧
  (∀ f, (s.m.fn f).aqEn = false ∧ (s.m.fn f).sqLog2 = 6 ∧ (s.m.fn f).cqLog2 = 6 ∧ (s.m.fn f).sqBase = 0) ∧
  (∀ t, (s.m.tile t).fenced = false ∧ (s.m.tile t).ts = []) ∧ (∀ k, s.fuse.svnMin.getD k 0 ≤ 64) ∧ s.Safe
end

