-- ==== Sys2Proof/Laws/Memory.lean ====
section
/-! SUPPORT. Laws of tables and memories: what a read finds after a write, and that every memory operation keeps the canonical form. -/

namespace Sys2Proof.Machine

variable {α : Type}

/-! Tables. -/

@[simp] theorem Tab.find_nil (k : Nat) : Tab.find k ([] : Tab α) = none := rfl
@[simp] theorem Tab.getD_nil (k : Nat) (d : α) : Tab.getD [] k d = d := rfl
@[simp] theorem Tab.has_nil (k : Nat) : Tab.has ([] : Tab α) k = false := rfl

@[simp] theorem Tab.find_put_same (k : Nat) (v : α) (t : Tab α) : Tab.find k (Tab.put k v t) = some v := by
  induction t with
  | nil => simp [Tab.put, Tab.find]
  | cons e r ih =>
    obtain ⟨j, w⟩ := e
    simp only [Tab.put]
    split
    · simp [Tab.find]
    · split <;> simp_all [Tab.find]

theorem Tab.find_put_other {k j : Nat} (h : j ≠ k) (v : α) (t : Tab α) : Tab.find j (Tab.put k v t) = Tab.find j t := by
  induction t with
  | nil => simp [Tab.put, Tab.find, Ne.symm h]
  | cons e r ih =>
    obtain ⟨i, w⟩ := e
    simp only [Tab.put]
    split
    · rename_i he; subst he; simp [Tab.find, Ne.symm h]
    · split
      · simp [Tab.find, Ne.symm h]
      · simp [Tab.find, ih]

@[simp] theorem Tab.getD_put_same (k : Nat) (v d : α) (t : Tab α) : (Tab.put k v t).getD k d = v := by
  simp [Tab.getD]
theorem Tab.getD_put_other {k j : Nat} (h : j ≠ k) (v d : α) (t : Tab α) : (Tab.put k v t).getD j d = t.getD j d := by
  simp [Tab.getD, Tab.find_put_other h]

theorem Tab.find_del_other {k j : Nat} (h : j ≠ k) (t : Tab α) : Tab.find j (Tab.del k t) = Tab.find j t := by
  induction t with
  | nil => rfl
  | cons e r ih =>
    obtain ⟨i, w⟩ := e
    simp only [Tab.del] at ih
    by_cases he : i = k
    · subst he; simp [Tab.del, Tab.find, Ne.symm h, ih]
    · simp [Tab.del, Tab.find, he, ih]
@[simp] theorem Tab.find_del_same (k : Nat) (t : Tab α) : Tab.find k (Tab.del k t) = none := by
  induction t with
  | nil => rfl
  | cons e r ih =>
    obtain ⟨i, w⟩ := e
    simp only [Tab.del] at ih
    by_cases he : i = k
    · subst he; simp [Tab.del, ih]
    · simp [Tab.del, Tab.find, he, ih]

theorem Tab.adj_of_find {t : Tab α} {k : Nat} {v : α} (h : Tab.find k t = some v) (f : α → α) : t.adj k f = Tab.put k (f v) t := by
  simp [Tab.adj, h]
theorem Tab.adj_of_none {t : Tab α} {k : Nat} (h : Tab.find k t = none) (f : α → α) : t.adj k f = t := by
  simp [Tab.adj, h]

/-! Memories. -/

theorem Mem.wfFrom_mono {lo hi : Nat} (h : lo ≤ hi) {m : Mem} (w : Mem.wfFrom hi m = true) : Mem.wfFrom lo m = true := by
  cases m with
  | nil => rfl
  | cons e r =>
    obtain ⟨j, b⟩ := e
    simp only [Mem.wfFrom, Bool.and_eq_true, decide_eq_true_eq] at w ⊢
    exact ⟨⟨by omega, w.1.2⟩, w.2⟩

theorem Mem.wfFrom_wr {lo a : Nat} (h : lo ≤ a) (v : Byte) {m : Mem} (w : Mem.wfFrom lo m = true) :
    Mem.wfFrom lo (Mem.wr a v m) = true := by
  induction m generalizing lo with
  | nil =>
    simp only [Mem.wr]
    split <;> simp_all [Mem.wfFrom]
  | cons e r ih =>
    obtain ⟨j, b⟩ := e
    simp only [Mem.wfFrom, Bool.and_eq_true, decide_eq_true_eq] at w
    obtain ⟨⟨w1, w2⟩, w3⟩ := w
    simp only [Mem.wr]
    split
    · rename_i he; subst he
      split
      · exact Mem.wfFrom_mono (by omega) w3
      · simp_all [Mem.wfFrom]
    · split
      · split
        · simp_all [Mem.wfFrom]
        · rename_i h1 h2
          simp only [Mem.wfFrom, Bool.and_eq_true, decide_eq_true_eq]
          exact ⟨⟨h, h2⟩, ⟨by omega, w2⟩, w3⟩
      · simp only [Mem.wfFrom, Bool.and_eq_true, decide_eq_true_eq]
        exact ⟨⟨w1, w2⟩, ih (by omega) w3⟩

/-- Writing a byte keeps the canonical form. -/
theorem Mem.wf_wr (a : Nat) (v : Byte) {m : Mem} (w : m.wf = true) : (Mem.wr a v m).wf = true := Mem.wfFrom_wr (Nat.zero_le a) v w

/-- Writing bytes keeps the canonical form. -/
theorem Mem.wf_wrs (a : Nat) (vs : List Byte) {m : Mem} (w : m.wf = true) : (Mem.wrs a vs m).wf = true := by
  induction vs generalizing a m with
  | nil => exact w
  | cons v vs ih => exact ih (a + 1) (Mem.wf_wr a v w)

theorem Mem.wfFrom_filter (p : Host.Cell → Bool) {lo : Nat} {m : Mem} (w : Mem.wfFrom lo m = true) : Mem.wfFrom lo (m.filter p) = true := by
  induction m generalizing lo with
  | nil => rfl
  | cons e r ih =>
    obtain ⟨j, b⟩ := e
    simp only [Mem.wfFrom, Bool.and_eq_true, decide_eq_true_eq] at w
    obtain ⟨⟨w1, w2⟩, w3⟩ := w
    simp only [List.filter]
    split
    · simp only [Mem.wfFrom, Bool.and_eq_true, decide_eq_true_eq]; exact ⟨⟨w1, w2⟩, ih w3⟩
    · exact Mem.wfFrom_mono (by omega) (ih w3)

/-- Clearing a range keeps the canonical form. -/
theorem Mem.wf_clear (a n : Nat) {m : Mem} (w : m.wf = true) : (m.clear a n).wf = true := Mem.wfFrom_filter _ w

theorem Mem.rd_of_lt {lo a : Nat} (h : a < lo) {m : Mem} (w : Mem.wfFrom lo m = true) : Mem.rd a m = 0 := by
  induction m generalizing lo with
  | nil => rfl
  | cons e r ih =>
    obtain ⟨j, b⟩ := e
    simp only [Mem.wfFrom, Bool.and_eq_true, decide_eq_true_eq] at w
    obtain ⟨⟨w1, w2⟩, w3⟩ := w
    have : j ≠ a := by omega
    simp only [Mem.rd, this, if_false]
    exact ih (by omega) w3

/-- A read of a byte just written gives what was written. -/
theorem Mem.rd_wr_same (a : Nat) (v : Byte) {m : Mem} (w : m.wf = true) : Mem.rd a (Mem.wr a v m) = v := by
  suffices ∀ lo, Mem.wfFrom lo m = true → Mem.rd a (Mem.wr a v m) = v from this 0 w
  clear w
  induction m with
  | nil => intro _ _; simp only [Mem.wr]; split <;> simp_all [Mem.rd]
  | cons e r ih =>
    obtain ⟨j, b⟩ := e
    intro lo w
    simp only [Mem.wfFrom, Bool.and_eq_true, decide_eq_true_eq] at w
    obtain ⟨⟨w1, w2⟩, w3⟩ := w
    simp only [Mem.wr]
    split
    · rename_i he; subst he
      split
      · rename_i hv; rw [hv]; exact Mem.rd_of_lt (by omega) w3
      · simp [Mem.rd]
    · split
      · rename_i h1 h2
        split
        · rename_i hv
          simp only [Mem.rd, h1, if_false, hv]
          exact Mem.rd_of_lt (by omega) w3
        · simp [Mem.rd]
      · rename_i h1 _
        simp only [Mem.rd, h1, if_false]
        exact ih _ w3

/-- A write leaves every other byte alone. -/
theorem Mem.rd_wr_other {a b : Nat} (h : b ≠ a) (v : Byte) (m : Mem) : Mem.rd b (Mem.wr a v m) = Mem.rd b m := by
  induction m with
  | nil => simp only [Mem.wr]; split <;> simp [Mem.rd, Ne.symm h]
  | cons e r ih =>
    obtain ⟨j, c⟩ := e
    simp only [Mem.wr]
    split
    · rename_i he; subst he
      split <;> simp [Mem.rd, Ne.symm h]
    · split
      · split <;> simp [Mem.rd, Ne.symm h]
      · simp only [Mem.rd, ih]

/-- Bytes written in one run or in two. -/
theorem Mem.wrs_append (a : Nat) (us vs : List Byte) (m : Mem) : Mem.wrs a (us ++ vs) m = Mem.wrs (a + us.length) vs (Mem.wrs a us m) := by
  induction us generalizing a m with
  | nil => rfl
  | cons u us ih => simp only [List.cons_append, Mem.wrs, ih, List.length_cons]; congr 1; omega

end Sys2Proof.Machine
end

