-- ==== Sys2Proof/Laws/State.lean ====
section
/-! SUPPORT. One lemma for each field of the module under each update of a part of it, so that no proof unfolds a record update. -/

namespace Sys2Proof.Machine

variable (m : Mod)

/-! `Mod.updCache`. -/

@[simp] theorem Mod.updCache_free (f : CacheS → CacheS) : (m.updCache f).free = m.free := rfl
@[simp] theorem Mod.updCache_ticks (f : CacheS → CacheS) : (m.updCache f).ticks = m.ticks := rfl
@[simp] theorem Mod.updCache_mod (f : CacheS → CacheS) : (m.updCache f).mod = m.mod := rfl
@[simp] theorem Mod.updCache_ctr (f : CacheS → CacheS) : (m.updCache f).ctr = m.ctr := rfl
@[simp] theorem Mod.updCache_kod (f : CacheS → CacheS) : (m.updCache f).kod = m.kod := rfl
@[simp] theorem Mod.updCache_tiles (f : CacheS → CacheS) : (m.updCache f).tiles = m.tiles := rfl
@[simp] theorem Mod.updCache_ctxs (f : CacheS → CacheS) : (m.updCache f).ctxs = m.ctxs := rfl
@[simp] theorem Mod.updCache_uidSeq (f : CacheS → CacheS) : (m.updCache f).uidSeq = m.uidSeq := rfl
@[simp] theorem Mod.updCache_copies (f : CacheS → CacheS) : (m.updCache f).copies = m.copies := rfl
@[simp] theorem Mod.updCache_copySeq (f : CacheS → CacheS) : (m.updCache f).copySeq = m.copySeq := rfl
@[simp] theorem Mod.updCache_halves (f : CacheS → CacheS) : (m.updCache f).halves = m.halves := rfl
@[simp] theorem Mod.updCache_cache (f : CacheS → CacheS) : (m.updCache f).cache = f m.cache := rfl
@[simp] theorem Mod.updCache_mem (f : CacheS → CacheS) : (m.updCache f).mem = m.mem := rfl
@[simp] theorem Mod.updCache_parts (f : CacheS → CacheS) : (m.updCache f).parts = m.parts := rfl
@[simp] theorem Mod.updCache_dbg (f : CacheS → CacheS) : (m.updCache f).dbg = m.dbg := rfl
@[simp] theorem Mod.updCache_net (f : CacheS → CacheS) : (m.updCache f).net = m.net := rfl
@[simp] theorem Mod.updCache_sched (f : CacheS → CacheS) : (m.updCache f).sched = m.sched := rfl
@[simp] theorem Mod.updCache_host (f : CacheS → CacheS) : (m.updCache f).host = m.host := rfl
@[simp] theorem Mod.updCache_fab (f : CacheS → CacheS) : (m.updCache f).fab = m.fab := rfl
@[simp] theorem Mod.updCache_seq (f : CacheS → CacheS) : (m.updCache f).seq = m.seq := rfl
@[simp] theorem Mod.updCache_sec (f : CacheS → CacheS) : (m.updCache f).sec = m.sec := rfl
@[simp] theorem Mod.updCache_links (f : CacheS → CacheS) : (m.updCache f).links = m.links := rfl
@[simp] theorem Mod.updCache_ft (f : CacheS → CacheS) : (m.updCache f).ft = m.ft := rfl
@[simp] theorem Mod.updCache_saf (f : CacheS → CacheS) : (m.updCache f).saf = m.saf := rfl
@[simp] theorem Mod.updCache_pwr (f : CacheS → CacheS) : (m.updCache f).pwr = m.pwr := rfl
@[simp] theorem Mod.updCache_dies (f : CacheS → CacheS) : (m.updCache f).dies = m.dies := rfl

/-! `Mod.updLink`. -/

@[simp] theorem Mod.updLink_free (k : Nat) (f : Link → Link) : (m.updLink k f).free = m.free := rfl
@[simp] theorem Mod.updLink_ticks (k : Nat) (f : Link → Link) : (m.updLink k f).ticks = m.ticks := rfl
@[simp] theorem Mod.updLink_mod (k : Nat) (f : Link → Link) : (m.updLink k f).mod = m.mod := rfl
@[simp] theorem Mod.updLink_ctr (k : Nat) (f : Link → Link) : (m.updLink k f).ctr = m.ctr := rfl
@[simp] theorem Mod.updLink_kod (k : Nat) (f : Link → Link) : (m.updLink k f).kod = m.kod := rfl
@[simp] theorem Mod.updLink_tiles (k : Nat) (f : Link → Link) : (m.updLink k f).tiles = m.tiles := rfl
@[simp] theorem Mod.updLink_ctxs (k : Nat) (f : Link → Link) : (m.updLink k f).ctxs = m.ctxs := rfl
@[simp] theorem Mod.updLink_uidSeq (k : Nat) (f : Link → Link) : (m.updLink k f).uidSeq = m.uidSeq := rfl
@[simp] theorem Mod.updLink_copies (k : Nat) (f : Link → Link) : (m.updLink k f).copies = m.copies := rfl
@[simp] theorem Mod.updLink_copySeq (k : Nat) (f : Link → Link) : (m.updLink k f).copySeq = m.copySeq := rfl
@[simp] theorem Mod.updLink_halves (k : Nat) (f : Link → Link) : (m.updLink k f).halves = m.halves := rfl
@[simp] theorem Mod.updLink_cache (k : Nat) (f : Link → Link) : (m.updLink k f).cache = m.cache := rfl
@[simp] theorem Mod.updLink_mem (k : Nat) (f : Link → Link) : (m.updLink k f).mem = m.mem := rfl
@[simp] theorem Mod.updLink_parts (k : Nat) (f : Link → Link) : (m.updLink k f).parts = m.parts := rfl
@[simp] theorem Mod.updLink_dbg (k : Nat) (f : Link → Link) : (m.updLink k f).dbg = m.dbg := rfl
@[simp] theorem Mod.updLink_net (k : Nat) (f : Link → Link) : (m.updLink k f).net = m.net := rfl
@[simp] theorem Mod.updLink_sched (k : Nat) (f : Link → Link) : (m.updLink k f).sched = m.sched := rfl
@[simp] theorem Mod.updLink_host (k : Nat) (f : Link → Link) : (m.updLink k f).host = m.host := rfl
@[simp] theorem Mod.updLink_fab (k : Nat) (f : Link → Link) : (m.updLink k f).fab = m.fab := rfl
@[simp] theorem Mod.updLink_seq (k : Nat) (f : Link → Link) : (m.updLink k f).seq = m.seq := rfl
@[simp] theorem Mod.updLink_sec (k : Nat) (f : Link → Link) : (m.updLink k f).sec = m.sec := rfl
@[simp] theorem Mod.updLink_ft (k : Nat) (f : Link → Link) : (m.updLink k f).ft = m.ft := rfl
@[simp] theorem Mod.updLink_saf (k : Nat) (f : Link → Link) : (m.updLink k f).saf = m.saf := rfl
@[simp] theorem Mod.updLink_pwr (k : Nat) (f : Link → Link) : (m.updLink k f).pwr = m.pwr := rfl
@[simp] theorem Mod.updLink_dies (k : Nat) (f : Link → Link) : (m.updLink k f).dies = m.dies := rfl
@[simp] theorem Mod.updLink_links (k : Nat) (f : Link → Link) : (m.updLink k f).links = m.links.put k (f (m.link k)) := rfl

/-! `Mod.updDbg`. -/

@[simp] theorem Mod.updDbg_free (f : DbgS → DbgS) : (m.updDbg f).free = m.free := rfl
@[simp] theorem Mod.updDbg_ticks (f : DbgS → DbgS) : (m.updDbg f).ticks = m.ticks := rfl
@[simp] theorem Mod.updDbg_mod (f : DbgS → DbgS) : (m.updDbg f).mod = m.mod := rfl
@[simp] theorem Mod.updDbg_ctr (f : DbgS → DbgS) : (m.updDbg f).ctr = m.ctr := rfl
@[simp] theorem Mod.updDbg_kod (f : DbgS → DbgS) : (m.updDbg f).kod = m.kod := rfl
@[simp] theorem Mod.updDbg_tiles (f : DbgS → DbgS) : (m.updDbg f).tiles = m.tiles := rfl
@[simp] theorem Mod.updDbg_ctxs (f : DbgS → DbgS) : (m.updDbg f).ctxs = m.ctxs := rfl
@[simp] theorem Mod.updDbg_uidSeq (f : DbgS → DbgS) : (m.updDbg f).uidSeq = m.uidSeq := rfl
@[simp] theorem Mod.updDbg_copies (f : DbgS → DbgS) : (m.updDbg f).copies = m.copies := rfl
@[simp] theorem Mod.updDbg_copySeq (f : DbgS → DbgS) : (m.updDbg f).copySeq = m.copySeq := rfl
@[simp] theorem Mod.updDbg_halves (f : DbgS → DbgS) : (m.updDbg f).halves = m.halves := rfl
@[simp] theorem Mod.updDbg_cache (f : DbgS → DbgS) : (m.updDbg f).cache = m.cache := rfl
@[simp] theorem Mod.updDbg_mem (f : DbgS → DbgS) : (m.updDbg f).mem = m.mem := rfl
@[simp] theorem Mod.updDbg_parts (f : DbgS → DbgS) : (m.updDbg f).parts = m.parts := rfl
@[simp] theorem Mod.updDbg_dbg (f : DbgS → DbgS) : (m.updDbg f).dbg = f m.dbg := rfl
@[simp] theorem Mod.updDbg_net (f : DbgS → DbgS) : (m.updDbg f).net = m.net := rfl
@[simp] theorem Mod.updDbg_sched (f : DbgS → DbgS) : (m.updDbg f).sched = m.sched := rfl
@[simp] theorem Mod.updDbg_host (f : DbgS → DbgS) : (m.updDbg f).host = m.host := rfl
@[simp] theorem Mod.updDbg_fab (f : DbgS → DbgS) : (m.updDbg f).fab = m.fab := rfl
@[simp] theorem Mod.updDbg_seq (f : DbgS → DbgS) : (m.updDbg f).seq = m.seq := rfl
@[simp] theorem Mod.updDbg_sec (f : DbgS → DbgS) : (m.updDbg f).sec = m.sec := rfl
@[simp] theorem Mod.updDbg_links (f : DbgS → DbgS) : (m.updDbg f).links = m.links := rfl
@[simp] theorem Mod.updDbg_ft (f : DbgS → DbgS) : (m.updDbg f).ft = m.ft := rfl
@[simp] theorem Mod.updDbg_saf (f : DbgS → DbgS) : (m.updDbg f).saf = m.saf := rfl
@[simp] theorem Mod.updDbg_pwr (f : DbgS → DbgS) : (m.updDbg f).pwr = m.pwr := rfl
@[simp] theorem Mod.updDbg_dies (f : DbgS → DbgS) : (m.updDbg f).dies = m.dies := rfl

/-! `Mod.updFab`. -/

@[simp] theorem Mod.updFab_free (f : FabS → FabS) : (m.updFab f).free = m.free := rfl
@[simp] theorem Mod.updFab_ticks (f : FabS → FabS) : (m.updFab f).ticks = m.ticks := rfl
@[simp] theorem Mod.updFab_mod (f : FabS → FabS) : (m.updFab f).mod = m.mod := rfl
@[simp] theorem Mod.updFab_ctr (f : FabS → FabS) : (m.updFab f).ctr = m.ctr := rfl
@[simp] theorem Mod.updFab_kod (f : FabS → FabS) : (m.updFab f).kod = m.kod := rfl
@[simp] theorem Mod.updFab_tiles (f : FabS → FabS) : (m.updFab f).tiles = m.tiles := rfl
@[simp] theorem Mod.updFab_ctxs (f : FabS → FabS) : (m.updFab f).ctxs = m.ctxs := rfl
@[simp] theorem Mod.updFab_uidSeq (f : FabS → FabS) : (m.updFab f).uidSeq = m.uidSeq := rfl
@[simp] theorem Mod.updFab_copies (f : FabS → FabS) : (m.updFab f).copies = m.copies := rfl
@[simp] theorem Mod.updFab_copySeq (f : FabS → FabS) : (m.updFab f).copySeq = m.copySeq := rfl
@[simp] theorem Mod.updFab_halves (f : FabS → FabS) : (m.updFab f).halves = m.halves := rfl
@[simp] theorem Mod.updFab_cache (f : FabS → FabS) : (m.updFab f).cache = m.cache := rfl
@[simp] theorem Mod.updFab_mem (f : FabS → FabS) : (m.updFab f).mem = m.mem := rfl
@[simp] theorem Mod.updFab_parts (f : FabS → FabS) : (m.updFab f).parts = m.parts := rfl
@[simp] theorem Mod.updFab_dbg (f : FabS → FabS) : (m.updFab f).dbg = m.dbg := rfl
@[simp] theorem Mod.updFab_net (f : FabS → FabS) : (m.updFab f).net = m.net := rfl
@[simp] theorem Mod.updFab_sched (f : FabS → FabS) : (m.updFab f).sched = m.sched := rfl
@[simp] theorem Mod.updFab_host (f : FabS → FabS) : (m.updFab f).host = m.host := rfl
@[simp] theorem Mod.updFab_fab (f : FabS → FabS) : (m.updFab f).fab = f m.fab := rfl
@[simp] theorem Mod.updFab_seq (f : FabS → FabS) : (m.updFab f).seq = m.seq := rfl
@[simp] theorem Mod.updFab_sec (f : FabS → FabS) : (m.updFab f).sec = m.sec := rfl
@[simp] theorem Mod.updFab_links (f : FabS → FabS) : (m.updFab f).links = m.links := rfl
@[simp] theorem Mod.updFab_ft (f : FabS → FabS) : (m.updFab f).ft = m.ft := rfl
@[simp] theorem Mod.updFab_saf (f : FabS → FabS) : (m.updFab f).saf = m.saf := rfl
@[simp] theorem Mod.updFab_pwr (f : FabS → FabS) : (m.updFab f).pwr = m.pwr := rfl
@[simp] theorem Mod.updFab_dies (f : FabS → FabS) : (m.updFab f).dies = m.dies := rfl

/-! `Mod.updFt`. -/

@[simp] theorem Mod.updFt_free (f : FtS → FtS) : (m.updFt f).free = m.free := rfl
@[simp] theorem Mod.updFt_ticks (f : FtS → FtS) : (m.updFt f).ticks = m.ticks := rfl
@[simp] theorem Mod.updFt_mod (f : FtS → FtS) : (m.updFt f).mod = m.mod := rfl
@[simp] theorem Mod.updFt_ctr (f : FtS → FtS) : (m.updFt f).ctr = m.ctr := rfl
@[simp] theorem Mod.updFt_kod (f : FtS → FtS) : (m.updFt f).kod = m.kod := rfl
@[simp] theorem Mod.updFt_tiles (f : FtS → FtS) : (m.updFt f).tiles = m.tiles := rfl
@[simp] theorem Mod.updFt_ctxs (f : FtS → FtS) : (m.updFt f).ctxs = m.ctxs := rfl
@[simp] theorem Mod.updFt_uidSeq (f : FtS → FtS) : (m.updFt f).uidSeq = m.uidSeq := rfl
@[simp] theorem Mod.updFt_copies (f : FtS → FtS) : (m.updFt f).copies = m.copies := rfl
@[simp] theorem Mod.updFt_copySeq (f : FtS → FtS) : (m.updFt f).copySeq = m.copySeq := rfl
@[simp] theorem Mod.updFt_halves (f : FtS → FtS) : (m.updFt f).halves = m.halves := rfl
@[simp] theorem Mod.updFt_cache (f : FtS → FtS) : (m.updFt f).cache = m.cache := rfl
@[simp] theorem Mod.updFt_mem (f : FtS → FtS) : (m.updFt f).mem = m.mem := rfl
@[simp] theorem Mod.updFt_parts (f : FtS → FtS) : (m.updFt f).parts = m.parts := rfl
@[simp] theorem Mod.updFt_dbg (f : FtS → FtS) : (m.updFt f).dbg = m.dbg := rfl
@[simp] theorem Mod.updFt_net (f : FtS → FtS) : (m.updFt f).net = m.net := rfl
@[simp] theorem Mod.updFt_sched (f : FtS → FtS) : (m.updFt f).sched = m.sched := rfl
@[simp] theorem Mod.updFt_host (f : FtS → FtS) : (m.updFt f).host = m.host := rfl
@[simp] theorem Mod.updFt_fab (f : FtS → FtS) : (m.updFt f).fab = m.fab := rfl
@[simp] theorem Mod.updFt_seq (f : FtS → FtS) : (m.updFt f).seq = m.seq := rfl
@[simp] theorem Mod.updFt_sec (f : FtS → FtS) : (m.updFt f).sec = m.sec := rfl
@[simp] theorem Mod.updFt_links (f : FtS → FtS) : (m.updFt f).links = m.links := rfl
@[simp] theorem Mod.updFt_ft (f : FtS → FtS) : (m.updFt f).ft = f m.ft := rfl
@[simp] theorem Mod.updFt_saf (f : FtS → FtS) : (m.updFt f).saf = m.saf := rfl
@[simp] theorem Mod.updFt_pwr (f : FtS → FtS) : (m.updFt f).pwr = m.pwr := rfl
@[simp] theorem Mod.updFt_dies (f : FtS → FtS) : (m.updFt f).dies = m.dies := rfl

/-! `Mod.updHost`. -/

@[simp] theorem Mod.updHost_free (f : HostS → HostS) : (m.updHost f).free = m.free := rfl
@[simp] theorem Mod.updHost_ticks (f : HostS → HostS) : (m.updHost f).ticks = m.ticks := rfl
@[simp] theorem Mod.updHost_mod (f : HostS → HostS) : (m.updHost f).mod = m.mod := rfl
@[simp] theorem Mod.updHost_ctr (f : HostS → HostS) : (m.updHost f).ctr = m.ctr := rfl
@[simp] theorem Mod.updHost_kod (f : HostS → HostS) : (m.updHost f).kod = m.kod := rfl
@[simp] theorem Mod.updHost_tiles (f : HostS → HostS) : (m.updHost f).tiles = m.tiles := rfl
@[simp] theorem Mod.updHost_ctxs (f : HostS → HostS) : (m.updHost f).ctxs = m.ctxs := rfl
@[simp] theorem Mod.updHost_uidSeq (f : HostS → HostS) : (m.updHost f).uidSeq = m.uidSeq := rfl
@[simp] theorem Mod.updHost_copies (f : HostS → HostS) : (m.updHost f).copies = m.copies := rfl
@[simp] theorem Mod.updHost_copySeq (f : HostS → HostS) : (m.updHost f).copySeq = m.copySeq := rfl
@[simp] theorem Mod.updHost_halves (f : HostS → HostS) : (m.updHost f).halves = m.halves := rfl
@[simp] theorem Mod.updHost_cache (f : HostS → HostS) : (m.updHost f).cache = m.cache := rfl
@[simp] theorem Mod.updHost_mem (f : HostS → HostS) : (m.updHost f).mem = m.mem := rfl
@[simp] theorem Mod.updHost_parts (f : HostS → HostS) : (m.updHost f).parts = m.parts := rfl
@[simp] theorem Mod.updHost_dbg (f : HostS → HostS) : (m.updHost f).dbg = m.dbg := rfl
@[simp] theorem Mod.updHost_net (f : HostS → HostS) : (m.updHost f).net = m.net := rfl
@[simp] theorem Mod.updHost_sched (f : HostS → HostS) : (m.updHost f).sched = m.sched := rfl
@[simp] theorem Mod.updHost_host (f : HostS → HostS) : (m.updHost f).host = f m.host := rfl
@[simp] theorem Mod.updHost_fab (f : HostS → HostS) : (m.updHost f).fab = m.fab := rfl
@[simp] theorem Mod.updHost_seq (f : HostS → HostS) : (m.updHost f).seq = m.seq := rfl
@[simp] theorem Mod.updHost_sec (f : HostS → HostS) : (m.updHost f).sec = m.sec := rfl
@[simp] theorem Mod.updHost_links (f : HostS → HostS) : (m.updHost f).links = m.links := rfl
@[simp] theorem Mod.updHost_ft (f : HostS → HostS) : (m.updHost f).ft = m.ft := rfl
@[simp] theorem Mod.updHost_saf (f : HostS → HostS) : (m.updHost f).saf = m.saf := rfl
@[simp] theorem Mod.updHost_pwr (f : HostS → HostS) : (m.updHost f).pwr = m.pwr := rfl
@[simp] theorem Mod.updHost_dies (f : HostS → HostS) : (m.updHost f).dies = m.dies := rfl

/-! `Mod.updKod`. -/

@[simp] theorem Mod.updKod_free (f : Kod → Kod) : (m.updKod f).free = m.free := rfl
@[simp] theorem Mod.updKod_ticks (f : Kod → Kod) : (m.updKod f).ticks = m.ticks := rfl
@[simp] theorem Mod.updKod_mod (f : Kod → Kod) : (m.updKod f).mod = m.mod := rfl
@[simp] theorem Mod.updKod_ctr (f : Kod → Kod) : (m.updKod f).ctr = m.ctr := rfl
@[simp] theorem Mod.updKod_kod (f : Kod → Kod) : (m.updKod f).kod = f m.kod := rfl
@[simp] theorem Mod.updKod_tiles (f : Kod → Kod) : (m.updKod f).tiles = m.tiles := rfl
@[simp] theorem Mod.updKod_ctxs (f : Kod → Kod) : (m.updKod f).ctxs = m.ctxs := rfl
@[simp] theorem Mod.updKod_uidSeq (f : Kod → Kod) : (m.updKod f).uidSeq = m.uidSeq := rfl
@[simp] theorem Mod.updKod_copies (f : Kod → Kod) : (m.updKod f).copies = m.copies := rfl
@[simp] theorem Mod.updKod_copySeq (f : Kod → Kod) : (m.updKod f).copySeq = m.copySeq := rfl
@[simp] theorem Mod.updKod_halves (f : Kod → Kod) : (m.updKod f).halves = m.halves := rfl
@[simp] theorem Mod.updKod_cache (f : Kod → Kod) : (m.updKod f).cache = m.cache := rfl
@[simp] theorem Mod.updKod_mem (f : Kod → Kod) : (m.updKod f).mem = m.mem := rfl
@[simp] theorem Mod.updKod_parts (f : Kod → Kod) : (m.updKod f).parts = m.parts := rfl
@[simp] theorem Mod.updKod_dbg (f : Kod → Kod) : (m.updKod f).dbg = m.dbg := rfl
@[simp] theorem Mod.updKod_net (f : Kod → Kod) : (m.updKod f).net = m.net := rfl
@[simp] theorem Mod.updKod_sched (f : Kod → Kod) : (m.updKod f).sched = m.sched := rfl
@[simp] theorem Mod.updKod_host (f : Kod → Kod) : (m.updKod f).host = m.host := rfl
@[simp] theorem Mod.updKod_fab (f : Kod → Kod) : (m.updKod f).fab = m.fab := rfl
@[simp] theorem Mod.updKod_seq (f : Kod → Kod) : (m.updKod f).seq = m.seq := rfl
@[simp] theorem Mod.updKod_sec (f : Kod → Kod) : (m.updKod f).sec = m.sec := rfl
@[simp] theorem Mod.updKod_links (f : Kod → Kod) : (m.updKod f).links = m.links := rfl
@[simp] theorem Mod.updKod_ft (f : Kod → Kod) : (m.updKod f).ft = m.ft := rfl
@[simp] theorem Mod.updKod_saf (f : Kod → Kod) : (m.updKod f).saf = m.saf := rfl
@[simp] theorem Mod.updKod_pwr (f : Kod → Kod) : (m.updKod f).pwr = m.pwr := rfl
@[simp] theorem Mod.updKod_dies (f : Kod → Kod) : (m.updKod f).dies = m.dies := rfl

/-! `Mod.updMem`. -/

@[simp] theorem Mod.updMem_free (f : MemS → MemS) : (m.updMem f).free = m.free := rfl
@[simp] theorem Mod.updMem_ticks (f : MemS → MemS) : (m.updMem f).ticks = m.ticks := rfl
@[simp] theorem Mod.updMem_mod (f : MemS → MemS) : (m.updMem f).mod = m.mod := rfl
@[simp] theorem Mod.updMem_ctr (f : MemS → MemS) : (m.updMem f).ctr = m.ctr := rfl
@[simp] theorem Mod.updMem_kod (f : MemS → MemS) : (m.updMem f).kod = m.kod := rfl
@[simp] theorem Mod.updMem_tiles (f : MemS → MemS) : (m.updMem f).tiles = m.tiles := rfl
@[simp] theorem Mod.updMem_ctxs (f : MemS → MemS) : (m.updMem f).ctxs = m.ctxs := rfl
@[simp] theorem Mod.updMem_uidSeq (f : MemS → MemS) : (m.updMem f).uidSeq = m.uidSeq := rfl
@[simp] theorem Mod.updMem_copies (f : MemS → MemS) : (m.updMem f).copies = m.copies := rfl
@[simp] theorem Mod.updMem_copySeq (f : MemS → MemS) : (m.updMem f).copySeq = m.copySeq := rfl
@[simp] theorem Mod.updMem_halves (f : MemS → MemS) : (m.updMem f).halves = m.halves := rfl
@[simp] theorem Mod.updMem_cache (f : MemS → MemS) : (m.updMem f).cache = m.cache := rfl
@[simp] theorem Mod.updMem_mem (f : MemS → MemS) : (m.updMem f).mem = f m.mem := rfl
@[simp] theorem Mod.updMem_parts (f : MemS → MemS) : (m.updMem f).parts = m.parts := rfl
@[simp] theorem Mod.updMem_dbg (f : MemS → MemS) : (m.updMem f).dbg = m.dbg := rfl
@[simp] theorem Mod.updMem_net (f : MemS → MemS) : (m.updMem f).net = m.net := rfl
@[simp] theorem Mod.updMem_sched (f : MemS → MemS) : (m.updMem f).sched = m.sched := rfl
@[simp] theorem Mod.updMem_host (f : MemS → MemS) : (m.updMem f).host = m.host := rfl
@[simp] theorem Mod.updMem_fab (f : MemS → MemS) : (m.updMem f).fab = m.fab := rfl
@[simp] theorem Mod.updMem_seq (f : MemS → MemS) : (m.updMem f).seq = m.seq := rfl
@[simp] theorem Mod.updMem_sec (f : MemS → MemS) : (m.updMem f).sec = m.sec := rfl
@[simp] theorem Mod.updMem_links (f : MemS → MemS) : (m.updMem f).links = m.links := rfl
@[simp] theorem Mod.updMem_ft (f : MemS → MemS) : (m.updMem f).ft = m.ft := rfl
@[simp] theorem Mod.updMem_saf (f : MemS → MemS) : (m.updMem f).saf = m.saf := rfl
@[simp] theorem Mod.updMem_pwr (f : MemS → MemS) : (m.updMem f).pwr = m.pwr := rfl
@[simp] theorem Mod.updMem_dies (f : MemS → MemS) : (m.updMem f).dies = m.dies := rfl

/-! `Mod.updNet`. -/

@[simp] theorem Mod.updNet_free (f : NetS → NetS) : (m.updNet f).free = m.free := rfl
@[simp] theorem Mod.updNet_ticks (f : NetS → NetS) : (m.updNet f).ticks = m.ticks := rfl
@[simp] theorem Mod.updNet_mod (f : NetS → NetS) : (m.updNet f).mod = m.mod := rfl
@[simp] theorem Mod.updNet_ctr (f : NetS → NetS) : (m.updNet f).ctr = m.ctr := rfl
@[simp] theorem Mod.updNet_kod (f : NetS → NetS) : (m.updNet f).kod = m.kod := rfl
@[simp] theorem Mod.updNet_tiles (f : NetS → NetS) : (m.updNet f).tiles = m.tiles := rfl
@[simp] theorem Mod.updNet_ctxs (f : NetS → NetS) : (m.updNet f).ctxs = m.ctxs := rfl
@[simp] theorem Mod.updNet_uidSeq (f : NetS → NetS) : (m.updNet f).uidSeq = m.uidSeq := rfl
@[simp] theorem Mod.updNet_copies (f : NetS → NetS) : (m.updNet f).copies = m.copies := rfl
@[simp] theorem Mod.updNet_copySeq (f : NetS → NetS) : (m.updNet f).copySeq = m.copySeq := rfl
@[simp] theorem Mod.updNet_halves (f : NetS → NetS) : (m.updNet f).halves = m.halves := rfl
@[simp] theorem Mod.updNet_cache (f : NetS → NetS) : (m.updNet f).cache = m.cache := rfl
@[simp] theorem Mod.updNet_mem (f : NetS → NetS) : (m.updNet f).mem = m.mem := rfl
@[simp] theorem Mod.updNet_parts (f : NetS → NetS) : (m.updNet f).parts = m.parts := rfl
@[simp] theorem Mod.updNet_dbg (f : NetS → NetS) : (m.updNet f).dbg = m.dbg := rfl
@[simp] theorem Mod.updNet_net (f : NetS → NetS) : (m.updNet f).net = f m.net := rfl
@[simp] theorem Mod.updNet_sched (f : NetS → NetS) : (m.updNet f).sched = m.sched := rfl
@[simp] theorem Mod.updNet_host (f : NetS → NetS) : (m.updNet f).host = m.host := rfl
@[simp] theorem Mod.updNet_fab (f : NetS → NetS) : (m.updNet f).fab = m.fab := rfl
@[simp] theorem Mod.updNet_seq (f : NetS → NetS) : (m.updNet f).seq = m.seq := rfl
@[simp] theorem Mod.updNet_sec (f : NetS → NetS) : (m.updNet f).sec = m.sec := rfl
@[simp] theorem Mod.updNet_links (f : NetS → NetS) : (m.updNet f).links = m.links := rfl
@[simp] theorem Mod.updNet_ft (f : NetS → NetS) : (m.updNet f).ft = m.ft := rfl
@[simp] theorem Mod.updNet_saf (f : NetS → NetS) : (m.updNet f).saf = m.saf := rfl
@[simp] theorem Mod.updNet_pwr (f : NetS → NetS) : (m.updNet f).pwr = m.pwr := rfl
@[simp] theorem Mod.updNet_dies (f : NetS → NetS) : (m.updNet f).dies = m.dies := rfl

/-! `Mod.updParts`. -/

@[simp] theorem Mod.updParts_free (f : PartsS → PartsS) : (m.updParts f).free = m.free := rfl
@[simp] theorem Mod.updParts_ticks (f : PartsS → PartsS) : (m.updParts f).ticks = m.ticks := rfl
@[simp] theorem Mod.updParts_mod (f : PartsS → PartsS) : (m.updParts f).mod = m.mod := rfl
@[simp] theorem Mod.updParts_ctr (f : PartsS → PartsS) : (m.updParts f).ctr = m.ctr := rfl
@[simp] theorem Mod.updParts_kod (f : PartsS → PartsS) : (m.updParts f).kod = m.kod := rfl
@[simp] theorem Mod.updParts_tiles (f : PartsS → PartsS) : (m.updParts f).tiles = m.tiles := rfl
@[simp] theorem Mod.updParts_ctxs (f : PartsS → PartsS) : (m.updParts f).ctxs = m.ctxs := rfl
@[simp] theorem Mod.updParts_uidSeq (f : PartsS → PartsS) : (m.updParts f).uidSeq = m.uidSeq := rfl
@[simp] theorem Mod.updParts_copies (f : PartsS → PartsS) : (m.updParts f).copies = m.copies := rfl
@[simp] theorem Mod.updParts_copySeq (f : PartsS → PartsS) : (m.updParts f).copySeq = m.copySeq := rfl
@[simp] theorem Mod.updParts_halves (f : PartsS → PartsS) : (m.updParts f).halves = m.halves := rfl
@[simp] theorem Mod.updParts_cache (f : PartsS → PartsS) : (m.updParts f).cache = m.cache := rfl
@[simp] theorem Mod.updParts_mem (f : PartsS → PartsS) : (m.updParts f).mem = m.mem := rfl
@[simp] theorem Mod.updParts_parts (f : PartsS → PartsS) : (m.updParts f).parts = f m.parts := rfl
@[simp] theorem Mod.updParts_dbg (f : PartsS → PartsS) : (m.updParts f).dbg = m.dbg := rfl
@[simp] theorem Mod.updParts_net (f : PartsS → PartsS) : (m.updParts f).net = m.net := rfl
@[simp] theorem Mod.updParts_sched (f : PartsS → PartsS) : (m.updParts f).sched = m.sched := rfl
@[simp] theorem Mod.updParts_host (f : PartsS → PartsS) : (m.updParts f).host = m.host := rfl
@[simp] theorem Mod.updParts_fab (f : PartsS → PartsS) : (m.updParts f).fab = m.fab := rfl
@[simp] theorem Mod.updParts_seq (f : PartsS → PartsS) : (m.updParts f).seq = m.seq := rfl
@[simp] theorem Mod.updParts_sec (f : PartsS → PartsS) : (m.updParts f).sec = m.sec := rfl
@[simp] theorem Mod.updParts_links (f : PartsS → PartsS) : (m.updParts f).links = m.links := rfl
@[simp] theorem Mod.updParts_ft (f : PartsS → PartsS) : (m.updParts f).ft = m.ft := rfl
@[simp] theorem Mod.updParts_saf (f : PartsS → PartsS) : (m.updParts f).saf = m.saf := rfl
@[simp] theorem Mod.updParts_pwr (f : PartsS → PartsS) : (m.updParts f).pwr = m.pwr := rfl
@[simp] theorem Mod.updParts_dies (f : PartsS → PartsS) : (m.updParts f).dies = m.dies := rfl

/-! `Mod.updPwr`. -/

@[simp] theorem Mod.updPwr_free (f : PwrS → PwrS) : (m.updPwr f).free = m.free := rfl
@[simp] theorem Mod.updPwr_ticks (f : PwrS → PwrS) : (m.updPwr f).ticks = m.ticks := rfl
@[simp] theorem Mod.updPwr_mod (f : PwrS → PwrS) : (m.updPwr f).mod = m.mod := rfl
@[simp] theorem Mod.updPwr_ctr (f : PwrS → PwrS) : (m.updPwr f).ctr = m.ctr := rfl
@[simp] theorem Mod.updPwr_kod (f : PwrS → PwrS) : (m.updPwr f).kod = m.kod := rfl
@[simp] theorem Mod.updPwr_tiles (f : PwrS → PwrS) : (m.updPwr f).tiles = m.tiles := rfl
@[simp] theorem Mod.updPwr_ctxs (f : PwrS → PwrS) : (m.updPwr f).ctxs = m.ctxs := rfl
@[simp] theorem Mod.updPwr_uidSeq (f : PwrS → PwrS) : (m.updPwr f).uidSeq = m.uidSeq := rfl
@[simp] theorem Mod.updPwr_copies (f : PwrS → PwrS) : (m.updPwr f).copies = m.copies := rfl
@[simp] theorem Mod.updPwr_copySeq (f : PwrS → PwrS) : (m.updPwr f).copySeq = m.copySeq := rfl
@[simp] theorem Mod.updPwr_halves (f : PwrS → PwrS) : (m.updPwr f).halves = m.halves := rfl
@[simp] theorem Mod.updPwr_cache (f : PwrS → PwrS) : (m.updPwr f).cache = m.cache := rfl
@[simp] theorem Mod.updPwr_mem (f : PwrS → PwrS) : (m.updPwr f).mem = m.mem := rfl
@[simp] theorem Mod.updPwr_parts (f : PwrS → PwrS) : (m.updPwr f).parts = m.parts := rfl
@[simp] theorem Mod.updPwr_dbg (f : PwrS → PwrS) : (m.updPwr f).dbg = m.dbg := rfl
@[simp] theorem Mod.updPwr_net (f : PwrS → PwrS) : (m.updPwr f).net = m.net := rfl
@[simp] theorem Mod.updPwr_sched (f : PwrS → PwrS) : (m.updPwr f).sched = m.sched := rfl
@[simp] theorem Mod.updPwr_host (f : PwrS → PwrS) : (m.updPwr f).host = m.host := rfl
@[simp] theorem Mod.updPwr_fab (f : PwrS → PwrS) : (m.updPwr f).fab = m.fab := rfl
@[simp] theorem Mod.updPwr_seq (f : PwrS → PwrS) : (m.updPwr f).seq = m.seq := rfl
@[simp] theorem Mod.updPwr_sec (f : PwrS → PwrS) : (m.updPwr f).sec = m.sec := rfl
@[simp] theorem Mod.updPwr_links (f : PwrS → PwrS) : (m.updPwr f).links = m.links := rfl
@[simp] theorem Mod.updPwr_ft (f : PwrS → PwrS) : (m.updPwr f).ft = m.ft := rfl
@[simp] theorem Mod.updPwr_saf (f : PwrS → PwrS) : (m.updPwr f).saf = m.saf := rfl
@[simp] theorem Mod.updPwr_pwr (f : PwrS → PwrS) : (m.updPwr f).pwr = f m.pwr := rfl
@[simp] theorem Mod.updPwr_dies (f : PwrS → PwrS) : (m.updPwr f).dies = m.dies := rfl

/-! `Mod.updSaf`. -/

@[simp] theorem Mod.updSaf_free (f : SafS → SafS) : (m.updSaf f).free = m.free := rfl
@[simp] theorem Mod.updSaf_ticks (f : SafS → SafS) : (m.updSaf f).ticks = m.ticks := rfl
@[simp] theorem Mod.updSaf_mod (f : SafS → SafS) : (m.updSaf f).mod = m.mod := rfl
@[simp] theorem Mod.updSaf_ctr (f : SafS → SafS) : (m.updSaf f).ctr = m.ctr := rfl
@[simp] theorem Mod.updSaf_kod (f : SafS → SafS) : (m.updSaf f).kod = m.kod := rfl
@[simp] theorem Mod.updSaf_tiles (f : SafS → SafS) : (m.updSaf f).tiles = m.tiles := rfl
@[simp] theorem Mod.updSaf_ctxs (f : SafS → SafS) : (m.updSaf f).ctxs = m.ctxs := rfl
@[simp] theorem Mod.updSaf_uidSeq (f : SafS → SafS) : (m.updSaf f).uidSeq = m.uidSeq := rfl
@[simp] theorem Mod.updSaf_copies (f : SafS → SafS) : (m.updSaf f).copies = m.copies := rfl
@[simp] theorem Mod.updSaf_copySeq (f : SafS → SafS) : (m.updSaf f).copySeq = m.copySeq := rfl
@[simp] theorem Mod.updSaf_halves (f : SafS → SafS) : (m.updSaf f).halves = m.halves := rfl
@[simp] theorem Mod.updSaf_cache (f : SafS → SafS) : (m.updSaf f).cache = m.cache := rfl
@[simp] theorem Mod.updSaf_mem (f : SafS → SafS) : (m.updSaf f).mem = m.mem := rfl
@[simp] theorem Mod.updSaf_parts (f : SafS → SafS) : (m.updSaf f).parts = m.parts := rfl
@[simp] theorem Mod.updSaf_dbg (f : SafS → SafS) : (m.updSaf f).dbg = m.dbg := rfl
@[simp] theorem Mod.updSaf_net (f : SafS → SafS) : (m.updSaf f).net = m.net := rfl
@[simp] theorem Mod.updSaf_sched (f : SafS → SafS) : (m.updSaf f).sched = m.sched := rfl
@[simp] theorem Mod.updSaf_host (f : SafS → SafS) : (m.updSaf f).host = m.host := rfl
@[simp] theorem Mod.updSaf_fab (f : SafS → SafS) : (m.updSaf f).fab = m.fab := rfl
@[simp] theorem Mod.updSaf_seq (f : SafS → SafS) : (m.updSaf f).seq = m.seq := rfl
@[simp] theorem Mod.updSaf_sec (f : SafS → SafS) : (m.updSaf f).sec = m.sec := rfl
@[simp] theorem Mod.updSaf_links (f : SafS → SafS) : (m.updSaf f).links = m.links := rfl
@[simp] theorem Mod.updSaf_ft (f : SafS → SafS) : (m.updSaf f).ft = m.ft := rfl
@[simp] theorem Mod.updSaf_saf (f : SafS → SafS) : (m.updSaf f).saf = f m.saf := rfl
@[simp] theorem Mod.updSaf_pwr (f : SafS → SafS) : (m.updSaf f).pwr = m.pwr := rfl
@[simp] theorem Mod.updSaf_dies (f : SafS → SafS) : (m.updSaf f).dies = m.dies := rfl

/-! `Mod.updSched`. -/

@[simp] theorem Mod.updSched_free (f : SchedS → SchedS) : (m.updSched f).free = m.free := rfl
@[simp] theorem Mod.updSched_ticks (f : SchedS → SchedS) : (m.updSched f).ticks = m.ticks := rfl
@[simp] theorem Mod.updSched_mod (f : SchedS → SchedS) : (m.updSched f).mod = m.mod := rfl
@[simp] theorem Mod.updSched_ctr (f : SchedS → SchedS) : (m.updSched f).ctr = m.ctr := rfl
@[simp] theorem Mod.updSched_kod (f : SchedS → SchedS) : (m.updSched f).kod = m.kod := rfl
@[simp] theorem Mod.updSched_tiles (f : SchedS → SchedS) : (m.updSched f).tiles = m.tiles := rfl
@[simp] theorem Mod.updSched_ctxs (f : SchedS → SchedS) : (m.updSched f).ctxs = m.ctxs := rfl
@[simp] theorem Mod.updSched_uidSeq (f : SchedS → SchedS) : (m.updSched f).uidSeq = m.uidSeq := rfl
@[simp] theorem Mod.updSched_copies (f : SchedS → SchedS) : (m.updSched f).copies = m.copies := rfl
@[simp] theorem Mod.updSched_copySeq (f : SchedS → SchedS) : (m.updSched f).copySeq = m.copySeq := rfl
@[simp] theorem Mod.updSched_halves (f : SchedS → SchedS) : (m.updSched f).halves = m.halves := rfl
@[simp] theorem Mod.updSched_cache (f : SchedS → SchedS) : (m.updSched f).cache = m.cache := rfl
@[simp] theorem Mod.updSched_mem (f : SchedS → SchedS) : (m.updSched f).mem = m.mem := rfl
@[simp] theorem Mod.updSched_parts (f : SchedS → SchedS) : (m.updSched f).parts = m.parts := rfl
@[simp] theorem Mod.updSched_dbg (f : SchedS → SchedS) : (m.updSched f).dbg = m.dbg := rfl
@[simp] theorem Mod.updSched_net (f : SchedS → SchedS) : (m.updSched f).net = m.net := rfl
@[simp] theorem Mod.updSched_sched (f : SchedS → SchedS) : (m.updSched f).sched = f m.sched := rfl
@[simp] theorem Mod.updSched_host (f : SchedS → SchedS) : (m.updSched f).host = m.host := rfl
@[simp] theorem Mod.updSched_fab (f : SchedS → SchedS) : (m.updSched f).fab = m.fab := rfl
@[simp] theorem Mod.updSched_seq (f : SchedS → SchedS) : (m.updSched f).seq = m.seq := rfl
@[simp] theorem Mod.updSched_sec (f : SchedS → SchedS) : (m.updSched f).sec = m.sec := rfl
@[simp] theorem Mod.updSched_links (f : SchedS → SchedS) : (m.updSched f).links = m.links := rfl
@[simp] theorem Mod.updSched_ft (f : SchedS → SchedS) : (m.updSched f).ft = m.ft := rfl
@[simp] theorem Mod.updSched_saf (f : SchedS → SchedS) : (m.updSched f).saf = m.saf := rfl
@[simp] theorem Mod.updSched_pwr (f : SchedS → SchedS) : (m.updSched f).pwr = m.pwr := rfl
@[simp] theorem Mod.updSched_dies (f : SchedS → SchedS) : (m.updSched f).dies = m.dies := rfl

/-! `Mod.updSec`. -/

@[simp] theorem Mod.updSec_free (f : SecS → SecS) : (m.updSec f).free = m.free := rfl
@[simp] theorem Mod.updSec_ticks (f : SecS → SecS) : (m.updSec f).ticks = m.ticks := rfl
@[simp] theorem Mod.updSec_mod (f : SecS → SecS) : (m.updSec f).mod = m.mod := rfl
@[simp] theorem Mod.updSec_ctr (f : SecS → SecS) : (m.updSec f).ctr = m.ctr := rfl
@[simp] theorem Mod.updSec_kod (f : SecS → SecS) : (m.updSec f).kod = m.kod := rfl
@[simp] theorem Mod.updSec_tiles (f : SecS → SecS) : (m.updSec f).tiles = m.tiles := rfl
@[simp] theorem Mod.updSec_ctxs (f : SecS → SecS) : (m.updSec f).ctxs = m.ctxs := rfl
@[simp] theorem Mod.updSec_uidSeq (f : SecS → SecS) : (m.updSec f).uidSeq = m.uidSeq := rfl
@[simp] theorem Mod.updSec_copies (f : SecS → SecS) : (m.updSec f).copies = m.copies := rfl
@[simp] theorem Mod.updSec_copySeq (f : SecS → SecS) : (m.updSec f).copySeq = m.copySeq := rfl
@[simp] theorem Mod.updSec_halves (f : SecS → SecS) : (m.updSec f).halves = m.halves := rfl
@[simp] theorem Mod.updSec_cache (f : SecS → SecS) : (m.updSec f).cache = m.cache := rfl
@[simp] theorem Mod.updSec_mem (f : SecS → SecS) : (m.updSec f).mem = m.mem := rfl
@[simp] theorem Mod.updSec_parts (f : SecS → SecS) : (m.updSec f).parts = m.parts := rfl
@[simp] theorem Mod.updSec_dbg (f : SecS → SecS) : (m.updSec f).dbg = m.dbg := rfl
@[simp] theorem Mod.updSec_net (f : SecS → SecS) : (m.updSec f).net = m.net := rfl
@[simp] theorem Mod.updSec_sched (f : SecS → SecS) : (m.updSec f).sched = m.sched := rfl
@[simp] theorem Mod.updSec_host (f : SecS → SecS) : (m.updSec f).host = m.host := rfl
@[simp] theorem Mod.updSec_fab (f : SecS → SecS) : (m.updSec f).fab = m.fab := rfl
@[simp] theorem Mod.updSec_seq (f : SecS → SecS) : (m.updSec f).seq = m.seq := rfl
@[simp] theorem Mod.updSec_sec (f : SecS → SecS) : (m.updSec f).sec = f m.sec := rfl
@[simp] theorem Mod.updSec_links (f : SecS → SecS) : (m.updSec f).links = m.links := rfl
@[simp] theorem Mod.updSec_ft (f : SecS → SecS) : (m.updSec f).ft = m.ft := rfl
@[simp] theorem Mod.updSec_saf (f : SecS → SecS) : (m.updSec f).saf = m.saf := rfl
@[simp] theorem Mod.updSec_pwr (f : SecS → SecS) : (m.updSec f).pwr = m.pwr := rfl
@[simp] theorem Mod.updSec_dies (f : SecS → SecS) : (m.updSec f).dies = m.dies := rfl

/-! `Mod.updSeq`. -/

@[simp] theorem Mod.updSeq_free (f : SeqS → SeqS) : (m.updSeq f).free = m.free := rfl
@[simp] theorem Mod.updSeq_ticks (f : SeqS → SeqS) : (m.updSeq f).ticks = m.ticks := rfl
@[simp] theorem Mod.updSeq_mod (f : SeqS → SeqS) : (m.updSeq f).mod = m.mod := rfl
@[simp] theorem Mod.updSeq_ctr (f : SeqS → SeqS) : (m.updSeq f).ctr = m.ctr := rfl
@[simp] theorem Mod.updSeq_kod (f : SeqS → SeqS) : (m.updSeq f).kod = m.kod := rfl
@[simp] theorem Mod.updSeq_tiles (f : SeqS → SeqS) : (m.updSeq f).tiles = m.tiles := rfl
@[simp] theorem Mod.updSeq_ctxs (f : SeqS → SeqS) : (m.updSeq f).ctxs = m.ctxs := rfl
@[simp] theorem Mod.updSeq_uidSeq (f : SeqS → SeqS) : (m.updSeq f).uidSeq = m.uidSeq := rfl
@[simp] theorem Mod.updSeq_copies (f : SeqS → SeqS) : (m.updSeq f).copies = m.copies := rfl
@[simp] theorem Mod.updSeq_copySeq (f : SeqS → SeqS) : (m.updSeq f).copySeq = m.copySeq := rfl
@[simp] theorem Mod.updSeq_halves (f : SeqS → SeqS) : (m.updSeq f).halves = m.halves := rfl
@[simp] theorem Mod.updSeq_cache (f : SeqS → SeqS) : (m.updSeq f).cache = m.cache := rfl
@[simp] theorem Mod.updSeq_mem (f : SeqS → SeqS) : (m.updSeq f).mem = m.mem := rfl
@[simp] theorem Mod.updSeq_parts (f : SeqS → SeqS) : (m.updSeq f).parts = m.parts := rfl
@[simp] theorem Mod.updSeq_dbg (f : SeqS → SeqS) : (m.updSeq f).dbg = m.dbg := rfl
@[simp] theorem Mod.updSeq_net (f : SeqS → SeqS) : (m.updSeq f).net = m.net := rfl
@[simp] theorem Mod.updSeq_sched (f : SeqS → SeqS) : (m.updSeq f).sched = m.sched := rfl
@[simp] theorem Mod.updSeq_host (f : SeqS → SeqS) : (m.updSeq f).host = m.host := rfl
@[simp] theorem Mod.updSeq_fab (f : SeqS → SeqS) : (m.updSeq f).fab = m.fab := rfl
@[simp] theorem Mod.updSeq_seq (f : SeqS → SeqS) : (m.updSeq f).seq = f m.seq := rfl
@[simp] theorem Mod.updSeq_sec (f : SeqS → SeqS) : (m.updSeq f).sec = m.sec := rfl
@[simp] theorem Mod.updSeq_links (f : SeqS → SeqS) : (m.updSeq f).links = m.links := rfl
@[simp] theorem Mod.updSeq_ft (f : SeqS → SeqS) : (m.updSeq f).ft = m.ft := rfl
@[simp] theorem Mod.updSeq_saf (f : SeqS → SeqS) : (m.updSeq f).saf = m.saf := rfl
@[simp] theorem Mod.updSeq_pwr (f : SeqS → SeqS) : (m.updSeq f).pwr = m.pwr := rfl
@[simp] theorem Mod.updSeq_dies (f : SeqS → SeqS) : (m.updSeq f).dies = m.dies := rfl

/-! `Mod.setTile`. -/

@[simp] theorem Mod.setTile_free (t : Nat) (v : Tile) : (m.setTile t v).free = m.free := rfl
@[simp] theorem Mod.setTile_ticks (t : Nat) (v : Tile) : (m.setTile t v).ticks = m.ticks := rfl
@[simp] theorem Mod.setTile_mod (t : Nat) (v : Tile) : (m.setTile t v).mod = m.mod := rfl
@[simp] theorem Mod.setTile_ctr (t : Nat) (v : Tile) : (m.setTile t v).ctr = m.ctr := rfl
@[simp] theorem Mod.setTile_kod (t : Nat) (v : Tile) : (m.setTile t v).kod = m.kod := rfl
@[simp] theorem Mod.setTile_tiles (t : Nat) (v : Tile) : (m.setTile t v).tiles = m.tiles.put t v := rfl
@[simp] theorem Mod.setTile_ctxs (t : Nat) (v : Tile) : (m.setTile t v).ctxs = m.ctxs := rfl
@[simp] theorem Mod.setTile_uidSeq (t : Nat) (v : Tile) : (m.setTile t v).uidSeq = m.uidSeq := rfl
@[simp] theorem Mod.setTile_copies (t : Nat) (v : Tile) : (m.setTile t v).copies = m.copies := rfl
@[simp] theorem Mod.setTile_copySeq (t : Nat) (v : Tile) : (m.setTile t v).copySeq = m.copySeq := rfl
@[simp] theorem Mod.setTile_halves (t : Nat) (v : Tile) : (m.setTile t v).halves = m.halves := rfl
@[simp] theorem Mod.setTile_cache (t : Nat) (v : Tile) : (m.setTile t v).cache = m.cache := rfl
@[simp] theorem Mod.setTile_mem (t : Nat) (v : Tile) : (m.setTile t v).mem = m.mem := rfl
@[simp] theorem Mod.setTile_parts (t : Nat) (v : Tile) : (m.setTile t v).parts = m.parts := rfl
@[simp] theorem Mod.setTile_dbg (t : Nat) (v : Tile) : (m.setTile t v).dbg = m.dbg := rfl
@[simp] theorem Mod.setTile_net (t : Nat) (v : Tile) : (m.setTile t v).net = m.net := rfl
@[simp] theorem Mod.setTile_sched (t : Nat) (v : Tile) : (m.setTile t v).sched = m.sched := rfl
@[simp] theorem Mod.setTile_host (t : Nat) (v : Tile) : (m.setTile t v).host = m.host := rfl
@[simp] theorem Mod.setTile_fab (t : Nat) (v : Tile) : (m.setTile t v).fab = m.fab := rfl
@[simp] theorem Mod.setTile_seq (t : Nat) (v : Tile) : (m.setTile t v).seq = m.seq := rfl
@[simp] theorem Mod.setTile_sec (t : Nat) (v : Tile) : (m.setTile t v).sec = m.sec := rfl
@[simp] theorem Mod.setTile_links (t : Nat) (v : Tile) : (m.setTile t v).links = m.links := rfl
@[simp] theorem Mod.setTile_ft (t : Nat) (v : Tile) : (m.setTile t v).ft = m.ft := rfl
@[simp] theorem Mod.setTile_saf (t : Nat) (v : Tile) : (m.setTile t v).saf = m.saf := rfl
@[simp] theorem Mod.setTile_pwr (t : Nat) (v : Tile) : (m.setTile t v).pwr = m.pwr := rfl
@[simp] theorem Mod.setTile_dies (t : Nat) (v : Tile) : (m.setTile t v).dies = m.dies := rfl

/-! `Mod.setCtx`. -/

@[simp] theorem Mod.setCtx_free (t i : Nat) (v : Ctx) : (m.setCtx t i v).free = m.free := rfl
@[simp] theorem Mod.setCtx_ticks (t i : Nat) (v : Ctx) : (m.setCtx t i v).ticks = m.ticks := rfl
@[simp] theorem Mod.setCtx_mod (t i : Nat) (v : Ctx) : (m.setCtx t i v).mod = m.mod := rfl
@[simp] theorem Mod.setCtx_ctr (t i : Nat) (v : Ctx) : (m.setCtx t i v).ctr = m.ctr := rfl
@[simp] theorem Mod.setCtx_kod (t i : Nat) (v : Ctx) : (m.setCtx t i v).kod = m.kod := rfl
@[simp] theorem Mod.setCtx_tiles (t i : Nat) (v : Ctx) : (m.setCtx t i v).tiles = m.tiles := rfl
@[simp] theorem Mod.setCtx_ctxs (t i : Nat) (v : Ctx) : (m.setCtx t i v).ctxs = m.ctxs.put (ctxKey t i) v := rfl
@[simp] theorem Mod.setCtx_uidSeq (t i : Nat) (v : Ctx) : (m.setCtx t i v).uidSeq = m.uidSeq := rfl
@[simp] theorem Mod.setCtx_copies (t i : Nat) (v : Ctx) : (m.setCtx t i v).copies = m.copies := rfl
@[simp] theorem Mod.setCtx_copySeq (t i : Nat) (v : Ctx) : (m.setCtx t i v).copySeq = m.copySeq := rfl
@[simp] theorem Mod.setCtx_halves (t i : Nat) (v : Ctx) : (m.setCtx t i v).halves = m.halves := rfl
@[simp] theorem Mod.setCtx_cache (t i : Nat) (v : Ctx) : (m.setCtx t i v).cache = m.cache := rfl
@[simp] theorem Mod.setCtx_mem (t i : Nat) (v : Ctx) : (m.setCtx t i v).mem = m.mem := rfl
@[simp] theorem Mod.setCtx_parts (t i : Nat) (v : Ctx) : (m.setCtx t i v).parts = m.parts := rfl
@[simp] theorem Mod.setCtx_dbg (t i : Nat) (v : Ctx) : (m.setCtx t i v).dbg = m.dbg := rfl
@[simp] theorem Mod.setCtx_net (t i : Nat) (v : Ctx) : (m.setCtx t i v).net = m.net := rfl
@[simp] theorem Mod.setCtx_sched (t i : Nat) (v : Ctx) : (m.setCtx t i v).sched = m.sched := rfl
@[simp] theorem Mod.setCtx_host (t i : Nat) (v : Ctx) : (m.setCtx t i v).host = m.host := rfl
@[simp] theorem Mod.setCtx_fab (t i : Nat) (v : Ctx) : (m.setCtx t i v).fab = m.fab := rfl
@[simp] theorem Mod.setCtx_seq (t i : Nat) (v : Ctx) : (m.setCtx t i v).seq = m.seq := rfl
@[simp] theorem Mod.setCtx_sec (t i : Nat) (v : Ctx) : (m.setCtx t i v).sec = m.sec := rfl
@[simp] theorem Mod.setCtx_links (t i : Nat) (v : Ctx) : (m.setCtx t i v).links = m.links := rfl
@[simp] theorem Mod.setCtx_ft (t i : Nat) (v : Ctx) : (m.setCtx t i v).ft = m.ft := rfl
@[simp] theorem Mod.setCtx_saf (t i : Nat) (v : Ctx) : (m.setCtx t i v).saf = m.saf := rfl
@[simp] theorem Mod.setCtx_pwr (t i : Nat) (v : Ctx) : (m.setCtx t i v).pwr = m.pwr := rfl
@[simp] theorem Mod.setCtx_dies (t i : Nat) (v : Ctx) : (m.setCtx t i v).dies = m.dies := rfl

/-! `Mod.setHalf`. -/

@[simp] theorem Mod.setHalf_free (h : Nat) (v : Half) : (m.setHalf h v).free = m.free := rfl
@[simp] theorem Mod.setHalf_ticks (h : Nat) (v : Half) : (m.setHalf h v).ticks = m.ticks := rfl
@[simp] theorem Mod.setHalf_mod (h : Nat) (v : Half) : (m.setHalf h v).mod = m.mod := rfl
@[simp] theorem Mod.setHalf_ctr (h : Nat) (v : Half) : (m.setHalf h v).ctr = m.ctr := rfl
@[simp] theorem Mod.setHalf_kod (h : Nat) (v : Half) : (m.setHalf h v).kod = m.kod := rfl
@[simp] theorem Mod.setHalf_tiles (h : Nat) (v : Half) : (m.setHalf h v).tiles = m.tiles := rfl
@[simp] theorem Mod.setHalf_ctxs (h : Nat) (v : Half) : (m.setHalf h v).ctxs = m.ctxs := rfl
@[simp] theorem Mod.setHalf_uidSeq (h : Nat) (v : Half) : (m.setHalf h v).uidSeq = m.uidSeq := rfl
@[simp] theorem Mod.setHalf_copies (h : Nat) (v : Half) : (m.setHalf h v).copies = m.copies := rfl
@[simp] theorem Mod.setHalf_copySeq (h : Nat) (v : Half) : (m.setHalf h v).copySeq = m.copySeq := rfl
@[simp] theorem Mod.setHalf_halves (h : Nat) (v : Half) : (m.setHalf h v).halves = m.halves.put h v := rfl
@[simp] theorem Mod.setHalf_cache (h : Nat) (v : Half) : (m.setHalf h v).cache = m.cache := rfl
@[simp] theorem Mod.setHalf_mem (h : Nat) (v : Half) : (m.setHalf h v).mem = m.mem := rfl
@[simp] theorem Mod.setHalf_parts (h : Nat) (v : Half) : (m.setHalf h v).parts = m.parts := rfl
@[simp] theorem Mod.setHalf_dbg (h : Nat) (v : Half) : (m.setHalf h v).dbg = m.dbg := rfl
@[simp] theorem Mod.setHalf_net (h : Nat) (v : Half) : (m.setHalf h v).net = m.net := rfl
@[simp] theorem Mod.setHalf_sched (h : Nat) (v : Half) : (m.setHalf h v).sched = m.sched := rfl
@[simp] theorem Mod.setHalf_host (h : Nat) (v : Half) : (m.setHalf h v).host = m.host := rfl
@[simp] theorem Mod.setHalf_fab (h : Nat) (v : Half) : (m.setHalf h v).fab = m.fab := rfl
@[simp] theorem Mod.setHalf_seq (h : Nat) (v : Half) : (m.setHalf h v).seq = m.seq := rfl
@[simp] theorem Mod.setHalf_sec (h : Nat) (v : Half) : (m.setHalf h v).sec = m.sec := rfl
@[simp] theorem Mod.setHalf_links (h : Nat) (v : Half) : (m.setHalf h v).links = m.links := rfl
@[simp] theorem Mod.setHalf_ft (h : Nat) (v : Half) : (m.setHalf h v).ft = m.ft := rfl
@[simp] theorem Mod.setHalf_saf (h : Nat) (v : Half) : (m.setHalf h v).saf = m.saf := rfl
@[simp] theorem Mod.setHalf_pwr (h : Nat) (v : Half) : (m.setHalf h v).pwr = m.pwr := rfl
@[simp] theorem Mod.setHalf_dies (h : Nat) (v : Half) : (m.setHalf h v).dies = m.dies := rfl

/-! `Mod.updDie`. -/

@[simp] theorem Mod.updDie_free (d : Nat) (f : DieS → DieS) : (m.updDie d f).free = m.free := rfl
@[simp] theorem Mod.updDie_ticks (d : Nat) (f : DieS → DieS) : (m.updDie d f).ticks = m.ticks := rfl
@[simp] theorem Mod.updDie_mod (d : Nat) (f : DieS → DieS) : (m.updDie d f).mod = m.mod := rfl
@[simp] theorem Mod.updDie_ctr (d : Nat) (f : DieS → DieS) : (m.updDie d f).ctr = m.ctr := rfl
@[simp] theorem Mod.updDie_kod (d : Nat) (f : DieS → DieS) : (m.updDie d f).kod = m.kod := rfl
@[simp] theorem Mod.updDie_tiles (d : Nat) (f : DieS → DieS) : (m.updDie d f).tiles = m.tiles := rfl
@[simp] theorem Mod.updDie_ctxs (d : Nat) (f : DieS → DieS) : (m.updDie d f).ctxs = m.ctxs := rfl
@[simp] theorem Mod.updDie_uidSeq (d : Nat) (f : DieS → DieS) : (m.updDie d f).uidSeq = m.uidSeq := rfl
@[simp] theorem Mod.updDie_copies (d : Nat) (f : DieS → DieS) : (m.updDie d f).copies = m.copies := rfl
@[simp] theorem Mod.updDie_copySeq (d : Nat) (f : DieS → DieS) : (m.updDie d f).copySeq = m.copySeq := rfl
@[simp] theorem Mod.updDie_halves (d : Nat) (f : DieS → DieS) : (m.updDie d f).halves = m.halves := rfl
@[simp] theorem Mod.updDie_cache (d : Nat) (f : DieS → DieS) : (m.updDie d f).cache = m.cache := rfl
@[simp] theorem Mod.updDie_mem (d : Nat) (f : DieS → DieS) : (m.updDie d f).mem = m.mem := rfl
@[simp] theorem Mod.updDie_parts (d : Nat) (f : DieS → DieS) : (m.updDie d f).parts = m.parts := rfl
@[simp] theorem Mod.updDie_dbg (d : Nat) (f : DieS → DieS) : (m.updDie d f).dbg = m.dbg := rfl
@[simp] theorem Mod.updDie_net (d : Nat) (f : DieS → DieS) : (m.updDie d f).net = m.net := rfl
@[simp] theorem Mod.updDie_sched (d : Nat) (f : DieS → DieS) : (m.updDie d f).sched = m.sched := rfl
@[simp] theorem Mod.updDie_host (d : Nat) (f : DieS → DieS) : (m.updDie d f).host = m.host := rfl
@[simp] theorem Mod.updDie_fab (d : Nat) (f : DieS → DieS) : (m.updDie d f).fab = m.fab := rfl
@[simp] theorem Mod.updDie_seq (d : Nat) (f : DieS → DieS) : (m.updDie d f).seq = m.seq := rfl
@[simp] theorem Mod.updDie_sec (d : Nat) (f : DieS → DieS) : (m.updDie d f).sec = m.sec := rfl
@[simp] theorem Mod.updDie_links (d : Nat) (f : DieS → DieS) : (m.updDie d f).links = m.links := rfl
@[simp] theorem Mod.updDie_ft (d : Nat) (f : DieS → DieS) : (m.updDie d f).ft = m.ft := rfl
@[simp] theorem Mod.updDie_saf (d : Nat) (f : DieS → DieS) : (m.updDie d f).saf = m.saf := rfl
@[simp] theorem Mod.updDie_pwr (d : Nat) (f : DieS → DieS) : (m.updDie d f).pwr = m.pwr := rfl
@[simp] theorem Mod.updDie_dies (d : Nat) (f : DieS → DieS) : (m.updDie d f).dies = m.dies.put d (f (m.die d)) := rfl

/-! `Mod.setPart`: only `parts` changes. -/

@[simp] theorem Mod.setPart_free (p : Nat) (v : Part) : (m.setPart p v).free = m.free := rfl
@[simp] theorem Mod.setPart_ticks (p : Nat) (v : Part) : (m.setPart p v).ticks = m.ticks := rfl
@[simp] theorem Mod.setPart_mod (p : Nat) (v : Part) : (m.setPart p v).mod = m.mod := rfl
@[simp] theorem Mod.setPart_ctr (p : Nat) (v : Part) : (m.setPart p v).ctr = m.ctr := rfl
@[simp] theorem Mod.setPart_kod (p : Nat) (v : Part) : (m.setPart p v).kod = m.kod := rfl
@[simp] theorem Mod.setPart_tiles (p : Nat) (v : Part) : (m.setPart p v).tiles = m.tiles := rfl
@[simp] theorem Mod.setPart_ctxs (p : Nat) (v : Part) : (m.setPart p v).ctxs = m.ctxs := rfl
@[simp] theorem Mod.setPart_uidSeq (p : Nat) (v : Part) : (m.setPart p v).uidSeq = m.uidSeq := rfl
@[simp] theorem Mod.setPart_copies (p : Nat) (v : Part) : (m.setPart p v).copies = m.copies := rfl
@[simp] theorem Mod.setPart_copySeq (p : Nat) (v : Part) : (m.setPart p v).copySeq = m.copySeq := rfl
@[simp] theorem Mod.setPart_halves (p : Nat) (v : Part) : (m.setPart p v).halves = m.halves := rfl
@[simp] theorem Mod.setPart_cache (p : Nat) (v : Part) : (m.setPart p v).cache = m.cache := rfl
@[simp] theorem Mod.setPart_mem (p : Nat) (v : Part) : (m.setPart p v).mem = m.mem := rfl
@[simp] theorem Mod.setPart_dbg (p : Nat) (v : Part) : (m.setPart p v).dbg = m.dbg := rfl
@[simp] theorem Mod.setPart_net (p : Nat) (v : Part) : (m.setPart p v).net = m.net := rfl
@[simp] theorem Mod.setPart_sched (p : Nat) (v : Part) : (m.setPart p v).sched = m.sched := rfl
@[simp] theorem Mod.setPart_host (p : Nat) (v : Part) : (m.setPart p v).host = m.host := rfl
@[simp] theorem Mod.setPart_fab (p : Nat) (v : Part) : (m.setPart p v).fab = m.fab := rfl
@[simp] theorem Mod.setPart_seq (p : Nat) (v : Part) : (m.setPart p v).seq = m.seq := rfl
@[simp] theorem Mod.setPart_sec (p : Nat) (v : Part) : (m.setPart p v).sec = m.sec := rfl
@[simp] theorem Mod.setPart_links (p : Nat) (v : Part) : (m.setPart p v).links = m.links := rfl
@[simp] theorem Mod.setPart_ft (p : Nat) (v : Part) : (m.setPart p v).ft = m.ft := rfl
@[simp] theorem Mod.setPart_saf (p : Nat) (v : Part) : (m.setPart p v).saf = m.saf := rfl
@[simp] theorem Mod.setPart_pwr (p : Nat) (v : Part) : (m.setPart p v).pwr = m.pwr := rfl
@[simp] theorem Mod.setPart_dies (p : Nat) (v : Part) : (m.setPart p v).dies = m.dies := rfl

/-! `Mod.updPart`: only `parts` changes. -/

@[simp] theorem Mod.updPart_free (p : Nat) (f : Part → Part) : (m.updPart p f).free = m.free := rfl
@[simp] theorem Mod.updPart_ticks (p : Nat) (f : Part → Part) : (m.updPart p f).ticks = m.ticks := rfl
@[simp] theorem Mod.updPart_mod (p : Nat) (f : Part → Part) : (m.updPart p f).mod = m.mod := rfl
@[simp] theorem Mod.updPart_ctr (p : Nat) (f : Part → Part) : (m.updPart p f).ctr = m.ctr := rfl
@[simp] theorem Mod.updPart_kod (p : Nat) (f : Part → Part) : (m.updPart p f).kod = m.kod := rfl
@[simp] theorem Mod.updPart_tiles (p : Nat) (f : Part → Part) : (m.updPart p f).tiles = m.tiles := rfl
@[simp] theorem Mod.updPart_ctxs (p : Nat) (f : Part → Part) : (m.updPart p f).ctxs = m.ctxs := rfl
@[simp] theorem Mod.updPart_uidSeq (p : Nat) (f : Part → Part) : (m.updPart p f).uidSeq = m.uidSeq := rfl
@[simp] theorem Mod.updPart_copies (p : Nat) (f : Part → Part) : (m.updPart p f).copies = m.copies := rfl
@[simp] theorem Mod.updPart_copySeq (p : Nat) (f : Part → Part) : (m.updPart p f).copySeq = m.copySeq := rfl
@[simp] theorem Mod.updPart_halves (p : Nat) (f : Part → Part) : (m.updPart p f).halves = m.halves := rfl
@[simp] theorem Mod.updPart_cache (p : Nat) (f : Part → Part) : (m.updPart p f).cache = m.cache := rfl
@[simp] theorem Mod.updPart_mem (p : Nat) (f : Part → Part) : (m.updPart p f).mem = m.mem := rfl
@[simp] theorem Mod.updPart_dbg (p : Nat) (f : Part → Part) : (m.updPart p f).dbg = m.dbg := rfl
@[simp] theorem Mod.updPart_net (p : Nat) (f : Part → Part) : (m.updPart p f).net = m.net := rfl
@[simp] theorem Mod.updPart_sched (p : Nat) (f : Part → Part) : (m.updPart p f).sched = m.sched := rfl
@[simp] theorem Mod.updPart_host (p : Nat) (f : Part → Part) : (m.updPart p f).host = m.host := rfl
@[simp] theorem Mod.updPart_fab (p : Nat) (f : Part → Part) : (m.updPart p f).fab = m.fab := rfl
@[simp] theorem Mod.updPart_seq (p : Nat) (f : Part → Part) : (m.updPart p f).seq = m.seq := rfl
@[simp] theorem Mod.updPart_sec (p : Nat) (f : Part → Part) : (m.updPart p f).sec = m.sec := rfl
@[simp] theorem Mod.updPart_links (p : Nat) (f : Part → Part) : (m.updPart p f).links = m.links := rfl
@[simp] theorem Mod.updPart_ft (p : Nat) (f : Part → Part) : (m.updPart p f).ft = m.ft := rfl
@[simp] theorem Mod.updPart_saf (p : Nat) (f : Part → Part) : (m.updPart p f).saf = m.saf := rfl
@[simp] theorem Mod.updPart_pwr (p : Nat) (f : Part → Part) : (m.updPart p f).pwr = m.pwr := rfl
@[simp] theorem Mod.updPart_dies (p : Nat) (f : Part → Part) : (m.updPart p f).dies = m.dies := rfl

/-! `Mod.updStack`: only `mem` changes. -/

@[simp] theorem Mod.updStack_free (i : Nat) (f : Stack → Stack) : (m.updStack i f).free = m.free := rfl
@[simp] theorem Mod.updStack_ticks (i : Nat) (f : Stack → Stack) : (m.updStack i f).ticks = m.ticks := rfl
@[simp] theorem Mod.updStack_mod (i : Nat) (f : Stack → Stack) : (m.updStack i f).mod = m.mod := rfl
@[simp] theorem Mod.updStack_ctr (i : Nat) (f : Stack → Stack) : (m.updStack i f).ctr = m.ctr := rfl
@[simp] theorem Mod.updStack_kod (i : Nat) (f : Stack → Stack) : (m.updStack i f).kod = m.kod := rfl
@[simp] theorem Mod.updStack_tiles (i : Nat) (f : Stack → Stack) : (m.updStack i f).tiles = m.tiles := rfl
@[simp] theorem Mod.updStack_ctxs (i : Nat) (f : Stack → Stack) : (m.updStack i f).ctxs = m.ctxs := rfl
@[simp] theorem Mod.updStack_uidSeq (i : Nat) (f : Stack → Stack) : (m.updStack i f).uidSeq = m.uidSeq := rfl
@[simp] theorem Mod.updStack_copies (i : Nat) (f : Stack → Stack) : (m.updStack i f).copies = m.copies := rfl
@[simp] theorem Mod.updStack_copySeq (i : Nat) (f : Stack → Stack) : (m.updStack i f).copySeq = m.copySeq := rfl
@[simp] theorem Mod.updStack_halves (i : Nat) (f : Stack → Stack) : (m.updStack i f).halves = m.halves := rfl
@[simp] theorem Mod.updStack_cache (i : Nat) (f : Stack → Stack) : (m.updStack i f).cache = m.cache := rfl
@[simp] theorem Mod.updStack_parts (i : Nat) (f : Stack → Stack) : (m.updStack i f).parts = m.parts := rfl
@[simp] theorem Mod.updStack_dbg (i : Nat) (f : Stack → Stack) : (m.updStack i f).dbg = m.dbg := rfl
@[simp] theorem Mod.updStack_net (i : Nat) (f : Stack → Stack) : (m.updStack i f).net = m.net := rfl
@[simp] theorem Mod.updStack_sched (i : Nat) (f : Stack → Stack) : (m.updStack i f).sched = m.sched := rfl
@[simp] theorem Mod.updStack_host (i : Nat) (f : Stack → Stack) : (m.updStack i f).host = m.host := rfl
@[simp] theorem Mod.updStack_fab (i : Nat) (f : Stack → Stack) : (m.updStack i f).fab = m.fab := rfl
@[simp] theorem Mod.updStack_seq (i : Nat) (f : Stack → Stack) : (m.updStack i f).seq = m.seq := rfl
@[simp] theorem Mod.updStack_sec (i : Nat) (f : Stack → Stack) : (m.updStack i f).sec = m.sec := rfl
@[simp] theorem Mod.updStack_links (i : Nat) (f : Stack → Stack) : (m.updStack i f).links = m.links := rfl
@[simp] theorem Mod.updStack_ft (i : Nat) (f : Stack → Stack) : (m.updStack i f).ft = m.ft := rfl
@[simp] theorem Mod.updStack_saf (i : Nat) (f : Stack → Stack) : (m.updStack i f).saf = m.saf := rfl
@[simp] theorem Mod.updStack_pwr (i : Nat) (f : Stack → Stack) : (m.updStack i f).pwr = m.pwr := rfl
@[simp] theorem Mod.updStack_dies (i : Nat) (f : Stack → Stack) : (m.updStack i f).dies = m.dies := rfl

/-! `Mod.updChan`: only `mem` changes. -/

@[simp] theorem Mod.updChan_free (i c : Nat) (f : Chan → Chan) : (m.updChan i c f).free = m.free := rfl
@[simp] theorem Mod.updChan_ticks (i c : Nat) (f : Chan → Chan) : (m.updChan i c f).ticks = m.ticks := rfl
@[simp] theorem Mod.updChan_mod (i c : Nat) (f : Chan → Chan) : (m.updChan i c f).mod = m.mod := rfl
@[simp] theorem Mod.updChan_ctr (i c : Nat) (f : Chan → Chan) : (m.updChan i c f).ctr = m.ctr := rfl
@[simp] theorem Mod.updChan_kod (i c : Nat) (f : Chan → Chan) : (m.updChan i c f).kod = m.kod := rfl
@[simp] theorem Mod.updChan_tiles (i c : Nat) (f : Chan → Chan) : (m.updChan i c f).tiles = m.tiles := rfl
@[simp] theorem Mod.updChan_ctxs (i c : Nat) (f : Chan → Chan) : (m.updChan i c f).ctxs = m.ctxs := rfl
@[simp] theorem Mod.updChan_uidSeq (i c : Nat) (f : Chan → Chan) : (m.updChan i c f).uidSeq = m.uidSeq := rfl
@[simp] theorem Mod.updChan_copies (i c : Nat) (f : Chan → Chan) : (m.updChan i c f).copies = m.copies := rfl
@[simp] theorem Mod.updChan_copySeq (i c : Nat) (f : Chan → Chan) : (m.updChan i c f).copySeq = m.copySeq := rfl
@[simp] theorem Mod.updChan_halves (i c : Nat) (f : Chan → Chan) : (m.updChan i c f).halves = m.halves := rfl
@[simp] theorem Mod.updChan_cache (i c : Nat) (f : Chan → Chan) : (m.updChan i c f).cache = m.cache := rfl
@[simp] theorem Mod.updChan_parts (i c : Nat) (f : Chan → Chan) : (m.updChan i c f).parts = m.parts := rfl
@[simp] theorem Mod.updChan_dbg (i c : Nat) (f : Chan → Chan) : (m.updChan i c f).dbg = m.dbg := rfl
@[simp] theorem Mod.updChan_net (i c : Nat) (f : Chan → Chan) : (m.updChan i c f).net = m.net := rfl
@[simp] theorem Mod.updChan_sched (i c : Nat) (f : Chan → Chan) : (m.updChan i c f).sched = m.sched := rfl
@[simp] theorem Mod.updChan_host (i c : Nat) (f : Chan → Chan) : (m.updChan i c f).host = m.host := rfl
@[simp] theorem Mod.updChan_fab (i c : Nat) (f : Chan → Chan) : (m.updChan i c f).fab = m.fab := rfl
@[simp] theorem Mod.updChan_seq (i c : Nat) (f : Chan → Chan) : (m.updChan i c f).seq = m.seq := rfl
@[simp] theorem Mod.updChan_sec (i c : Nat) (f : Chan → Chan) : (m.updChan i c f).sec = m.sec := rfl
@[simp] theorem Mod.updChan_links (i c : Nat) (f : Chan → Chan) : (m.updChan i c f).links = m.links := rfl
@[simp] theorem Mod.updChan_ft (i c : Nat) (f : Chan → Chan) : (m.updChan i c f).ft = m.ft := rfl
@[simp] theorem Mod.updChan_saf (i c : Nat) (f : Chan → Chan) : (m.updChan i c f).saf = m.saf := rfl
@[simp] theorem Mod.updChan_pwr (i c : Nat) (f : Chan → Chan) : (m.updChan i c f).pwr = m.pwr := rfl
@[simp] theorem Mod.updChan_dies (i c : Nat) (f : Chan → Chan) : (m.updChan i c f).dies = m.dies := rfl

/-! `Mod.updTile`: only `tiles` changes. -/

@[simp] theorem Mod.updTile_free (t : Nat) (f : Tile → Tile) : (m.updTile t f).free = m.free := rfl
@[simp] theorem Mod.updTile_ticks (t : Nat) (f : Tile → Tile) : (m.updTile t f).ticks = m.ticks := rfl
@[simp] theorem Mod.updTile_mod (t : Nat) (f : Tile → Tile) : (m.updTile t f).mod = m.mod := rfl
@[simp] theorem Mod.updTile_ctr (t : Nat) (f : Tile → Tile) : (m.updTile t f).ctr = m.ctr := rfl
@[simp] theorem Mod.updTile_kod (t : Nat) (f : Tile → Tile) : (m.updTile t f).kod = m.kod := rfl
@[simp] theorem Mod.updTile_ctxs (t : Nat) (f : Tile → Tile) : (m.updTile t f).ctxs = m.ctxs := rfl
@[simp] theorem Mod.updTile_uidSeq (t : Nat) (f : Tile → Tile) : (m.updTile t f).uidSeq = m.uidSeq := rfl
@[simp] theorem Mod.updTile_copies (t : Nat) (f : Tile → Tile) : (m.updTile t f).copies = m.copies := rfl
@[simp] theorem Mod.updTile_copySeq (t : Nat) (f : Tile → Tile) : (m.updTile t f).copySeq = m.copySeq := rfl
@[simp] theorem Mod.updTile_halves (t : Nat) (f : Tile → Tile) : (m.updTile t f).halves = m.halves := rfl
@[simp] theorem Mod.updTile_cache (t : Nat) (f : Tile → Tile) : (m.updTile t f).cache = m.cache := rfl
@[simp] theorem Mod.updTile_mem (t : Nat) (f : Tile → Tile) : (m.updTile t f).mem = m.mem := rfl
@[simp] theorem Mod.updTile_parts (t : Nat) (f : Tile → Tile) : (m.updTile t f).parts = m.parts := rfl
@[simp] theorem Mod.updTile_dbg (t : Nat) (f : Tile → Tile) : (m.updTile t f).dbg = m.dbg := rfl
@[simp] theorem Mod.updTile_net (t : Nat) (f : Tile → Tile) : (m.updTile t f).net = m.net := rfl
@[simp] theorem Mod.updTile_sched (t : Nat) (f : Tile → Tile) : (m.updTile t f).sched = m.sched := rfl
@[simp] theorem Mod.updTile_host (t : Nat) (f : Tile → Tile) : (m.updTile t f).host = m.host := rfl
@[simp] theorem Mod.updTile_fab (t : Nat) (f : Tile → Tile) : (m.updTile t f).fab = m.fab := rfl
@[simp] theorem Mod.updTile_seq (t : Nat) (f : Tile → Tile) : (m.updTile t f).seq = m.seq := rfl
@[simp] theorem Mod.updTile_sec (t : Nat) (f : Tile → Tile) : (m.updTile t f).sec = m.sec := rfl
@[simp] theorem Mod.updTile_links (t : Nat) (f : Tile → Tile) : (m.updTile t f).links = m.links := rfl
@[simp] theorem Mod.updTile_ft (t : Nat) (f : Tile → Tile) : (m.updTile t f).ft = m.ft := rfl
@[simp] theorem Mod.updTile_saf (t : Nat) (f : Tile → Tile) : (m.updTile t f).saf = m.saf := rfl
@[simp] theorem Mod.updTile_pwr (t : Nat) (f : Tile → Tile) : (m.updTile t f).pwr = m.pwr := rfl
@[simp] theorem Mod.updTile_dies (t : Nat) (f : Tile → Tile) : (m.updTile t f).dies = m.dies := rfl

/-! `Mod.updCtx`: only `ctxs` changes. -/

@[simp] theorem Mod.updCtx_free (t i : Nat) (f : Ctx → Ctx) : (m.updCtx t i f).free = m.free := rfl
@[simp] theorem Mod.updCtx_ticks (t i : Nat) (f : Ctx → Ctx) : (m.updCtx t i f).ticks = m.ticks := rfl
@[simp] theorem Mod.updCtx_mod (t i : Nat) (f : Ctx → Ctx) : (m.updCtx t i f).mod = m.mod := rfl
@[simp] theorem Mod.updCtx_ctr (t i : Nat) (f : Ctx → Ctx) : (m.updCtx t i f).ctr = m.ctr := rfl
@[simp] theorem Mod.updCtx_kod (t i : Nat) (f : Ctx → Ctx) : (m.updCtx t i f).kod = m.kod := rfl
@[simp] theorem Mod.updCtx_tiles (t i : Nat) (f : Ctx → Ctx) : (m.updCtx t i f).tiles = m.tiles := rfl
@[simp] theorem Mod.updCtx_uidSeq (t i : Nat) (f : Ctx → Ctx) : (m.updCtx t i f).uidSeq = m.uidSeq := rfl
@[simp] theorem Mod.updCtx_copies (t i : Nat) (f : Ctx → Ctx) : (m.updCtx t i f).copies = m.copies := rfl
@[simp] theorem Mod.updCtx_copySeq (t i : Nat) (f : Ctx → Ctx) : (m.updCtx t i f).copySeq = m.copySeq := rfl
@[simp] theorem Mod.updCtx_halves (t i : Nat) (f : Ctx → Ctx) : (m.updCtx t i f).halves = m.halves := rfl
@[simp] theorem Mod.updCtx_cache (t i : Nat) (f : Ctx → Ctx) : (m.updCtx t i f).cache = m.cache := rfl
@[simp] theorem Mod.updCtx_mem (t i : Nat) (f : Ctx → Ctx) : (m.updCtx t i f).mem = m.mem := rfl
@[simp] theorem Mod.updCtx_parts (t i : Nat) (f : Ctx → Ctx) : (m.updCtx t i f).parts = m.parts := rfl
@[simp] theorem Mod.updCtx_dbg (t i : Nat) (f : Ctx → Ctx) : (m.updCtx t i f).dbg = m.dbg := rfl
@[simp] theorem Mod.updCtx_net (t i : Nat) (f : Ctx → Ctx) : (m.updCtx t i f).net = m.net := rfl
@[simp] theorem Mod.updCtx_sched (t i : Nat) (f : Ctx → Ctx) : (m.updCtx t i f).sched = m.sched := rfl
@[simp] theorem Mod.updCtx_host (t i : Nat) (f : Ctx → Ctx) : (m.updCtx t i f).host = m.host := rfl
@[simp] theorem Mod.updCtx_fab (t i : Nat) (f : Ctx → Ctx) : (m.updCtx t i f).fab = m.fab := rfl
@[simp] theorem Mod.updCtx_seq (t i : Nat) (f : Ctx → Ctx) : (m.updCtx t i f).seq = m.seq := rfl
@[simp] theorem Mod.updCtx_sec (t i : Nat) (f : Ctx → Ctx) : (m.updCtx t i f).sec = m.sec := rfl
@[simp] theorem Mod.updCtx_links (t i : Nat) (f : Ctx → Ctx) : (m.updCtx t i f).links = m.links := rfl
@[simp] theorem Mod.updCtx_ft (t i : Nat) (f : Ctx → Ctx) : (m.updCtx t i f).ft = m.ft := rfl
@[simp] theorem Mod.updCtx_saf (t i : Nat) (f : Ctx → Ctx) : (m.updCtx t i f).saf = m.saf := rfl
@[simp] theorem Mod.updCtx_pwr (t i : Nat) (f : Ctx → Ctx) : (m.updCtx t i f).pwr = m.pwr := rfl
@[simp] theorem Mod.updCtx_dies (t i : Nat) (f : Ctx → Ctx) : (m.updCtx t i f).dies = m.dies := rfl

/-! `Mod.updHalf`: only `halves` changes. -/

@[simp] theorem Mod.updHalf_free (h : Nat) (f : Half → Half) : (m.updHalf h f).free = m.free := rfl
@[simp] theorem Mod.updHalf_ticks (h : Nat) (f : Half → Half) : (m.updHalf h f).ticks = m.ticks := rfl
@[simp] theorem Mod.updHalf_mod (h : Nat) (f : Half → Half) : (m.updHalf h f).mod = m.mod := rfl
@[simp] theorem Mod.updHalf_ctr (h : Nat) (f : Half → Half) : (m.updHalf h f).ctr = m.ctr := rfl
@[simp] theorem Mod.updHalf_kod (h : Nat) (f : Half → Half) : (m.updHalf h f).kod = m.kod := rfl
@[simp] theorem Mod.updHalf_tiles (h : Nat) (f : Half → Half) : (m.updHalf h f).tiles = m.tiles := rfl
@[simp] theorem Mod.updHalf_ctxs (h : Nat) (f : Half → Half) : (m.updHalf h f).ctxs = m.ctxs := rfl
@[simp] theorem Mod.updHalf_uidSeq (h : Nat) (f : Half → Half) : (m.updHalf h f).uidSeq = m.uidSeq := rfl
@[simp] theorem Mod.updHalf_copies (h : Nat) (f : Half → Half) : (m.updHalf h f).copies = m.copies := rfl
@[simp] theorem Mod.updHalf_copySeq (h : Nat) (f : Half → Half) : (m.updHalf h f).copySeq = m.copySeq := rfl
@[simp] theorem Mod.updHalf_cache (h : Nat) (f : Half → Half) : (m.updHalf h f).cache = m.cache := rfl
@[simp] theorem Mod.updHalf_mem (h : Nat) (f : Half → Half) : (m.updHalf h f).mem = m.mem := rfl
@[simp] theorem Mod.updHalf_parts (h : Nat) (f : Half → Half) : (m.updHalf h f).parts = m.parts := rfl
@[simp] theorem Mod.updHalf_dbg (h : Nat) (f : Half → Half) : (m.updHalf h f).dbg = m.dbg := rfl
@[simp] theorem Mod.updHalf_net (h : Nat) (f : Half → Half) : (m.updHalf h f).net = m.net := rfl
@[simp] theorem Mod.updHalf_sched (h : Nat) (f : Half → Half) : (m.updHalf h f).sched = m.sched := rfl
@[simp] theorem Mod.updHalf_host (h : Nat) (f : Half → Half) : (m.updHalf h f).host = m.host := rfl
@[simp] theorem Mod.updHalf_fab (h : Nat) (f : Half → Half) : (m.updHalf h f).fab = m.fab := rfl
@[simp] theorem Mod.updHalf_seq (h : Nat) (f : Half → Half) : (m.updHalf h f).seq = m.seq := rfl
@[simp] theorem Mod.updHalf_sec (h : Nat) (f : Half → Half) : (m.updHalf h f).sec = m.sec := rfl
@[simp] theorem Mod.updHalf_links (h : Nat) (f : Half → Half) : (m.updHalf h f).links = m.links := rfl
@[simp] theorem Mod.updHalf_ft (h : Nat) (f : Half → Half) : (m.updHalf h f).ft = m.ft := rfl
@[simp] theorem Mod.updHalf_saf (h : Nat) (f : Half → Half) : (m.updHalf h f).saf = m.saf := rfl
@[simp] theorem Mod.updHalf_pwr (h : Nat) (f : Half → Half) : (m.updHalf h f).pwr = m.pwr := rfl
@[simp] theorem Mod.updHalf_dies (h : Nat) (f : Half → Half) : (m.updHalf h f).dies = m.dies := rfl

/-! `Mod.raise`: only `kod` changes. -/

@[simp] theorem Mod.raise_free (c : BitVec 32) (s p d : Nat) : (m.raise c s p d).free = m.free := rfl
@[simp] theorem Mod.raise_ticks (c : BitVec 32) (s p d : Nat) : (m.raise c s p d).ticks = m.ticks := rfl
@[simp] theorem Mod.raise_mod (c : BitVec 32) (s p d : Nat) : (m.raise c s p d).mod = m.mod := rfl
@[simp] theorem Mod.raise_ctr (c : BitVec 32) (s p d : Nat) : (m.raise c s p d).ctr = m.ctr := rfl
@[simp] theorem Mod.raise_tiles (c : BitVec 32) (s p d : Nat) : (m.raise c s p d).tiles = m.tiles := rfl
@[simp] theorem Mod.raise_ctxs (c : BitVec 32) (s p d : Nat) : (m.raise c s p d).ctxs = m.ctxs := rfl
@[simp] theorem Mod.raise_uidSeq (c : BitVec 32) (s p d : Nat) : (m.raise c s p d).uidSeq = m.uidSeq := rfl
@[simp] theorem Mod.raise_copies (c : BitVec 32) (s p d : Nat) : (m.raise c s p d).copies = m.copies := rfl
@[simp] theorem Mod.raise_copySeq (c : BitVec 32) (s p d : Nat) : (m.raise c s p d).copySeq = m.copySeq := rfl
@[simp] theorem Mod.raise_halves (c : BitVec 32) (s p d : Nat) : (m.raise c s p d).halves = m.halves := rfl
@[simp] theorem Mod.raise_cache (c : BitVec 32) (s p d : Nat) : (m.raise c s p d).cache = m.cache := rfl
@[simp] theorem Mod.raise_mem (c : BitVec 32) (s p d : Nat) : (m.raise c s p d).mem = m.mem := rfl
@[simp] theorem Mod.raise_parts (c : BitVec 32) (s p d : Nat) : (m.raise c s p d).parts = m.parts := rfl
@[simp] theorem Mod.raise_dbg (c : BitVec 32) (s p d : Nat) : (m.raise c s p d).dbg = m.dbg := rfl
@[simp] theorem Mod.raise_net (c : BitVec 32) (s p d : Nat) : (m.raise c s p d).net = m.net := rfl
@[simp] theorem Mod.raise_sched (c : BitVec 32) (s p d : Nat) : (m.raise c s p d).sched = m.sched := rfl
@[simp] theorem Mod.raise_host (c : BitVec 32) (s p d : Nat) : (m.raise c s p d).host = m.host := rfl
@[simp] theorem Mod.raise_fab (c : BitVec 32) (s p d : Nat) : (m.raise c s p d).fab = m.fab := rfl
@[simp] theorem Mod.raise_seq (c : BitVec 32) (s p d : Nat) : (m.raise c s p d).seq = m.seq := rfl
@[simp] theorem Mod.raise_sec (c : BitVec 32) (s p d : Nat) : (m.raise c s p d).sec = m.sec := rfl
@[simp] theorem Mod.raise_links (c : BitVec 32) (s p d : Nat) : (m.raise c s p d).links = m.links := rfl
@[simp] theorem Mod.raise_ft (c : BitVec 32) (s p d : Nat) : (m.raise c s p d).ft = m.ft := rfl
@[simp] theorem Mod.raise_saf (c : BitVec 32) (s p d : Nat) : (m.raise c s p d).saf = m.saf := rfl
@[simp] theorem Mod.raise_pwr (c : BitVec 32) (s p d : Nat) : (m.raise c s p d).pwr = m.pwr := rfl
@[simp] theorem Mod.raise_dies (c : BitVec 32) (s p d : Nat) : (m.raise c s p d).dies = m.dies := rfl

/-! `Mod.setPar`: only `kod` changes. -/

@[simp] theorem Mod.setPar_free (n : Nat) (v : Int) : (m.setPar n v).free = m.free := rfl
@[simp] theorem Mod.setPar_ticks (n : Nat) (v : Int) : (m.setPar n v).ticks = m.ticks := rfl
@[simp] theorem Mod.setPar_mod (n : Nat) (v : Int) : (m.setPar n v).mod = m.mod := rfl
@[simp] theorem Mod.setPar_ctr (n : Nat) (v : Int) : (m.setPar n v).ctr = m.ctr := rfl
@[simp] theorem Mod.setPar_tiles (n : Nat) (v : Int) : (m.setPar n v).tiles = m.tiles := rfl
@[simp] theorem Mod.setPar_ctxs (n : Nat) (v : Int) : (m.setPar n v).ctxs = m.ctxs := rfl
@[simp] theorem Mod.setPar_uidSeq (n : Nat) (v : Int) : (m.setPar n v).uidSeq = m.uidSeq := rfl
@[simp] theorem Mod.setPar_copies (n : Nat) (v : Int) : (m.setPar n v).copies = m.copies := rfl
@[simp] theorem Mod.setPar_copySeq (n : Nat) (v : Int) : (m.setPar n v).copySeq = m.copySeq := rfl
@[simp] theorem Mod.setPar_halves (n : Nat) (v : Int) : (m.setPar n v).halves = m.halves := rfl
@[simp] theorem Mod.setPar_cache (n : Nat) (v : Int) : (m.setPar n v).cache = m.cache := rfl
@[simp] theorem Mod.setPar_mem (n : Nat) (v : Int) : (m.setPar n v).mem = m.mem := rfl
@[simp] theorem Mod.setPar_parts (n : Nat) (v : Int) : (m.setPar n v).parts = m.parts := rfl
@[simp] theorem Mod.setPar_dbg (n : Nat) (v : Int) : (m.setPar n v).dbg = m.dbg := rfl
@[simp] theorem Mod.setPar_net (n : Nat) (v : Int) : (m.setPar n v).net = m.net := rfl
@[simp] theorem Mod.setPar_sched (n : Nat) (v : Int) : (m.setPar n v).sched = m.sched := rfl
@[simp] theorem Mod.setPar_host (n : Nat) (v : Int) : (m.setPar n v).host = m.host := rfl
@[simp] theorem Mod.setPar_fab (n : Nat) (v : Int) : (m.setPar n v).fab = m.fab := rfl
@[simp] theorem Mod.setPar_seq (n : Nat) (v : Int) : (m.setPar n v).seq = m.seq := rfl
@[simp] theorem Mod.setPar_sec (n : Nat) (v : Int) : (m.setPar n v).sec = m.sec := rfl
@[simp] theorem Mod.setPar_links (n : Nat) (v : Int) : (m.setPar n v).links = m.links := rfl
@[simp] theorem Mod.setPar_ft (n : Nat) (v : Int) : (m.setPar n v).ft = m.ft := rfl
@[simp] theorem Mod.setPar_saf (n : Nat) (v : Int) : (m.setPar n v).saf = m.saf := rfl
@[simp] theorem Mod.setPar_pwr (n : Nat) (v : Int) : (m.setPar n v).pwr = m.pwr := rfl
@[simp] theorem Mod.setPar_dies (n : Nat) (v : Int) : (m.setPar n v).dies = m.dies := rfl

/-! `Mod.violate`: only `parts` changes. -/

@[simp] theorem Mod.violate_free (p : Nat) : (m.violate p).free = m.free := rfl
@[simp] theorem Mod.violate_ticks (p : Nat) : (m.violate p).ticks = m.ticks := rfl
@[simp] theorem Mod.violate_mod (p : Nat) : (m.violate p).mod = m.mod := rfl
@[simp] theorem Mod.violate_ctr (p : Nat) : (m.violate p).ctr = m.ctr := rfl
@[simp] theorem Mod.violate_kod (p : Nat) : (m.violate p).kod = m.kod := rfl
@[simp] theorem Mod.violate_tiles (p : Nat) : (m.violate p).tiles = m.tiles := rfl
@[simp] theorem Mod.violate_ctxs (p : Nat) : (m.violate p).ctxs = m.ctxs := rfl
@[simp] theorem Mod.violate_uidSeq (p : Nat) : (m.violate p).uidSeq = m.uidSeq := rfl
@[simp] theorem Mod.violate_copies (p : Nat) : (m.violate p).copies = m.copies := rfl
@[simp] theorem Mod.violate_copySeq (p : Nat) : (m.violate p).copySeq = m.copySeq := rfl
@[simp] theorem Mod.violate_halves (p : Nat) : (m.violate p).halves = m.halves := rfl
@[simp] theorem Mod.violate_cache (p : Nat) : (m.violate p).cache = m.cache := rfl
@[simp] theorem Mod.violate_mem (p : Nat) : (m.violate p).mem = m.mem := rfl
@[simp] theorem Mod.violate_dbg (p : Nat) : (m.violate p).dbg = m.dbg := rfl
@[simp] theorem Mod.violate_net (p : Nat) : (m.violate p).net = m.net := rfl
@[simp] theorem Mod.violate_sched (p : Nat) : (m.violate p).sched = m.sched := rfl
@[simp] theorem Mod.violate_host (p : Nat) : (m.violate p).host = m.host := rfl
@[simp] theorem Mod.violate_fab (p : Nat) : (m.violate p).fab = m.fab := rfl
@[simp] theorem Mod.violate_seq (p : Nat) : (m.violate p).seq = m.seq := rfl
@[simp] theorem Mod.violate_sec (p : Nat) : (m.violate p).sec = m.sec := rfl
@[simp] theorem Mod.violate_links (p : Nat) : (m.violate p).links = m.links := rfl
@[simp] theorem Mod.violate_ft (p : Nat) : (m.violate p).ft = m.ft := rfl
@[simp] theorem Mod.violate_saf (p : Nat) : (m.violate p).saf = m.saf := rfl
@[simp] theorem Mod.violate_pwr (p : Nat) : (m.violate p).pwr = m.pwr := rfl
@[simp] theorem Mod.violate_dies (p : Nat) : (m.violate p).dies = m.dies := rfl

/-! `Mod.setSem`: only `net` changes. -/

@[simp] theorem Mod.setSem_free (i : Nat) (v : Sem) : (m.setSem i v).free = m.free := rfl
@[simp] theorem Mod.setSem_ticks (i : Nat) (v : Sem) : (m.setSem i v).ticks = m.ticks := rfl
@[simp] theorem Mod.setSem_mod (i : Nat) (v : Sem) : (m.setSem i v).mod = m.mod := rfl
@[simp] theorem Mod.setSem_ctr (i : Nat) (v : Sem) : (m.setSem i v).ctr = m.ctr := rfl
@[simp] theorem Mod.setSem_kod (i : Nat) (v : Sem) : (m.setSem i v).kod = m.kod := rfl
@[simp] theorem Mod.setSem_tiles (i : Nat) (v : Sem) : (m.setSem i v).tiles = m.tiles := rfl
@[simp] theorem Mod.setSem_ctxs (i : Nat) (v : Sem) : (m.setSem i v).ctxs = m.ctxs := rfl
@[simp] theorem Mod.setSem_uidSeq (i : Nat) (v : Sem) : (m.setSem i v).uidSeq = m.uidSeq := rfl
@[simp] theorem Mod.setSem_copies (i : Nat) (v : Sem) : (m.setSem i v).copies = m.copies := rfl
@[simp] theorem Mod.setSem_copySeq (i : Nat) (v : Sem) : (m.setSem i v).copySeq = m.copySeq := rfl
@[simp] theorem Mod.setSem_halves (i : Nat) (v : Sem) : (m.setSem i v).halves = m.halves := rfl
@[simp] theorem Mod.setSem_cache (i : Nat) (v : Sem) : (m.setSem i v).cache = m.cache := rfl
@[simp] theorem Mod.setSem_mem (i : Nat) (v : Sem) : (m.setSem i v).mem = m.mem := rfl
@[simp] theorem Mod.setSem_parts (i : Nat) (v : Sem) : (m.setSem i v).parts = m.parts := rfl
@[simp] theorem Mod.setSem_dbg (i : Nat) (v : Sem) : (m.setSem i v).dbg = m.dbg := rfl
@[simp] theorem Mod.setSem_sched (i : Nat) (v : Sem) : (m.setSem i v).sched = m.sched := rfl
@[simp] theorem Mod.setSem_host (i : Nat) (v : Sem) : (m.setSem i v).host = m.host := rfl
@[simp] theorem Mod.setSem_fab (i : Nat) (v : Sem) : (m.setSem i v).fab = m.fab := rfl
@[simp] theorem Mod.setSem_seq (i : Nat) (v : Sem) : (m.setSem i v).seq = m.seq := rfl
@[simp] theorem Mod.setSem_sec (i : Nat) (v : Sem) : (m.setSem i v).sec = m.sec := rfl
@[simp] theorem Mod.setSem_links (i : Nat) (v : Sem) : (m.setSem i v).links = m.links := rfl
@[simp] theorem Mod.setSem_ft (i : Nat) (v : Sem) : (m.setSem i v).ft = m.ft := rfl
@[simp] theorem Mod.setSem_saf (i : Nat) (v : Sem) : (m.setSem i v).saf = m.saf := rfl
@[simp] theorem Mod.setSem_pwr (i : Nat) (v : Sem) : (m.setSem i v).pwr = m.pwr := rfl
@[simp] theorem Mod.setSem_dies (i : Nat) (v : Sem) : (m.setSem i v).dies = m.dies := rfl

/-! `Mod.setBar`: only `net` changes. -/

@[simp] theorem Mod.setBar_free (b : Nat) (v : Bar) : (m.setBar b v).free = m.free := rfl
@[simp] theorem Mod.setBar_ticks (b : Nat) (v : Bar) : (m.setBar b v).ticks = m.ticks := rfl
@[simp] theorem Mod.setBar_mod (b : Nat) (v : Bar) : (m.setBar b v).mod = m.mod := rfl
@[simp] theorem Mod.setBar_ctr (b : Nat) (v : Bar) : (m.setBar b v).ctr = m.ctr := rfl
@[simp] theorem Mod.setBar_kod (b : Nat) (v : Bar) : (m.setBar b v).kod = m.kod := rfl
@[simp] theorem Mod.setBar_tiles (b : Nat) (v : Bar) : (m.setBar b v).tiles = m.tiles := rfl
@[simp] theorem Mod.setBar_ctxs (b : Nat) (v : Bar) : (m.setBar b v).ctxs = m.ctxs := rfl
@[simp] theorem Mod.setBar_uidSeq (b : Nat) (v : Bar) : (m.setBar b v).uidSeq = m.uidSeq := rfl
@[simp] theorem Mod.setBar_copies (b : Nat) (v : Bar) : (m.setBar b v).copies = m.copies := rfl
@[simp] theorem Mod.setBar_copySeq (b : Nat) (v : Bar) : (m.setBar b v).copySeq = m.copySeq := rfl
@[simp] theorem Mod.setBar_halves (b : Nat) (v : Bar) : (m.setBar b v).halves = m.halves := rfl
@[simp] theorem Mod.setBar_cache (b : Nat) (v : Bar) : (m.setBar b v).cache = m.cache := rfl
@[simp] theorem Mod.setBar_mem (b : Nat) (v : Bar) : (m.setBar b v).mem = m.mem := rfl
@[simp] theorem Mod.setBar_parts (b : Nat) (v : Bar) : (m.setBar b v).parts = m.parts := rfl
@[simp] theorem Mod.setBar_dbg (b : Nat) (v : Bar) : (m.setBar b v).dbg = m.dbg := rfl
@[simp] theorem Mod.setBar_sched (b : Nat) (v : Bar) : (m.setBar b v).sched = m.sched := rfl
@[simp] theorem Mod.setBar_host (b : Nat) (v : Bar) : (m.setBar b v).host = m.host := rfl
@[simp] theorem Mod.setBar_fab (b : Nat) (v : Bar) : (m.setBar b v).fab = m.fab := rfl
@[simp] theorem Mod.setBar_seq (b : Nat) (v : Bar) : (m.setBar b v).seq = m.seq := rfl
@[simp] theorem Mod.setBar_sec (b : Nat) (v : Bar) : (m.setBar b v).sec = m.sec := rfl
@[simp] theorem Mod.setBar_links (b : Nat) (v : Bar) : (m.setBar b v).links = m.links := rfl
@[simp] theorem Mod.setBar_ft (b : Nat) (v : Bar) : (m.setBar b v).ft = m.ft := rfl
@[simp] theorem Mod.setBar_saf (b : Nat) (v : Bar) : (m.setBar b v).saf = m.saf := rfl
@[simp] theorem Mod.setBar_pwr (b : Nat) (v : Bar) : (m.setBar b v).pwr = m.pwr := rfl
@[simp] theorem Mod.setBar_dies (b : Nat) (v : Bar) : (m.setBar b v).dies = m.dies := rfl

/-! `Mod.sendSn`: only `net` changes. -/

@[simp] theorem Mod.sendSn_free (f : SnFlit) : (m.sendSn f).free = m.free := rfl
@[simp] theorem Mod.sendSn_ticks (f : SnFlit) : (m.sendSn f).ticks = m.ticks := rfl
@[simp] theorem Mod.sendSn_mod (f : SnFlit) : (m.sendSn f).mod = m.mod := rfl
@[simp] theorem Mod.sendSn_ctr (f : SnFlit) : (m.sendSn f).ctr = m.ctr := rfl
@[simp] theorem Mod.sendSn_kod (f : SnFlit) : (m.sendSn f).kod = m.kod := rfl
@[simp] theorem Mod.sendSn_tiles (f : SnFlit) : (m.sendSn f).tiles = m.tiles := rfl
@[simp] theorem Mod.sendSn_ctxs (f : SnFlit) : (m.sendSn f).ctxs = m.ctxs := rfl
@[simp] theorem Mod.sendSn_uidSeq (f : SnFlit) : (m.sendSn f).uidSeq = m.uidSeq := rfl
@[simp] theorem Mod.sendSn_copies (f : SnFlit) : (m.sendSn f).copies = m.copies := rfl
@[simp] theorem Mod.sendSn_copySeq (f : SnFlit) : (m.sendSn f).copySeq = m.copySeq := rfl
@[simp] theorem Mod.sendSn_halves (f : SnFlit) : (m.sendSn f).halves = m.halves := rfl
@[simp] theorem Mod.sendSn_cache (f : SnFlit) : (m.sendSn f).cache = m.cache := rfl
@[simp] theorem Mod.sendSn_mem (f : SnFlit) : (m.sendSn f).mem = m.mem := rfl
@[simp] theorem Mod.sendSn_parts (f : SnFlit) : (m.sendSn f).parts = m.parts := rfl
@[simp] theorem Mod.sendSn_dbg (f : SnFlit) : (m.sendSn f).dbg = m.dbg := rfl
@[simp] theorem Mod.sendSn_sched (f : SnFlit) : (m.sendSn f).sched = m.sched := rfl
@[simp] theorem Mod.sendSn_host (f : SnFlit) : (m.sendSn f).host = m.host := rfl
@[simp] theorem Mod.sendSn_fab (f : SnFlit) : (m.sendSn f).fab = m.fab := rfl
@[simp] theorem Mod.sendSn_seq (f : SnFlit) : (m.sendSn f).seq = m.seq := rfl
@[simp] theorem Mod.sendSn_sec (f : SnFlit) : (m.sendSn f).sec = m.sec := rfl
@[simp] theorem Mod.sendSn_links (f : SnFlit) : (m.sendSn f).links = m.links := rfl
@[simp] theorem Mod.sendSn_ft (f : SnFlit) : (m.sendSn f).ft = m.ft := rfl
@[simp] theorem Mod.sendSn_saf (f : SnFlit) : (m.sendSn f).saf = m.saf := rfl
@[simp] theorem Mod.sendSn_pwr (f : SnFlit) : (m.sendSn f).pwr = m.pwr := rfl
@[simp] theorem Mod.sendSn_dies (f : SnFlit) : (m.sendSn f).dies = m.dies := rfl

/-! `Mod.sendCn`: only `net` changes. -/

@[simp] theorem Mod.sendCn_free (f : CnFlit) : (m.sendCn f).free = m.free := rfl
@[simp] theorem Mod.sendCn_ticks (f : CnFlit) : (m.sendCn f).ticks = m.ticks := rfl
@[simp] theorem Mod.sendCn_mod (f : CnFlit) : (m.sendCn f).mod = m.mod := rfl
@[simp] theorem Mod.sendCn_ctr (f : CnFlit) : (m.sendCn f).ctr = m.ctr := rfl
@[simp] theorem Mod.sendCn_kod (f : CnFlit) : (m.sendCn f).kod = m.kod := rfl
@[simp] theorem Mod.sendCn_tiles (f : CnFlit) : (m.sendCn f).tiles = m.tiles := rfl
@[simp] theorem Mod.sendCn_ctxs (f : CnFlit) : (m.sendCn f).ctxs = m.ctxs := rfl
@[simp] theorem Mod.sendCn_uidSeq (f : CnFlit) : (m.sendCn f).uidSeq = m.uidSeq := rfl
@[simp] theorem Mod.sendCn_copies (f : CnFlit) : (m.sendCn f).copies = m.copies := rfl
@[simp] theorem Mod.sendCn_copySeq (f : CnFlit) : (m.sendCn f).copySeq = m.copySeq := rfl
@[simp] theorem Mod.sendCn_halves (f : CnFlit) : (m.sendCn f).halves = m.halves := rfl
@[simp] theorem Mod.sendCn_cache (f : CnFlit) : (m.sendCn f).cache = m.cache := rfl
@[simp] theorem Mod.sendCn_mem (f : CnFlit) : (m.sendCn f).mem = m.mem := rfl
@[simp] theorem Mod.sendCn_parts (f : CnFlit) : (m.sendCn f).parts = m.parts := rfl
@[simp] theorem Mod.sendCn_dbg (f : CnFlit) : (m.sendCn f).dbg = m.dbg := rfl
@[simp] theorem Mod.sendCn_sched (f : CnFlit) : (m.sendCn f).sched = m.sched := rfl
@[simp] theorem Mod.sendCn_host (f : CnFlit) : (m.sendCn f).host = m.host := rfl
@[simp] theorem Mod.sendCn_fab (f : CnFlit) : (m.sendCn f).fab = m.fab := rfl
@[simp] theorem Mod.sendCn_seq (f : CnFlit) : (m.sendCn f).seq = m.seq := rfl
@[simp] theorem Mod.sendCn_sec (f : CnFlit) : (m.sendCn f).sec = m.sec := rfl
@[simp] theorem Mod.sendCn_links (f : CnFlit) : (m.sendCn f).links = m.links := rfl
@[simp] theorem Mod.sendCn_ft (f : CnFlit) : (m.sendCn f).ft = m.ft := rfl
@[simp] theorem Mod.sendCn_saf (f : CnFlit) : (m.sendCn f).saf = m.saf := rfl
@[simp] theorem Mod.sendCn_pwr (f : CnFlit) : (m.sendCn f).pwr = m.pwr := rfl
@[simp] theorem Mod.sendCn_dies (f : CnFlit) : (m.sendCn f).dies = m.dies := rfl

/-! `Mod.updPort`: only `fab` changes. -/

@[simp] theorem Mod.updPort_free (i : Nat) (f : Port → Port) : (m.updPort i f).free = m.free := rfl
@[simp] theorem Mod.updPort_ticks (i : Nat) (f : Port → Port) : (m.updPort i f).ticks = m.ticks := rfl
@[simp] theorem Mod.updPort_mod (i : Nat) (f : Port → Port) : (m.updPort i f).mod = m.mod := rfl
@[simp] theorem Mod.updPort_ctr (i : Nat) (f : Port → Port) : (m.updPort i f).ctr = m.ctr := rfl
@[simp] theorem Mod.updPort_kod (i : Nat) (f : Port → Port) : (m.updPort i f).kod = m.kod := rfl
@[simp] theorem Mod.updPort_tiles (i : Nat) (f : Port → Port) : (m.updPort i f).tiles = m.tiles := rfl
@[simp] theorem Mod.updPort_ctxs (i : Nat) (f : Port → Port) : (m.updPort i f).ctxs = m.ctxs := rfl
@[simp] theorem Mod.updPort_uidSeq (i : Nat) (f : Port → Port) : (m.updPort i f).uidSeq = m.uidSeq := rfl
@[simp] theorem Mod.updPort_copies (i : Nat) (f : Port → Port) : (m.updPort i f).copies = m.copies := rfl
@[simp] theorem Mod.updPort_copySeq (i : Nat) (f : Port → Port) : (m.updPort i f).copySeq = m.copySeq := rfl
@[simp] theorem Mod.updPort_halves (i : Nat) (f : Port → Port) : (m.updPort i f).halves = m.halves := rfl
@[simp] theorem Mod.updPort_cache (i : Nat) (f : Port → Port) : (m.updPort i f).cache = m.cache := rfl
@[simp] theorem Mod.updPort_mem (i : Nat) (f : Port → Port) : (m.updPort i f).mem = m.mem := rfl
@[simp] theorem Mod.updPort_parts (i : Nat) (f : Port → Port) : (m.updPort i f).parts = m.parts := rfl
@[simp] theorem Mod.updPort_dbg (i : Nat) (f : Port → Port) : (m.updPort i f).dbg = m.dbg := rfl
@[simp] theorem Mod.updPort_net (i : Nat) (f : Port → Port) : (m.updPort i f).net = m.net := rfl
@[simp] theorem Mod.updPort_sched (i : Nat) (f : Port → Port) : (m.updPort i f).sched = m.sched := rfl
@[simp] theorem Mod.updPort_host (i : Nat) (f : Port → Port) : (m.updPort i f).host = m.host := rfl
@[simp] theorem Mod.updPort_seq (i : Nat) (f : Port → Port) : (m.updPort i f).seq = m.seq := rfl
@[simp] theorem Mod.updPort_sec (i : Nat) (f : Port → Port) : (m.updPort i f).sec = m.sec := rfl
@[simp] theorem Mod.updPort_links (i : Nat) (f : Port → Port) : (m.updPort i f).links = m.links := rfl
@[simp] theorem Mod.updPort_ft (i : Nat) (f : Port → Port) : (m.updPort i f).ft = m.ft := rfl
@[simp] theorem Mod.updPort_saf (i : Nat) (f : Port → Port) : (m.updPort i f).saf = m.saf := rfl
@[simp] theorem Mod.updPort_pwr (i : Nat) (f : Port → Port) : (m.updPort i f).pwr = m.pwr := rfl
@[simp] theorem Mod.updPort_dies (i : Nat) (f : Port → Port) : (m.updPort i f).dies = m.dies := rfl

/-! `Mod.updFn`: only `host` changes. -/

@[simp] theorem Mod.updFn_free (i : Nat) (f : Fn → Fn) : (m.updFn i f).free = m.free := rfl
@[simp] theorem Mod.updFn_ticks (i : Nat) (f : Fn → Fn) : (m.updFn i f).ticks = m.ticks := rfl
@[simp] theorem Mod.updFn_mod (i : Nat) (f : Fn → Fn) : (m.updFn i f).mod = m.mod := rfl
@[simp] theorem Mod.updFn_ctr (i : Nat) (f : Fn → Fn) : (m.updFn i f).ctr = m.ctr := rfl
@[simp] theorem Mod.updFn_kod (i : Nat) (f : Fn → Fn) : (m.updFn i f).kod = m.kod := rfl
@[simp] theorem Mod.updFn_tiles (i : Nat) (f : Fn → Fn) : (m.updFn i f).tiles = m.tiles := rfl
@[simp] theorem Mod.updFn_ctxs (i : Nat) (f : Fn → Fn) : (m.updFn i f).ctxs = m.ctxs := rfl
@[simp] theorem Mod.updFn_uidSeq (i : Nat) (f : Fn → Fn) : (m.updFn i f).uidSeq = m.uidSeq := rfl
@[simp] theorem Mod.updFn_copies (i : Nat) (f : Fn → Fn) : (m.updFn i f).copies = m.copies := rfl
@[simp] theorem Mod.updFn_copySeq (i : Nat) (f : Fn → Fn) : (m.updFn i f).copySeq = m.copySeq := rfl
@[simp] theorem Mod.updFn_halves (i : Nat) (f : Fn → Fn) : (m.updFn i f).halves = m.halves := rfl
@[simp] theorem Mod.updFn_cache (i : Nat) (f : Fn → Fn) : (m.updFn i f).cache = m.cache := rfl
@[simp] theorem Mod.updFn_mem (i : Nat) (f : Fn → Fn) : (m.updFn i f).mem = m.mem := rfl
@[simp] theorem Mod.updFn_parts (i : Nat) (f : Fn → Fn) : (m.updFn i f).parts = m.parts := rfl
@[simp] theorem Mod.updFn_dbg (i : Nat) (f : Fn → Fn) : (m.updFn i f).dbg = m.dbg := rfl
@[simp] theorem Mod.updFn_net (i : Nat) (f : Fn → Fn) : (m.updFn i f).net = m.net := rfl
@[simp] theorem Mod.updFn_sched (i : Nat) (f : Fn → Fn) : (m.updFn i f).sched = m.sched := rfl
@[simp] theorem Mod.updFn_fab (i : Nat) (f : Fn → Fn) : (m.updFn i f).fab = m.fab := rfl
@[simp] theorem Mod.updFn_seq (i : Nat) (f : Fn → Fn) : (m.updFn i f).seq = m.seq := rfl
@[simp] theorem Mod.updFn_sec (i : Nat) (f : Fn → Fn) : (m.updFn i f).sec = m.sec := rfl
@[simp] theorem Mod.updFn_links (i : Nat) (f : Fn → Fn) : (m.updFn i f).links = m.links := rfl
@[simp] theorem Mod.updFn_ft (i : Nat) (f : Fn → Fn) : (m.updFn i f).ft = m.ft := rfl
@[simp] theorem Mod.updFn_saf (i : Nat) (f : Fn → Fn) : (m.updFn i f).saf = m.saf := rfl
@[simp] theorem Mod.updFn_pwr (i : Nat) (f : Fn → Fn) : (m.updFn i f).pwr = m.pwr := rfl
@[simp] theorem Mod.updFn_dies (i : Nat) (f : Fn → Fn) : (m.updFn i f).dies = m.dies := rfl

/-! `Mod.updQp`: only `host` changes. -/

@[simp] theorem Mod.updQp_free (q : Nat) (f : Qp → Qp) : (m.updQp q f).free = m.free := rfl
@[simp] theorem Mod.updQp_ticks (q : Nat) (f : Qp → Qp) : (m.updQp q f).ticks = m.ticks := rfl
@[simp] theorem Mod.updQp_mod (q : Nat) (f : Qp → Qp) : (m.updQp q f).mod = m.mod := rfl
@[simp] theorem Mod.updQp_ctr (q : Nat) (f : Qp → Qp) : (m.updQp q f).ctr = m.ctr := rfl
@[simp] theorem Mod.updQp_kod (q : Nat) (f : Qp → Qp) : (m.updQp q f).kod = m.kod := rfl
@[simp] theorem Mod.updQp_tiles (q : Nat) (f : Qp → Qp) : (m.updQp q f).tiles = m.tiles := rfl
@[simp] theorem Mod.updQp_ctxs (q : Nat) (f : Qp → Qp) : (m.updQp q f).ctxs = m.ctxs := rfl
@[simp] theorem Mod.updQp_uidSeq (q : Nat) (f : Qp → Qp) : (m.updQp q f).uidSeq = m.uidSeq := rfl
@[simp] theorem Mod.updQp_copies (q : Nat) (f : Qp → Qp) : (m.updQp q f).copies = m.copies := rfl
@[simp] theorem Mod.updQp_copySeq (q : Nat) (f : Qp → Qp) : (m.updQp q f).copySeq = m.copySeq := rfl
@[simp] theorem Mod.updQp_halves (q : Nat) (f : Qp → Qp) : (m.updQp q f).halves = m.halves := rfl
@[simp] theorem Mod.updQp_cache (q : Nat) (f : Qp → Qp) : (m.updQp q f).cache = m.cache := rfl
@[simp] theorem Mod.updQp_mem (q : Nat) (f : Qp → Qp) : (m.updQp q f).mem = m.mem := rfl
@[simp] theorem Mod.updQp_parts (q : Nat) (f : Qp → Qp) : (m.updQp q f).parts = m.parts := rfl
@[simp] theorem Mod.updQp_dbg (q : Nat) (f : Qp → Qp) : (m.updQp q f).dbg = m.dbg := rfl
@[simp] theorem Mod.updQp_net (q : Nat) (f : Qp → Qp) : (m.updQp q f).net = m.net := rfl
@[simp] theorem Mod.updQp_sched (q : Nat) (f : Qp → Qp) : (m.updQp q f).sched = m.sched := rfl
@[simp] theorem Mod.updQp_fab (q : Nat) (f : Qp → Qp) : (m.updQp q f).fab = m.fab := rfl
@[simp] theorem Mod.updQp_seq (q : Nat) (f : Qp → Qp) : (m.updQp q f).seq = m.seq := rfl
@[simp] theorem Mod.updQp_sec (q : Nat) (f : Qp → Qp) : (m.updQp q f).sec = m.sec := rfl
@[simp] theorem Mod.updQp_links (q : Nat) (f : Qp → Qp) : (m.updQp q f).links = m.links := rfl
@[simp] theorem Mod.updQp_ft (q : Nat) (f : Qp → Qp) : (m.updQp q f).ft = m.ft := rfl
@[simp] theorem Mod.updQp_saf (q : Nat) (f : Qp → Qp) : (m.updQp q f).saf = m.saf := rfl
@[simp] theorem Mod.updQp_pwr (q : Nat) (f : Qp → Qp) : (m.updQp q f).pwr = m.pwr := rfl
@[simp] theorem Mod.updQp_dies (q : Nat) (f : Qp → Qp) : (m.updQp q f).dies = m.dies := rfl

/-! `Mod.updCmd`: only `host` changes. -/

@[simp] theorem Mod.updCmd_free (c : Nat) (f : HCmd → HCmd) : (m.updCmd c f).free = m.free := rfl
@[simp] theorem Mod.updCmd_ticks (c : Nat) (f : HCmd → HCmd) : (m.updCmd c f).ticks = m.ticks := rfl
@[simp] theorem Mod.updCmd_mod (c : Nat) (f : HCmd → HCmd) : (m.updCmd c f).mod = m.mod := rfl
@[simp] theorem Mod.updCmd_ctr (c : Nat) (f : HCmd → HCmd) : (m.updCmd c f).ctr = m.ctr := rfl
@[simp] theorem Mod.updCmd_kod (c : Nat) (f : HCmd → HCmd) : (m.updCmd c f).kod = m.kod := rfl
@[simp] theorem Mod.updCmd_tiles (c : Nat) (f : HCmd → HCmd) : (m.updCmd c f).tiles = m.tiles := rfl
@[simp] theorem Mod.updCmd_ctxs (c : Nat) (f : HCmd → HCmd) : (m.updCmd c f).ctxs = m.ctxs := rfl
@[simp] theorem Mod.updCmd_uidSeq (c : Nat) (f : HCmd → HCmd) : (m.updCmd c f).uidSeq = m.uidSeq := rfl
@[simp] theorem Mod.updCmd_copies (c : Nat) (f : HCmd → HCmd) : (m.updCmd c f).copies = m.copies := rfl
@[simp] theorem Mod.updCmd_copySeq (c : Nat) (f : HCmd → HCmd) : (m.updCmd c f).copySeq = m.copySeq := rfl
@[simp] theorem Mod.updCmd_halves (c : Nat) (f : HCmd → HCmd) : (m.updCmd c f).halves = m.halves := rfl
@[simp] theorem Mod.updCmd_cache (c : Nat) (f : HCmd → HCmd) : (m.updCmd c f).cache = m.cache := rfl
@[simp] theorem Mod.updCmd_mem (c : Nat) (f : HCmd → HCmd) : (m.updCmd c f).mem = m.mem := rfl
@[simp] theorem Mod.updCmd_parts (c : Nat) (f : HCmd → HCmd) : (m.updCmd c f).parts = m.parts := rfl
@[simp] theorem Mod.updCmd_dbg (c : Nat) (f : HCmd → HCmd) : (m.updCmd c f).dbg = m.dbg := rfl
@[simp] theorem Mod.updCmd_net (c : Nat) (f : HCmd → HCmd) : (m.updCmd c f).net = m.net := rfl
@[simp] theorem Mod.updCmd_sched (c : Nat) (f : HCmd → HCmd) : (m.updCmd c f).sched = m.sched := rfl
@[simp] theorem Mod.updCmd_fab (c : Nat) (f : HCmd → HCmd) : (m.updCmd c f).fab = m.fab := rfl
@[simp] theorem Mod.updCmd_seq (c : Nat) (f : HCmd → HCmd) : (m.updCmd c f).seq = m.seq := rfl
@[simp] theorem Mod.updCmd_sec (c : Nat) (f : HCmd → HCmd) : (m.updCmd c f).sec = m.sec := rfl
@[simp] theorem Mod.updCmd_links (c : Nat) (f : HCmd → HCmd) : (m.updCmd c f).links = m.links := rfl
@[simp] theorem Mod.updCmd_ft (c : Nat) (f : HCmd → HCmd) : (m.updCmd c f).ft = m.ft := rfl
@[simp] theorem Mod.updCmd_saf (c : Nat) (f : HCmd → HCmd) : (m.updCmd c f).saf = m.saf := rfl
@[simp] theorem Mod.updCmd_pwr (c : Nat) (f : HCmd → HCmd) : (m.updCmd c f).pwr = m.pwr := rfl
@[simp] theorem Mod.updCmd_dies (c : Nat) (f : HCmd → HCmd) : (m.updCmd c f).dies = m.dies := rfl

/-! Reading a unit back. -/

@[simp] theorem Mod.tile_setTile (t : Nat) (v : Tile) : (m.setTile t v).tile t = v := Tab.getD_put_same _ _ _ _
@[simp] theorem Mod.tile_updTile (t : Nat) (f : Tile → Tile) : (m.updTile t f).tile t = f (m.tile t) := Tab.getD_put_same _ _ _ _
@[simp] theorem Mod.ctx_setCtx (t i : Nat) (v : Ctx) : (m.setCtx t i v).ctx t i = v := Tab.getD_put_same _ _ _ _
@[simp] theorem Mod.ctx_updCtx (t i : Nat) (f : Ctx → Ctx) : (m.updCtx t i f).ctx t i = f (m.ctx t i) := Tab.getD_put_same _ _ _ _
@[simp] theorem Mod.half_updHalf (h : Nat) (f : Half → Half) : (m.updHalf h f).half h = f (m.half h) := Tab.getD_put_same _ _ _ _
@[simp] theorem Mod.part_updPart (p : Nat) (f : Part → Part) : (m.updPart p f).part p = f (m.part p) := Tab.getD_put_same _ _ _ _
@[simp] theorem Mod.stack_updStack (i : Nat) (f : Stack → Stack) : (m.updStack i f).stack i = f (m.stack i) := Tab.getD_put_same _ _ _ _
@[simp] theorem Mod.chan_updChan (i c : Nat) (f : Chan → Chan) : (m.updChan i c f).chan i c = f (m.chan i c) := Tab.getD_put_same _ _ _ _
@[simp] theorem Mod.port_updPort (i : Nat) (f : Port → Port) : (m.updPort i f).port i = f (m.port i) := Tab.getD_put_same _ _ _ _
@[simp] theorem Mod.fn_updFn (i : Nat) (f : Fn → Fn) : (m.updFn i f).fn i = f (m.fn i) := Tab.getD_put_same _ _ _ _
@[simp] theorem Mod.link_updLink (k : Nat) (f : Link → Link) : (m.updLink k f).link k = f (m.link k) := Tab.getD_put_same _ _ _ _
@[simp] theorem Mod.die_updDie (d : Nat) (f : DieS → DieS) : (m.updDie d f).die d = f (m.die d) := Tab.getD_put_same _ _ _ _
@[simp] theorem Mod.l1_setL1 (a k : Nat) (v : L1Line) : (m.setL1 a k v).l1 a k = some v := Tab.find_put_same _ _ _
@[simp] theorem Mod.l1_delL1 (a k : Nat) : (m.delL1 a k).l1 a k = none := Tab.find_del_same _ _
@[simp] theorem Mod.line_setLine (k : Nat) (v : Line) : (m.setLine k v).line? k = some v := Tab.find_put_same _ _ _
@[simp] theorem Mod.req_setReq (k : Nat) (r : Req) : (m.setReq k r).req? r.agent.val k = some r := Tab.find_put_same _ _ _
@[simp] theorem Mod.req_delReq (a k : Nat) : (m.delReq a k).req? a k = none := Tab.find_del_same _ _
@[simp] theorem Mod.sem_setSem (i : Nat) (v : Sem) : (m.setSem i v).sem i = v := Tab.getD_put_same _ _ _ _
@[simp] theorem Mod.bar_setBar (i : Nat) (v : Bar) : (m.setBar i v).bar i = v := Tab.getD_put_same _ _ _ _
theorem Mod.link_updLink_other {k j : Nat} (h : j ≠ k) (f : Link → Link) : (m.updLink k f).link j = m.link j := Tab.getD_put_other h _ _ _
theorem Mod.tile_updTile_other {t j : Nat} (h : j ≠ t) (f : Tile → Tile) : (m.updTile t f).tile j = m.tile j := Tab.getD_put_other h _ _ _
theorem Mod.half_updHalf_other {h j : Nat} (e : j ≠ h) (f : Half → Half) : (m.updHalf h f).half j = m.half j := Tab.getD_put_other e _ _ _
theorem Mod.part_updPart_other {p j : Nat} (h : j ≠ p) (f : Part → Part) : (m.updPart p f).part j = m.part j := Tab.getD_put_other h _ _ _
theorem Mod.ctx_updCtx_other {t i t' i' : Nat} (h : ctxKey t' i' ≠ ctxKey t i) (f : Ctx → Ctx) :
    (m.updCtx t i f).ctx t' i' = m.ctx t' i' := Tab.getD_put_other h _ _ _

end Sys2Proof.Machine
end

