-- ==== Sys2Proof/Laws/Ops.lean ====
section
/-! SUPPORT. What each shared operation can do, said once. -/

namespace Sys2Proof.Machine

/-! Outcomes. -/

@[simp] theorem State.go_eq (s : State) (f : Mod → Mod) : s.go f = .next { s with m := f s.m } := rfl
@[simp] theorem State.goIf_true (s : State) (n : String) (f : Mod → Mod) : s.goIf true n f = .next { s with m := f s.m } := rfl
@[simp] theorem State.goIf_false (s : State) (n : String) (f : Mod → Mod) : s.goIf false n f = .refused (.illFormed n) := rfl
/-- A checked command either acts on the module, or is refused by name and does nothing. -/
theorem State.goIf_cases (s : State) (ok : Bool) (n : String) (f : Mod → Mod) :
    (ok = true ∧ s.goIf ok n f = .next { s with m := f s.m }) ∨ (ok = false ∧ s.goIf ok n f = .refused (.illFormed n)) := by
  cases ok <;> simp
@[simp] theorem State.kdp_true (s : State) (n : String) (g : State → State) : s.kdp true n g = .next (g s) := rfl
@[simp] theorem State.kdp_false (s : State) (n : String) (g : State → State) : s.kdp false n g = .refused (.illFormed n) := rfl

/-! Units under the Brake. -/

theorem Mod.heldAt_of_not_braked {m : Mod} (h : m.braked = false) (u : Nat) : m.heldAt u = false := by simp [Mod.heldAt, h]
theorem Mod.atUnit_free {m : Mod} {u : Nat} (h : m.heldAt u = false) (f : Mod → Mod) : m.atUnit u f = f m := by simp [Mod.atUnit, h]
/-- What reaches a unit acts, or finds the unit stopped and does nothing. -/
theorem Mod.atUnit_cases (m : Mod) (u : Nat) (f : Mod → Mod) : m.atUnit u f = f m ∨ (m.heldAt u = true ∧ m.atUnit u f = m) := by
  cases h : m.heldAt u <;> simp [Mod.atUnit, h]

/-! Actions. -/

theorem Mod.perform_serving {m : Mod} (h : m.serving = true) (n : Nat) (f : Mod → Nat × Mod) :
    m.perform n f = (f m).2.acted n (f m).1 := by simp [Mod.perform, h]
theorem Mod.perform_not_serving {m : Mod} (h : m.serving = false) (n : Nat) (f : Mod → Nat × Mod) :
    m.perform n f = m.acted n esSTATE := by simp [Mod.perform, h]
@[simp] theorem Mod.acted_last (m : Mod) (n e : Nat) : (m.acted n e).kod.lastAct = some (n, e) := rfl

/-! Counters. -/

/-- Counting touches the counter and the event queue, nothing else. -/
theorem Mod.countBy_frame (m : Mod) (num inst n : Nat) :
    ∃ t q, m.countBy num inst n = { m with ctr := t, kod := { m.kod with evq := m.kod.evq ++ q } } := by
  simp only [Mod.countBy]
  split
  · exact ⟨_, _, rfl⟩
  · exact ⟨_, [], by rw [List.append_nil]⟩

/-! The core. -/

theorem Mod.fire_no_trigger {m : Mod} {t s : Nat} (h : (m.ctx t s).trig = []) (i : Nat) (k : Option Nat) (a : W64) :
    m.fire t s i k a = m := by
  have e : (Tab.getD (m.ctx t s).trig i ({} : Trig)).matches k a = false := by simp [h, Trig.matches]
  simp only [Mod.fire, e]
  rfl

theorem Mod.dataTrig_no_trigger {m : Mod} {t s : Nat} (h : (m.ctx t s).trig = []) (k : Nat) (a : W64) : m.dataTrig t s k a = m := by
  simp only [Mod.dataTrig, fire_no_trigger h]

/-- An instruction that its context can issue does its own work and nothing else. -/
theorem Mod.core_of_issues {m n : Mod} {a : At} (h : m.Issues a n) {stalled : Mod → Ctx → Bool} (hs : stalled m (m.ctxAt a) = false)
    (f : Mod → Mod) : m.core a stalled f = f n := by
  obtain ⟨h1, ⟨pc, h2⟩, h3, h4, h5, h6, h7⟩ := h
  have e : m.ctx a.tile.val a.saddle.val = m.ctxAt a := rfl
  have e' : n.ctx a.tile.val a.saddle.val = m.ctxAt a := h4
  have e5 : (m.ctxAt a).stepOver = false := h5
  have e6 : (m.ctxAt a).single = false := h6
  unfold Mod.core
  simp only [e, h1, hs, h2, e5, e6, Bool.not_true, Bool.or_self, Bool.false_eq_true, if_false, Bool.false_and]
  rw [fire_no_trigger (m := n) (by rw [e', h7]), fire_no_trigger (m := n) (by rw [e', h7])]
  simp [h3]

theorem Mod.coreDo_of_issues {m n : Mod} {a : At} (h : m.Issues a n) (f : Mod → Mod) : m.coreDo a f = f n := core_of_issues h rfl f

/-- A core that cannot run a context leaves everything as it is. -/
theorem Mod.core_idle {m : Mod} {a : At} (h : m.canRun a = false) (stalled : Mod → Ctx → Bool) (f : Mod → Mod) : m.core a stalled f = m := by
  simp [Mod.core, h]

theorem Mod.Issues.ctx {m n : Mod} {a : At} (h : m.Issues a n) : n.ctx a.tile.val a.saddle.val = m.ctxAt a := h.2.2.2.1

/-! Registers: x0 reads zero and discards (04 R121). -/

@[simp] theorem Ctx.getX_zero (c : Ctx) : c.getX 0 = 0 := rfl
@[simp] theorem Ctx.setX_zero (c : Ctx) (v : W64) : c.setX 0 v = c := rfl
theorem Ctx.getX_setX_same {r : Reg} (h : r ≠ 0) (c : Ctx) (v : W64) : (c.setX r v).getX r = v := by simp [Ctx.getX, Ctx.setX, h]
theorem Ctx.getX_setX_other {r q : Reg} (h : q ≠ r) (c : Ctx) (v : W64) : (c.setX r v).getX q = c.getX q := by
  have : q.val ≠ r.val := fun e => h (Fin.ext e)
  by_cases hr : r = 0 <;> by_cases hq : q = 0 <;> simp [Ctx.getX, Ctx.setX, hr, hq]
  rw [Tab.getD_put_other this]

end Sys2Proof.Machine
end

