-- ==== Sys2Proof/Laws/Areas.lean ====
section
/-! SUPPORT. What a write of bytes that a unit keeps for itself in EM can change: counters, events, caches, memory and dirty-frame bitmaps, and
nothing else. -/

namespace Sys2Proof.Machine

/-- The second module differs from the first at most in counters, events, caches, memory and halves. -/
def Mod.Stores (m n : Mod) : Prop :=
  ∃ t q c e h, n = { m with ctr := t, kod := { m.kod with evq := q }, cache := c, mem := e, halves := h }

namespace Mod.Stores

variable {m a : Mod}

theorem refl (m : Mod) : m.Stores m := ⟨_, _, _, _, _, rfl⟩
theorem trans {b : Mod} (x : m.Stores a) (y : a.Stores b) : m.Stores b := by
  obtain ⟨_, _, _, _, _, rfl⟩ := x
  obtain ⟨_, _, _, _, _, rfl⟩ := y
  exact ⟨_, _, _, _, _, rfl⟩
theorem updMem {f : MemS → MemS} (h : m.Stores a) : m.Stores (a.updMem f) := h.trans ⟨_, _, _, _, _, rfl⟩
theorem updCache {f : CacheS → CacheS} (h : m.Stores a) : m.Stores (a.updCache f) := h.trans ⟨_, _, _, _, _, rfl⟩
theorem updStack {i : Nat} {f : Stack → Stack} (h : m.Stores a) : m.Stores (a.updStack i f) := h.trans ⟨_, _, _, _, _, rfl⟩
theorem updHalf {i : Nat} {f : Half → Half} (h : m.Stores a) : m.Stores (a.updHalf i f) := h.trans ⟨_, _, _, _, _, rfl⟩
theorem countBy {x y n : Nat} (h : m.Stores a) : m.Stores (a.countBy x y n) := by
  obtain ⟨_, _, e⟩ := a.countBy_frame x y n
  rw [e]
  exact h.trans ⟨_, _, _, _, _, rfl⟩
theorem fold {α : Type} {f : Mod → α → Mod} (step : ∀ a x, Mod.Stores a (f a x)) {l : List α} (h : m.Stores a) : m.Stores (l.foldl f a) := by
  induction l generalizing a with
  | nil => exact h
  | cons x l ih => exact ih (h.trans (step a x))

theorem count {x y : Nat} (h : m.Stores a) : m.Stores (a.count x y) := by
  simp only [Mod.count]
  repeat' with_reducible first | exact h | apply countBy | split
theorem setPoison {pa : Nat} {p : Bool} (h : m.Stores a) : m.Stores (a.setPoison pa p) := by
  simp only [Mod.setPoison]
  repeat' with_reducible first | exact h | apply updMem | split
theorem emStore {pa k : Nat} {d : LineData} {p : Bool} (h : m.Stores a) : m.Stores (a.emStore pa k d p) := by
  simp only [Mod.emStore]
  repeat' with_reducible first | exact h | apply updMem | apply countBy | apply count | apply setPoison | split
theorem emTake {pa k : Nat} {d : LineData} {p : Bool} (h : m.Stores a) : m.Stores (a.emTake pa k d p) := by
  simp only [Mod.emTake]
  repeat' with_reducible first | exact h | apply updStack | apply emStore | split
theorem markLost {st pa : Nat} (h : m.Stores a) : m.Stores (a.markLost st pa) := by
  simp only [Mod.markLost]
  repeat' with_reducible first | exact h | apply updStack | split
theorem markStripe {v : BitVec 32} {st pa : Nat} (h : m.Stores a) : m.Stores (a.markStripe v st pa) := by
  refine fold (fun a r => ?_) h.markLost
  have h := refl a
  dsimp only
  split
  · exact h.markLost
  · exact h
theorem standins {l : List Nat} {pa : Nat} {d : LineData} {p : Bool} (h : m.Stores a) :
    m.Stores (forEach l (fun x m => m.emStore x pa d p) a) := fold (fun a _ => (refl a).emStore) h
theorem placeLine {pa k : Nat} {d : LineData} {p : Bool} (h : m.Stores a) : m.Stores (a.placeLine pa k d p) := by
  simp only [Mod.placeLine]
  repeat' with_reducible first | exact h | apply emStore | apply emTake | apply standins | split
/-- A line written at its controllers. -/
theorem memWriteLine {pa : Nat} {d : LineData} {p : Bool} (h : m.Stores a) : m.Stores (a.memWriteLine pa d p).1 := by
  simp only [Mod.memWriteLine]
  repeat' with_reducible first | exact h | apply updMem | apply setPoison | apply emStore | apply markLost | apply markStripe | apply placeLine | split
theorem setLine {k : Nat} {l : Line} (h : m.Stores a) : m.Stores (a.setLine k l) := by
  simp only [Mod.setLine]
  repeat' with_reducible first | exact h | apply updCache | split
theorem putDirtyBit {x f : Nat} (h : m.Stores a) : m.Stores (a.putDirtyBit x f) := by
  simp only [Mod.putDirtyBit]
  repeat' with_reducible first | exact h | apply memWriteLine | apply setLine | split
theorem markDirtyFrame {k : Nat} (h : m.Stores a) : m.Stores (a.markDirtyFrame k) := by
  simp only [Mod.markDirtyFrame]
  repeat' with_reducible first | exact h | apply updHalf | apply putDirtyBit | split
theorem setDir {k : Nat} {d : Dir} (h : m.Stores a) : m.Stores (a.setDir k d) := by
  simp only [Mod.setDir]
  repeat' with_reducible first | exact h | apply setLine | split
theorem lineTake {k : Nat} {d : LineData} {p : Bool} (h : m.Stores a) : m.Stores (a.lineTake k d p).1 := by
  simp only [Mod.lineTake]
  repeat' with_reducible first | exact h | apply memWriteLine | apply setLine | apply markDirtyFrame | split
theorem takeData {k : Nat} {d : LineData} {p : Bool} (h : m.Stores a) : m.Stores (a.takeData k d p) := by
  simp only [Mod.takeData]
  repeat' with_reducible first | exact h | apply count | apply lineTake | split
theorem recalled {k : Nat} {x : Bool} (h : m.Stores a) : m.Stores (a.recall k x) := by
  simp only [Mod.recall]
  repeat' with_reducible first | exact h | apply updCache | apply countBy | apply setDir | apply takeData | split
theorem backWrite {pa : Nat} {d : LineData} {p : Bool} (h : m.Stores a) : m.Stores (a.backWrite pa d p) := by
  simp only [Mod.backWrite]
  repeat' with_reducible first | exact h | apply memWriteLine | apply lineTake | apply recalled | split
theorem writePoison {pa : Nat} (h : m.Stores a) : m.Stores (a.writePoison pa) := by
  simp only [Mod.writePoison]
  repeat' with_reducible first | exact h | apply setPoison | split
/-- A line read without an error. -/
theorem memReadLine {pa : Nat} (h : m.Stores a) : m.Stores (a.memReadLine pa .ok .ok 0).2 := by
  have e : (Ecc.ok == Ecc.corrected) = false := rfl
  simp only [Mod.memReadLine, e, Bool.false_eq_true, if_false]
  repeat' with_reducible first | exact h | apply countBy | apply count | apply writePoison | split
theorem backRead {pa : Nat} (h : m.Stores a) : m.Stores (a.backRead pa .ok).2 := by
  simp only [Mod.backRead]
  repeat' with_reducible first | exact h | apply memReadLine | split
theorem areaPiece {pa : Nat} {bs : List Byte} (h : m.Stores a) : m.Stores (a.areaPiece pa bs) := by
  simp only [Mod.areaPiece]
  repeat' with_reducible first | exact h | apply backWrite | apply backRead | split
/-- Bytes of an area. -/
theorem areaWrite {pa : Nat} {bs : List Byte} (h : m.Stores a) : m.Stores (a.areaWrite pa bs) := by
  simp only [Mod.areaWrite]
  split
  · exact h
  · exact fold (fun a _ => (refl a).areaPiece) h
theorem putImage {v : Saved} (h : m.Stores a) : m.Stores (a.putImage v) := by
  simp only [Mod.putImage]
  repeat' with_reducible first | exact h | apply areaWrite | split
theorem putImageTs {v : Saved} {off : Nat} {bs : List Byte} (h : m.Stores a) : m.Stores (a.putImageTs v off bs) := by
  simp only [Mod.putImageTs]
  repeat' with_reducible first | exact h | apply areaWrite | split
theorem putJournal {x : Qp} {j : JEntry} (h : m.Stores a) : m.Stores (a.putJournal x j) := by
  simp only [Mod.putJournal]
  repeat' with_reducible first | exact h | apply areaWrite | split
theorem putRetained {base i : Nat} {bs : List Byte} {cs : List (Nat × Nat)} (h : m.Stores a) : m.Stores (a.putRetained base i bs cs) := by
  induction cs generalizing a i bs with
  | nil => exact h
  | cons c cs ih =>
    simp only [Mod.putRetained]
    split
    · exact ih h
    · refine ih ?_
      split
      · exact h
      · exact h.areaWrite

end Mod.Stores

end Sys2Proof.Machine
end

