-- ==== Sys2Proof/Laws/Exec.lean ====
section
/-! SUPPORT. What `exec` runs for each command, by definition. -/

namespace Sys2Proof.Machine

@[simp] theorem exec_integerOp c op s : exec (.integerOp c op) s = execIntegerOp c op s := rfl
@[simp] theorem exec_branch c op s : exec (.branch c op) s = execBranch c op s := rfl
@[simp] theorem exec_divRem c op rd rs1 rs2 s : exec (.divRem c op rd rs1 rs2) s = execDivRem c op rd rs1 rs2 s := rfl
@[simp] theorem exec_load c width rd rs1 imm ecc s : exec (.load c width rd rs1 imm ecc) s = execLoad c width rd rs1 imm ecc s := rfl
@[simp] theorem exec_store c width rs1 rs2 imm ecc s : exec (.store c width rs1 rs2 imm ecc) s = execStore c width rs1 rs2 imm ecc s := rfl
@[simp] theorem exec_fence c pred succ s : exec (.fence c pred succ) s = execFence c pred succ s := rfl
@[simp] theorem exec_fenceI c s : exec (.fenceI c) s = execFenceI c s := rfl
@[simp] theorem exec_csrAccess c op rd src csr s : exec (.csrAccess c op rd src csr) s = execCsrAccess c op rd src csr s := rfl
@[simp] theorem exec_ebreak c s : exec (.ebreak c) s = execEbreak c s := rfl
@[simp] theorem exec_ecall c s : exec (.ecall c) s = execEcall c s := rfl
@[simp] theorem exec_taskFaultDrained tile saddle s : exec (.taskFaultDrained tile saddle) s = execTaskFaultDrained tile saddle s := rfl
@[simp] theorem exec_contextRotate tile s : exec (.contextRotate tile) s = execContextRotate tile s := rfl
@[simp] theorem exec_engMm c wr acc rs1 s : exec (.engMm c wr acc rs1) s = execEngMm c wr acc rs1 s := rfl
@[simp] theorem exec_vadd c vd vs1 vs2 residueFault s : exec (.vadd c vd vs1 vs2 residueFault) s = execVadd c vd vs1 vs2 residueFault s := rfl
@[simp] theorem exec_vsub c vd vs1 vs2 residueFault s : exec (.vsub c vd vs1 vs2 residueFault) s = execVsub c vd vs1 vs2 residueFault s := rfl
@[simp] theorem exec_vmul c vd vs1 vs2 residueFault s : exec (.vmul c vd vs1 vs2 residueFault) s = execVmul c vd vs1 vs2 residueFault s := rfl
@[simp] theorem exec_vfma c vd vs1 vs2 residueFault s : exec (.vfma c vd vs1 vs2 residueFault) s = execVfma c vd vs1 vs2 residueFault s := rfl
@[simp] theorem exec_vmin c vd vs1 vs2 s : exec (.vmin c vd vs1 vs2) s = execVmin c vd vs1 vs2 s := rfl
@[simp] theorem exec_vmax c vd vs1 vs2 s : exec (.vmax c vd vs1 vs2) s = execVmax c vd vs1 vs2 s := rfl
@[simp] theorem exec_vabs c vd vs1 s : exec (.vabs c vd vs1) s = execVabs c vd vs1 s := rfl
@[simp] theorem exec_vneg c vd vs1 s : exec (.vneg c vd vs1) s = execVneg c vd vs1 s := rfl
@[simp] theorem exec_vcmpEq c vd vs1 vs2 s : exec (.vcmpEq c vd vs1 vs2) s = execVcmpEq c vd vs1 vs2 s := rfl
@[simp] theorem exec_vcmpLt c vd vs1 vs2 s : exec (.vcmpLt c vd vs1 vs2) s = execVcmpLt c vd vs1 vs2 s := rfl
@[simp] theorem exec_vcmpLe c vd vs1 vs2 s : exec (.vcmpLe c vd vs1 vs2) s = execVcmpLe c vd vs1 vs2 s := rfl
@[simp] theorem exec_vcmpUnord c vd vs1 vs2 s : exec (.vcmpUnord c vd vs1 vs2) s = execVcmpUnord c vd vs1 vs2 s := rfl
@[simp] theorem exec_vsel c vd vs1 vs2 s : exec (.vsel c vd vs1 vs2) s = execVsel c vd vs1 vs2 s := rfl
@[simp] theorem exec_vand c vd vs1 vs2 s : exec (.vand c vd vs1 vs2) s = execVand c vd vs1 vs2 s := rfl
@[simp] theorem exec_vor c vd vs1 vs2 s : exec (.vor c vd vs1 vs2) s = execVor c vd vs1 vs2 s := rfl
@[simp] theorem exec_vxor c vd vs1 vs2 s : exec (.vxor c vd vs1 vs2) s = execVxor c vd vs1 vs2 s := rfl
@[simp] theorem exec_viadd c vd vs1 vs2 residueFault s : exec (.viadd c vd vs1 vs2 residueFault) s = execViadd c vd vs1 vs2 residueFault s := rfl
@[simp] theorem exec_visub c vd vs1 vs2 s : exec (.visub c vd vs1 vs2) s = execVisub c vd vs1 vs2 s := rfl
@[simp] theorem exec_vimul c vd vs1 vs2 s : exec (.vimul c vd vs1 vs2) s = execVimul c vd vs1 vs2 s := rfl
@[simp] theorem exec_vsll c vd vs1 vs2 s : exec (.vsll c vd vs1 vs2) s = execVsll c vd vs1 vs2 s := rfl
@[simp] theorem exec_vsrl c vd vs1 vs2 s : exec (.vsrl c vd vs1 vs2) s = execVsrl c vd vs1 vs2 s := rfl
@[simp] theorem exec_vsra c vd vs1 vs2 s : exec (.vsra c vd vs1 vs2) s = execVsra c vd vs1 vs2 s := rfl
@[simp] theorem exec_viadds c vd vs1 vs2 s : exec (.viadds c vd vs1 vs2) s = execViadds c vd vs1 vs2 s := rfl
@[simp] theorem exec_vcvt c vd vs1 s : exec (.vcvt c vd vs1) s = execVcvt c vd vs1 s := rfl
@[simp] theorem exec_vmxenc c vd vs1 s : exec (.vmxenc c vd vs1) s = execVmxenc c vd vs1 s := rfl
@[simp] theorem exec_vrsum c vd vs1 s : exec (.vrsum c vd vs1) s = execVrsum c vd vs1 s := rfl
@[simp] theorem exec_vrmax c vd vs1 s : exec (.vrmax c vd vs1) s = execVrmax c vd vs1 s := rfl
@[simp] theorem exec_vrmin c vd vs1 s : exec (.vrmin c vd vs1) s = execVrmin c vd vs1 s := rfl
@[simp] theorem exec_vexp c vd vs1 s : exec (.vexp c vd vs1) s = execVexp c vd vs1 s := rfl
@[simp] theorem exec_vrcp c vd vs1 s : exec (.vrcp c vd vs1) s = execVrcp c vd vs1 s := rfl
@[simp] theorem exec_vrsqrt c vd vs1 s : exec (.vrsqrt c vd vs1) s = execVrsqrt c vd vs1 s := rfl
@[simp] theorem exec_vsmxr c vd vs1 vs2 s : exec (.vsmxr c vd vs1 vs2) s = execVsmxr c vd vs1 vs2 s := rfl
@[simp] theorem exec_engVld c size vd rs1 ecc s : exec (.engVld c size vd rs1 ecc) s = execEngVld c size vd rs1 ecc s := rfl
@[simp] theorem exec_engVst c size vs2 rs1 ecc s : exec (.engVst c size vs2 rs1 ecc) s = execEngVst c size vs2 rs1 ecc s := rfl
@[simp] theorem exec_cpyPush c rd rs1 s : exec (.cpyPush c rd rs1) s = execCpyPush c rd rs1 s := rfl
@[simp] theorem exec_cpyPushnb c rd rs1 s : exec (.cpyPushnb c rd rs1) s = execCpyPushnb c rd rs1 s := rfl
@[simp] theorem exec_cpyWait c rd rs1 s : exec (.cpyWait c rd rs1) s = execCpyWait c rd rs1 s := rfl
@[simp] theorem exec_cpyTest c rd rs1 s : exec (.cpyTest c rd rs1) s = execCpyTest c rd rs1 s := rfl
@[simp] theorem exec_semSig c rs1 rs2 s : exec (.semSig c rs1 rs2) s = execSemSig c rs1 rs2 s := rfl
@[simp] theorem exec_semWait c rd rs1 rs2 s : exec (.semWait c rd rs1 rs2) s = execSemWait c rd rs1 rs2 s := rfl
@[simp] theorem exec_semTry c rd rs1 rs2 s : exec (.semTry c rd rs1 rs2) s = execSemTry c rd rs1 rs2 s := rfl
@[simp] theorem exec_barAw c rd rs1 s : exec (.barAw c rd rs1) s = execBarAw c rd rs1 s := rfl
@[simp] theorem exec_barA c rd rs1 s : exec (.barA c rd rs1) s = execBarA c rd rs1 s := rfl
@[simp] theorem exec_barW c rd rs1 rs2 s : exec (.barW c rd rs1 rs2) s = execBarW c rd rs1 rs2 s := rfl
@[simp] theorem exec_hintDead c rs1 rs2 s : exec (.hintDead c rs1 rs2) s = execHintDead c rs1 rs2 s := rfl
@[simp] theorem exec_fenceE c s : exec (.fenceE c) s = execFenceE c s := rfl
@[simp] theorem exec_fenceM c s : exec (.fenceM c) s = execFenceM c s := rfl
@[simp] theorem exec_fenceH c s : exec (.fenceH c) s = execFenceH c s := rfl
@[simp] theorem exec_fenceFab c s : exec (.fenceFab c) s = execFenceFab c s := rfl
@[simp] theorem exec_fenceAll c s : exec (.fenceAll c) s = execFenceAll c s := rfl
@[simp] theorem exec_fenceDone tile saddle s : exec (.fenceDone tile saddle) s = execFenceDone tile saddle s := rfl
@[simp] theorem exec_dbgTrace c rs1 s : exec (.dbgTrace c rs1) s = execDbgTrace c rs1 s := rfl
@[simp] theorem exec_dbgBrk c s : exec (.dbgBrk c) s = execDbgBrk c s := rfl
@[simp] theorem exec_taskEnd c rs1 s : exec (.taskEnd c rs1) s = execTaskEnd c rs1 s := rfl
@[simp] theorem exec_matrixIssueStart tile s : exec (.matrixIssueStart tile) s = execMatrixIssueStart tile s := rfl
@[simp] theorem exec_issueWriteOut tile upset s : exec (.issueWriteOut tile upset) s = execIssueWriteOut tile upset s := rfl
@[simp] theorem exec_thresholdStepDown tile cls s : exec (.thresholdStepDown tile cls) s = execThresholdStepDown tile cls s := rfl
@[simp] theorem exec_csuSelftest tile perturbedPasses s : exec (.csuSelftest tile perturbedPasses) s = execCsuSelftest tile perturbedPasses s := rfl
@[simp] theorem exec_strikeLapse tile s : exec (.strikeLapse tile) s = execStrikeLapse tile s := rfl
@[simp] theorem exec_bankStarved tile bank req s : exec (.bankStarved tile bank req) s = execBankStarved tile bank req s := rfl
@[simp] theorem exec_splitChangeDone tile s : exec (.splitChangeDone tile) s = execSplitChangeDone tile s := rfl
@[simp] theorem exec_copyComplete copy s : exec (.copyComplete copy) s = execCopyComplete copy s := rfl
@[simp] theorem exec_guardWindowEnd slice s : exec (.guardWindowEnd slice) s = execGuardWindowEnd slice s := rfl
@[simp] theorem exec_fillReturn line ecc blocked s : exec (.fillReturn line ecc blocked) s = execFillReturn line ecc blocked s := rfl
@[simp] theorem exec_gets agent line part cls ecc s : exec (.gets agent line part cls ecc) s = execGets agent line part cls ecc s := rfl
@[simp] theorem exec_getx agent line part cls ecc s : exec (.getx agent line part cls ecc) s = execGetx agent line part cls ecc s := rfl
@[simp] theorem exec_upg agent line part cls s : exec (.upg agent line part cls) s = execUpg agent line part cls s := rfl
@[simp] theorem exec_putf agent line s : exec (.putf agent line) s = execPutf agent line s := rfl
@[simp] theorem exec_pute agent line s : exec (.pute agent line) s = execPute agent line s := rfl
@[simp] theorem exec_putm agent line s : exec (.putm agent line) s = execPutm agent line s := rfl
@[simp] theorem exec_ncrd agent line part cls ecc s : exec (.ncrd agent line part cls ecc) s = execNcrd agent line part cls ecc s := rfl
@[simp] theorem exec_ncwi agent line part cls byteen data s : exec (.ncwi agent line part cls byteen data) s = execNcwi agent line part cls byteen data s := rfl
@[simp] theorem exec_ncwh agent line part cls byteen data target s : exec (.ncwh agent line part cls byteen data target) s = execNcwh agent line part cls byteen data target s := rfl
@[simp] theorem exec_dead agent line part s : exec (.dead agent line part) s = execDead agent line part s := rfl
@[simp] theorem exec_fwdS agent line s : exec (.fwdS agent line) s = execFwdS agent line s := rfl
@[simp] theorem exec_fwdX agent line s : exec (.fwdX agent line) s = execFwdX agent line s := rfl
@[simp] theorem exec_fwdNc agent line s : exec (.fwdNc agent line) s = execFwdNc agent line s := rfl
@[simp] theorem exec_inv agent line s : exec (.inv agent line) s = execInv agent line s := rfl
@[simp] theorem exec_invd agent line s : exec (.invd agent line) s = execInvd agent line s := rfl
@[simp] theorem exec_push tile line home s : exec (.push tile line home) s = execPush tile line home s := rfl
@[simp] theorem exec_dataS agent line s : exec (.dataS agent line) s = execDataS agent line s := rfl
@[simp] theorem exec_dataF agent line s : exec (.dataF agent line) s = execDataF agent line s := rfl
@[simp] theorem exec_dataE agent line s : exec (.dataE agent line) s = execDataE agent line s := rfl
@[simp] theorem exec_dataM agent line s : exec (.dataM agent line) s = execDataM agent line s := rfl
@[simp] theorem exec_grantM agent line s : exec (.grantM agent line) s = execGrantM agent line s := rfl
@[simp] theorem exec_ncdata agent line s : exec (.ncdata agent line) s = execNcdata agent line s := rfl
@[simp] theorem exec_ncack agent line s : exec (.ncack agent line) s = execNcack agent line s := rfl
@[simp] theorem exec_invAck agent line s : exec (.invAck agent line) s = execInvAck agent line s := rfl
@[simp] theorem exec_fwdAck agent line s : exec (.fwdAck agent line) s = execFwdAck agent line s := rfl
@[simp] theorem exec_pushAck tile line s : exec (.pushAck tile line) s = execPushAck tile line s := rfl
@[simp] theorem exec_pushNak tile line s : exec (.pushNak tile line) s = execPushNak tile line s := rfl
@[simp] theorem exec_putAck agent line s : exec (.putAck agent line) s = execPutAck agent line s := rfl
@[simp] theorem exec_nack agent line s : exec (.nack agent line) s = execNack agent line s := rfl
@[simp] theorem exec_nackBackoffExpiry agent line s : exec (.nackBackoffExpiry agent line) s = execNackBackoffExpiry agent line s := rfl
@[simp] theorem exec_ticketAdmit line s : exec (.ticketAdmit line) s = execTicketAdmit line s := rfl
@[simp] theorem exec_agentUnresponsive line agent s : exec (.agentUnresponsive line agent) s = execAgentUnresponsive line agent s := rfl
@[simp] theorem exec_ncModeChange agent s : exec (.ncModeChange agent) s = execNcModeChange agent s := rfl
@[simp] theorem exec_tswr agent tile offset data part ecc s : exec (.tswr agent tile offset data part ecc) s = execTswr agent tile offset data part ecc s := rfl
@[simp] theorem exec_tsrd agent tile offset len part ecc s : exec (.tsrd agent tile offset len part ecc) s = execTsrd agent tile offset len part ecc s := rfl
@[simp] theorem exec_tsdata agent tile s : exec (.tsdata agent tile) s = execTsdata agent tile s := rfl
@[simp] theorem exec_tsack agent tile s : exec (.tsack agent tile) s = execTsack agent tile s := rfl
@[simp] theorem exec_red router flit atDestination s : exec (.red router flit atDestination) s = execRed router flit atDestination s := rfl
@[simp] theorem exec_chainringRelease router s : exec (.chainringRelease router) s = execChainringRelease router s := rfl
@[simp] theorem exec_redack copy s : exec (.redack copy) s = execRedack copy s := rfl
@[simp] theorem exec_branchHoldExpiry port place s : exec (.branchHoldExpiry port place) s = execBranchHoldExpiry port place s := rfl
@[simp] theorem exec_branchFail copy target s : exec (.branchFail copy target) s = execBranchFail copy target s := rfl
@[simp] theorem exec_creditReturn port net vc s : exec (.creditReturn port net vc) s = execCreditReturn port net vc s := rfl
@[simp] theorem exec_cnDoorbell iod s : exec (.cnDoorbell iod) s = execCnDoorbell iod s := rfl
@[simp] theorem exec_cnCmd iod s : exec (.cnCmd iod) s = execCnCmd iod s := rfl
@[simp] theorem exec_cnCmpl iod s : exec (.cnCmpl iod) s = execCnCmpl iod s := rfl
@[simp] theorem exec_cnSwr src dst line offset data part s : exec (.cnSwr src dst line offset data part) s = execCnSwr src dst line offset data part s := rfl
@[simp] theorem exec_cnSwrack agent s : exec (.cnSwrack agent) s = execCnSwrack agent s := rfl
@[simp] theorem exec_cnLaunch tile saddle s : exec (.cnLaunch tile saddle) s = execCnLaunch tile saddle s := rfl
@[simp] theorem exec_cnTaskend tile saddle s : exec (.cnTaskend tile saddle) s = execCnTaskend tile saddle s := rfl
@[simp] theorem exec_cnFault tile saddle s : exec (.cnFault tile saddle) s = execCnFault tile saddle s := rfl
@[simp] theorem exec_cnEvent iod s : exec (.cnEvent iod) s = execCnEvent iod s := rfl
@[simp] theorem exec_snSig sem count src s : exec (.snSig sem count src) s = execSnSig sem count src s := rfl
@[simp] theorem exec_snWait sem count tile saddle s : exec (.snWait sem count tile saddle) s = execSnWait sem count tile saddle s := rfl
@[simp] theorem exec_snTry sem count tile saddle s : exec (.snTry sem count tile saddle) s = execSnTry sem count tile saddle s := rfl
@[simp] theorem exec_snBarA bar src s : exec (.snBarA bar src) s = execSnBarA bar src s := rfl
@[simp] theorem exec_snBarAw bar tile saddle s : exec (.snBarAw bar tile saddle) s = execSnBarAw bar tile saddle s := rfl
@[simp] theorem exec_snBarW bar phase tile saddle s : exec (.snBarW bar phase tile saddle) s = execSnBarW bar phase tile saddle s := rfl
@[simp] theorem exec_snGrant tile saddle s : exec (.snGrant tile saddle) s = execSnGrant tile saddle s := rfl
@[simp] theorem exec_snFail tile saddle s : exec (.snFail tile saddle) s = execSnFail tile saddle s := rfl
@[simp] theorem exec_snRetry tile saddle s : exec (.snRetry tile saddle) s = execSnRetry tile saddle s := rfl
@[simp] theorem exec_waitResend tile saddle s : exec (.waitResend tile saddle) s = execWaitResend tile saddle s := rfl
@[simp] theorem exec_snRelease tile saddle s : exec (.snRelease tile saddle) s = execSnRelease tile saddle s := rfl
@[simp] theorem exec_clkADivChange half s : exec (.clkADivChange half) s = execClkADivChange half s := rfl
@[simp] theorem exec_seamPauseEnd die s : exec (.seamPauseEnd die) s = execSeamPauseEnd die s := rfl
@[simp] theorem exec_auditSample ledger sample s : exec (.auditSample ledger sample) s = execAuditSample ledger sample s := rfl
@[simp] theorem exec_memRead pa data redundancy lane s : exec (.memRead pa data redundancy lane) s = execMemRead pa data redundancy lane s := rfl
@[simp] theorem exec_memWrite pa data poison s : exec (.memWrite pa data poison) s = execMemWrite pa data poison s := rfl
@[simp] theorem exec_parityDelta pa delta s : exec (.parityDelta pa delta) s = execParityDelta pa delta s := rfl
@[simp] theorem exec_scrub pa data redundancy lane s : exec (.scrub pa data redundancy lane) s = execScrub pa data redundancy lane s := rfl
@[simp] theorem exec_refresh stack s : exec (.refresh stack) s = execRefresh stack s := rfl
@[simp] theorem exec_memRegionSet blob s : exec (.memRegionSet blob) s = execMemRegionSet blob s := rfl
@[simp] theorem exec_regionFormingDone s : exec .regionFormingDone s = execRegionFormingDone s := rfl
@[simp] theorem exec_memTrainStepDone stack chan ok weak weakCa loopbackPass s : exec (.memTrainStepDone stack chan ok weak weakCa loopbackPass) s = execMemTrainStepDone stack chan ok weak weakCa loopbackPass s := rfl
@[simp] theorem exec_stackThermalSample temps s : exec (.stackThermalSample temps) s = execStackThermalSample temps s := rfl
@[simp] theorem exec_critParkDone stack s : exec (.critParkDone stack) s = execCritParkDone stack s := rfl
@[simp] theorem exec_resyncEnd stack s : exec (.resyncEnd stack) s = execResyncEnd stack s := rfl
@[simp] theorem exec_stackCmdTimeout stack chan s : exec (.stackCmdTimeout stack chan) s = execStackCmdTimeout stack chan s := rfl
@[simp] theorem exec_rebuildStart stack s : exec (.rebuildStart stack) s = execRebuildStart stack s := rfl
@[simp] theorem exec_rebuildStep stack redundancy s : exec (.rebuildStep stack redundancy) s = execRebuildStep stack redundancy s := rfl
@[simp] theorem exec_memTgStart stack chan service s : exec (.memTgStart stack chan service) s = execMemTgStart stack chan service s := rfl
@[simp] theorem exec_memTgStop stack chan s : exec (.memTgStop stack chan) s = execMemTgStop stack chan s := rfl
@[simp] theorem exec_memTgDone stack chan errors first lanes s : exec (.memTgDone stack chan errors first lanes) s = execMemTgDone stack chan errors first lanes s := rfl
@[simp] theorem exec_slotSet cmd s : exec (.slotSet cmd) s = execSlotSet cmd s := rfl
@[simp] theorem exec_slotClear cmd s : exec (.slotClear cmd) s = execSlotClear cmd s := rfl
@[simp] theorem exec_seqAdmit cmd s : exec (.seqAdmit cmd) s = execSeqAdmit cmd s := rfl
@[simp] theorem exec_seqAppend cmd s : exec (.seqAppend cmd) s = execSeqAppend cmd s := rfl
@[simp] theorem exec_seqPark cmd s : exec (.seqPark cmd) s = execSeqPark cmd s := rfl
@[simp] theorem exec_seqResume cmd s : exec (.seqResume cmd) s = execSeqResume cmd s := rfl
@[simp] theorem exec_seqRetire cmd s : exec (.seqRetire cmd) s = execSeqRetire cmd s := rfl
@[simp] theorem exec_seqQuery cmd s : exec (.seqQuery cmd) s = execSeqQuery cmd s := rfl
@[simp] theorem exec_stepCmd cmd s : exec (.stepCmd cmd) s = execStepCmd cmd s := rfl
@[simp] theorem exec_stepEnd cmd s : exec (.stepEnd cmd) s = execStepEnd cmd s := rfl
@[simp] theorem exec_retireDone index s : exec (.retireDone index) s = execRetireDone index s := rfl
@[simp] theorem exec_selectionStart cmd item s : exec (.selectionStart cmd item) s = execSelectionStart cmd item s := rfl
@[simp] theorem exec_selectionMerge cmd item s : exec (.selectionMerge cmd item) s = execSelectionMerge cmd item s := rfl
@[simp] theorem exec_seqAstInit s : exec .seqAstInit s = execSeqAstInit s := rfl
@[simp] theorem exec_seqAstInitDone s : exec .seqAstInitDone s = execSeqAstInitDone s := rfl
@[simp] theorem exec_seqPoolSet blob s : exec (.seqPoolSet blob) s = execSeqPoolSet blob s := rfl
@[simp] theorem exec_taskLaunch iod s : exec (.taskLaunch iod) s = execTaskLaunch iod s := rfl
@[simp] theorem exec_contextEvictable tile saddle s : exec (.contextEvictable tile saddle) s = execContextEvictable tile saddle s := rfl
@[simp] theorem exec_evictionReceived tile saddle s : exec (.evictionReceived tile saddle) s = execEvictionReceived tile saddle s := rfl
@[simp] theorem exec_saveDone tile saddle s : exec (.saveDone tile saddle) s = execSaveDone tile saddle s := rfl
@[simp] theorem exec_restoreDone tile saddle ecc s : exec (.restoreDone tile saddle ecc) s = execRestoreDone tile saddle ecc s := rfl
@[simp] theorem exec_parkedWaitDone handle s : exec (.parkedWaitDone handle) s = execParkedWaitDone handle s := rfl
@[simp] theorem exec_interfWindowEnd part active waited s : exec (.interfWindowEnd part active waited) s = execInterfWindowEnd part active waited s := rfl
@[simp] theorem exec_sqDoorbell fn qp tail s : exec (.sqDoorbell fn qp tail) s = execSqDoorbell fn qp tail s := rfl
@[simp] theorem exec_cqDoorbell fn qp head s : exec (.cqDoorbell fn qp head) s = execCqDoorbell fn qp head s := rfl
@[simp] theorem exec_adminSqDoorbell fn tail s : exec (.adminSqDoorbell fn tail) s = execAdminSqDoorbell fn tail s := rfl
@[simp] theorem exec_adminCqDoorbell fn head s : exec (.adminCqDoorbell fn head) s = execAdminCqDoorbell fn head s := rfl
@[simp] theorem exec_commandFetchDone fn qp slots s : exec (.commandFetchDone fn qp slots) s = execCommandFetchDone fn qp slots s := rfl
@[simp] theorem exec_nop cmd s : exec (.nop cmd) s = execNop cmd s := rfl
@[simp] theorem exec_launch cmd s : exec (.launch cmd) s = execLaunch cmd s := rfl
@[simp] theorem exec_copyCmd cmd s : exec (.copyCmd cmd) s = execCopyCmd cmd s := rfl
@[simp] theorem exec_pwrite cmd s : exec (.pwrite cmd) s = execPwrite cmd s := rfl
@[simp] theorem exec_collective cmd s : exec (.collective cmd) s = execCollective cmd s := rfl
@[simp] theorem exec_pin cmd s : exec (.pin cmd) s = execPin cmd s := rfl
@[simp] theorem exec_unpin cmd s : exec (.unpin cmd) s = execUnpin cmd s := rfl
@[simp] theorem exec_barAlloc cmd s : exec (.barAlloc cmd) s = execBarAlloc cmd s := rfl
@[simp] theorem exec_mmuInval cmd s : exec (.mmuInval cmd) s = execMmuInval cmd s := rfl
@[simp] theorem exec_frameTag cmd s : exec (.frameTag cmd) s = execFrameTag cmd s := rfl
@[simp] theorem exec_qpCreate cmd s : exec (.qpCreate cmd) s = execQpCreate cmd s := rfl
@[simp] theorem exec_qpDelete cmd s : exec (.qpDelete cmd) s = execQpDelete cmd s := rfl
@[simp] theorem exec_qpRebind cmd s : exec (.qpRebind cmd) s = execQpRebind cmd s := rfl
@[simp] theorem exec_resultFetch cmd s : exec (.resultFetch cmd) s = execResultFetch cmd s := rfl
@[simp] theorem exec_resultAck cmd s : exec (.resultAck cmd) s = execResultAck cmd s := rfl
@[simp] theorem exec_commandComplete cmd s : exec (.commandComplete cmd) s = execCommandComplete cmd s := rfl
@[simp] theorem exec_flushReturn s : exec .flushReturn s = execFlushReturn s := rfl
@[simp] theorem exec_tlimitExpiry cmd s : exec (.tlimitExpiry cmd) s = execTlimitExpiry cmd s := rfl
@[simp] theorem exec_msixCoalesceTimer qp s : exec (.msixCoalesceTimer qp) s = execMsixCoalesceTimer qp s := rfl
@[simp] theorem exec_hifAttach fn s : exec (.hifAttach fn) s = execHifAttach fn s := rfl
@[simp] theorem exec_hifAqEn fn s : exec (.hifAqEn fn) s = execHifAqEn fn s := rfl
@[simp] theorem exec_pcieLinkDown s : exec .pcieLinkDown s = execPcieLinkDown s := rfl
@[simp] theorem exec_pcieHotReset s : exec .pcieHotReset s = execPcieHotReset s := rfl
@[simp] theorem exec_pcieRecoveryTimeout s : exec .pcieRecoveryTimeout s = execPcieRecoveryTimeout s := rfl
@[simp] theorem exec_hifPortSelect port s : exec (.hifPortSelect port) s = execHifPortSelect port s := rfl
@[simp] theorem exec_flr fn s : exec (.flr fn) s = execFlr fn s := rfl
@[simp] theorem exec_vfEnableClear s : exec .vfEnableClear s = execVfEnableClear s := rfl
@[simp] theorem exec_partCreate blob s : exec (.partCreate blob) s = execPartCreate blob s := rfl
@[simp] theorem exec_partDisable part s : exec (.partDisable part) s = execPartDisable part s := rfl
@[simp] theorem exec_disableDone part s : exec (.disableDone part) s = execDisableDone part s := rfl
@[simp] theorem exec_shrSet blob s : exec (.shrSet blob) s = execShrSet blob s := rfl
@[simp] theorem exec_shrSeal slot s : exec (.shrSeal slot) s = execShrSeal slot s := rfl
@[simp] theorem exec_shrClear slot s : exec (.shrClear slot) s = execShrClear slot s := rfl
@[simp] theorem exec_shrRepair blob s : exec (.shrRepair blob) s = execShrRepair blob s := rfl
@[simp] theorem exec_mcastSet part blob s : exec (.mcastSet part blob) s = execMcastSet part blob s := rfl
@[simp] theorem exec_migLogFlip part s : exec (.migLogFlip part) s = execMigLogFlip part s := rfl
@[simp] theorem exec_migLogOnWrite part on s : exec (.migLogOnWrite part on) s = execMigLogOnWrite part on s := rfl
@[simp] theorem exec_fabPortMode port mode s : exec (.fabPortMode port mode) s = execFabPortMode port mode s := rfl
@[simp] theorem exec_fabLinkUp port idHash claimed partnerAccepts lanes credit s : exec (.fabLinkUp port idHash claimed partnerAccepts lanes credit) s = execFabLinkUp port idHash claimed partnerAccepts lanes credit s := rfl
@[simp] theorem exec_fabLinkFailRetry port cause s : exec (.fabLinkFailRetry port cause) s = execFabLinkFailRetry port cause s := rfl
@[simp] theorem exec_laneRemove port lane s : exec (.laneRemove port lane) s = execLaneRemove port lane s := rfl
@[simp] theorem exec_ethLaneLoss port goodLanes s : exec (.ethLaneLoss port goodLanes) s = execEthLaneLoss port goodLanes s := rfl
@[simp] theorem exec_frameReplay port frames s : exec (.frameReplay port frames) s = execFrameReplay port frames s := rfl
@[simp] theorem exec_keyRenew port s : exec (.keyRenew port) s = execKeyRenew port s := rfl
@[simp] theorem exec_laserModuleFault quad s : exec (.laserModuleFault quad) s = execLaserModuleFault quad s := rfl
@[simp] theorem exec_vflWrite p s : exec (.vflWrite p) s = execVflWrite p s := rfl
@[simp] theorem exec_vflWriteReduce p s : exec (.vflWriteReduce p) s = execVflWriteReduce p s := rfl
@[simp] theorem exec_vflRead p s : exec (.vflRead p) s = execVflRead p s := rfl
@[simp] theorem exec_vflReadRsp p s : exec (.vflReadRsp p) s = execVflReadRsp p s := rfl
@[simp] theorem exec_vflSignal p s : exec (.vflSignal p) s = execVflSignal p s := rfl
@[simp] theorem exec_vflMulticast p s : exec (.vflMulticast p) s = execVflMulticast p s := rfl
@[simp] theorem exec_vflDcmp p run s : exec (.vflDcmp p run) s = execVflDcmp p run s := rfl
@[simp] theorem exec_vflOpen p s : exec (.vflOpen p) s = execVflOpen p s := rfl
@[simp] theorem exec_vflOpenAck p grant s : exec (.vflOpenAck p grant) s = execVflOpenAck p grant s := rfl
@[simp] theorem exec_vflColl p s : exec (.vflColl p) s = execVflColl p s := rfl
@[simp] theorem exec_vflSlow p s : exec (.vflSlow p) s = execVflSlow p s := rfl
@[simp] theorem exec_vflAbort p s : exec (.vflAbort p) s = execVflAbort p s := rfl
@[simp] theorem exec_vflMgmt p total s : exec (.vflMgmt p total) s = execVflMgmt p total s := rfl
@[simp] theorem exec_deliveryTimeout iod dst eseq s : exec (.deliveryTimeout iod dst eseq) s = execDeliveryTimeout iod dst eseq s := rfl
@[simp] theorem exec_collTimeout group s : exec (.collTimeout group) s = execCollTimeout group s := rfl
@[simp] theorem exec_slowHintTimer s : exec .slowHintTimer s = execSlowHintTimer s := rfl
@[simp] theorem exec_quarExpiry entry s : exec (.quarExpiry entry) s = execQuarExpiry entry s := rfl
@[simp] theorem exec_fabAllowSet blob s : exec (.fabAllowSet blob) s = execFabAllowSet blob s := rfl
@[simp] theorem exec_fabRouteSet blob s : exec (.fabRouteSet blob) s = execFabRouteSet blob s := rfl
@[simp] theorem exec_fabGroupSet blob s : exec (.fabGroupSet blob) s = execFabGroupSet blob s := rfl
@[simp] theorem exec_fabEthQpSet blob s : exec (.fabEthQpSet blob) s = execFabEthQpSet blob s := rfl
@[simp] theorem exec_fabWinSet part blob s : exec (.fabWinSet part blob) s = execFabWinSet part blob s := rfl
@[simp] theorem exec_fabRkeySet part blob s : exec (.fabRkeySet part blob) s = execFabRkeySet part blob s := rfl
@[simp] theorem exec_roceWrite port qpn rkey addr payload s : exec (.roceWrite port qpn rkey addr payload) s = execRoceWrite port qpn rkey addr payload s := rfl
@[simp] theorem exec_roceWriteImm port qpn rkey addr payload imm s : exec (.roceWriteImm port qpn rkey addr payload imm) s = execRoceWriteImm port qpn rkey addr payload imm s := rfl
@[simp] theorem exec_roceRead port qpn rkey addr len s : exec (.roceRead port qpn rkey addr len) s = execRoceRead port qpn rkey addr len s := rfl
@[simp] theorem exec_roceAck port qpn psn s : exec (.roceAck port qpn psn) s = execRoceAck port qpn psn s := rfl
@[simp] theorem exec_roceRetryTimeout port qpn s : exec (.roceRetryTimeout port qpn) s = execRoceRetryTimeout port qpn s := rfl
@[simp] theorem exec_udlTrain link weak usable quick s : exec (.udlTrain link weak usable quick) s = execUdlTrain link weak usable quick s := rfl
@[simp] theorem exec_udlCapx link partner s : exec (.udlCapx link partner) s = execUdlCapx link partner s := rfl
@[simp] theorem exec_udlPropose link s : exec (.udlPropose link) s = execUdlPropose link s := rfl
@[simp] theorem exec_udlConfirm link sameParameters ownErrors partnerErrors s : exec (.udlConfirm link sameParameters ownErrors partnerErrors) s = execUdlConfirm link sameParameters ownErrors partnerErrors s := rfl
@[simp] theorem exec_udlConfirmTimeout link s : exec (.udlConfirmTimeout link) s = execUdlConfirmTimeout link s := rfl
@[simp] theorem exec_udlDataFlit link seq ack crcOk body s : exec (.udlDataFlit link seq ack crcOk body) s = execUdlDataFlit link seq ack crcOk body s := rfl
@[simp] theorem exec_udlNak link seq s : exec (.udlNak link seq) s = execUdlNak link seq s := rfl
@[simp] theorem exec_udlPartnerTraining link s : exec (.udlPartnerTraining link) s = execUdlPartnerTraining link s := rfl
@[simp] theorem exec_detourTimeout link s : exec (.detourTimeout link) s = execDetourTimeout link s := rfl
@[simp] theorem exec_udlDetourReturn link s : exec (.udlDetourReturn link) s = execUdlDetourReturn link s := rfl
@[simp] theorem exec_udl1TrainingPattern die s : exec (.udl1TrainingPattern die) s = execUdl1TrainingPattern die s := rfl
@[simp] theorem exec_xsTrain site modules cap s : exec (.xsTrain site modules cap) s = execXsTrain site modules cap s := rfl
@[simp] theorem exec_combEmitterFail src s : exec (.combEmitterFail src) s = execCombEmitterFail src s := rfl
@[simp] theorem exec_ringLockLoss link wavelength s : exec (.ringLockLoss link wavelength) s = execRingLockLoss link wavelength s := rfl
@[simp] theorem exec_halfSidebandLoss half s : exec (.halfSidebandLoss half) s = execHalfSidebandLoss half s := rfl
@[simp] theorem exec_halfRequestTimeout half gateways sliceSilent s : exec (.halfRequestTimeout half gateways sliceSilent) s = execHalfRequestTimeout half gateways sliceSilent s := rfl
@[simp] theorem exec_iodHeartbeat iod s : exec (.iodHeartbeat iod) s = execIodHeartbeat iod s := rfl
@[simp] theorem exec_heartbeatMiss iod seenAlive s : exec (.heartbeatMiss iod seenAlive) s = execHeartbeatMiss iod seenAlive s := rfl
@[simp] theorem exec_iodTakeoverDone iod s : exec (.iodTakeoverDone iod) s = execIodTakeoverDone iod s := rfl
@[simp] theorem exec_waypointTimer part s : exec (.waypointTimer part) s = execWaypointTimer part s := rfl
@[simp] theorem exec_wpTake part s : exec (.wpTake part) s = execWpTake part s := rfl
@[simp] theorem exec_waypointDrained part s : exec (.waypointDrained part) s = execWaypointDrained part s := rfl
@[simp] theorem exec_waypointDrainTimeout part s : exec (.waypointDrainTimeout part) s = execWaypointDrainTimeout part s := rfl
@[simp] theorem exec_wpRestore part s : exec (.wpRestore part) s = execWpRestore part s := rfl
@[simp] theorem exec_ftTileTest tile s : exec (.ftTileTest tile) s = execFtTileTest tile s := rfl
@[simp] theorem exec_tileTestDone tile pass s : exec (.tileTestDone tile pass) s = execTileTestDone tile pass s := rfl
@[simp] theorem exec_ftDieDrain die s : exec (.ftDieDrain die) s = execFtDieDrain die s := rfl
@[simp] theorem exec_dieDrained die s : exec (.dieDrained die) s = execDieDrained die s := rfl
@[simp] theorem exec_ftDieTest die s : exec (.ftDieTest die) s = execFtDieTest die s := rfl
@[simp] theorem exec_ftDieReturn die s : exec (.ftDieReturn die) s = execFtDieReturn die s := rfl
@[simp] theorem exec_ftStackRetrain word s : exec (.ftStackRetrain word) s = execFtStackRetrain word s := rfl
@[simp] theorem exec_stackRetrainChannelDone stack chan ok weak s : exec (.stackRetrainChannelDone stack chan ok weak) s = execStackRetrainChannelDone stack chan ok weak s := rfl
@[simp] theorem exec_returnLossTrip port s : exec (.returnLossTrip port) s = execReturnLossTrip port s := rfl
@[simp] theorem exec_lossOfLight port s : exec (.lossOfLight port) s = execLossOfLight port s := rfl
@[simp] theorem exec_transmitTapTimeout port s : exec (.transmitTapTimeout port) s = execTransmitTapTimeout port s := rfl
@[simp] theorem exec_shutterProbe port s : exec (.shutterProbe port) s = execShutterProbe port s := rfl
@[simp] theorem exec_laserModuleRemove quad s : exec (.laserModuleRemove quad) s = execLaserModuleRemove quad s := rfl
@[simp] theorem exec_inputOvervoltage s : exec .inputOvervoltage s = execInputOvervoltage s := rfl
@[simp] theorem exec_inputUndervoltage s : exec .inputUndervoltage s = execInputUndervoltage s := rfl
@[simp] theorem exec_inputOvercurrent s : exec .inputOvercurrent s = execInputOvercurrent s := rfl
@[simp] theorem exec_fetReclose s : exec .fetReclose s = execFetReclose s := rfl
@[simp] theorem exec_segmentOvercurrent segment s : exec (.segmentOvercurrent segment) s = execSegmentOvercurrent segment s := rfl
@[simp] theorem exec_junctionTrip half s : exec (.junctionTrip half) s = execJunctionTrip half s := rfl
@[simp] theorem exec_junctionRecover half celsius s : exec (.junctionRecover half celsius) s = execJunctionRecover half celsius s := rfl
@[simp] theorem exec_junctionCrit die s : exec (.junctionCrit die) s = execJunctionCrit die s := rfl
@[simp] theorem exec_coolantFlowLow s : exec .coolantFlowLow s = execCoolantFlowLow s := rfl
@[simp] theorem exec_coolantTempHigh s : exec .coolantTempHigh s = execCoolantTempHigh s := rfl
@[simp] theorem exec_interlockOpen s : exec .interlockOpen s = execInterlockOpen s := rfl
@[simp] theorem exec_safKick s : exec .safKick s = execSafKick s := rfl
@[simp] theorem exec_safRelease service interlockClosed flow inlet hottest inputV barrierPasses s : exec (.safRelease service interlockClosed flow inlet hottest inputV barrierPasses) s = execSafRelease service interlockClosed flow inlet hottest inputV barrierPasses s := rfl
@[simp] theorem exec_busConverterFail conv s : exec (.busConverterFail conv) s = execBusConverterFail conv s := rfl
@[simp] theorem exec_refclkLoss s : exec .refclkLoss s = execRefclkLoss s := rfl
@[simp] theorem exec_pwrRefSelect src presentForOneSecond s : exec (.pwrRefSelect src presentForOneSecond) s = execPwrRefSelect src presentForOneSecond s := rfl
@[simp] theorem exec_pllLockLoss die s : exec (.pllLockLoss die) s = execPllLockLoss die s := rfl
@[simp] theorem exec_powerCapSample watts s : exec (.powerCapSample watts) s = execPowerCapSample watts s := rfl
@[simp] theorem exec_fastClamp watts s : exec (.fastClamp watts) s = execFastClamp watts s := rfl
@[simp] theorem exec_thermalLoopSample half celsius s : exec (.thermalLoopSample half celsius) s = execThermalLoopSample half celsius s := rfl
@[simp] theorem exec_voltageLoopStep half margin atVmaxFor1ms s : exec (.voltageLoopStep half margin atVmaxFor1ms) s = execVoltageLoopStep half margin atVmaxFor1ms s := rfl
@[simp] theorem exec_droopThrottle tile s : exec (.droopThrottle tile) s = execDroopThrottle tile s := rfl
@[simp] theorem exec_droopEnd tile s : exec (.droopEnd tile) s = execDroopEnd tile s := rfl
@[simp] theorem exec_coolantSample flowMilli inletMilli s : exec (.coolantSample flowMilli inletMilli) s = execCoolantSample flowMilli inletMilli s := rfl
@[simp] theorem exec_kdpDiscover t f s : exec (.kdpDiscover t f) s = execKdpDiscover t f s := rfl
@[simp] theorem exec_kdpRead t f s : exec (.kdpRead t f) s = execKdpRead t f s := rfl
@[simp] theorem exec_kdpWrite t f env s : exec (.kdpWrite t f env) s = execKdpWrite t f env s := rfl
@[simp] theorem exec_kdpDescribe t f s : exec (.kdpDescribe t f) s = execKdpDescribe t f s := rfl
@[simp] theorem exec_kdpLoginChallenge t f s : exec (.kdpLoginChallenge t f) s = execKdpLoginChallenge t f s := rfl
@[simp] theorem exec_kdpLoginResponse t f signatureOk s : exec (.kdpLoginResponse t f signatureOk) s = execKdpLoginResponse t f signatureOk s := rfl
@[simp] theorem exec_kdpLogout t f s : exec (.kdpLogout t f) s = execKdpLogout t f s := rfl
@[simp] theorem exec_kdpSubscribe t f s : exec (.kdpSubscribe t f) s = execKdpSubscribe t f s := rfl
@[simp] theorem exec_kdpFetchEvents t f s : exec (.kdpFetchEvents t f) s = execKdpFetchEvents t f s := rfl
@[simp] theorem exec_eventFrameSend session s : exec (.eventFrameSend session) s = execEventFrameSend session s := rfl
@[simp] theorem exec_mbxGo fn f env s : exec (.mbxGo fn f env) s = execMbxGo fn f env s := rfl
@[simp] theorem exec_sessionIdleTimeout session s : exec (.sessionIdleTimeout session) s = execSessionIdleTimeout session s := rfl
@[simp] theorem exec_loginLockoutExpiry t s : exec (.loginLockoutExpiry t) s = execLoginLockoutExpiry t s := rfl
@[simp] theorem exec_actionRunningTimeout number s : exec (.actionRunningTimeout number) s = execActionRunningTimeout number s := rfl
@[simp] theorem exec_actionDone number estat s : exec (.actionDone number estat) s = execActionDone number estat s := rfl
@[simp] theorem exec_kdpServerFailover s : exec .kdpServerFailover s = execKdpServerFailover s := rfl
@[simp] theorem exec_mgmtFragmentTimeout port s : exec (.mgmtFragmentTimeout port) s = execMgmtFragmentTimeout port s := rfl
@[simp] theorem exec_kodSave s : exec .kodSave s = execKodSave s := rfl
@[simp] theorem exec_saveDelayExpiry s : exec .saveDelayExpiry s = execSaveDelayExpiry s := rfl
@[simp] theorem exec_configSaveDone s : exec .configSaveDone s = execConfigSaveDone s := rfl
@[simp] theorem exec_kodFactory s : exec .kodFactory s = execKodFactory s := rfl
@[simp] theorem exec_fwWrite blob image s : exec (.fwWrite blob image) s = execFwWrite blob image s := rfl
@[simp] theorem exec_fwCommit type s : exec (.fwCommit type) s = execFwCommit type s := rfl
@[simp] theorem exec_fwActivate s : exec .fwActivate s = execFwActivate s := rfl
@[simp] theorem exec_fwLiveIod s : exec .fwLiveIod s = execFwLiveIod s := rfl
@[simp] theorem exec_liveUpdateStepDone ok s : exec (.liveUpdateStepDone ok) s = execLiveUpdateStepDone ok s := rfl
@[simp] theorem exec_fwSvnCommit type s : exec (.fwSvnCommit type) s = execFwSvnCommit type s := rfl
@[simp] theorem exec_spdmReq session request s : exec (.spdmReq session request) s = execSpdmReq session request s := rfl
@[simp] theorem exec_dbgUnlock signatureOk within60s s : exec (.dbgUnlock signatureOk within60s) s = execDbgUnlock signatureOk within60s s := rfl
@[simp] theorem exec_odoCopy s : exec .odoCopy s = execOdoCopy s := rfl
@[simp] theorem exec_odoClear number inst s : exec (.odoClear number inst) s = execOdoClear number inst s := rfl
@[simp] theorem exec_dbgTrigSet blob byOperator s : exec (.dbgTrigSet blob byOperator) s = execDbgTrigSet blob byOperator s := rfl
@[simp] theorem exec_dbgResume word s : exec (.dbgResume word) s = execDbgResume word s := rfl
@[simp] theorem exec_dbgFreewheel scope s : exec (.dbgFreewheel scope) s = execDbgFreewheel scope s := rfl
@[simp] theorem exec_freewheelDrained scope s : exec (.freewheelDrained scope) s = execFreewheelDrained scope s := rfl
@[simp] theorem exec_dbgFreewheelEnd scope s : exec (.dbgFreewheelEnd scope) s = execDbgFreewheelEnd scope s := rfl
@[simp] theorem exec_dbgBrake s : exec .dbgBrake s = execDbgBrake s := rfl
@[simp] theorem exec_brakeCut s : exec .brakeCut s = execBrakeCut s := rfl
@[simp] theorem exec_brakeMarker unit input s : exec (.brakeMarker unit input) s = execBrakeMarker unit input s := rfl
@[simp] theorem exec_brakeFabMarkerTimeout port s : exec (.brakeFabMarkerTimeout port) s = execBrakeFabMarkerTimeout port s := rfl
@[simp] theorem exec_brakeUnitTimeout unit s : exec (.brakeUnitTimeout unit) s = execBrakeUnitTimeout unit s := rfl
@[simp] theorem exec_dbgBrakeRelease s : exec .dbgBrakeRelease s = execDbgBrakeRelease s := rfl
@[simp] theorem exec_traceSpaceReturn src s : exec (.traceSpaceReturn src) s = execTraceSpaceReturn src s := rfl
@[simp] theorem exec_powerOn refPresent segFail s : exec (.powerOn refPresent segFail) s = execPowerOn refPresent segFail s := rfl
@[simp] theorem exec_powerOff s : exec .powerOff s = execPowerOff s := rfl
@[simp] theorem exec_modStart inputOk s : exec (.modStart inputOk) s = execModStart inputOk s := rfl
@[simp] theorem exec_modStop s : exec .modStop s = execModStop s := rfl
@[simp] theorem exec_secureBoot inputOk factoryOk iodSelfTestOk s : exec (.secureBoot inputOk factoryOk iodSelfTestOk) s = execSecureBoot inputOk factoryOk iodSelfTestOk s := rfl
@[simp] theorem exec_coldBringup pllFail barrier s : exec (.coldBringup pllFail barrier) s = execColdBringup pllFail barrier s := rfl
@[simp] theorem exec_readyReached s : exec .readyReached s = execReadyReached s := rfl
@[simp] theorem exec_registerWrite fn reg value s : exec (.registerWrite fn reg value) s = execRegisterWrite fn reg value s := rfl
@[simp] theorem exec_laserModuleInsert quad s : exec (.laserModuleInsert quad) s = execLaserModuleInsert quad s := rfl
@[simp] theorem exec_shutterFullOpen port s : exec (.shutterFullOpen port) s = execShutterFullOpen port s := rfl
@[simp] theorem exec_doeRequest request s : exec (.doeRequest request) s = execDoeRequest request s := rfl

end Sys2Proof.Machine
end

