-- ==== Sys2Proof/Tests/Slice0.lean ====
section
/-! SUPPORT. Tests: what the checks refuse, results the spec gives, and for each statement a concrete state and operands that meet its
hypotheses. -/

namespace Sys2Proof.Tests

set_option Elab.async false

open Sys2Proof Sys2Proof.Machine

/-! Small states. -/

/-- Does a command complete in a state with a property? -/
def good (o : Out) (p : State → Bool) : Bool :=
  match o with
  | .next t => p t
  | _ => false

/-- Does a command leave the module `m` and nothing else changed? -/
def leaves (o : Out) (s : State) (m : Mod) : Bool := good o fun t => decide (t = { s with m := m })

/-- Is a command refused for its form? -/
def refusedAs (o : Out) (n : String) : Bool :=
  match o with
  | .refused (.illFormed k) => k == n
  | _ => false

/-- Does a command fault at an address that does not exist? -/
def faults (o : Out) (pa : Nat) : Bool :=
  match o with
  | .fault (.noSuchAddress a) => a == pa
  | _ => false

/-- The module READY, with partition 1 ACTIVE on tile groups 0 and 1, a task of it running in saddle 0 of tile 0 with its code in pinned
memory, registers and a window of 64 KiB. -/
def task1 : Task := { uid := 1, cmd := 1, index := 0, part := 1, desc := 0, a0 := 5, a1 := 6 }
def ctx1 : Ctx := { uid := 1, st := .run, task := some task1, part := 1, pc := 0x4000000000000000, x := [(5, 7), (6, 0xFFFFFFFFFFFFFFFF)] }
def ready1 : Mod := {
  mod := { mstate := 4 }
  uidSeq := 2
  ctxs := [(0, ctx1)]
  tiles := [(0, { win := [(0, (0, 1))] })]
  cache := { extents := [{ base := 0, units := 1, part := 1, order := 0 }] }
  parts := { parts := [(1, { st := .active, tgmask := 3, gen := 1, waymask := 0xFFFF })] } }
def st (m : Mod) : State := { m := m }
def at0 : At := ⟨0, 0, false⟩
/-- The context of `ready1` after an instruction of 4 bytes that leaves it as `c`. -/
def retired (c : Ctx) : Mod := ready1.setCtx 0 0 { c with pc := c.pc + 4, instret := c.instret + 1 }

/-- A frame of the dictionary protocol. -/
def frame (op : BitVec 8) (body : List KEntry) : KFrame :=
  { ver := 1, op := op, count := body.length, session := 0, seq := 0, tagged := false, reserved := false, lenOk := true, tagOk := false, body := body }

/-- A packet from module 2 to this one. -/
def packet1 : Packet := { port := 0, dst := 0, src := 2, hops := 0, win := 0, offset := 0, eseq := 0, group := 0, op := 0, fmt := 0, afl := 0,
                          len := 0, key := 0, siod := 0, malformed := false, credit := true, payload := [] }
def flit1 : RedFlit := { part := 1, dst := 0, space := 0, addr := 0, op := 2, fmt := 13, sfmt := 13, nocomb := false, byteen := 0xF,
                         data := 0x3F800000, afl := 0, waited := 0, parts := [(9, 0xF)] }

/-! Terms that no command of the spec spells are refused by name (WellFormed). -/

theorem test_refuses_integer_op :
    refusedAs (exec (.integerOp at0 (.ri .sub 1 2 0)) (st ready1)) "INTEGER_OP" = true ∧
    refusedAs (exec (.integerOp at0 (.ri .sll 1 2 64)) (st ready1)) "INTEGER_OP" = true := by decide +kernel
theorem test_refuses_branch : refusedAs (exec (.branch at0 (.jal 1 3)) (st ready1)) "BRANCH" = true := by decide +kernel
theorem test_refuses_tswr : refusedAs (exec (.tswr 0 0 120 (List.replicate 16 0) 1 .ok) (st ready1)) "TSWR" = true := by decide +kernel
theorem test_refuses_tsrd : refusedAs (exec (.tsrd 0 0 0 0 1 .ok) (st ready1)) "TSRD" = true := by decide +kernel
theorem test_refuses_red : refusedAs (exec (.red 0 { flit1 with op := 0 } false) (st ready1)) "RED" = true := by decide +kernel
theorem test_refuses_credit_return : refusedAs (exec (.creditReturn (.router 0 0) .sn 1) (st ready1)) "CREDIT_RETURN" = true := by decide +kernel
theorem test_refuses_cn_swr :
    refusedAs (exec (.cnSwr 0 1 ⟨false, 0⟩ 120 (List.replicate 16 0) 1) (st ready1)) "CN_SWR" = true := by decide +kernel
theorem test_refuses_audit_sample :
    refusedAs (exec (.auditSample (.slots 0) { excused := 1, window := 0, age := 0, peer := false, leak := 0 }) (st ready1)) "AUDIT_SAMPLE" = true := by
  decide +kernel
theorem test_refuses_thermal_sample : refusedAs (exec (.stackThermalSample [25]) (st ready1)) "STACK_THERMAL_SAMPLE" = true := by decide +kernel
theorem test_refuses_fetch_done : refusedAs (exec (.commandFetchDone 0 none []) (st ready1)) "COMMAND_FETCH_DONE" = true := by decide +kernel
theorem test_refuses_link_up : refusedAs (exec (.fabLinkUp 0 0 2 true [1, 1] 0) (st ready1)) "FAB_LINK_UP" = true := by decide +kernel
theorem test_refuses_lane_loss : refusedAs (exec (.ethLaneLoss 0 8) (st ready1)) "ETH_LANE_LOSS" = true := by decide +kernel
theorem test_refuses_frame_replay : refusedAs (exec (.frameReplay 0 1025) (st ready1)) "FRAME_REPLAY" = true := by decide +kernel
theorem test_refuses_dcmp : refusedAs (exec (.vflDcmp packet1 65) (st ready1)) "VFL_DCMP" = true := by decide +kernel
theorem test_refuses_open_ack : refusedAs (exec (.vflOpenAck packet1 65536) (st ready1)) "VFL_OPEN_ACK" = true := by decide +kernel
theorem test_refuses_mgmt : refusedAs (exec (.vflMgmt packet1 1537) (st ready1)) "VFL_MGMT" = true := by decide +kernel
theorem test_refuses_kdp :
    ([(Instr.kdpDiscover .pf0 (frame 1 []), "KDP_DISCOVER"), (.kdpRead .pf0 (frame 0 []), "KDP_READ"), (.kdpWrite .pf0 (frame 0 []) [], "KDP_WRITE"),
      (.kdpDescribe .pf0 (frame 0 []), "KDP_DESCRIBE"), (.kdpLoginChallenge .pf0 (frame 0 []), "KDP_LOGIN_CHALLENGE"),
      (.kdpLoginResponse .pf0 (frame 0 []) false, "KDP_LOGIN_RESPONSE"), (.kdpLogout .pf0 (frame 0 []), "KDP_LOGOUT"),
      (.kdpSubscribe .pf0 (frame 0 []), "KDP_SUBSCRIBE"), (.kdpFetchEvents .pf0 (frame 0 []), "KDP_FETCH_EVENTS")].all fun p =>
        refusedAs (exec p.1 (st ready1)) p.2) = true := by decide +kernel

/-! The control core. -/

theorem test_issues : ready1.Issues at0 ready1 := ⟨by decide +kernel, ⟨ctx1.pc, by decide +kernel⟩, by decide +kernel⟩

/-- Words that spell no instruction of a row: a floating-point load, MRET and WFI; MUL has one. A context in M-mode. -/
def mctx : Ctx := { ctx1 with mmode := true, mcsr := [(0x300, 0x80), (0x305, 0x101), (0x341, 0x4000000000000040)] }
def mach1 : Mod := { ready1 with ctxs := [(0, mctx)] }
/-- 04 Table 4.5: ENG.MM with x10 and both bits, SEM.WAIT to x5 of x6 and x7; the base ADD; a 16-bit C.NOP. -/
theorem test_encodings :
    coreDecode 0 0 0x0605000B = some (.engMm ⟨at0, .ok⟩ true true 10) ∧ coreDecode 0 0 0x007312AB = some (.semWait at0 5 6 7) ∧
    coreDecode 0 0 0x007302B3 = some (.integerOp at0 (.rr .add 5 6 7)) ∧ coreDecode 0 0 0x00002007 = none ∧
    (coreDecode 0 0 0x0001).isSome = true := by decide +kernel
theorem test_words :
    integerOpOk at0 (.word 0x00002007) = true ∧ integerOpOk at0 (.word 0x02000033) = false ∧ integerOpOk at0 (.word 0x30200073) = true ∧
    good (exec (.integerOp at0 (.word 0x00002007)) (st ready1)) (fun t => (t.m.ctx 0 0).endMcause == 2 && (t.m.ctx 0 0).ending == some stARITH) = true ∧
    good (exec (.integerOp at0 (.word 0x30200073)) (st ready1)) (fun t => (t.m.ctx 0 0).endMcause == 2) = true ∧
    good (exec (.integerOp at0 (.word 0x30200073)) (st mach1)) (fun t => (t.m.ctx 0 0).pc == 0x4000000000000040 && !(t.m.ctx 0 0).mmode &&
      (t.m.ctx 0 0).mcsr.getD 0x300 0 == 0x88) = true ∧
    good (exec (.integerOp at0 (.word 0x10500073)) (st mach1)) (fun t => (t.m.ctx 0 0).instret == 1 && (t.m.ctx 0 0).mmode) = true := by decide +kernel
/-- A fault in M-mode goes to the handler (04 R121; log 133). -/
theorem test_machine_mode :
    good (exec (.ecall at0) (st mach1)) (fun t => (t.m.ctx 0 0).pc == 0x100 && (t.m.ctx 0 0).mcsr.getD 0x342 0 == 11 &&
      (t.m.ctx 0 0).mcsr.getD 0x341 0 == ctx1.pc && (t.m.ctx 0 0).ending == none) = true ∧
    good (exec (.load at0 .d 7 5 1 .ok) (st { ready1 with ctxs := [(0, { mctx with x := [(5, 8)] })] })) (fun t =>
      (t.m.ctx 0 0).pc == 0x100 && (t.m.ctx 0 0).mcsr.getD 0x342 0 == 4) = true ∧
    csrWritable true 0x305 = true ∧ csrWritable false 0x305 = false ∧
    good (exec (.csrAccess at0 .rw 1 (.reg 5) 0x305) (st mach1)) (fun t => (t.m.ctx 0 0).getX 1 == 0x101 && (t.m.ctx 0 0).instret == 1) = true ∧
    good (exec (.csrAccess at0 .rw 1 (.reg 5) 0x305) (st ready1)) (fun t => (t.m.ctx 0 0).endMcause == 2) = true ∧
    good (exec (.taskEnd at0 5) (st mach1)) (fun t => (t.m.ctx 0 0).mcsr.getD 0x342 0 == 2) = true := by decide +kernel

/-- 04 R121: x5 = 7, x6 = -1. -/
theorem test_integer_results :
    leaves (exec (.integerOp at0 (.rr .add 1 5 6)) (st ready1)) (st ready1) (retired { ctx1 with x := (1, 6) :: ctx1.x }) = true ∧
    leaves (exec (.integerOp at0 (.rr .add 0 5 6)) (st ready1)) (st ready1) (retired ctx1) = true ∧
    leaves (exec (.integerOp at0 (.ri .sra 1 6 63)) (st ready1)) (st ready1) (retired { ctx1 with x := (1, 0xFFFFFFFFFFFFFFFF) :: ctx1.x }) = true ∧
    leaves (exec (.divRem at0 .div 1 5 0) (st ready1)) (st ready1) (retired { ctx1 with x := (1, 0xFFFFFFFFFFFFFFFF) :: ctx1.x }) = true ∧
    leaves (exec (.divRem at0 .rem 1 5 6) (st ready1)) (st ready1) (retired { ctx1 with x := (1, 0) :: ctx1.x }) = true := by decide +kernel

/-- Branches taken and not taken, link and target (04 R121). -/
theorem test_branches :
    leaves (exec (.branch at0 (.cond .ne 5 6 16)) (st ready1)) (st ready1)
      (ready1.setCtx 0 0 { ctx1 with pc := 0x4000000000000010, instret := 1 }) = true ∧
    leaves (exec (.branch at0 (.cond .eq 5 6 16)) (st ready1)) (st ready1) (retired ctx1) = true ∧
    leaves (exec (.branch at0 (.jal 1 0x1FFFFE)) (st ready1)) (st ready1)
      (ready1.setCtx 0 0 { ctx1 with pc := 0x3FFFFFFFFFFFFFFE, instret := 1, x := (1, 0x4000000000000004) :: ctx1.x }) = true ∧
    leaves (exec (.branch at0 (.jalr 0 5 0)) (st ready1)) (st ready1) (ready1.setCtx 0 0 { ctx1 with pc := 6, instret := 1 }) = true := by
  decide +kernel

/-- A copy pushed and not complete: FENCE.E blocks, FENCE.H retires once there is none. -/
def copying : Mod := { ready1 with copies := [(1, { owner := some 1, task := some 1, cmd := 1, part := 1, half := 0, engine := 0, desc := 0, arith := 0, order := 1 })] }
/-- The module traces kind 0, and partition 1 may be debugged. -/
def traced : Mod := { ready1 with kod := { params := [(pDbgTraceOn, 1), (pDbgTraceMask, 1), (pDbgEnable + 1, 1)] } }
/-- HINT.DEAD of no bytes at address 0 of external memory, at once and after a copy. -/
def hinting : Mod := { ready1 with ctxs := [(0, { ctx1 with x := [(5, 0x8000000000000000)] })] }
def hint1 : DeadHint := { uid := 1, tile := 0, part := 1, va := 0, len := 0, issue := 0, copy := 0 }
def hintLate : Mod := { hinting with
  copySeq := 2, copies := [(1, { owner := some 1, task := some 1, cmd := 1, part := 1, half := 0, engine := 0, desc := 0, arith := 0, order := 1 })] }
theorem test_fences :
    ready1.fenceMet 0 0 0 = true ∧ leaves (exec (.fenceE at0) (st ready1)) (st ready1) (retired ctx1) = true ∧
    copying.fenceMet 0 0 0 = false ∧
    good (exec (.fenceAll at0) (st copying)) (fun t => (t.m.ctx 0 0).st == .blocked && (t.m.ctx 0 0).pc == ctx1.pc) = true ∧
    leaves (exec (.fence at0 15 15) (st ready1)) (st ready1) (retired ctx1) = true ∧
    leaves (exec (.fenceI at0) (st ready1)) (st ready1) (retired ctx1) = true ∧
    leaves (exec (.hintDead at0 5 6) (st ready1)) (st ready1) (retired ctx1) = true ∧
    hinting.hintReady hint1 = true ∧ leaves (exec (.hintDead at0 5 0) (st hinting)) (st hinting) (hinting.retire at0 4 id) = true ∧
    hintLate.hintReady { hint1 with copy := 2 } = false ∧
    good (exec (.hintDead at0 5 0) (st hintLate)) (fun t => t.m.cache.hints.length == 1 && (t.m.ctx 0 0).instret == 1) = true ∧
    good (exec (.fenceH at0) (st { ready1 with ctxs := [(0, { ctx1 with hmPend := true })] })) (fun t =>
      t.m.host.flush && (t.m.ctx 0 0).hmFlush && (t.m.ctx 0 0).st == .blocked) = true := by decide +kernel
theorem test_debug_instructions :
    leaves (exec (.dbgTrace at0 5) (st ready1)) (st ready1) (retired ctx1) = true ∧
    good (exec (.dbgTrace at0 5) (st traced)) (fun t => (t.m.dbg.buf.getD 0 []).map (fun r => (r.kind, r.data)) == [(0, 7)]) = true ∧
    traced.debugOn ctx1 = true ∧
    good (exec (.ebreak at0) (st traced)) (fun t => (t.m.ctx 0 0).st == .halted && t.m.kod.evq.map Event.code == [evDbgHalt]) = true ∧
    good (exec (.dbgBrk at0) (st traced)) (fun t => (t.m.ctx 0 0).st == .halted && Tab.find 1 t.m.dbg.halted == some 1) = true ∧
    ready1.debugOn ctx1 = false ∧ leaves (exec (.dbgBrk at0) (st ready1)) (st ready1) (retired ctx1) = true ∧
    good (exec (.ebreak at0) (st ready1)) (fun t => (t.m.ctx 0 0).endMcause == 3) = true ∧
    good (exec (.ecall at0) (st ready1)) (fun t => (t.m.ctx 0 0).endMcause == 8 && (t.m.ctx 0 0).ending == some stARITH) = true := by
  decide +kernel

/-- Scratchpad accesses at offset 8 of the window: a store, a load that extends a sign, the exceptions (04 R124-R126). -/
def stored : Mod := { ready1 with ctxs := [(0, { ctx1 with x := [(5, 8), (6, 0x80)] })] }
theorem test_loads_and_stores :
    (let r := stored.coreWrite 0 0 1 8 [0x80] 7; r.1.poison = false ∧ r.2.ctxAt at0 = stored.ctxAt at0) ∧
    good (exec (.store at0 .b 5 6 0 .ok) (st stored)) (fun t =>
      ((t.m.coreRead 0 0 1 8 1 7).1.bytes == [0x80]) && ((t.m.coreRead 0 0 1 9 1 7).1.bytes == [0]) &&
      good (exec (.load at0 .b 7 5 0 .ok) t) (fun u => ((u.m.ctx 0 0).getX 7 == 0xFFFFFFFFFFFFFF80))) = true ∧
    good (exec (.load at0 .d 7 5 1 .ok) (st stored)) (fun t => (t.m.ctx 0 0).endMcause == 4 && (t.m.ctx 0 0).endMtval == 9) = true ∧
    good (exec (.store at0 .h 5 6 1 .ok) (st stored)) (fun t => (t.m.ctx 0 0).endMcause == 6) = true ∧
    good (exec (.load at0 .d 7 0 (-8) .ok) (st stored)) (fun t => (t.m.ctx 0 0).endMcause == 5) = true ∧
    good (exec (.store at0 .d 0 6 (-8) .ok) (st stored)) (fun t => (t.m.ctx 0 0).endMcause == 7) = true := by decide +kernel

theorem test_csr_access :
    leaves (exec (.csrAccess at0 .rw 1 (.reg 5) 0x801) (st ready1)) (st ready1) (retired { ctx1 with x := (1, 0xFFFFFFFF) :: ctx1.x, tvlive := 7 }) = true ∧
    leaves (exec (.csrAccess at0 .rc 0 (.imm 1) 0x801) (st ready1)) (st ready1) (retired { ctx1 with tvlive := 0xFFFFFFFE }) = true ∧
    leaves (exec (.csrAccess at0 .rs 1 (.reg 0) 0x803) (st ready1)) (st ready1) (retired { ctx1 with x := (1, 0) :: ctx1.x }) = true ∧
    good (exec (.csrAccess at0 .rs 1 (.reg 5) 0x803) (st ready1)) (fun t => (t.m.ctx 0 0).endMcause == 2) = true ∧
    good (exec (.csrAccess at0 .rs 1 (.reg 0) 0xC01) (st ready1)) (fun t => (t.m.ctx 0 0).endMcause == 2) = true := by decide +kernel

/-! The vector unit. -/

/-- v1 holds 1.0 in lane 0 and 3 in lane 63, v2 holds 2.0 in lane 0. -/
def vctx : Ctx := { ctx1 with v := [(1, BitVec.ofNat 2048 (0x3F800000 + 3 * 2 ^ 2016)), (2, BitVec.ofNat 2048 0x40000000)] }
def vec1 : Mod := { ready1 with ctxs := [(0, vctx)] }
def laneOf (o : Out) (v i : Nat) (x : Nat) : Bool := good o fun t => (lane ((t.m.ctx 0 0).getV v) i).toNat == x && (t.m.ctx 0 0).instret == 1
theorem test_vector_integer :
    laneOf (exec (.viadd at0 3 1 2 false) (st vec1)) 3 0 0x7F800000 = true ∧ laneOf (exec (.visub ⟨at0, false⟩ 3 1 2) (st vec1)) 3 63 3 = true ∧
    laneOf (exec (.viadds ⟨at0, false⟩ 3 1 2) (st vec1)) 3 0 0x7F800000 = true ∧ laneOf (exec (.viadds ⟨at0, false⟩ 3 2 2) (st vec1)) 3 0 0x7FFFFFFF = true ∧
    laneOf (exec (.vsel ⟨at0, false⟩ 1 1 2) (st vec1)) 1 0 0x3F800000 = true := by decide +kernel
theorem test_vector_float :
    laneOf (exec (.vadd at0 3 1 2 false) (st vec1)) 3 0 0x40400000 = true ∧ laneOf (exec (.vsub at0 3 1 2 false) (st vec1)) 3 0 0xBF800000 = true ∧
    laneOf (exec (.vmul at0 3 1 2 false) (st vec1)) 3 0 0x40000000 = true ∧ laneOf (exec (.vcmpLt ⟨at0, false⟩ 3 1 2) (st vec1)) 3 0 0xFFFFFFFF = true ∧
    laneOf (exec (.vfma at0 2 1 2 false) (st vec1)) 2 0 0x40800000 = true := by decide +kernel
theorem test_vector_reduce :
    laneOf (exec (.vrsum ⟨at0, false⟩ 3 2) (st vec1)) 3 0 0x40000000 = true ∧ laneOf (exec (.vrmin ⟨at0, false⟩ 3 2) (st vec1)) 3 0 0 = true ∧
    good (exec (.vrcp ⟨at0, false⟩ 3 1) (st vec1)) (fun t => (t.m.ctx 0 0).instret == 1) = true ∧
    good (exec (.vsmxr ⟨at0, false⟩ 4 2 3) (st vec1)) (fun t => (t.m.ctx 0 0).endMcause == 2) = true ∧
    good (exec (.vsmxr ⟨at0, false⟩ 4 2 4) (st vec1)) (fun t => (t.m.ctx 0 0).instret == 1) = true := by decide +kernel
def vfull : Mod := { ready1 with ctxs := [(0, { vctx with vq := 8 })] }
/-- A residue mismatch, and infinity minus infinity under NANP = FAULT (03 R102, R103). -/
def vnan : Mod := { ready1 with ctxs := [(0, { ctx1 with tarith := 0x400, v := [(1, 0x7F800000), (2, 0xFF800000)] })] }
theorem test_vector_queue :
    leaves (exec (.viadd at0 3 1 2 false) (st vfull)) (st vfull) vfull = true ∧ leaves (exec (.vcmpEq ⟨at0, true⟩ 3 1 2) (st vfull)) (st vfull) vfull = true ∧
    good (exec (.vadd at0 3 1 2 false) (st vec1)) (fun t => (t.m.ctx 0 0).vq == 1 && good (step t) fun u => (u.m.ctx 0 0).vq == 0) = true := by
  decide +kernel
theorem test_vector_faults :
    good (exec (.vadd at0 3 1 2 true) (st vec1)) (fun t => (t.m.ctx 0 0).endKind == fkCHECKSUM && (t.m.tile 0).recValid) = true ∧
    (vnan.ctxAt at0).nanFault = true ∧
    good (exec (.vadd at0 3 1 2 false) (st vnan)) (fun t => (t.m.ctx 0 0).ending == some stARITH && (t.m.ctx 0 0).endKind == fkNAN) = true := by decide +kernel
/-- CVT from FP64 to FP32; to TRI5 it is illegal instruction (04 R140). -/
theorem test_vector_conversions :
    (fmtValid 1 = true ∧ fmtValid 0 = true ∧ isMX 0 = false) ∧
    good (exec (.vcvt ⟨at0, false⟩ 3 1) (st { ready1 with ctxs := [(0, { vctx with tcvt := 0x10 })] })) (fun t => ((t.m.ctx 0 0).instret == 1)) = true ∧
    good (exec (.vcvt ⟨at0, false⟩ 3 1) (st { ready1 with ctxs := [(0, { vctx with tcvt := 0x0C0 })] })) (fun t => ((t.m.ctx 0 0).endMcause == 2)) = true := by
  decide +kernel

/-- MXENC to an MX format of 1.0, and of an infinity under NANP = FAULT. -/
def mxenc (m : Mod) (dst : Nat) : Mod := m.updCtx 0 0 fun c => { c with tcvt := BitVec.ofNat 10 (16 * dst + 1) }
theorem test_vector_encodings :
    isMX 9 = true ∧ cvtCount 9 0 = 32 ∧ good (exec (.vmxenc ⟨at0, false⟩ 3 1) (st (mxenc vec1 9))) (fun t => (t.m.ctx 0 0).instret == 1 && (t.m.ctx 0 0).vq == 1) = true ∧
    good (exec (.vmxenc ⟨at0, false⟩ 3 1) (st (mxenc vnan 9))) (fun t => (t.m.ctx 0 0).endKind == fkNAN) = true ∧
    good (exec (.vcvt ⟨at0, false⟩ 3 1) (st (mxenc vnan 9))) (fun t => (t.m.ctx 0 0).endKind == fkNAN) = true ∧
    good (exec (.vmxenc ⟨at0, false⟩ 3 1) (st vec1)) (fun t => (t.m.ctx 0 0).endMcause == 2) = true ∧
    (∀ i ∈ [Instr.vcvt ⟨at0, true⟩ 3 1, .vmxenc ⟨at0, true⟩ 3 1, .vsmxr ⟨at0, true⟩ 4 2 4], good (exec i (st (mxenc vec1 9))) (fun t => (t.m.ctx 0 0).endKind == fkCHECKSUM) = true) ∧
    good (exec (.vcvt ⟨at0, false⟩ 3 1) (st (vec1.updCtx 0 0 fun c => { c with tcvt := 0x31C }))) (fun t => (t.m.ctx 0 0).endMcause == 2) = true := by decide +kernel

/-! Engine instructions, copies, synchronisation. -/

/-- x5 = 64, x6 = 65, x7 = 2^63 + 2^62, x8 = 128; four issues queued in `full`. -/
def eng1 : Mod := { ready1 with ctxs := [(0, { ctx1 with x := [(5, 64), (6, 65), (7, 0xC000000000000000), (8, 128)] })] }
def issue0 : Issue := { wr := true, acc := false, record := 0, index := 0 }
def full : Mod := { ready1 with ctxs := [(0, { ctx1 with iq := [issue0, issue0, issue0, issue0] })] }
/-- The record of ENG.MM holds poison (04 R135). -/
theorem test_engine_poison :
    (let m := eng1.updTile 0 fun t => { t with win := [(0, (0, 1))], poison := [(granule (tsPhys t.split 64), ())] }
     ((m.accessEcc 0 0 1 64 64 .ok).engBytes at0 64 64).map (fun r => r.poison) = some true ∧
     good (exec (.engMm ⟨at0, .ok⟩ true false 5) (st m)) (fun t => (t.m.ctx 0 0).ending == some stPOISON && (t.m.ctx 0 0).iq == []) = true) := by decide +kernel
theorem test_engine_instructions :
    (eng1.engBytes at0 64 64).isSome = true ∧ good (exec (.engMm ⟨at0, .ok⟩ true false 5) (st eng1)) (fun t => (t.m.ctx 0 0).iq == [issue0]) = true ∧
    eng1.engBytes at0 65 64 = none ∧ good (exec (.engMm ⟨at0, .ok⟩ true false 6) (st eng1)) (fun t => (t.m.ctx 0 0).endMcause == 24) = true ∧
    leaves (exec (.engMm ⟨at0, .ok⟩ true false 5) (st full)) (st full) full = true ∧
    vldFault 1 128 4 5 = none ∧ good (exec (.engVst at0 1 1 8 .ok) (st eng1)) (fun t => (t.m.ctx 0 0).instret == 1) = true ∧
    good (exec (.engVld at0 1 1 8 .ok) (st eng1)) (fun t => (t.m.ctx 0 0).instret == 1) = true ∧
    vldFault 1 0xC000000000000000 4 5 = some 5 ∧ good (exec (.engVld at0 1 1 7 .ok) (st eng1)) (fun t => (t.m.ctx 0 0).endMcause == 5) = true ∧
    good (exec (.engVst at0 3 1 5 .ok) (st eng1)) (fun t => (t.m.ctx 0 0).endMcause == 2) = true := by decide +kernel

/-- A copy of four INT8 elements from offset 0 of the scratchpad to offset 8, and one with a reserved field set. -/
def desc1 : BitVec 1024 := BitVec.ofNat 1024 (0xA * 2 ^ 590 + 0xA * 2 ^ 594 + 8 * 2 ^ 64 + 3 * 2 ^ 512)
def copy1 : Copy := { owner := some 1, task := none, cmd := 1, part := 1, half := 0, engine := 0, desc := desc1, arith := 0, order := 1 }
def copied (c : Copy) : Mod := { ready1 with
  tiles := [(0, { win := [(0, (0, 1))], ts := [(0, 1), (1, 2)] })], copies := [(1, c)], copySeq := 2, halves := [(0, { slots := 255 })],
  ctxs := [(0, { ctx1 with tags := [(7, 1)] })] }
theorem test_copy_instructions :
    ready1.canPush 0 ctx1 = true ∧
    good (exec (.cpyPush at0 1 0) (st ready1)) (fun t => (t.m.ctx 0 0).getX 1 == 1 && (t.m.ctx 0 0).tags == [(1, 1)] && (t.m.half 0).slots == 255) = true ∧
    good (exec (.cpyPushnb at0 1 0) (st { ready1 with halves := [(0, { slots := 0 })] })) (fun t => (t.m.ctx 0 0).getX 1 == 0 && (t.m.ctx 0 0).tags == []) = true ∧
    good (exec (.cpyTest at0 1 5) (st (copied copy1))) (fun t => (t.m.ctx 0 0).getX 1 == 0xFFFFFFFFFFFFFFFF && (t.m.ctx 0 0).tags == [(7, 1)]) = true ∧
    good (exec (.cpyWait at0 1 5) (st (copied copy1))) (fun t => (t.m.ctx 0 0).st == .blocked) = true ∧
    good (exec (.cpyWait at0 1 5) (st (copied { copy1 with status := some stARITH }))) (fun t =>
      (t.m.ctx 0 0).getX 1 == BitVec.ofNat 64 stARITH && (t.m.ctx 0 0).tags == [] && t.m.copies == []) = true ∧
    good (exec (.cpyTest at0 1 6) (st (copied copy1))) (fun t => (t.m.ctx 0 0).getX 1 == 0xFFFFFFFFFFFFFFFE) = true := by decide +kernel
theorem test_copy_complete :
    copy1.refused = false ∧
    good (exec (.copyComplete ⟨1, .ok⟩) (st (copied { copy1 with started := true }))) (fun t => (t.m.tile 0).ts == [(0, 1), (1, 2), (8, 1), (9, 2)] &&
      t.m.copies.map (fun e => (e.2.status, e.2.elems)) == [(some stOK, 4)] && (t.m.half 0).slots == 256) = true ∧
    { copy1 with desc := desc1 ||| 0x8000000000000000#1024 <<< 960 : Copy }.refused = true ∧
    good (exec (.copyComplete ⟨1, .ok⟩) (st (copied { copy1 with started := true, desc := desc1 ||| 0x8000000000000000#1024 <<< 960 }))) (fun t =>
      t.m.copies.map (fun e => e.2.status) == [some stARITH] && (t.m.tile 0).ts == [(0, 1), (1, 2)]) = true := by decide +kernel

/-- Semaphore 7 is of tile 0 and owned; 65536 names none; barrier 7 is of tile 1. -/
theorem test_core_synchronisation :
    ready1.semOk ctx1 7 = true ∧ ready1.semOk ctx1 0xFFFFFFFFFFFFFFFF = false ∧ ready1.barOk ctx1 7 = true ∧
    good (exec (.semSig at0 5 5) (st ready1)) (fun t => t.m.net.sn == [⟨.sig, 7, 7, 0, 0, 1, false⟩] && (t.m.ctx 0 0).instret == 1) = true ∧
    good (exec (.semWait at0 1 5 5) (st ready1)) (fun t => t.m.net.sn == [⟨.wait, 7, 7, 0, 0, 1, false⟩] && (t.m.ctx 0 0).wait == some (.sem 7 7 1)) = true ∧
    good (exec (.semTry at0 1 5 5) (st ready1)) (fun t => (t.m.ctx 0 0).wait == some (.try 7 1) && (t.m.ctx 0 0).st == .run) = true ∧
    good (exec (.barA at0 1 5) (st ready1)) (fun t => t.m.net.sn == [⟨.barA, 7, 0, 0, 0, 1, false⟩] && (t.m.ctx 0 0).wait == some (.arrive 7 1)) = true ∧
    good (exec (.barAw at0 1 5) (st ready1)) (fun t => (t.m.ctx 0 0).wait == some (.bar 7 0 1 true)) = true ∧
    phaseDone 0 7 = false ∧ good (exec (.barW at0 1 5 5) (st ready1)) (fun t => (t.m.ctx 0 0).wait == some (.bar 7 7 1 false)) = true ∧
    phaseDone 0 0xFFFF = true ∧ good (exec (.barW at0 1 5 6) (st ready1)) (fun t => (t.m.ctx 0 0).instret == 1) = true ∧
    good (exec (.semTry at0 1 6 5) (st ready1)) (fun t => (t.m.part 1).viol == 1 && t.m.net.sn == [] && (t.m.ctx 0 0).instret == 1) = true := by
  decide +kernel

/-! Ends of tasks. -/

def blockedOn (w : Wait) : Mod := { ready1 with ctxs := [(0, { ctx1 with st := .blocked, wait := some w })] }
theorem test_task_ends :
    good (exec (.taskEnd at0 5) (st ready1)) (fun t => (t.m.ctx 0 0).ending == some stOK && (t.m.ctx 0 0).endExit == 7 && t.m.net.cn.length == 1) = true ∧
    good (exec (.taskEnd at0 5) (st copying)) (fun t => (t.m.ctx 0 0).wait == some (.taskEnd 7)) = true ∧
    (blockedOn (.fence 0)).fenceMet 0 0 0 = true ∧
    good (exec (.fenceDone 0 0) (st (blockedOn (.fence 0)))) (fun t => (t.m.ctx 0 0).st == .run && (t.m.ctx 0 0).pc == ctx1.pc + 4) = true ∧
    good (exec (.fenceDone 0 0) (st (blockedOn (.taskEnd 9)))) (fun t => (t.m.ctx 0 0).endExit == 9 && (t.m.ctx 0 0).ending == some stOK) = true ∧
    good (exec (.taskFaultDrained 0 0) (st { ready1 with ctxs := [(0, { ctx1 with ending := some stARITH })] })) (fun t =>
      (t.m.ctx 0 0).reported && t.m.net.cn.length == 1) = true ∧
    good (exec (.contextRotate 0) (st { ready1 with ctxs := [(0, ctx1), (3, { ctx1 with uid := 2 })] })) (fun t => (t.m.tile 0).cur == 3) = true := by
  decide +kernel

/-! The matrix engine: a task of FP32 x FP32, A = B = C at offset 0 of its window, M = N = K = 1. -/

def record1 : BitVec 512 := BitVec.ofNat 512 (2 ^ 372 + 2 ^ 368)
def issue1 : Issue := { issue0 with record := record1 }
def matrix1 (i : Issue) : Mod := { ready1 with
  ctxs := [(0, { ctx1 with task := some { task1 with desc := BitVec.ofNat 512 (2 ^ 282 + 2 ^ 286) }, iq := [i] })]
  tiles := [(0, { win := [(0, (0, 1))], ts := [(2, 0x80), (3, 0x3F)] })] }
theorem test_matrix_issue :
    issue1.refused 1 1 none = false ∧ issue0.refused 1 1 none = true ∧ engineFree ((matrix1 issue1).tile 0) issue1 = true ∧
    good (exec (.matrixIssueStart ⟨0, .ok⟩) (st (matrix1 issue0))) (fun t => (t.m.ctx 0 0).endKind == fkISSUE) = true ∧
    good (exec (.matrixIssueStart ⟨0, .ok⟩) (st (matrix1 issue1))) (fun t => ((t.m.ctx 0 0).acc.map AccS.elems) == some [0x3F800000] &&
      (t.m.tile 0).running.length == 1 && (t.m.tile 0).rr == 1 &&
      good (exec (.issueWriteOut 0 none) t) fun u => (u.m.tile 0).running == [] && (u.m.tile 0).ts == [(2, 0x80), (3, 0x3F)]) = true := by decide +kernel

/-! Tile units. -/

def tile0 (x : Tile) : Mod := { ready1 with tiles := [(0, x)] }
/-- An access that waits for the split, and an engine that does. -/
theorem test_split_waits :
    good (exec (.tswr 1030 0 127 [9] 1 .ok) (st (tile0 { changing := some 1 }))) (fun t => t.m.net.tsWait.length == 1 && (t.m.tile 0).ts == [] &&
      good (exec (.splitChangeDone 0) t) fun u => u.m.net.tsWait == [] && (u.m.tsReadN 0 127 1).bytes == [9] && u.m.net.tsResp.length == 1) = true ∧
    leaves (exec (.issueWriteOut 0 none) (st (tile0 { changing := some 1 }))) (st (tile0 { changing := some 1 })) (tile0 { changing := some 1 }) = true ∧
    leaves (exec (.tsrd 1030 0 0 4 1 .ok) (st (tile0 { changing := some 1 }))) (st (tile0 { changing := some 1 }))
      ((tile0 { changing := some 1 }).updNet fun n => { n with tsWait := [⟨1030, 0, 0, 4, none, 1, .ok⟩] }) = true := by decide +kernel
theorem test_tile_units :
    good (exec (.thresholdStepDown 0 0) (st (tile0 { stepDown := [(0, 2)] }))) (fun t =>
      (t.m.tile 0).stepDown == [(0, 1)] && (t.m.tile 0).tvals == [(0, -1)]) = true ∧
    leaves (exec (.thresholdStepDown 0 0) (st ready1)) (st ready1) ready1 = true ∧ leaves (exec (.csuSelftest 0 true) (st ready1)) (st ready1) ready1 = true ∧
    good (exec (.csuSelftest 0 false) (st (tile0 { selftestDue := true, selftest := some false }))) (fun t => t.m.tile 0 == {}) = true ∧
    good (exec (.csuSelftest 0 true) (st (tile0 { selftest := some false }))) (fun t => (t.m.tile 0).fenced && (t.m.tile 0).selftestFail) = true ∧
    good (exec (.strikeLapse 0) (st (tile0 { strike := 2 }))) (fun t => (t.m.tile 0).strike == 1) = true ∧
    good (exec (.bankStarved 0 31 .matrix) (st (tile0 { starved := [(31, [(0, .core)])] }))) (fun t =>
      (t.m.tile 0).starved == [(31, [(0, .matrix), (0, .core)])] && good (exec (.bankStarved 0 31 .core) t) fun u => u.m.tile 0 == t.m.tile 0) = true ∧
    good (exec (.splitChangeDone 0) (st (tile0 { changing := some 1, ts := [(0, 1), (4 * 2 ^ 17 - 1, 2), (4 * 2 ^ 17, 3)] }))) (fun t =>
      (t.m.tile 0).split == 1 && (t.m.tile 0).ts == [(0, 1), (4 * 2 ^ 17 - 1, 2)]) = true ∧
    good (exec (.splitChangeDone 0) (st (tile0 { changing := some 5, ts := [(0, 1)] }))) (fun t =>
      (t.m.tile 0).split == 5 && (t.m.tile 0).ts == [(0, 1)]) = true := by decide +kernel

/-! Coherence: line 0 of pinned memory, at home in slice 0, owned by partition 1. -/

def ps0 : LineRef := ⟨true, 0⟩
def k0 : Nat := lineKey ps0
def home (d : Dir) : Mod := { ready1 with cache := { ready1.cache with lines := [(k0, { way := 0, data := 5, dir := d })] } }
def homeL1 (d : Dir) (a : Nat) (c : L1Line) : Mod := (home d).setL1 a k0 c
def homeNet (d : Dir) (x : Msg) : Mod := (home d).updCache fun c => { c with net := [x] }
def netOf (o : Out) (l : List (MsgKind × AgentId)) (d : Dir) : Bool :=
  good o fun t => t.m.cache.net.map (fun x => (x.kind, x.agent)) == l && (t.m.line? k0).map Line.dir == some d
theorem test_home_free :
    (∀ kd ∈ [ReqKind.gets, .getx, .upg, .dead], (home {}).HomeFree k0 { kind := kd, agent := 0, part := 1 }) ∧
    (home {}).HomeFree k0 { kind := .ncrd, agent := 1024, part := 1 } ∧
    (∀ tgt ∈ [none, some (3 : TileId)], (home {}).HomeFree k0 { kind := .ncwh, agent := 1155, part := 1, byteen := 1, data := 0xAB, target := tgt }) := by
  refine ⟨?_, ?_, ?_⟩ <;> unfold Mod.HomeFree <;> decide +kernel
theorem test_coherence_requests :
    netOf (exec (.gets 0 ps0 1 7 .ok) (st (home {}))) [(.dataE, 0)] (dirDX 0) = true ∧
    netOf (exec (.gets 0 ps0 1 7 .ok) (st (home { dstate := 1, ptrs := [0, 1] }))) [(.dataF, 0)] { dstate := 2, fwd := 0, ptrs := [1] } = true ∧
    netOf (exec (.gets 0 ps0 1 7 .ok) (st (home (dirDX 1)))) [(.fwdS, 1)] { dirDX 1 with busy := true } = true ∧
    netOf (exec (.getx 0 ps0 1 7 .ok) (st (home {}))) [(.dataM, 0)] (dirDX 0) = true ∧
    netOf (exec (.getx 0 ps0 1 7 .ok) (st (home (dirDX 1)))) [(.fwdX, 1)] { dirDX 1 with busy := true } = true ∧
    netOf (exec (.upg 0 ps0 1 7) (st (homeL1 { dstate := 2, fwd := 0 } 0 { st := .F, data := 5 }))) [(.grantM, 0)] (dirDX 0) = true ∧
    netOf (exec (.ncrd 1024 ps0 1 7 .ok) (st (home {}))) [(.ncdata, 1024)] {} = true ∧
    netOf (exec (.ncwi 1024 ps0 1 7 1 0xAB) (st (home {}))) [(.ncack, 1024)] {} = true := by decide +kernel
theorem test_hinted_write_and_dead :
    netOf (exec (.ncwh 1155 ps0 1 7 1 0xAB (some 3)) (st { home {} with cache := { (home {}).cache with ncMode := [(1155, 1)] } })) [(.ncack, 1155), (.push, 3)]
      { busy := true } = true ∧
    netOf (exec (.ncwh 1025 ps0 1 7 1 0xAB (some 3)) (st { home {} with cache := { (home {}).cache with ncMode := [(1025, 1)] } })) [(.ncack, 1025)] {} = true ∧
    good (exec (.dead 0 ⟨false, 2 ^ 26⟩ 1) (st { ready1 with
      mem := { frameTag := [(1024, 1)] }, cache := { lines := [(2 ^ 19, { way := 0, data := 5 })] } })) (fun t => t.m.cache.lines == [] && t.m.cache.net == []) = true := by
  decide +kernel
theorem test_coherence_forwards :
    (homeNet (dirDX 1) ⟨.fwdS, 1, k0, 0, none, false, false⟩).InFlight .fwdS 1 ps0 ⟨.fwdS, 1, k0, 0, none, false, false⟩ [] ∧
    (∀ kd ∈ [MsgKind.fwdS, .fwdX, .fwdNc, .inv, .invd], good (exec (match kd with
        | .fwdS => Instr.fwdS 1 ps0 | .fwdX => .fwdX 1 ps0 | .fwdNc => .fwdNc 1 ps0 | .inv => .inv 1 ps0 | _ => .invd 1 ps0)
      (st ((homeNet (dirDX 1) ⟨kd, 1, k0, 0, none, false, false⟩).setL1 1 k0 { st := .M, data := 9 }))) (fun t =>
        ((t.m.l1 1 k0).map L1Line.st == (match kd with
          | .fwdS => some .S | .fwdNc => some .E | _ => none)) &&
        ((t.m.cache.net.getLast?).map Msg.data == (match kd with
          | .fwdX | .invd => some none | _ => some (some 9)))) = true) := by
  constructor
  · unfold Mod.InFlight; decide +kernel
  · decide +kernel
/-- A copy in the write-back buffer still serves its line (07 R232). -/
def buffered (kd : MsgKind) : Mod := (homeNet (dirDX 1) ⟨kd, 1, k0, 0, none, false, false⟩).updCache fun c => { c with wbuf := [(l1Key 1 k0, { st := .M, data := 9 })] }
theorem test_buffered_copy :
    (∀ kd ∈ [MsgKind.fwdS, .fwdX, .inv], good (exec (match kd with
        | .fwdS => Instr.fwdS 1 ps0 | .fwdX => .fwdX 1 ps0 | _ => .inv 1 ps0) (st (buffered kd))) (fun t => t.m.cache.net.map (fun x => (x.kind, x.data)) ==
      (match kd with
        | .fwdS => [(.dataF, some 9), (.fwdAck, some 9)] | .fwdX => [(.dataM, some 9), (.fwdAck, none)] | _ => [(.invAck, some 9)])) = true) ∧
    good (exec (.invd 2 ps0) (st (homeNet {} ⟨.invd, 2, k0, 0, none, false, false⟩))) (fun t => t.m.cache.net.map Msg.kind == [.invAck]) = true := by decide +kernel
/-- Eight lines of one set of an L1 portion: a ninth takes the place of one (03 R83). -/
def crowded : Mod := { ready1 with cache := { ready1.cache with
  lines := (List.range 8).map fun j => (k0 + 2048 * (j + 1), { way := 0, data := 5, dir := dirDX 0 })
  l1 := (List.range 8).map fun j => (l1Key 0 (k0 + 2048 * (j + 1)), { st := .E, data := 5 }) } }
theorem test_l1_room :
    crowded.l1Sets 0 = 2048 ∧
    (crowded.cache.l1.keep fun j _ => j / 2 ^ 36 == 0 && j % 2 ^ 36 % 2048 == k0 % 2048 && j % 2 ^ 36 != k0).length = 8 ∧
    ready1.l1Room 0 k0 = ready1 := by decide +kernel
def pushing (x : Msg) : Mod := (homeNet { busy := true } x).updCache fun c => { c with
  txns := [(k0, { req := { kind := .ncwh, agent := 1155, part := 1, target := some 3 }, await := [3], pushed := true })] }
theorem test_pushes :
    good (exec (.push 3 ps0 (Fin.ofNat 16 (homeOf k0))) (st (homeNet {} ⟨.push, 3, k0, 0, some 9, false, false⟩))) (fun t => (t.m.l1 3 k0) == some { st := .E, data := 9 } &&
      t.m.cache.net.map Msg.kind == [.pushAck]) = true ∧
    good (exec (.push 3 ps0 (Fin.ofNat 16 (homeOf k0))) (st ((homeNet {} ⟨.push, 3, k0, 0, some 9, false, false⟩).setReq k0 { kind := .gets, agent := 3, part := 1 }))) (fun t =>
      (t.m.l1 3 k0) == none && t.m.cache.net.map Msg.kind == [.pushNak]) = true ∧
    good (exec (.pushAck 3 ps0) (st (pushing ⟨.pushAck, 3, k0, 0, none, false, false⟩))) (fun t =>
      (t.m.line? k0).map Line.dir == some (dirDX 3) && t.m.cache.txns == []) = true ∧
    good (exec (.pushNak 3 ps0) (st (pushing ⟨.pushNak, 3, k0, 0, none, false, false⟩))) (fun t =>
      (t.m.line? k0).map Line.dir == some {} && (t.m.counter kCchPushNak 0).value == 1) = true := by decide +kernel
/-- Agent 0 waits for an answer to a request of its own. -/
def asked (kd : ReqKind) (x : Msg) : Mod := (homeNet (dirDX 0) x).setReq k0 { kind := kd, agent := 0, part := 1 }
theorem test_coherence_grants :
    (∀ p ∈ [(MsgKind.dataS, L1St.S), (.dataF, .F), (.dataE, .E), (.dataM, .M)], good (exec (match p.1 with
        | .dataS => Instr.dataS 0 ps0 | .dataF => .dataF 0 ps0 | .dataE => .dataE 0 ps0 | _ => .dataM 0 ps0)
      (st (asked .gets ⟨p.1, 0, k0, 0, some 9, false, false⟩))) (fun t => (t.m.l1 0 k0) == some { st := p.2, data := 9 } && (t.m.req? 0 k0).isNone) = true) ∧
    good (exec (.grantM 0 ps0) (st ((asked .upg ⟨.grantM, 0, k0, 0, none, false, false⟩).setL1 0 k0 { st := .F, data := 5 }))) (fun t =>
      (t.m.l1 0 k0).map L1Line.st == some .M) = true ∧
    good (exec (.ncdata 0 ps0) (st (asked .ncrd ⟨.ncdata, 0, k0, 0, some 9, false, false⟩))) (fun t => (t.m.req? 0 k0).isNone) = true ∧
    good (exec (.ncack 0 ps0) (st (asked .ncwi ⟨.ncack, 0, k0, 0, none, false, false⟩))) (fun t => (t.m.req? 0 k0).isNone) = true ∧
    good (exec (.putAck 0 ps0) (st ((homeNet {} ⟨.putAck, 0, k0, 0, none, false, false⟩).updCache fun c => { c with
      wbuf := [(l1Key 0 k0, { st := .E, data := 5 })] }))) (fun t => t.m.cache.wbuf == []) = true ∧
    good (exec (.nack 0 ps0) (st (asked .gets ⟨.nack, 0, k0, 0, none, false, true⟩))) (fun t => (t.m.req? 0 k0).map Req.ticket == some true) = true ∧
    good (exec (.nack 0 ps0) (st (asked .gets ⟨.nack, 0, k0, 0, none, false, false⟩))) (fun t => (t.m.req? 0 k0).map (fun r => (r.nacks, r.backoff)) == some (1, true)) = true := by
  decide +kernel
def busy (l : List AgentId) (x : Msg) : Mod := (homeNet { dirDX 1 with busy := true } x).updCache fun c => { c with
  txns := [(k0, { req := { kind := .getx, agent := 0, part := 1 }, await := l })] }
theorem test_coherence_acks :
    good (exec (.invAck 1 ps0) (st (busy [1, 2] ⟨.invAck, 1, k0, 0, none, false, false⟩))) (fun t => t.m.cache.txns.map (fun e => e.2.await) == [[2]] && t.m.cache.net == []) = true ∧
    good (exec (.fwdAck 1 ps0) (st (busy [1] ⟨.fwdAck, 1, k0, 0, none, false, false⟩))) (fun t => t.m.cache.txns.isEmpty) = true ∧
    (∀ i ∈ [Instr.pute 1 ps0, .putm 1 ps0], good (exec i (st (homeL1 (dirDX 1) 1 { st := if i = .pute 1 ps0 then .E else .M, data := 9 }))) (fun t =>
      (t.m.l1 1 k0).isNone && t.m.cache.wbuf.has (l1Key 1 k0) && (t.m.line? k0).map Line.dir == some {} && t.m.cache.net.map Msg.kind == [.putAck]) = true) ∧
    good (exec (.putf 1 ps0) (st (homeL1 { dstate := 2, fwd := 1 } 1 { st := .F, data := 5 }))) (fun t => (t.m.line? k0).map Line.dir == some {}) = true := by
  decide +kernel
theorem test_coherence_retries :
    good (exec (.nackBackoffExpiry 0 ps0) (st ((home {}).setReq k0 { kind := .gets, agent := 0, part := 1, backoff := true, nacks := 1 }))) (fun t =>
      t.m.cache.net.map Msg.kind == [.dataE]) = true ∧
    good (exec (.ticketAdmit ps0) (st (((home {}).setReq k0 { kind := .gets, agent := 0, part := 1, ticket := true }).updCache fun c => { c with tickets := [(0, 0, k0)] }))) (fun t =>
      t.m.cache.net.map Msg.kind == [.dataE] && t.m.cache.tickets == []) = true ∧
    good (exec (.agentUnresponsive ps0 1) (st (busy [1, 2] ⟨.invAck, 2, k0, 0, none, false, false⟩))) (fun t => t.m.cache.txns.map (fun e => e.2.await) == [[2]] &&
      t.m.kod.evq.length == 1 && (t.m.counter kCchUnresp 0).value == 1) = true ∧
    good (exec (.ncModeChange 1024) (st { ready1 with cache := { ncPend := [(1024, 1)] } })) (fun t => t.m.cache.ncMode == [(1024, 1)] && t.m.cache.ncPend == []) = true := by
  decide +kernel
def filling : Mod := { ready1 with cache := { mshr := [(0, [{ readers := [{ kind := .gets, agent := 0, part := 1 }] }])], reqs := [(0, { kind := .gets, agent := 0, part := 1 })] } }
theorem test_fill_and_guard :
    good (exec (.fillReturn ⟨false, 0⟩ .ok []) (st filling)) (fun t => t.m.cache.net.map (fun x => (x.kind, x.agent)) == [(.dataF, 0)] &&
      (t.m.line? 0).map Line.dir == some { dstate := 2, fwd := 0 }) = true ∧
    (let path := filling.nodePath 0 pathFuel 0
     path.getLast? = some (.router 0 0) ∧ (∀ p ∈ path, filling.noCredit p 2 = false) ∧
     good (exec (.fillReturn ⟨false, 0⟩ .ok [0]) (st filling)) (fun t => t.m.cache.net == [] && t.m.net.hold.map (fun e => e.2.length) == [1]) = true) ∧
    (let m := filling.updFt fun f => { f with retrain := some (0, [0, 1]) }
     filling.awaitsRetrain 0 = false ∧ leaves (exec (.fillReturn ⟨false, 0⟩ .ok []) (st m)) (st m) m = true) ∧
    good (exec (.guardWindowEnd 0) (st { ready1 with cache := {} })) (fun t => (t.m.cache.guard.getD 0 {}).windows == 1) = true ∧
    good (exec (.guardWindowEnd 0) (st { ready1 with
      kod := { params := [(pCchThrashThr + 1, 900)] }, cache := { ready1.cache with win := [(255, (1000000, 10))] } })) (fun t =>
        (t.m.cache.guard.getD 0 {}).thrash && t.m.kod.evq.map Event.code == [evCchThrash]) = true := by decide +kernel

/-! Networks. -/

def netMod (f : NetS → NetS) : Mod := ready1.updNet f
theorem test_scratchpad_accesses :
    good (exec (.tswr 1030 0 127 [9] 1 .ok) (st ready1)) (fun t => t.m.net.tsResp == [⟨1030, 0, none, false⟩] && (t.m.tsReadN 0 127 1).bytes == [9]) = true ∧
    good (exec (.tswr 1030 16 0 [9] 1 .ok) (st ready1)) (fun t => t.m.net.tsResp == [⟨1030, 16, none, false⟩] && (t.m.part 1).viol == 1 && (t.m.tile 16).ts == []) = true ∧
    good (exec (.tsrd 1030 0 0 128 1 .ok) (st ready1)) (fun t => t.m.net.tsResp == [⟨1030, 0, some (List.replicate 128 0), false⟩]) = true ∧
    good (exec (.tsrd 1030 16 0 1 1 .ok) (st ready1)) (fun t => t.m.net.tsResp == [⟨1030, 16, some [0], false⟩] && (t.m.part 1).viol == 1) = true ∧
    good (exec (.tsdata 1030 0) (st (netMod fun n => { n with tsResp := [⟨1030, 0, none, false⟩, ⟨1030, 0, some [7], false⟩] }))) (fun t =>
      t.m.net.tsResp == [⟨1030, 0, none, false⟩] && t.m.net.tsIn == [(1030, ([7], false))]) = true ∧
    good (exec (.tsack 1030 0) (st (netMod fun n => { n with tsResp := [⟨1030, 0, none, false⟩] }))) (fun t => t.m.net.tsResp == []) = true := by decide +kernel
theorem test_small_writes :
    good (exec (.cnSwr 1030 0 ⟨false, 2 ^ 26⟩ 112 (List.replicate 16 1) 1) (st { ready1 with mem := { frameTag := [(1024, 1)] } })) (fun t =>
      t.m.net.cn.map (fun f => (f.op, f.dst)) == [(.swrack, 1030)]) = true ∧
    good (exec (.cnSwr 5 0 ⟨false, 2 ^ 26⟩ 0 [1] 1) (st { ready1 with mem := { frameTag := [(1024, 1)] } })) (fun t =>
      t.m.net.cn.map (fun f => (f.op, f.dst)) == [(.swrack, 5)]) = true ∧
    good (exec (.cnSwrack 5) (st (netMod fun n => { n with cn := [{ op := .swrack, dst := 5 }] }))) (fun t => t.m.net.cn == []) = true := by decide +kernel
def bn34 : Nat := creditKey (.router 3 4) .bn 0
def bn342 : Nat := creditKey (.router 3 4) .bn 2
def grant0 : Msg := { kind := .dataF, agent := 0, line := 0, data := some 5 }
theorem test_multicast_and_credits :
    good (exec (.branchHoldExpiry (.router 3 4) 0) (st (netMod fun n => { n with hold := [(bn34, [.copy 1 63])] }))) (fun t =>
      t.m.net.failed == [(1, 63)] && (t.m.counter kTilRtrMcFail 3).value == 1) = true ∧
    good (exec (.branchHoldExpiry (.router 3 4) 0) (st (netMod fun n => { n with hold := [(bn34, [.fill grant0])] }))) (fun t =>
      t.m.net.again == [(bn34, [grant0])] && t.m.net.hold == [(bn34, [])]) = true ∧
    good (exec (.branchFail 1 63) (st { copied copy1 with net := { failed := [(1, 63)], retried := [(127, 3)] } })) (fun t =>
      t.m.copies.map (fun e => e.2.undeliv) == [0x8000000000000000]) = true ∧
    good (exec (.branchFail 1 0) (st { copied { copy1 with desc := desc1 ||| (1#1024 <<< 628) } with net := { failed := [(1, 0)] } })) (fun t =>
      t.m.net.failed == [] && t.m.net.retried == [(64, 1)]) = true ∧
    creditOk .bn 2 = true ∧ creditOk .sn 0 = true ∧
    good (exec (.creditReturn (.router 3 4) .sn 0) (st (netMod fun n => { n with spent := [(creditKey (.router 3 4) .sn 0, 2)], freed := [(creditKey (.router 3 4) .sn 0, 1)] }))) (fun t =>
      t.m.net.spent == [(creditKey (.router 3 4) .sn 0, 1)] && t.m.net.freed == [(creditKey (.router 3 4) .sn 0, 0)]) = true ∧
    leaves (exec (.creditReturn (.router 3 4) .sn 0) (st ready1)) (st ready1) ready1 = true ∧
    good (exec (.creditReturn (.router 3 4) .bn 0) (st (netMod fun n => { n with hold := [(bn34, [.copy 1 63])], spent := [(bn34, 2)], freed := [(bn34, 1)] }))) (fun t =>
      t.m.net.hold == [(bn34, [])] && t.m.net.spent == [(bn34, 2)]) = true ∧
    (∀ h ∈ [([(bn34, [Branch.fill grant0])], []), ([], [(bn34, [grant0])])], good (exec (.creditReturn (.router 3 4) .bn 2) (st (netMod fun n => { n with
      hold := h.1, again := h.2, spent := [(bn342, 2)], freed := [(bn342, 1)] }))) (fun t =>
        t.m.cache.net == [grant0] && t.m.net.spent == [(bn342, 2)]) = true) := by decide +kernel
/-- `flit1` on its way from tile 3 to tile 0: the entry it takes at tile 2, over the port towards it. -/
def redIn (d : Bool) (f : RedFlit) (l : List (Nat × List RedFlit)) : Mod := netMod fun n => { n with red := [(if d then 0 else 3, d, f)], ring := l }
def flit2 : RedFlit := { flit1 with via := some 171 }
theorem test_chainring :
    redOk flit1 = true ∧ redOk flit2 = true ∧ redMatches flit1 flit1 = true ∧ redElems 32 flit1 = [(0, 0x3F800000)] ∧
    ready1.nextHop 3 0 = some (.router 3 4, some 2) ∧ ready1.nextHop 0 0 = some (.router 0 0, none) ∧ ready1.noCredit (.router 3 4) 0 = false ∧
    (∀ d, leaves (exec (.red 3 flit1 d) (st ready1)) (st ready1) ready1 = true) ∧
    good (exec (.red 3 flit1 false) (st (redIn false flit1 []))) (fun t => t.m.net.ring == [(3, [flit1])] && t.m.net.red == []) = true ∧
    (∀ g ∈ [{ flit1 with nocomb := true }, { flit1 with waited := 64 }], (good (exec (.red 3 g false) (st (redIn false g []))) (fun t : State =>
      (t.m.net.red == [(2, false, { g with via := some 171 })] && t.m.net.spent == [(171, 1)] : Bool)) : Bool) = true) ∧
    good (exec (.red 3 flit1 false) (st (redIn false flit1 [(3, [flit1])]))) (fun t =>
      t.m.net.ring == [(3, [])] && (t.m.counter kTilRtrCrComb 3).value == 1 &&
      t.m.net.red == [(2, false, { redCombine flit1 flit1 with via := some 171 })]) = true ∧
    good (exec (.red 3 flit2 false) (st (redIn false flit2 [(3, List.replicate 32 { flit1 with part := 2 })]))) (fun t =>
      (t.m.counter kTilRtrCrPass 3).value == 1 && t.m.net.red == [(2, false, flit2)] && t.m.net.freed == [(171, 1)]) = true ∧
    good (exec (.chainringRelease 3) (st (netMod fun n => { n with ring := [(3, [flit1])] }))) (fun t =>
      t.m.net.ring == [(3, [])] && t.m.net.red == [(2, false, { flit2 with waited := 64 })]) = true ∧
    good (exec (.chainringRelease 3) (st (netMod fun n => { n with ring := [(3, [flit1])], spent := [(171, creditCap .bn 0)] }))) (fun t =>
      t.m.net.ring == [(3, [{ flit1 with waited := 64 }])] && t.m.net.red == []) = true ∧
    leaves (exec (.chainringRelease 3) (st ready1)) (st ready1) ready1 = true ∧
    good (exec (.red 0 { flit1 with data := 7 } true) (st (redIn true { flit1 with data := 7 } []))) (fun t =>
      (t.m.tsReadN 0 0 4).bytes == [7, 0, 0, 0] && t.m.net.redacks == [⟨9, 1, 0, false⟩] && t.m.net.red == []) = true ∧
    (let m := (redIn true flit1 []).updTile 0 fun t => { t with changing := some 2 }; leaves (exec (.red 0 flit1 true) (st m)) (st m) m = true) ∧
    good (exec (.redack 1) (st { copied { copy1 with reds := 1 } with net := { redacks := [⟨1, 3, 5, true⟩] } })) (fun t =>
      t.m.copies.map (fun e => (e.2.aflags, e.2.counts.getD 0 0, e.2.wPoison, e.2.reds)) == [(5, 3, true, 0)] && t.m.net.redacks == []) = true := by
  decide +kernel

/-! Semaphores and barriers. -/

def wait7 : SnFlit := ⟨.wait, 7, 3, 0, 0, 1, false⟩
def semMod (v : Nat) (f : SnFlit) (w : List WaitRec) : Mod := ready1.updNet fun n => { n with sems := [(7, { value := v })], sn := [f], waits := w }
theorem test_semaphore_home :
    good (exec (.snSig 7 1 1030) (st (semMod 0xFFFFFFFE wait7 []))) (fun t => t.m.sem 7 == { value := 0xFFFFFFFF }) = true ∧
    good (exec (.snSig 7 2 1030) (st (semMod 0xFFFFFFFE wait7 []))) (fun t => t.m.sem 7 == { value := 0xFFFFFFFF, ovf := true } &&
      (t.m.counter kTilSemOvf 0).value == 1) = true ∧
    good (exec (.snSig 7 1 1030) (st (semMod 2 wait7 [⟨7, 3, 0, 5⟩]))) (fun t => (t.m.sem 7).value == 0 && t.m.net.selGrants == [5]) = true ∧
    good (exec (.snWait 7 3 0 0) (st (semMod 2 wait7 []))) (fun t => t.m.net.waits == [⟨7, 3, 1, 0⟩] && t.m.net.sn == []) = true ∧
    good (exec (.snWait 7 3 0 0) (st (semMod 3 wait7 []))) (fun t => t.m.net.sn == [⟨.grant, 7, 0, 0, 0, 1, false⟩] && (t.m.sem 7).value == 0) = true ∧
    good (exec (.snWait 7 3 0 0) (st (semMod 3 wait7 (List.replicate 512 ⟨8, 3, 2, 0⟩)))) (fun t => t.m.net.sn == [{ wait7 with op := .retry }]) = true ∧
    good (exec (.snTry 7 3 0 0) (st (semMod 2 { wait7 with op := .try } []))) (fun t => t.m.net.sn == [{ wait7 with op := .fail }]) = true ∧
    good (exec (.snTry 7 3 0 0) (st (semMod 3 { wait7 with op := .try } []))) (fun t => t.m.net.sn == [{ wait7 with op := .grant, count := 0 }]) = true ∧
    good (exec (.snTry 7 0 0 0) (st (semMod 3 { wait7 with op := .try, count := 0 } []))) (fun t => t.m.net.sn == [{ wait7 with op := .grant, count := 3 }]) = true := by
  decide +kernel
def barMod (b : Bar) (l : List SnFlit) : Mod := ready1.updNet fun n => { n with bars := [(7, b)], sn := l }
theorem test_barrier_home :
    good (exec (.snBarA 7 1030) (st (barMod { count1 := 1 } []))) (fun t => (t.m.bar 7).arrived == 1) = true ∧
    good (exec (.snBarA 7 0) (st { barMod { count1 := 1, phase := 4 } [⟨.barA, 7, 0, 0, 0, 1, false⟩] with
      ctxs := [(0, { ctx1 with wait := some (.arrive 7 1) })] })) (fun t =>
      (t.m.bar 7).arrived == 1 && (t.m.ctx 0 0).getX 1 == 4 && (t.m.ctx 0 0).wait == none && (t.m.ctx 0 0).instret == 1 && t.m.net.sn == []) = true ∧
    good (exec (.snBarA 7 1030) (st (barMod { count1 := 1, arrived := 1, phase := 65535, waiters := [(1, 0, 65535)] } []))) (fun t =>
      t.m.bar 7 == { count1 := 1 } && t.m.net.sn.map SnFlit.op == [.release]) = true ∧
    good (exec (.snBarAw 7 0 0) (st (barMod { count1 := 1 } [⟨.barAw, 7, 0, 0, 0, 1, false⟩]))) (fun t => t.m.bar 7 == { count1 := 1, arrived := 1, waiters := [(1, 0, 0)] }) = true ∧
    good (exec (.snBarW 7 4 0 0) (st (barMod { count1 := 1, phase := 4 } [⟨.barW, 7, 4, 0, 0, 1, false⟩]))) (fun t => (t.m.bar 7).waiters == [(1, 0, 4)]) = true ∧
    good (exec (.snBarW 7 3 0 0) (st (barMod { count1 := 1, phase := 4 } [⟨.barW, 7, 3, 0, 0, 1, false⟩]))) (fun t => t.m.net.sn == [⟨.release, 7, 3, 0, 0, 1, false⟩]) = true := by
  decide +kernel
def waiting (w : Wait) (b : Bool) (f : SnFlit) : Mod := { ready1 with
  ctxs := [(0, { ctx1 with wait := some w, st := if b then .blocked else .run })], net := { sn := [f], bars := [(7, { phase := 9 })] } }
theorem test_synchronisation_answers :
    ready1.ctxOf 1 = some 0 ∧
    good (exec (.snGrant 0 0) (st (waiting (.sem 7 3 1) true ⟨.grant, 7, 4, 0, 0, 1, false⟩))) (fun t => (t.m.ctx 0 0).getX 1 == 4 && (t.m.ctx 0 0).st == .run && t.m.net.sn == []) = true ∧
    good (exec (.snGrant 0 0) (st (waiting (.try 7 1) false ⟨.grant, 7, 4, 0, 0, 1, false⟩))) (fun t => (t.m.ctx 0 0).getX 1 == 4 && (t.m.ctx 0 0).instret == 1) = true ∧
    good (exec (.snGrant 0 0) (st { waiting (.sem 8192 3 1) true ⟨.grant, 8192, 4, 0, 0, 1, false⟩ with
      kod := { params := [(pDbgTraceOn, 1), (pDbgTraceMask, 32)] } })) (fun t =>
        t.m.dbg.buf == [(0, [⟨1, 0, 0, 0, 5, 1, 0, 8192⟩])]) = true ∧
    good (exec (.snFail 0 0) (st (waiting (.try 7 1) false ⟨.fail, 7, 4, 0, 0, 1, false⟩))) (fun t => (t.m.ctx 0 0).getX 1 == 0xFFFFFFFFFFFFFFFF) = true ∧
    good (exec (.snRelease 0 0) (st (waiting (.bar 7 3 1 false) true ⟨.release, 7, 3, 0, 0, 1, false⟩))) (fun t => (t.m.ctx 0 0).getX 1 == 9) = true ∧
    good (exec (.snRelease 0 0) (st (waiting (.bar 7 3 1 true) true ⟨.release, 7, 3, 0, 0, 1, false⟩))) (fun t => (t.m.ctx 0 0).getX 1 == 3) = true ∧
    good (exec (.snRetry 0 0) (st (waiting (.sem 7 3 1) true { wait7 with op := .retry }))) (fun t => t.m.net.resend == [{ wait7 with again := true }] && t.m.net.sn == []) = true ∧
    good (exec (.waitResend 0 0) (st (netMod fun n => { n with resend := [wait7] }))) (fun t => t.m.net.sn == [wait7] && t.m.net.resend == []) = true := by decide +kernel

/-! The scheduler and the control network. -/

/-- A task of partition 1 that waits; its window is one unit. -/
def task2 : Task := { task1 with uid := 0 }
def launching : Mod := { ready1 with ctxs := [], sched := { ready := [task2] } }
theorem test_task_launch :
    launching.mayPlace 1 = true ∧ launching.workOf 0 = [.task task2] ∧
    good (exec (.taskLaunch 0) (st launching)) (fun t => (t.m.ctx 0 0).st == .loading && (t.m.ctx 0 0).uid == 2 && t.m.sched.ready == [] &&
      t.m.net.cn.map CnFlit.op == [.launch]) = true ∧
    good (exec (.cnLaunch 0 0) (st { ready1 with
      ctxs := [(0, { ctx1 with st := .loading })], net := { cn := [{ op := .launch, dst := 0, a := 0, b := 1 }] } })) (fun t =>
        (t.m.ctx 0 0).st == .run && (t.m.ctx 0 0).getX 10 == 5 && (t.m.ctx 0 0).getX 11 == 6 && (t.m.ctx 0 0).getX 5 == 0 && (t.m.ctx 0 0).pc == 0) = true := by
  decide +kernel
theorem test_control_network :
    (let m := netMod fun n => { n with cn := [{ op := .doorbell, dst := 1, src := some 8 }] };
      m.iodReach 0 m.portIod.val 1 = true ∧ m.servedBy 1 = some 1 ∧ good (exec (.cnDoorbell 1) (st m)) (fun t => t.m.net.cn == [] &&
        [0, 2, 9].map t.m.cc == [1, 2, 3]) = true) ∧
    (let m := { ready1 with halves := [4, 5, 6, 7].map fun h => (h, { state := 4 }) };
      m.iodReach 0 m.portIod.val 1 = false ∧ leaves (exec (.cnDoorbell 1) (st m)) (st m) m = true) ∧
    good (exec (.cnCmd 0) (st { ready1 with
      host := { cmds := [(1, { fn := 1, qp := none, iod := 0, gen := 1, ord := 1, slots := [] })] }, net := { cn := [{ op := .cmd, dst := 0, a := 1 }] } })) (fun t =>
        t.m.host.cmds.map (fun c => c.2.handed) == [true]) = true ∧
    good (exec (.cnCmpl 0) (st (netMod fun n => { n with cn := [{ op := .cmpl, dst := 0, a := 1 }] }))) (fun t => t.m.net.cn == []) = true ∧
    good (exec (.cnEvent 0) (st (ready1.raise evDbgHalt 0 1 0))) (fun t => t.m.kod.evseq == 1 && t.m.kod.events.map Event.seq == [1]) = true ∧
    good (exec (.cnTaskend 0 0) (st { ready1 with
      ctxs := [(0, { ctx1 with ending := some stOK })], net := { cn := [{ op := .taskend, dst := 0, a := 0, b := 1 }] } })) (fun t =>
        (t.m.ctx 0 0).st == .empty && (t.m.tile 0).win.getD 0 (0, 0) == (0, 0)) = true ∧
    good (exec (.cnFault 0 0) (st { ready1 with
      ctxs := [(0, { ctx1 with ending := some stARITH, mrec := some { col := 3 } })], net := { cn := [{ op := .fault, dst := 0, a := 0, b := 1 }] } })) (fun t =>
        (t.m.ctx 0 0).st == .empty && t.m.sched.ready.map Task.avoid == [[0]]) = true := by decide +kernel
def key0 : Nat := saddleKey 0 0
theorem test_eviction_and_restore :
    good (exec (.contextEvictable 0 0) (st (blockedOn (.sem 7 3 1)))) (fun t => (t.m.ctx 0 0).evictable) = true ∧
    good (exec (.evictionReceived 0 0) (st { blockedOn (.sem 7 3 1) with sched := { evicting := [(key0, .task task2)] } })) (fun t => (t.m.ctx 0 0).st == .saving) = true ∧
    good (exec (.saveDone 0 0) (st { ready1 with
      parts := {}, ctxs := [(0, { ctx1 with st := .saving, wait := some (.sem 7 3 1) })], sched := { evicting := [(key0, .task task2)] } })) (fun t =>
        (t.m.ctx 0 0).st == .empty && t.m.sched.saved.map (fun e => e.2.parked) == [true] && t.m.sched.ready == [task2]) = true ∧
    good (exec (.restoreDone 0 0 .ok) (st { ready1 with
      ctxs := [(0, { st := .loading })], sched := { restoring := [(key0, 0)], saved := [(0, { ctx := { ctx1 with wait := some (.sem 7 3 1) }, slot := 0, iod := 0 })] } })) (fun t =>
        (t.m.ctx 0 0).st == .blocked && (t.m.ctx 0 0).uid == 1 && t.m.sched.saved.isEmpty) = true ∧
    good (exec (.parkedWaitDone 0) (st { copied { copy1 with status := some stOK } with
      sched := { saved := [(0, { ctx := { ctx1 with tags := [(7, 1)], wait := some (.copy 7 1) }, slot := 0, iod := 0, parked := true })] } })) (fun t =>
        t.m.copies.isEmpty && t.m.sched.saved.map (fun e => (e.2.parked, e.2.ctx.getX 1)) == [(false, 0)]) = true ∧
    good (exec (.interfWindowEnd 1 1 2) (st ready1)) (fun t => t.m.sched.interf.has 1) = true := by decide +kernel
/-- 13 R384: W = 50, A = 150 give 512; at A = W + 1 the value sticks. -/
theorem test_interference_window :
    good (exec (.interfWindowEnd 1 150 50) (st (ready1.setPar (pSchInterfThr + 1) 511))) (fun t => t.m.sched.interf == [(1, 512)] && t.m.kod.evq.length == 1) = true ∧
    good (exec (.interfWindowEnd 1 150 50) (st (ready1.setPar (pSchInterfThr + 1) 512))) (fun t => t.m.sched.interf == [(1, 512)] && t.m.kod.evq == []) = true ∧
    good (exec (.interfWindowEnd 1 16777216 16777215) (st ready1)) (fun t => t.m.sched.interf == [(1, 0xFFFFFFFF)]) = true ∧
    good (exec (.interfWindowEnd 1 5 5) (st ready1)) (fun t => t.m.sched.interf == [(1, 0)]) = true := by decide +kernel

/-! External memory. The line at 2^26 is of region 0: plain, mirrored in region 1, or of parity group 1. -/

def lineA : Nat := 2 ^ 26
def emMod (r0 r1 : BitVec 32) (k : Stack) : Mod := { ready1 with mem := { regions := [(0, r0), (1, r1)], stackTab := [(0, k)] } }
def mirror : Mod := emMod 0x20002000 0x40000000 {}
def parity : Mod := emMod 0x60002000 0x8F002000 {}
theorem test_memory_writes :
    [emMod 0 0 {}, mirror, parity].all (fun m => m.mem.em.wf && m.lineUp lineA && !m.poisoned lineA &&
      good (exec (.memWrite lineA 5 true) (st m)) fun t => t.m.emLine lineA == 5 && t.m.poisoned lineA && t.m.emLine (lineA + 128) == 0 &&
        (t.m.memReadLine lineA .ok .ok 0).1 == ⟨5, true⟩ && t.m.mem.em.wf) = true ∧
    sameOffset (partnerOf (mirror.region (regionOf lineA))) lineA = 2 ^ 30 + lineA ∧ mirror.lineUp (2 ^ 30 + lineA) = true ∧
    good (exec (.memWrite lineA 5 false) (st mirror)) (fun t => t.m.emLine (2 ^ 30 + lineA) == 5) = true ∧
    good (exec (.memWrite lineA 5 false) (st { parity with mem := { parity.mem with em := [(lineA, 1), (2 ^ 30 + lineA, 2)] } })) (fun t =>
      t.m.emLine (2 ^ 30 + lineA) == 6) = true ∧
    (emMod 0 0 { state := 4 }).lineUp lineA = false ∧
    good (exec (.memWrite lineA 5 false) (st (emMod 0 0 { state := 4 }))) (fun t => t.m.emLine lineA == 0 && (t.m.stack 0).lostMap.has 64) = true := by
  decide +kernel
theorem test_memory_reads :
    good (exec (.memRead lineA .ok .ok 0) (st (emMod 0 0 {}))) (fun t => (t.m.counter kMemRdBytes 0).value == 128) = true ∧
    good (exec (.memRead lineA .corrected .ok 71) (st (emMod 0 0 {}))) (fun t => (t.m.counter kMemRdBytes 0).value == 128) = true ∧
    (emMod 0 0 {}).durable lineA = false ∧ ((emMod 0 0 {}).memReadLine lineA .uncorrectable .ok 0).1 = ⟨0, true⟩ ∧
    good (exec (.memRead lineA .uncorrectable .ok 0) (st (emMod 0 0 {}))) (fun t => (t.m.counter kMemUe 0).value == 1) = true ∧
    ((emMod 0 0 {}).setPoison lineA true).poisoned lineA = true ∧
    good (exec (.memRead lineA .ok .ok 0) (st ((emMod 0 0 {}).setPoison lineA true))) (fun t => (t.m.counter kMemPoisonRd 0).value == 1) = true ∧
    (emMod 0 0 {}).foster (emKeyOf lineA) = none ∧
    leaves (exec (.scrub lineA .ok .ok 0) (st (emMod 0 0 {}))) (st (emMod 0 0 {})) (emMod 0 0 {}) = true ∧
    good (exec (.scrub lineA .uncorrectable .ok 0) (st (emMod 0 0 {}))) (fun t => t.m.poisoned lineA) = true ∧
    kindOf ((emMod 0x80000000 0 {}).region (regionOf lineA)) = kPARITYP ∧ (emMod 0x80000000 0 {}).lineUp lineA = true ∧
    good (exec (.parityDelta lineA 5) (st (emMod 0x80000000 0 {}))) (fun t => t.m.emLine lineA == 5) = true ∧
    faults (exec (.memRead paLimit .ok .ok 0) (st ready1)) paLimit = true ∧
    good (exec (.memRead (paLimit - 1) .ok .ok 0) (st ready1)) (fun _ => true) = true ∧
    good (exec (.refresh 15) (st ready1)) (fun t => (t.m.stack 15).refreshes == 1) = true := by decide +kernel
/-- A record that makes region 3 a spare. -/
def spare3 : List Byte := [0, 0, 0, 0xA0, 0, 0, 0x60, 0]
def stacked (k : Stack) : Mod := { ready1 with mem := { stackTab := [(0, k)] } }
def chans1 (c : Chan) : Mod := { ready1 with mem := { chans := [(0, c)] } }
theorem test_memory_upkeep :
    (recordsOf 8 spare3).all regionRecOk = true ∧ regionMapOk (applyRegions (recordsOf 8 spare3) []) = true ∧
    good (exec (.memRegionSet spare3) (st ready1)) (fun t => t.m.kod.lastAct == some (pMemRegionSet, esRUNNING) && formingOf (t.m.region 3)) = true ∧
    good (exec .regionFormingDone (st { ready1 with mem := { regions := [(3, 0xB0000000)] } })) (fun t => t.m.region 3 == 0xA0000000) = true ∧
    good (exec (.memTrainStepDone 0 0 true [] [] false) (st ready1)) (fun t => (t.m.chan 0 0).step == 1) = true ∧
    good (exec (.memTrainStepDone 0 0 false [] [] false) (st ready1)) (fun t => (t.m.chan 0 0).attempts == 1) = true ∧
    good (exec (.memTrainStepDone 0 0 false [] [] false) (st (chans1 { attempts := 2 }))) (fun t => (t.m.stack 0).state == 4 &&
      t.m.kod.evq.map Event.code == [evMemTrainFail, evMemStackFail]) = true ∧
    tgAllowed {} = true ∧
    good (exec (.memTgStart 0 0 true) (st ready1)) (fun t => (t.m.chan 0 0).tgStat == 0x8000000000000000) = true ∧
    leaves (exec (.memTgStart 0 0 false) (st ready1)) (st ready1) ready1 = true ∧
    good (exec (.memTgStop 0 0) (st (chans1 { tgStat := 0x8000000000000000 }))) (fun t => (t.m.chan 0 0).tgStat == 0) = true ∧
    good (exec (.memTgDone 0 0 0x100000000 0 3) (st (chans1 { tgStat := 0x8000000000000000 }))) (fun t =>
      (t.m.chan 0 0).tgStat.getLsbD 62 && (t.m.chan 0 0).tgStat.toNat % 2 ^ 32 == 0xFFFFFFFF && (t.m.chan 0 0).tgLanes == 3) = true := by decide +kernel
theorem test_stacks :
    good (exec (.stackThermalSample (List.replicate 16 104)) (st ((stacked { state := 1, hiRun := 1 }).setPar pMemTHigh 85))) (fun t =>
      (t.m.stack 0).state == 2 && (t.m.stack 0).refresh2x && t.m.kod.evq.any fun e => e.code == evMemThermHigh && e.source == 0) = true ∧
    good (exec (.stackThermalSample (List.replicate 16 105)) (st (stacked { state := 1 }))) (fun t => (t.m.stack 0).crit &&
      t.m.kod.evq.any fun e => e.code == evMemThermCrit && e.source == 0) = true ∧
    good (exec (.stackThermalSample (List.replicate 16 105)) (st (stacked { state := 4 }))) (fun t => t.m.stack 0 == { state := 4, temp := 105 }) = true ∧
    good (exec (.critParkDone 0) (st (stacked { state := 2, crit := true }))) (fun t => (t.m.stack 0).state == 3 && (t.m.stack 0).selfRefresh) = true ∧
    (stacked { state := 5 }).nextDurable 0 0 = none ∧
    good (exec (.resyncEnd 0) (st (stacked { state := 5, refresh2x := true }))) (fun t => (t.m.stack 0).state == 2) = true ∧
    good (exec (.stackCmdTimeout 0 0) (st (stacked { state := 1 }))) (fun t => (t.m.stack 0).state == 4 && t.m.kod.evq.map Event.code == [evMemStackFail]) = true ∧
    good (exec (.rebuildStart 0) (st (stacked { state := 4 }))) (fun t => (t.m.stack 0).rebuild == some 0) = true ∧
    good (exec (.rebuildStep 0 .ok) (st (stacked { state := 4, rebuild := some 0 }))) (fun t => (t.m.stack 0).rebuild == none && (t.m.stack 0).rebuilt) = true := by
  decide +kernel
/-- Region 0 is mirrored in region 1, region 2 is spare; stack 0 failed, and its first line holds 7 in the copy. -/
def rebuilding : Mod := { ready1 with mem := {
  em := [(2 ^ 30, 7)], regions := [(0, 0x20002000), (1, 0x40000000), (2, 0xA0000000)], stackTab := [(0, { state := 4, rebuild := some 0 })] } }
theorem test_rebuild :
    rebuilding.nextDurable 0 0 = some 0 ∧ (rebuilding.standins 0 0).length = 2 ∧ rebuilding.lineUp (2 ^ 30) = true ∧ rebuilding.poisoned 0 = false ∧ rebuilding.poisoned (2 ^ 30) = false ∧ rebuilding.mem.em.wf = true ∧
    good (exec (.rebuildStep 0 .ok) (st rebuilding)) (fun t => (rebuilding.standins 0 0).all (fun a => t.m.emLine a == 7) &&
      (t.m.stack 0).rebuild == some 128) = true := by decide +kernel

/-! The sequence engine. -/

/-- A command of partition 1 with an opcode and its operand words, handed to its unit. -/
def hcmd (op : Nat) (w : List Nat) : HCmd := {
  fn := 1, qp := none, iod := 0, gen := 1, ord := 1, slots := [BitVec.ofNat 1024 (op + w.zipIdx.foldl (fun n p => n + p.1 * 2 ^ (64 * p.2 + 128)) 0)], handed := true }
/-- The module with command 1 waiting to start, and a slot, an entry and a page pool of the sequence engine. -/
def seqMod (c : HCmd) (f : SeqS → SeqS) : Mod := ({ ready1 with host := { cmds := [(1, c)] } } : Mod).updSeq f
def ended (o : Out) (code spec : Nat) (p : Mod → Bool) : Bool :=
  good o fun t => match t.m.cmd? 1 with
    | some c => c.ended && c.seqrc == code && c.spec == spec && p t.m
    | none => false
/-- H = 1, D = 64, FP16 keys: a slot descriptor with nothing reserved, in two modes. -/
def slotD : BitVec 512 := BitVec.ofNat 512 (6 * 2 ^ 11 + 2 * 2 ^ 14 + 255 * 2 ^ 40)
def slot1 : Slot := ⟨1, slotD⟩
def ent1 (n : Fin 8) : SeqEnt := { state := n, gen := 1, slot := 3, part := 1, pos := 10, pend := 20, pages := 1 }
def withEnt (n : Fin 8) (x : SeqS) : SeqS := { x with inService := true, ents := [(5, ent1 n)], slots := [(3, slot1)], ready := [(12, [5])] }
theorem test_sequence_commands :
    ((seqMod (hcmd 0x10 [3, 0, slotD.toNat]) id).startable 1 0x10).isSome = true ∧ slotRefusal slotD = none ∧
    slotRefusal (slotD ||| (1 <<< 511)) = some 144 ∧ slotRefusal 0 = some 11 ∧
    ended (exec (.slotSet 1) (st (seqMod (hcmd 0x10 [3, 0, slotD.toNat]) id))) scDONE 0 (fun m => m.seq.slots == [(3, slot1)]) = true ∧
    ended (exec (.slotSet 1) (st (seqMod (hcmd 0x10 [3, 0, slotD.toNat]) (withEnt 1)))) scSTATE 0 (fun m => m.seq.slots == [(3, slot1)]) = true ∧
    good (exec (.slotSet 1) (st (seqMod (hcmd 0x10 [3, 0, 0]) id))) (fun t => t.m.host.cmds.all fun c => c.2.ended && c.2.status == stARITH) = true ∧
    ended (exec (.slotClear 1) (st (seqMod (hcmd 0x11 [3]) fun x => { x with slots := [(3, slot1)] }))) scDONE 0 (fun m => m.seq.slots.isEmpty) = true ∧
    ended (exec (.seqAdmit 1) (st ((seqMod (hcmd 0x12 [3, 0, 20]) (fun x => { x with
      inService := true, slots := [(3, slot1)], extents := [⟨1024, 4, 1, 2, true, []⟩, ⟨1028, 4, 1, 2, false, []⟩] })).setPar (pSeqQuota + 1) 1))) scDONE
        (2 ^ 20 + 2 ^ 19) (fun m => (m.ent (2 ^ 19)).state == 1 && (m.ent (2 ^ 19)).pend == 20 && (m.ent (2 ^ 19)).root == 1024 && m.listOf 3 2 == [2 ^ 19]) = true ∧
    ended (exec (.seqAppend 1) (st (seqMod (hcmd 0x13 [2 ^ 20 + 5 + 2 ^ 32]) (withEnt 3)))) scDONE 0 (fun m => (m.ent 5).state == 2 && (m.ent 5).pend == 11) = true ∧
    ended (exec (.seqAppend 1) (st (seqMod (hcmd 0x13 [2 ^ 20 + 5]) (withEnt 2)))) scBUSY 0 (fun m => (m.ent 5).state == 2) = true ∧
    ended (exec (.seqPark 1) (st (seqMod (hcmd 0x14 [2 ^ 20 + 5]) (withEnt 2)))) scDONE 0 (fun m => (m.ent 5).state == 4 && m.listOf 3 0 == []) = true ∧
    ended (exec (.seqResume 1) (st (seqMod (hcmd 0x15 [2 ^ 20 + 5]) (withEnt 4)))) scDONE 0 (fun m => (m.ent 5).state == 2 && m.listOf 3 0 == [5]) = true ∧
    good (exec (.seqRetire 1) (st (seqMod (hcmd 0x16 [2 ^ 20 + 5]) (withEnt 3)))) (fun t => (t.m.ent 5).state == 5 && (t.m.ent 5).reason == 4 &&
      t.m.seq.retiring == [(5, 1)]) = true ∧
    ended (exec (.seqQuery 1) (st (seqMod (hcmd 0x17 [2 ^ 20 + 5]) (withEnt 3)))) scDONE (3 + 10 * 2 ^ 7 + 20 * 2 ^ 32 + 2 ^ 88) (fun _ => true) = true ∧
    ended (exec (.seqQuery 1) (st (seqMod (hcmd 0x17 [2 * 2 ^ 20 + 5]) (withEnt 3)))) scNOSEQ 0 (fun m => (m.counter kSeqNoseq 0).value == 1) = true := by
  decide +kernel
def item1 : StepItem := { ent := 5, gen := 1, kind := 0, pos := 10, ntok := 1, result := 2 ^ 26 }
def run1 (t : StepItem) : StepRun := { slot := 3, part := 1, items := [t], order := [(false, 0)], quarters := [0], resva := 1 }
def stepping (t : StepItem) (n : Fin 8) (x : SeqS) : SeqS := { withEnt n x with steps := [(1, run1 t)] }
theorem test_held_and_steps :
    good (exec (.seqPark 1) (st (seqMod (hcmd 0x14 [2 ^ 20 + 5]) (stepping item1 2)))) (fun t => t.m.seq.held == [1] && (t.m.ent 5).state == 2) = true ∧
    good (exec (.stepCmd 1) (st (seqMod (hcmd 2 [3, 0, 0, 1]) fun x => { x with slots := [(3, slot1)] }))) (fun t =>
      t.m.seq.steps == [(1, { slot := 3, part := 1, items := [], resva := 1 })]) = true ∧
    good (exec (.stepEnd 1) (st (seqMod { hcmd 2 [3, 0, 0, 1] with started := true, slots := [BitVec.ofNat 1024 (2 + 2 ^ 25)] } (stepping { item1 with gen := 2 } 2)))) (fun t =>
      t.m.seq.steps.isEmpty && t.m.host.cmds.all fun c => c.2.ended && c.2.spec == 1 + 2 ^ 32 && c.2.recs == [stepRec (2 * 2 ^ 20 + 5) 0 10 false true false 0]) = true := by
  decide +kernel
/-- Partition 1 maps address 2^26 with a leaf of 1 GiB; the word there is 7 with bit 34 set. -/
def mapped (m : Mod) : Mod := { m with
  mem := { em := [(2 ^ 26, 7), (2 ^ 26 + 4, 4), (2 ^ 27, 1), (2 ^ 27 + 1, 0x10), (2 ^ 27 + 3, 8), (2 ^ 27 + 4096, 0x1F)],
           emKey := [(2 ^ 19, (1, 0))], frameTag := [(1024, 1)] }
  parts := { parts := [(1, { st := .active, tgmask := 3, gen := 1, waymask := 0xFFFF, ptroot := 2 ^ 15 })] } }
def decoding : Mod := mapped (seqMod { hcmd 2 [] with started := true } (stepping item1 3))
def selecting (n : Option (Nat × List Byte)) : Mod := ({ (mapped (seqMod { hcmd 2 [] with started := true } (stepping { item1 with selbuf := 2 ^ 26, selecting := n } 3))) with
  net := { selGrants := [selKey 1 0] } })
theorem test_sequence_steps :
    (decoding.endItem 1 1 slot1 item1).1 = stepRec (2 ^ 20 + 5) 7 11 true false false 0 ∧
    ((decoding.endItem 1 1 slot1 item1).2.ent 5).pos = 11 ∧ ((decoding.endItem 1 1 slot1 item1).2.ent 5).generated = 1 ∧
    good (exec (.selectionStart 1 0) (st (selecting none))) (fun t => t.m.net.selGrants == [] &&
      t.m.seq.steps.all fun r => r.2.items.all fun i => match i.selecting with
        | some l => l.1 == 7 && l.2.length == 128
        | none => false) = true ∧
    good (exec (.selectionMerge 1 0) (st (selecting (some (0, []))))) (fun t => t.m.seq.steps.all fun r => r.2.items.all fun i => i.selecting.isNone) = true ∧
    (ready1.selectFor slot1 {} 0 1 0 []).1 = [0] ∧
    good (exec (.retireDone 5) (st (seqMod { hcmd 0x16 [2 ^ 20 + 5] with started := true } fun x => { withEnt 5 x with ready := [], retiring := [(5, 1)] }))) (fun t =>
      (t.m.ent 5).state == 0 && (t.m.ent 5).gen == 2 && t.m.seq.retiring == [] && t.m.host.cmds.all fun c => c.2.ended) = true := by decide +kernel
def pool1 : List Byte := leBytes (1024 + 2 ^ 32 + 2 ^ 64 + 2 * 2 ^ 71) 16
theorem test_sequence_pools :
    (ready1.updSeq fun x => { x with initing := true }).seq.initing = true ∧
    (({ ready1 with mem := { regions := [(1, 0x20004000)] } } : Mod).setPar pSeqAstBase (2 ^ 30)).astInit.1 = esRUNNING ∧
    ready1.astInit.1 = esSTATE ∧
    (({ ready1 with mem := { frameTag := [(1024, 1)] } } : Mod).poolRecord (leNat pool1)).isSome = true ∧
    good (exec (.seqPoolSet pool1) (st { ready1 with mem := { frameTag := [(1024, 1)] } })) (fun t => t.m.seq.extents == [⟨1024, 1, 1, 2, false, []⟩] &&
      t.m.kod.lastAct == some (pSeqPoolSet, esOK)) = true := by decide +kernel

/-! The host port. -/

def cmdMod (c : HCmd) : Mod := seqMod c id
def endedOk (o : Out) (p : Mod → Bool) : Bool := ended o 0 0 p
def stat (o : Out) (x : Nat) : Bool := good o fun t => match t.m.cmd? 1 with
  | some c => c.ended && c.status == x
  | none => false
/-- A partition's table as in `mapped`; a task descriptor at 2^26. -/
def launchable : Mod := let m := mapped (cmdMod (hcmd 1 [2 ^ 26, 2]))
  m.updMem fun e => { e with em := [(2 ^ 26 + 7, 0x40), (2 ^ 26 + 35, 0x44)] ++ e.em.drop 2 }
theorem test_host_commands :
    endedOk (exec (.nop 1) (st (cmdMod (hcmd 0 [])))) (fun m => m.net.cn == [{ op := .cmpl, dst := 0, a := 1 }]) = true ∧
    endedOk (exec (.mmuInval 1) (st (cmdMod (hcmd 0x30 [])))) (fun _ => true) = true ∧
    stat (exec (.launch 1) (st (mapped (cmdMod (hcmd 1 [2 ^ 26]))))) stARITH = true ∧
    good (exec (.launch 1) (st launchable)) (fun t => t.m.sched.ready.map Task.a1 == [0, 1, 2] && t.m.host.cmds.all fun c => c.2.tasks == 3) = true ∧
    (cmdMod (hcmd 3 [])).copyRefusal (hcmd 3 []) = none ∧ (cmdMod (hcmd 3 [])).copyHalf 0 = some 0 ∧
    good (exec (.copyCmd 1) (st (cmdMod (hcmd 3 [])))) (fun t => t.m.copies.length == 1 && t.m.host.cmds.all fun c => c.2.copy.isSome) = true ∧
    (cmdMod (hcmd 3 [1])).copyRefusal (hcmd 3 [1]) = some 128 ∧ stat (exec (.copyCmd 1) (st (cmdMod (hcmd 3 [1])))) stARITH = true ∧
    endedOk (exec (.pwrite 1) (st (cmdMod (hcmd (4 + 2 ^ 16) [2 ^ 62, 1, 0xAB])))) (fun m => m.cache.net.length == 0) = true ∧
    endedOk (exec (.pwrite 1) (st (mapped (cmdMod (hcmd (4 + 2 ^ 16) [2 ^ 26 + 8, 2, 0xAB]))))) (fun m => (m.emReadN (.nc (feAgent 0)) 1 (2 ^ 26 + 8) 1 7).1.bytes == [0xAB]) = true := by
  decide +kernel
theorem test_pins_and_names :
    good (exec (.pin 1) (st (cmdMod (hcmd 0x20 [1])))) (fun t => t.m.host.cmds.all fun c => c.2.status == stPINQUOTA) = true ∧
    good (exec (.pin 1) (st ((cmdMod (hcmd 0x20 [1])).setPar (pCchPinQuota + 1) 2))) (fun t => t.m.cache.extents.map (fun e => (e.base, e.units, e.order)) == [(0, 1, 0), (1, 1, 1)] &&
      t.m.host.cmds.all fun c => c.2.ended && c.2.spec == 2 ^ 21) = true ∧
    endedOk (exec (.unpin 1) (st (cmdMod (hcmd 0x21 [0])))) (fun m => m.cache.extents == []) = true ∧
    endedOk (exec (.unpin 1) (st (cmdMod (hcmd 0x21 [2 ^ 21])))) (fun m => m.cache.extents.length == 1 && (m.part 1).viol == 1) = true ∧
    endedOk (exec (.barAlloc 1) (st (cmdMod (hcmd 0x22 [7 + 3 * 2 ^ 16])))) (fun m => (m.bar 7).count1 == 3) = true ∧
    endedOk (exec (.barAlloc 1) (st (cmdMod (hcmd 0x22 [4095])))) (fun m => (m.part 1).viol == 1) = true ∧
    tagValid 0x80 = false ∧ stat (exec (.frameTag 1) (st (cmdMod (hcmd 0x31 [1024, 1 + 0x80 * 2 ^ 32])))) stARITH = true ∧
    tagValid 1 = true ∧ endedOk (exec (.frameTag 1) (st (cmdMod (hcmd 0x31 [1024, 1 + 2 ^ 32])))) (fun m => m.mem.frameTag == [(1024, 1)]) = true := by decide +kernel
def qp1 (f : PartId) : Qp := { iod := 0, fn := f, sqBase := 0, cqBase := 0, sqLog2 := 6, cqLog2 := 6 }
def withQp (x : Qp) (m : Mod) : Mod := m.updHost fun h => { h with qps := [(9, x)] }
theorem test_queue_pairs :
    stat (exec (.qpCreate 1) (st (cmdMod (hcmd 0x38 [0, 0, 6 + 6 * 2 ^ 5])))) stARITH = true ∧
    good (exec (.qpCreate 1) (st ((cmdMod (hcmd 0x38 [4096, 0, 6 + 16 * 2 ^ 5])).setPar (pHifQpQuota + 1) 1))) (fun t =>
      t.m.host.qps.map (fun e => (e.1, e.2.sqBase, e.2.cqLog2)) == [(0, 4096, 16)]) = true ∧
    endedOk (exec (.qpDelete 1) (st (withQp (qp1 1) (cmdMod (hcmd 0x39 [9]))))) (fun m => m.host.qps.all fun e => e.2.deleting) = true ∧
    endedOk (exec (.qpRebind 1) (st (withQp { qp1 1 with bound := false, sqTail := 3 } (cmdMod (hcmd 0x3A [9, 64, 0, 16 + 6 * 2 ^ 5]))))) (fun m =>
      m.host.qps.all fun e => e.2.bound && e.2.sqTail == 0 && e.2.sqLog2 == 16 && e.2.sqBase == 64) = true ∧
    endedOk (exec (.resultFetch 1) (st (withQp (qp1 1) (cmdMod (hcmd 0x3B [9]))))) (fun _ => true) = true ∧
    endedOk (exec (.resultFetch 1) (st ((withQp (qp1 1) (cmdMod (hcmd 0x3B [9, 100]))).updHost fun h => { h with retained := [{ cmd := 8, qp := 9, jseq := some 0, fn := 1, size := 1, bytes := [(5, 7)] }] })))
      (fun m => m.host.cmds.all fun c => c.2.hmUncertain) = true ∧
    endedOk (exec (.resultAck 1) (st ((withQp (qp1 1) (cmdMod (hcmd 0x3C [9]))).updHost fun h => { h with retained := [{ cmd := 8, qp := 9, jseq := some 0, fn := 1, size := 1 }] })))
      (fun m => m.host.retained == []) = true ∧
    [Instr.qpDelete 1, .qpRebind 1, .resultFetch 1, .resultAck 1].zipIdx.all (fun i =>
      endedOk (exec i.1 (st (withQp (qp1 2) (cmdMod (hcmd (0x39 + i.2) [9]))))) fun m => (m.part 1).viol == 1) = true := by decide +kernel
def done1 : HCmd := { hcmd 0 [] with qp := some 9, ended := true, started := true }
theorem test_completions :
    done1.workOver = true ∧
    good (exec (.commandComplete 1) (st (withQp (qp1 1) (cmdMod { done1 with gen := 0 })))) (fun t => t.m.host.cmds.isEmpty && (t.m.counter kHifGenStale 0).value == 1) = true ∧
    good (exec (.commandComplete 1) (st (withQp (qp1 1) (cmdMod { done1 with hmUncertain := true, slots := [0x100] })))) (fun t => t.m.host.flush && t.m.host.cmds.length == 1) = true ∧
    good (exec (.commandComplete 1) (st ((withQp (qp1 1) (cmdMod done1)).updHost fun h => { h with portState := 2 }))) (fun t => t.m.host.cmds.isEmpty &&
      t.m.host.qps.all fun e => e.2.jseq == 1 && e.2.journal.length == 1) = true ∧
    good (exec .flushReturn (st ((cmdMod { done1 with hmUncertain := true, flushing := true }).updHost fun h => { h with flush := true }))) (fun t => !t.m.host.flush &&
      t.m.host.cmds.all fun c => !c.2.hmUncertain) = true ∧
    good (exec (.tlimitExpiry 1) (st (cmdMod { hcmd 0 [] with handed := false }))) (fun t => t.m.host.cmds.all fun c => c.2.ended && c.2.status == stTIMEOUT) = true ∧
    good (exec (.msixCoalesceTimer 9) (st (withQp { qp1 1 with unann := 2, vec := 3 } ready1))) (fun t => t.m.host.qps.all (fun e => e.2.unann == 0) &&
      (t.m.fn 1).pba.has 3) = true := by decide +kernel
/-- 18 R522: the record of command 1 takes slot 0 of its front end's area; with a base it stands in memory; with all slots in use it waits, and a
command that completes lets one in. -/
def records (n : Nat) : Tab HCmd := (List.range n).map fun i => (i + 2, { hcmd 0 [] with recSlot := some i })
def recording (n : Nat) : Mod := { ready1 with host := { cmds := records n } }
theorem records_length (n : Nat) : ((recording n).cmdRecords 0).length = n := by
  have h (l : List Nat) : ((l.map fun i => ((i + 2, { hcmd 0 [] with recSlot := some i }) : Nat × HCmd)).filter
      fun e => e.2.iod.val == 0).filterMap (fun e => e.2.recSlot) = l := by
    induction l with
    | nil => rfl
    | cons i r ih => simpa [hcmd] using ih
  show (List.filterMap _ (List.filter _ (records n))).length = n
  rw [records, h, List.length_range]
theorem test_records :
    good (exec (.commandFetchDone 1 none [0]) (st (ready1.updFn 1 fun _ => { aqEn := true, sqTail := 1 }))) (fun t => t.m.host.cmds.map (fun c => c.2.recSlot) == [some 0]) = true ∧
    (let m := ((cmdMod (hcmd 0 [])).setPar pFtCfeStateBase (2 ^ 26)).recordCmd 1
     (m.host.cmds.map fun c => c.2.recSlot) = [some 0] ∧ (m.emLine (2 ^ 26) != 0 || m.cache.lines.length != 0) = true) ∧
    ((cmdMod { hcmd 0 [] with unrecorded := true }).recordWaiting 0).host.cmds.map (fun c => c.2.recSlot) = [some 0] := by decide +kernel
def fnMod (x : Fn) : Mod := ready1.updFn 1 fun _ => x
theorem test_host_port :
    ready1.hears 1 = true ∧
    good (exec (.sqDoorbell 1 9 63) (st (withQp (qp1 1) ready1))) (fun t => t.m.host.qps.map (fun e => e.2.sqTail) == [63]) = true ∧
    good (exec (.sqDoorbell 1 9 4) (st (withQp { qp1 1 with sqTail := 5 } ready1))) (fun t => t.m.host.qps.map (fun e => e.2.sqTail) == [5] && (t.m.counter kHifDbBad 0).value == 1) = true ∧
    good (exec (.cqDoorbell 1 9 2) (st (withQp { qp1 1 with cqTail := 2 } ready1))) (fun t => t.m.host.qps.map (fun e => e.2.cqHead) == [2]) = true ∧
    good (exec (.sqDoorbell 1 9 1) (st (withQp (qp1 2) ready1))) (fun t => (t.m.part 1).viol == 1) = true ∧
    good (exec (.cqDoorbell 1 9 1) (st (withQp { qp1 1 with iod := 3 } ready1))) (fun t => t.m.net.cn == [{ op := .doorbell, dst := 3, a := 9, b := 1, c := 3, src := some 8 }]) = true ∧
    good (exec (.adminSqDoorbell 1 63) (st (fnMod { aqEn := true }))) (fun t => (t.m.fn 1).sqTail == 63) = true ∧
    good (exec (.adminCqDoorbell 1 1) (st (fnMod { aqEn := true, cqTail := 1 }))) (fun t => (t.m.fn 1).cqHead == 1) = true ∧
    good (exec (.commandFetchDone 1 none [0]) (st (fnMod { aqEn := true, sqTail := 1 }))) (fun t => t.m.host.cmds.map (fun c => (c.1, c.2.ended)) == [(1, false)] &&
      t.m.net.cn == [{ op := .cmd, dst := 0, a := 1 }]) = true ∧
    good (exec (.commandFetchDone 1 none [0x7F]) (st (fnMod { aqEn := true, sqTail := 1 }))) (fun t => t.m.host.cmds.map (fun c => (c.2.ended, c.2.status)) == [(true, stARITH)]) = true ∧
    good (exec .pcieHotReset (st (withQp { qp1 1 with sqTail := 3 } ready1))) (fun t => t.m.host.portState == 2 && t.m.host.cause == 2 &&
      t.m.host.qps.all fun e => !e.2.bound && e.2.sqTail == 0) = true ∧
    good (exec (.hifPortSelect 1) (st ready1)) (fun t => t.m.host.portB && t.m.host.cause == 4) = true ∧
    good (exec (.hifPortSelect 2) (st ready1)) (fun t => t.m.kod.lastAct == some (pHifPortSelect, esRANGE)) = true ∧
    good (exec (.hifAttach 0) (st (ready1.updHost fun h => { h with portState := 2, portB := true }))) (fun t => t.m.host.portState == 1) = true ∧
    good (exec (.hifAqEn 1) (st ready1)) (fun t => (t.m.fn 1).aqEn) = true ∧
    good (exec (.flr 1) (st ready1)) (fun t => (t.m.part 1).st == .disabling) = true ∧
    good (exec .vfEnableClear (st ready1)) (fun t => (t.m.part 1).st == .disabling && (t.m.part 1).gen == 2 && (t.m.fn 1).disabled && (t.m.part 2).st == .none) = true := by
  decide +kernel

/-! Partitions. -/

def partBlob (tg : Nat) (p : Nat) : List Byte := leBytes (p + tg * 2 ^ 128) 32
theorem test_partitions :
    ready1.partRecOk 0 (partRec (leNat (partBlob 4 2))) = true ∧
    good (exec (.partCreate (partBlob 4 2)) (st ready1)) (fun t => (t.m.part 2).st == .active && t.m.mem.keyGen.getD 2 0 == 1 && t.m.mod.mstate == 5) = true ∧
    good (exec (.partCreate (partBlob 2 2)) (st ready1)) (fun t => t.m.kod.lastAct == some (pPartCreate, esSTATE) && (t.m.part 2).st == .none) = true ∧
    good (exec (.partCreate (partBlob 0 2)) (st ready1)) (fun t => t.m.kod.lastAct == some (pPartCreate, esSTATE)) = true ∧
    good (exec (.partCreate (partBlob 4 2)) (st ready1)) (fun t => good (exec (.partCreate (partBlob 12 2)) t) fun u => (u.m.part 2).tgmask == 12) = true ∧
    good (exec (.partDisable 128) (st ready1)) (fun t => t.m.kod.lastAct == some (pPartDisable, esRANGE)) = true ∧
    good (exec (.partDisable 127) (st ready1)) (fun t => t.m.kod.lastAct == some (pPartDisable, esSTATE)) = true ∧
    good (exec (.partDisable 1) (st ready1)) (fun t => (t.m.part 1).st == .disabling && (t.m.part 1).gen == 2) = true ∧
    good (exec (.shrSet (leBytes (15 + 2048 * 2 ^ 32 + 2 ^ 64) 16)) (st ready1)) (fun t => t.m.parts.shr == [(15, (1, 2048, 1))] && t.m.mem.frameTag == [(2048, 0x8F)]) = true ∧
    (let m : Mod := ready1.setShr 15 (some (1, 2048, 1))
     good (exec (.shrSet (leBytes (15 + 2048 * 2 ^ 32 + 2 ^ 64) 16)) (st m)) (fun t => t.m.kod.lastAct == some (pShrSet, esSTATE)) = true ∧
     good (exec (.shrSeal 15) (st m)) (fun t => t.m.shrState 15 == 2 && good (exec (.shrSeal 15) t) fun u => u.m.kod.lastAct == some (pShrSeal, esSTATE)) = true ∧
     good (exec (.shrClear 15) (st m)) (fun t => t.m.parts.shr.isEmpty) = true) ∧
    good (exec (.shrClear 1) (st ready1)) (fun t => t.m.kod.lastAct == some (pShrClear, esSTATE)) = true ∧
    (let m : Mod := { ready1.setShr 15 (some (2, 2048, 1)) with mem := { frameTag := [(2048, 0x8F)] } }
     (m.tagOf (2 ^ 27)).toNat = 0x8F ∧
     good (exec (.shrRepair (leBytes (15 + 2 ^ 27 * 2 ^ 64) 16 ++ List.replicate 128 1)) (st m)) (fun t => t.m.kod.lastAct == some (pShrRepair, esOK)) = true) ∧
    good (exec (.shrRepair (leBytes (15 + 2 ^ 27 * 2 ^ 64) 16 ++ List.replicate 128 1)) (st ready1)) (fun t => t.m.kod.lastAct == some (pShrRepair, esSTATE)) = true ∧
    good (exec (.mcastSet 1 (leBytes (255 + 256) 8 ++ leBytes 5 8)) (st ready1)) (fun t => t.m.parts.mcast == [(511, [5])]) = true ∧
    good (exec (.migLogFlip 1) (st ready1)) (fun t => (t.m.part 1).migB) = true ∧
    good (exec (.migLogOnWrite 1 true) (st ready1)) (fun t => t.m.par (pMigLogOn + 1) == 1) = true := by decide +kernel
def disabling1 : Mod := { ready1 with ctxs := [], parts := { parts := [(1, { st := .disabling, tgmask := 3, gen := 2 })] } }
theorem test_disable_done :
    disabling1.partDrained 1 = true ∧
    good (exec (.disableDone 1) (st disabling1)) (fun t => (t.m.part 1).st == .none && (t.m.part 1).gen == 2 && t.m.mem.keyGen.getD 1 0 == 1 &&
      t.m.cache.extents == [] && t.m.kod.evq.map Event.code == [evDisableDone]) = true := by decide +kernel

/-! The fabric. Module 1; ports 0 and 8 UP with module 2 behind them, module 9 behind port 8; window 7 is of partition 1, over its pinned memory. -/

def win7 : BitVec 256 := BitVec.ofNat 256 (0xAA * 2 ^ 192 + 2 * 2 ^ 128 + 15 * 2 ^ 124 + 4096 * 2 ^ 36)
def up0 : Port := { state := 4, width := 8 }
def fabMod (f : FabS → FabS) : Mod := (((ready1.setPar pFabModuleId 1).setPar (pFabWinOwner + 7) 1).updFab fun b => f { b with
  ports := [(0, up0), (8, up0)], allow := [(0, ⟨5, 2, 3, 1, true, false⟩)], routes := [(2, ⟨0, none⟩), (9, ⟨8, none⟩)], windows := [(7, win7)],
  rx := [(8, { isOpen := true })] })
/-- A packet for this module, into window 7 with its key. -/
def pkt : Packet := { packet1 with dst := 1, win := 7, key := 0xAA }
def portMod (p : Port) : Mod := (fabMod fun b => { b with ports := [(0, p)] }).updSaf fun x => { x with shutter := [(0, 2)] }
def isPort (o : Out) (f : Port → Bool) : Bool := good o fun t => f (t.m.port 0)
theorem test_fabric_ports :
    portFitted 0 0 = true ∧ isPort (exec (.fabPortMode 0 0) (st (fabMod id))) (fun p => p.mode == 0 && p.state == 1) = true ∧
    isPort (exec (.fabPortMode 0 2) (st ((fabMod id).setPar (pFabPortMode + 3) 2))) (fun p => p == up0) = true ∧
    (portMod {}).mayTrain 0 0 = true ∧ (portMod {}).allowed 5 2 = some 0 ∧ (portMod {}).allowed 5 9 = none ∧
    isPort (exec (.fabLinkUp 0 5 2 true [] 9) (st (portMod {}))) (fun p => p.state == 1 && p.cause == .nolight) = true ∧
    isPort (exec (.fabLinkUp 0 5 2 true [7] 9) (st (portMod {}))) (fun p => p.cause == .train) = true ∧
    isPort (exec (.fabLinkUp 0 5 9 true [7, 6] 9) (st (portMod {}))) (fun p => p.cause == .auth) = true ∧
    isPort (exec (.fabLinkUp 0 5 2 true [7, 6, 5] 9) (st ((portMod {}).setPar pFabPeerCeil 8))) (fun p => p.state == 4 && p.width == 2 && p.partner == 2 && p.credit == 8 &&
      p.laneMap == 0x567) = true ∧
    isPort (exec (.fabLinkUp 0 5 2 true [0, 1, 2, 3, 4, 5, 6, 7] 9) (st (portMod { mode := 2 }))) (fun p => p.state == 4 && p.width == 8) = true ∧
    isPort (exec (.fabLinkUp 0 5 2 true [0, 1, 2, 3] 9) (st (portMod { mode := 2, ethHalf := true }))) (fun p => p.state == 4 && p.width == 4) = true ∧
    isPort (exec (.fabLinkUp 0 5 2 true [0, 1, 2] 9) (st (portMod { mode := 2 }))) (fun p => p.cause == .train) = true := by decide +kernel
theorem test_fabric_faults :
    good (exec (.fabLinkFailRetry 0 0) (st (portMod {}))) (fun t => (t.m.port 0).state == 2 && (t.m.port 0).cause == linkCause 0 && t.m.kod.evq.map Event.code == [evFabLinkFail]) = true ∧
    isPort (exec (.laneRemove 0 3) (st (fabMod id))) (fun p => p.removed == [3] && p.width == 6) = true ∧
    isPort (exec (.laneRemove 0 3) (st (portMod { state := 4, width := 2, removed := [0, 1, 2, 4, 5, 6] }))) (fun p => p.state == 2 && p.cause == .train) = true ∧
    isPort (exec (.keyRenew 0) (st (fabMod id))) (fun p => p.keyGen == 1) = true ∧
    isPort (exec (.ethLaneLoss 0 4) (st (portMod { state := 4, mode := 2 }))) (fun p => p.ethHalf && p.state == 2) = true ∧
    isPort (exec (.ethLaneLoss 0 3) (st (portMod { state := 4, mode := 2 }))) (fun p => !p.ethHalf && p.state == 1) = true ∧
    good (exec (.frameReplay 0 1024) (st (fabMod id))) (fun t => (t.m.counter kFabReplay 0).value == 1024) = true ∧
    good (exec (.laserModuleFault 0) (st (fabMod id))) (fun t => (t.m.port 0).cause == .nolaser && (t.m.port 3).state == 1 && (t.m.port 8).state == 4) = true ∧
    (((portMod { state := 4, drops := 16 }).portDrop 0 kFabCreditViol).port 0).quarantined = true ∧
    good (exec (.quarExpiry 0) (st (fabMod fun b => { b with allow := [(0, ⟨5, 2, 3, 1, true, true⟩)], ports := [(0, { quarantined := true })] }))) (fun t =>
      t.m.fab.allow.all (fun e => !e.2.quar) && !(t.m.port 0).quarantined) = true := by decide +kernel
def allow4 : List Byte := leBytes (2 ^ 63 + 4 * 2 ^ 112 + 6 * 2 ^ 128) 48
def ethBind : Nat := 0xF000 * 2 ^ 496 + 4 * 2 ^ 475 + 2 ^ 417 + 5 * 2 ^ 112 + 9 * 2 ^ 160
def ethMod (f : EthQp → EthQp) : Mod := fabMod fun b => { b with
  ports := [(0, { state := 4, mode := 2 })], eth := [(ethKey 0 5, f { bind := BitVec.ofNat 512 ethBind, spsn := 9, rpsn := 0 })] }
/-- A whole allow-list: none of its entries has the hash 0. -/
def allowAll (n : Nat) : Tab Allow := (List.range n).map fun i => (i, ⟨i + 1, 2, 3, 1, true, false⟩)
theorem has_of_mem {α : Type} (k : Nat) (t : Tab α) (h : k ∈ t.map Prod.fst) : t.has k = true := by
  induction t with
  | nil => simp at h
  | cons e r ih =>
    by_cases he : e.1 = k
    · simp [Tab.has, Tab.find, he]
    · have : k ∈ r.map Prod.fst := by simpa [Ne.symm he] using h
      simpa [Tab.has, Tab.find, he] using ih this
theorem allowAll_hash (n : Nat) : (allowAll n).find? (fun x => x.2.idHash == 0) = none := by simp [allowAll]
theorem allowAll_full (n : Nat) : (List.range n).find? (fun i => !((allowAll n).has i)) = none := by
  rw [List.find?_eq_none]
  intro i hi
  rw [has_of_mem i _ (by rw [allowAll, List.map_map]; exact List.mem_map.2 ⟨i, hi, rfl⟩)]
  exact Bool.false_ne_true
theorem test_allow_full (m : Mod) (h : m.fab.allow = allowAll 4096) : m.allowPut 5000 = none := by
  have hash : (allowOf 5000).idHash = 0 := by decide +kernel
  unfold Mod.allowPut
  simp only [hash, h, allowAll_hash, allowAll_full, Option.map_none, Option.none_or]
theorem test_fabric_tables :
    good (exec (.fabAllowSet allow4) (st (fabMod id))) (fun t => Tab.find 1 t.m.fab.allow == some ⟨6, 4, 0, 0, true, false⟩) = true ∧
    ((fabMod id).allowPut 1).isSome = true ∧
    good (exec (.fabRouteSet (leBytes (2 ^ 48 + 2 ^ 15 + 8 * 2 ^ 8) 8)) (st (fabMod id))) (fun t => Tab.find 1 t.m.fab.routes == some ⟨8, none⟩) = true ∧
    good (exec (.fabRouteSet (leBytes (2 ^ 48 + 2 ^ 15 + 8 * 2 ^ 8 + 2 ^ 7 + 3) 8)) (st (fabMod id))) (fun t => Tab.find 1 t.m.fab.routes == some ⟨8, some 3⟩) = true ∧
    good (exec (.fabRouteSet (leBytes (9 * 2 ^ 48) 8)) (st (fabMod id))) (fun t => Tab.find 9 t.m.fab.routes == none) = true ∧
    good (exec (.fabRouteSet (leBytes 1 8)) (st (fabMod id))) (fun t => t.m.kod.lastAct == some (pFabRouteSet, esSTATE)) = true ∧
    good (exec (.fabGroupSet (leBytes (3 + 2 ^ 75 + 8 * 2 ^ 108) 32)) (st (fabMod id))) (fun t => t.m.fab.groups.map (fun g => (g.1, grpPart g.2.entry, grpNchild g.2.entry)) == [(3, 1, 8)]) = true ∧
    good (exec (.fabGroupSet (leBytes (9 * 2 ^ 108) 32)) (st (fabMod id))) (fun t => t.m.kod.lastAct == some (pFabGroupSet, esSTATE)) = true ∧
    good (exec (.fabWinSet 1 (leBytes 7 8 ++ leBytes (2 ^ 192) 32)) (st (fabMod id))) (fun t => t.m.fab.windows == [(7, BitVec.ofNat 256 (2 ^ 192 + 2 ^ 145))]) = true ∧
    good (exec (.fabWinSet 2 (leBytes 7 8 ++ leBytes (2 ^ 192) 32)) (st (fabMod id))) (fun t => t.m.fab.windows == [(7, win7)]) = true ∧
    good (exec (.fabRkeySet 1 (leBytes (2 ^ 103 + 2 * 2 ^ 128 + 3 * 2 ^ 192) 32)) (st ((fabMod id).setPar (pFabRkeyQuota + 1) 1))) (fun t => t.m.fab.rkeys == [(2 ^ 24, ⟨3, 2⟩)]) = true ∧
    good (exec (.fabRkeySet 1 (leBytes (2 ^ 103) 32)) (st ((fabMod id).setPar (pFabRkeyQuota + 1) 0))) (fun t => t.m.kod.lastAct == some (pFabRkeySet, esSTATE)) = true ∧
    good (exec (.fabEthQpSet (leBytes ethBind 64)) (st (fabMod fun b => { b with ports := [(0, { mode := 2 })] }))) (fun t => t.m.fab.eth.map (fun e => (e.1, e.2.spsn)) == [(5, 9)]) = true ∧
    good (exec (.fabEthQpSet (leBytes (2 ^ 474 + 5 * 2 ^ 112) 64)) (st (ethMod id))) (fun t => t.m.fab.eth.isEmpty && t.m.kod.evq.map Event.code == [evFabUnreach]) = true := by
  decide +kernel
theorem test_packet_admission :
    good (exec (.vflWrite pkt) (st (fabMod fun b => { b with ports := [] }))) (fun t => t.m.fab.sent == []) = true ∧
    good (exec (.vflWrite { pkt with credit := false }) (st (fabMod id))) (fun t => (t.m.counter kFabCreditViol 0).value == 1) = true ∧
    good (exec (.vflWrite { pkt with len := 1 }) (st (fabMod id))) (fun t => (t.m.counter kFabMalformed 0).value == 1) = true ∧
    good (exec (.vflWrite { pkt with src := 4 }) (st (fabMod id))) (fun t => (t.m.counter kFabSrcDrop 0).value == 1) = true ∧
    (fabMod id).srcOk 0 3 = true ∧ (fabMod id).srcOk 0 2 = true ∧
    good (exec (.vflWrite { pkt with dst := 9 }) (st (fabMod id))) (fun t => (t.m.counter kFabTransitDrop 0).value == 1) = true ∧
    good (exec (.vflSlow { pkt with dst := 9, hops := 1 }) (st (fabMod id))) (fun t => t.m.fab.sent.map (fun e => (e.1, e.2.hops, e.2.port)) == [(10, 0, 8)]) = true ∧
    good (exec (.vflWrite { pkt with eseq := 0xFFFFFFFF }) (st (fabMod id))) (fun t => t.m.fab.sent.map Prod.fst == [6] && (t.m.rx 8).low == 0) = true ∧
    good (exec (.vflWrite { pkt with eseq := 65536 }) (st (fabMod id))) (fun t => t.m.fab.sent == []) = true ∧
    ((fabMod id).window 7 2 (· == 0xAA) wrWR 4095 1 [1, 2]).isSome = true ∧ (fabMod id).window 7 2 (· == 0xAA) wrWR 4096 1 [1, 2] = none ∧
    (fabMod id).window 7 2 (· == 0xAB) wrWR 0 1 [1, 2] = none := by decide +kernel
/-- Module 1 has sent module 2 a read, or a write, with ESEQ 4. -/
def out4 (t : Fin 16) : OutPkt := { iod := 0, type := t, p := { pkt with dst := 2, src := 1, eseq := 4, win := 9 } }
def sending (t : Fin 16) (n : Nat) : Mod := fabMod fun b => { b with out := [{ out4 t with resends := n }], tx := [(txKey 0 2, { openSent := true, isOpen := true, tokens := 3, grant := 4 })] }
theorem test_packets :
    good (exec (.vflWrite { pkt with len := 1, payload := [9] }) (st (fabMod id))) (fun t => (t.m.rx 8).low == 1 && t.m.fab.sent.map Prod.fst == [6] &&
      (t.m.psReadN (.nc (ingressAgent 0)) 1 0 1).1.bytes == [9] &&
      good (exec (.vflRead { pkt with len := 1, eseq := 1 }) t) fun u => u.m.fab.sent.map (fun e => (e.1, e.2.payload)) == [(3, [9]), (6, [])]) = true ∧
    good (exec (.vflMulticast { pkt with win := 8 }) (st (fabMod id))) (fun t => (t.m.counter kFabWinViol 8).value == 1 && t.m.fab.sent.map Prod.fst == [6]) = true ∧
    good (exec (.vflRead { pkt with len := 2, key := 1 }) (st (fabMod id))) (fun t => t.m.fab.sent.map (fun e => e.2.payload) == [[0, 0]]) = true ∧
    (let n := fabMod fun b => { b with windows := [(7, BitVec.ofNat 256 (0xAA * 2 ^ 192 + 3 * 2 ^ 128 + 15 * 2 ^ 124 + 4096 * 2 ^ 36))] }
     good (exec (.vflSignal { pkt with len := 8, payload := leBytes 5 8 }) (st n)) (fun t => (t.m.sem 0).value == 5) = true ∧
     good (exec (.vflSignal { pkt with len := 8, eseq := 1, payload := leBytes 5 8 }) (st n)) (fun t => (t.m.rx 8).held.length == 1 && t.m.fab.sent == []) = true) ∧
    isSegment pkt = false ∧ opPermits 2 13 13 = true ∧
    good (exec (.vflWriteReduce { pkt with op := 2, fmt := 13, len := 4, payload := [1, 0, 0, 0] }) (st (fabMod id))) (fun t => (t.m.rx 8).low == 1) = true ∧
    opPermits 15 13 13 = false ∧ good (exec (.vflWriteReduce { pkt with op := 15, fmt := 13 }) (st (fabMod id))) (fun t => (t.m.counter kFabMalformed 0).value == 1) = true ∧
    good (exec (.vflDcmp { pkt with eseq := 3 } 2) (st (sending 0 0))) (fun t => t.m.fab.out == [] && (t.m.e2e 0 2).tokens == 4) = true ∧
    good (exec (.vflReadRsp { pkt with eseq := 4 }) (st (sending 2 0))) (fun t => t.m.fab.out == []) = true ∧
    good (exec (.vflReadRsp { pkt with eseq := 5 }) (st (sending 2 0))) (fun t => t.m.fab.out.length == 1) = true ∧
    good (exec (.vflOpen pkt) (st (fabMod fun b => { b with rx := [] }))) (fun t => (t.m.rx 8).isOpen && t.m.fab.sent.map (fun e => (e.1, e.2.offset.toNat)) == [(8, 256)]) = true ∧
    good (exec (.vflOpenAck pkt 65535) (st (fabMod fun b => { b with tx := [(txKey 0 2, { openSent := true })] }))) (fun t => (t.m.e2e 0 2).isOpen && (t.m.e2e 0 2).tokens == 65535) = true ∧
    good (exec (.vflOpenAck pkt 8) (st ((fabMod fun b => { b with
        tx := [(txKey 0 2, { openSent := true })], out := [{ iod := 0, part := 1, type := 0, p := { pkt with dst := 2 }, waiting := true }] }).setPar pDbgTraceOn 1 |>.setPar pDbgTraceMask 64))) (fun t =>
      t.m.dbg.buf == [(16, [⟨0, 0, 0, 1152, 6, 1, 0, 2⟩])] && (t.m.e2e 0 2).next == 1) = true := by
  decide +kernel
/-- Group 3 of partition 1: the parent is module `par`, module 9 the one child. -/
def group3 (par : Nat) (c : Option Coll) : Group := { entry := BitVec.ofNat 256 (3 + 2 ^ 75 + 2 ^ 108 + 9 + par * 2 ^ 112 + 9 * 2 ^ 128), cur := c }
def coll1 : Coll := { cmd := 1, kind := 0, op := 2, fmt := 13, count := 1, root := 0, va := 0, part := 1 }
def collMod (par : Nat) (c : Option Coll) (h : HCmd) : Mod := (fabMod fun b => { b with groups := [(3, group3 par c)] }).updHost fun x => { x with cmds := [(1, h)] }
def collCmd (n : Nat) : HCmd := hcmd 5 [0, 3 + 2 * 2 ^ 16 + 13 * 2 ^ 20 + n * 2 ^ 32]
def seg3 : Packet := { pkt with group := 3, key := 0 }
theorem test_collectives :
    (collMod 2 none (collCmd 1)).collRefusal (collCmd 1) = none ∧ (fabMod id).collRefusal (collCmd 1) = some 192 ∧
    stat (exec (.collective 1) (st ((fabMod id).updHost fun x => { x with cmds := [(1, collCmd 1)] }))) stARITH = true ∧
    good (exec (.collective 1) (st (collMod 2 (some coll1) (collCmd 1)))) (fun t => t.m.fab.groups == [(3, group3 2 (some coll1))]) = true ∧
    endedOk (exec (.collective 1) (st (collMod 2 none (collCmd 0)))) (fun m => m.fab.groups.all fun g => g.2.collSeq == 1) = true ∧
    good (exec (.collective 1) (st (collMod 2 none (collCmd 1)))) (fun t => t.m.fab.groups.all fun g => g.2.cur.isSome) = true ∧
    good (exec (.vflColl seg3) (st (fabMod id))) (fun t => (t.m.counter kFabCollStale 0).value == 1 && t.m.fab.sent.map Prod.fst == [6]) = true ∧
    good (exec (.vflColl { seg3 with offset := 32768 * 2 ^ 24 }) (st (collMod 2 none (collCmd 1)))) (fun t => (t.m.counter kFabCollStale 0).value == 1 && t.m.fab.sent.map Prod.fst == [6]) = true ∧
    good (exec (.vflColl { seg3 with offset := 32767 * 2 ^ 24 }) (st (collMod 2 none (collCmd 1)))) (fun t => (t.m.counter kFabCollStale 0).value == 1 && t.m.fab.sent == []) = true ∧
    grpParent (group3 2 none).entry = 2 ∧ grpChildren (group3 2 none).entry = [9] ∧
    good (exec (.vflColl { seg3 with len := 4, payload := [1, 0, 0, 0] }) (st (collMod 2 (some coll1) { collCmd 1 with started := true }))) (fun t => (t.m.rx 8).low == 1) = true ∧
    good (exec (.vflAbort seg3) (st (collMod 2 (some coll1) { collCmd 1 with started := true }))) (fun t => t.m.fab.groups.all (fun g => g.2.cur.isNone && g.2.collSeq == 1) &&
      t.m.host.cmds.all fun c => c.2.ended && c.2.status == stCOLLABORT) = true ∧
    good (exec (.vflAbort seg3) (st (collMod 2 none (collCmd 1)))) (fun t => (t.m.counter kFabCollStale 0).value == 1) = true ∧
    good (exec (.vflSlow seg3) (st (collMod 2 none (collCmd 1)))) (fun t => t.m.fab.slow.has 2) = true ∧
    good (exec (.collTimeout 3) (st (collMod 2 (some coll1) { collCmd 1 with started := true }))) (fun t => t.m.host.cmds.all fun c => c.2.ended) = true ∧
    good (exec .slowHintTimer (st { collMod 2 none (collCmd 1) with mem := { stackTab := [(0, { state := 2 })] } })) (fun t => t.m.fab.sent.map (fun e => (e.1, e.2.dst)) == [(10, 9), (10, 2)]) = true := by
  decide +kernel
theorem test_delivery :
    good (exec (.deliveryTimeout 0 2 4) (st (sending 0 2))) (fun t => t.m.fab.out.map OutPkt.resends == [3] && (t.m.counter kFabResend 0).value == 1) = true ∧
    good (exec (.deliveryTimeout 0 2 4) (st (sending 0 3))) (fun t => (t.m.e2e 0 2).unreach) = true ∧
    good (exec (.deliveryTimeout 0 2 0) (st (fabMod fun b => { b with out := [{ out4 0 with waiting := true }] }))) (fun t => t.m.fab.sent.map Prod.fst == [7]) = true ∧
    good (exec (.vflMgmt { pkt with win := 0, len := 2, payload := [1, 2] } 2) (st ((fabMod id).setPar pKdpVflEn 1))) (fun t => t.m.kod.mgmt == [(0, [1, 2])]) = true ∧
    good (exec (.mgmtFragmentTimeout 0) (st ((fabMod id).updKod fun k => { k with frags := [(0, [(0, [1])])] }))) (fun t => t.m.kod.frags.isEmpty) = true := by decide +kernel
/-- The remote key of window 7: its key's low bits above the number of the window. -/
def rkey7 : BitVec 32 := 0xAA07
theorem test_ethernet :
    ((ethMod id).roceWindow { bind := BitVec.ofNat 512 ethBind, spsn := 9, rpsn := 0 } rkey7 wrWR 0 1).isSome = true ∧
    good (exec (.roceWrite 0 5 rkey7 0 [9]) (st (ethMod id))) (fun t => (t.m.psReadN (.nc (ingressAgent 0)) 1 0 1).1.bytes == [9] && t.m.fab.eth.all (fun e => e.2.rpsn == 1) &&
      good (exec (.roceRead 0 5 rkey7 0 1) t) fun u => u.m.fab.roceRsp == [(0, 5, [9])]) = true ∧
    good (exec (.roceWrite 0 5 7 0 [9]) (st (ethMod id))) (fun t => (t.m.counter kFabWinViol 7).value == 1) = true ∧
    good (exec (.roceRead 0 5 7 0 2) (st (ethMod id))) (fun t => t.m.fab.roceRsp == [(0, 5, [0, 0])]) = true ∧
    good (exec (.roceWriteImm 0 5 7 0 [] 1) (st (ethMod id))) (fun t => (t.m.sem 0).value == 1 && t.m.fab.eth.all fun e => e.2.imms == 1) = true ∧
    good (exec (.roceAck 0 5 8) (st (ethMod fun q => { q with retries := 3, outst := [(none, 1)] }))) (fun t => t.m.fab.eth.all fun e => e.2.retries == 0 && e.2.outst == []) = true ∧
    good (exec (.roceRetryTimeout 0 5) (st (ethMod fun q => { q with retries := 6, outst := [(none, 1)] }))) (fun t => t.m.fab.eth.all fun e => e.2.retries == 7 && !e.2.error) = true ∧
    good (exec (.roceRetryTimeout 0 5) (st (ethMod fun q => { q with retries := 7, outst := [(none, 1)] }))) (fun t => t.m.fab.eth.all fun e => e.2.error) = true := by decide +kernel

/-! Die links: gateway 1 of die 0. -/

def gate1 : LinkRef := .photonic 0 1
def cap1 : CapBlock := { vmaj := 1, vmin := 0, medium := 0, widths := 15, usable := 32, rates := 1, crct := 2, replay := 4, proto := 0x1F, agents := 0, cagents := 0,
                         epoch := 7, die := 1, vendor := 0, product := 0 }
def linkMod (l : Link) : Mod := { ready1 with links := [(1, l)] }
def par1 : LinkPar := { width := 32, rate := 0, crc32c := true, replay := 4, proto := 7 }
def isLink (o : Out) (f : Link → Bool) : Bool := good o fun t => f (t.m.link 1)
theorem test_die_link_training :
    (let own (n : Nat) := ({ ready1 with links := [(1, { usable := n })] } : Mod).capOwn 1 4
     linkChoice 1 (own 31) cap1 = some { width := 24, rate := 0, crc32c := true, replay := 4, proto := 0x1F } ∧ linkChoice 1 (own 7) cap1 = none ∧
     (linkChoice 1 (own 32) cap1).isSome = true ∧ (own 32).die = 0 ∧ (ready1.capOwn 73 0).widths = 3) ∧
    (let m : Mod := { ready1 with links := [(1, { state := 2, proposal := some par1 }), (8, { state := 2 })] }
     good (exec (.udlPropose (.photonic 1 0)) (st m)) (fun t => (t.m.link 8).proposal == some par1 && (t.m.link 8).state == 3) = true) ∧
    isLink (exec (.udlTrain gate1 [0, 1, 2] 34 false) (st (linkMod {}))) (fun l => l.state == 1 && l.spares == 2 && l.usable == 31) = true ∧
    isLink (exec (.udlCapx gate1 cap1) (st (linkMod { state := 1, usable := 32, epoch := some 6, txSeq := 5 }))) (fun l => l.state == 2 && l.proposal.isSome && l.txSeq == 0) = true ∧
    isLink (exec (.udlCapx gate1 cap1) (st (linkMod { state := 1, usable := 32, epoch := some 7, txSeq := 5 }))) (fun l => l.txSeq == 5) = true ∧
    isLink (exec (.udlCapx gate1 cap1) (st (linkMod { state := 1, confFail := 1 }))) (fun l => l.state == 0 && l.confFail == 2) = true ∧
    isLink (exec (.udlCapx gate1 cap1) (st (linkMod { state := 1, confFail := 2 }))) (fun l => l.state == 5) = true ∧
    isLink (exec (.udlPropose gate1) (st (linkMod { state := 2, proposal := some par1 }))) (fun l => l.state == 3) = true ∧
    isLink (exec (.udlConfirm gate1 true 0 0) (st (linkMod { state := 3, proposal := some par1 }))) (fun l => l.state == 4 && l.par == some par1) = true ∧
    isLink (exec (.udlConfirm gate1 true 0 1) (st (linkMod { state := 3 }))) (fun l => l.state == 0 && l.confFail == 1) = true ∧
    isLink (exec (.udlConfirmTimeout gate1) (st (linkMod { state := 3, confFail := 2 }))) (fun l => l.state == 5) = true := by decide +kernel
/-- 17 R499: a line with all its bytes takes 18 slots, with an enable vector 20, a header 4, a control flit 5, a semaphore flit 2; the messages of 49
slots leave in two flits of 30, the second of which starts within a message. -/
def fullLine : UdlMsg := .bn ((BitVec.ofNat 256 (2 ^ 128 - 1) <<< 128) ||| 7) (some 1)
def someLine : UdlMsg := .bn (5 <<< 128) (some 2)
def msgs1 : List UdlMsg := [fullLine, .sn 9, someLine, .cn 3, .bn 4 none]
theorem test_die_link_slots :
    [fullLine, someLine, .bn 4 none, .cn 3, .sn 9].map udlLen = [18, 20, 4, 5, 2] ∧ (packSlots msgs1).length = 49 ∧
    (let a := unpackSlots [] ((packSlots msgs1).take 30)
     let b := unpackSlots a.cur ((packSlots msgs1).drop 30)
     a.out = [fullLine, .sn 9] ∧ a.cur.length = 10 ∧ b.out = [someLine, .cn 3, .bn 4 none] ∧ b.cur = [] ∧
     isLink (exec (.udlDataFlit gate1 0 0 true ⟨none, msgs1⟩) (st (linkMod { state := 4 }))) (fun l =>
      l.rxSeq == 1 && l.restored == a.out && l.partSlots == a.cur && l.feed == (packSlots msgs1).drop 30) = true ∧
     isLink (exec (.udlDataFlit gate1 1 0 true ⟨none, []⟩) (st (linkMod { state := 4, rxSeq := 1, feed := (packSlots msgs1).drop 30, partSlots := a.cur }))) (fun l =>
      l.rxSeq == 2 && l.restored == b.out && l.partSlots == [] && l.feed == []) = true) := by decide +kernel
theorem test_die_link_traffic :
    linkNegotiates 0 1 = true ∧ (linkMod { state := 4 } |>.link 1).carries = true ∧
    isLink (exec (.udlDataFlit gate1 0 3 true ⟨none, []⟩) (st (linkMod { state := 4, replay := [2, 3, 4] }))) (fun l => l.rxSeq == 1 && l.replay == [4]) = true ∧
    isLink (exec (.udlDataFlit gate1 1 3 true ⟨none, []⟩) (st (linkMod { state := 4, replay := [2] }))) (fun l => l.rxSeq == 0 && l.replay == [2]) = true ∧
    isLink (exec (.udlDataFlit gate1 0 0 false ⟨none, []⟩) (st (linkMod { state := 4, crcRun := 6 }))) (fun l => l.state == 4 && l.crcRun == 7) = true ∧
    isLink (exec (.udlDataFlit gate1 0 0 false ⟨none, []⟩) (st (linkMod { state := 4, crcRun := 7 }))) (fun l => l.state == 0 && l.holdCredits) = true ∧
    good (exec (.udlDataFlit gate1 0 0 true ⟨some 9, []⟩) (st (linkMod { state := 4 }))) (fun t => t.m.cc 0 == 10) = true ∧
    good (exec (.udlDataFlit (.electrical 0) 0 0 true ⟨none, []⟩) (st { ready1 with links := [(64, { state := 4 }), (0, { state := 5 })] })) (fun t => (t.m.link 64).rxSeq == 1) = true ∧
    (let m : Mod := { ready1 with links := [(64, { state := 4 })] }; leaves (exec (.udlDataFlit (.electrical 0) 0 0 true ⟨none, []⟩) (st m)) (st m) m = true) ∧
    (let s : State := { fuse := { order := 2 }, m := linkMod {} }
     linkNegotiates 2 0 = false ∧ leaves (exec (.udlTrain (.photonic 0 0) [] 32 false) s) s s.m = true ∧ leaves (exec (.udlConfirmTimeout (.site 0)) s) s s.m = true ∧
     leaves (exec (.xsTrain 0 1 cap1) s) s s.m = true) ∧
    isLink (exec (.udlNak gate1 3) (st (linkMod { state := 4, replay := [3], replays := 63 }))) (fun l => l.state == 4 && l.replays == 64) = true ∧
    isLink (exec (.udlNak gate1 3) (st (linkMod { state := 4, replay := [3], replays := 64 }))) (fun l => l.state == 0) = true ∧
    isLink (exec (.udlPartnerTraining gate1) (st (linkMod { state := 4 }))) (fun l => l.state == 0) = true ∧
    isCdCd 1 = true ∧
    (let m : Mod := { ready1 with links := [(1, { replay := [5] }), (2, { state := 4 }), (10, { state := 4 })] }
     m.detourDie 1 && isLink (exec (.detourTimeout gate1) (st m)) (fun l => l.detour && l.overDetour == [5])) = true ∧
    (let m : Mod := { ready1 with links := [(1, { state := 5, detour := true }), (2, { state := 4 }), (3, { state := 4 }), (10, { state := 4 }), (11, { state := 4 })] }
     m.gateVia 0 1 128 = 2 ∧ m.gateVia 0 1 129 = 3 ∧ m.nextHop 0 129 = some (.router 0 2, some 1) ∧
     (m.nodePath 129 pathFuel 0).any (· == .gateway 0 3) = true ∧ (m.nodePath 129 pathFuel 0).any (· == .gateway 3 1) = true) ∧
    isLink (exec (.udlDetourReturn gate1) (st (linkMod { state := 4, detour := true, replay := [5, 6], overDetour := [5] }))) (fun l => !l.detour && l.replay == [6]) = true ∧
    good (exec (.udl1TrainingPattern 0) { fuse := { order := 2 }, m := ready1 }) (fun t => (t.m.link 64).state == 6) = true ∧
    good (exec (.xsTrain 1 2 cap1) (st ready1)) (fun t => (t.m.link 73).state != 1 && decide (t.m = ready1.siteFault 0 1)) = true ∧
    good (exec (.xsTrain 1 2 { cap1 with usable := 128, rates := 3, vendor := 1, product := 2 }) { fuse := { xsIdent := [(1, 65538)] }, m := ready1 }) (fun t =>
      (t.m.link 73).modules == 2 && (t.m.link 73).usable == 128) = true ∧
    good (exec (.combEmitterFail 0) (st (linkMod { state := 4 }))) (fun t => (t.m.die 0).comb && (t.m.link 1).state == 0) = true ∧
    good (exec (.combEmitterFail 0) (st ((linkMod { state := 4 }).updDie 0 fun d => { d with comb := true }))) (fun t => (t.m.link 1).state == 5) = true ∧
    isLink (exec (.ringLockLoss gate1 33) (st (linkMod { state := 4 }))) (fun l => l.lost == [33]) = true := by decide +kernel

/-! Fault tolerance. -/

theorem test_unit_failures :
    good (exec (.halfSidebandLoss 4) (st ready1)) (fun t => (t.m.half 4).state == 4 && (t.m.half 4).foster == some 5) = true ∧
    good (exec (.halfRequestTimeout 4 2 false) (st ready1)) (fun t => (t.m.half 4).state == 4) = true ∧
    leaves (exec (.halfRequestTimeout 4 1 false) (st ready1)) (st ready1) ready1 = true ∧
    (let m : Mod := { ready1 with halves := [(5, { state := 4 }), (6, { state := 4 })] }
     m.fosterOf 4) = some 8 ∧
    (let m : Mod := ready1.updKod fun k => { k with blobs := [(pFtSpareTg, leBytes (2 ^ 127) 16)] }
     m.spareFor 0 == some 127 && ((m.substitute 1 0).part 1).tgmask.getLsbD 127) = true ∧
    ready1.spareFor 0 = none ∧
    good (exec (.heartbeatMiss 1 false) (st (ready1.updFt fun f => { f with missed := [(1, 1)] }))) (fun t => t.m.iodState 1 == 0 && t.m.ft.missed == [(1, 2)]) = true ∧
    good (exec (.heartbeatMiss 1 true) (st (ready1.updFt fun f => { f with missed := [(1, 2)] }))) (fun t => t.m.iodState 1 == 0 && t.m.ft.missed.isEmpty) = true ∧
    good (exec (.heartbeatMiss 1 false) (st (ready1.updFt fun f => { f with missed := [(1, 2)] }))) (fun t => t.m.iodState 1 == 1) = true ∧
    good (exec (.iodTakeoverDone 1) (st (ready1.updFt fun f => { f with takeover := [(1, ())] }))) (fun t => t.m.ft.takeover.isEmpty) = true ∧
    (let m := ready1.updFt fun f => { f with takeover := [(1, ())], iodState := [(0, 1), (1, 1)] }
     leaves (exec (.iodTakeoverDone 1) (st m)) (st m) m = true ∧ m.servedBy 1 = none) ∧
    (let m := ready1.updFt fun f => { f with iodState := [(1, 1)] }; m.servedBy 1 = some 0 ∧ m.servedBy 0 = some 0) := by decide +kernel
def wpMod (w : Wp) : Mod := (ready1.updWp 1 fun _ => w).setPar (pWpSlotMib + 1) 1
def image1 (n : Nat) (g : BitVec 16) : WpImage := { seq := n, gen := g, len := 0, cmds := [], ctxs := [], ready := [], sems := [], bars := [], waits := [] }
theorem test_waypoints :
    good (exec (.wpTake 1) (st (wpMod {}))) (fun t => (t.m.wp 1).taking && t.m.kod.lastAct == some (pWpTake + 1, esOK)) = true ∧
    good (exec (.wpTake 1) (st ready1)) (fun t => t.m.kod.lastAct == some (pWpTake + 1, esSTATE)) = true ∧
    good (exec (.waypointTimer 1) (st (wpMod { wanted := true }))) (fun t => (t.m.wp 1).taking) = true ∧
    good (exec (.waypointTimer 1) (st ((wpMod {}).setPar (pWpPeriodMs + 1) 0))) (fun t => !(t.m.wp 1).taking) = true ∧
    (wpMod { taking := true }).wpDrained 1 = true ∧
    good (exec (.waypointDrained 1) (st (wpMod { taking := true }))) (fun t => !(t.m.wp 1).taking && (t.m.counter kWpSkip 1).value + (t.m.counter kWpTaken 1).value == 1) = true ∧
    good (exec (.waypointDrained 1) (st (ready1.updWp 1 fun _ => { taking := true }))) (fun t => t.m.kod.evq.map Event.code == [evWpToobig]) = true ∧
    good (exec (.waypointDrainTimeout 1) (st (wpMod { taking := true }))) (fun t => (t.m.counter kWpSkip 1).value == 1) = true ∧
    (let m := ((wpMod { slotA := some (image1 4 1), slotB := some (image1 5 1) }).putWaypoint 1 false
        (image1 4 1)).putWaypoint 1 true (image1 5 1)
     m.wpNewest 1 = some (image1 5 1) ∧
       ((m.updWp 1 fun w => { w with slotB := some (image1 5 0) }).wpNewest 1 = some (image1 4 1)) ∧
       ((m.areaWrite (2 ^ 20 + 8) [1]).wpNewest 1 = some (image1 4 1))) ∧
    good (exec (.wpRestore 1) (st (wpMod { slotA := some (image1 4 1) }))) (fun t => t.m.kod.lastAct == some (pWpRestore + 1, esOK)) = true ∧
    good (exec (.wpRestore 2) (st (wpMod {}))) (fun t => t.m.kod.lastAct == some (pWpRestore + 2, esSTATE)) = true := by decide +kernel
def act (o : Out) (p e : Nat) (f : Mod → Bool) : Bool := good o fun t => t.m.kod.lastAct == some (p, e) && f t.m
def drained2 : Mod := { ready1 with halves := [(4, { state := 2 }), (5, { state := 2 })] }
theorem test_live_repair :
    act (exec (.ftTileTest 1023) (st { ready1 with tiles := [(1023, { fenced := true })] })) pFtTileTest esRUNNING (fun m => (m.tile 1023).testing) = true ∧
    act (exec (.ftTileTest 1) (st ready1)) pFtTileTest esSTATE (fun _ => true) = true ∧
    act (exec (.ftDieDrain 2) (st ready1)) pFtDieDrain esRUNNING (fun m => m.dieState 2 1) = true ∧
    act (exec (.ftDieDrain 2) (st drained2)) pFtDieDrain esSTATE (fun _ => true) = true ∧
    act (exec (.ftDieDrain 8) (st ready1)) pFtDieDrain esRANGE (fun _ => true) = true ∧
    act (exec (.ftDieTest 2) (st drained2)) pFtDieTest esRUNNING (fun m => m.dieState 2 3 && (m.tile 256).testing && (m.tile 383).testing && !(m.tile 384).testing) = true ∧
    act (exec (.ftDieReturn 2) (st drained2)) pFtDieReturn esOK (fun m => m.dieState 2 0) = true ∧
    act (exec (.ftDieTest 0) (st { ready1 with halves := [(9, { state := 4 })] })) pFtDieTest esSTATE (fun _ => true) = true ∧
    act (exec (.ftStackRetrain 0xF8001) (st ready1)) pFtStackRetrain esRUNNING (fun m => m.ft.retrain == some (15, [0, 15])) = true ∧
    act (exec (.ftStackRetrain 1) (st (stacked { state := 3 }))) pFtStackRetrain esSTATE (fun _ => true) = true ∧
    act (exec (.tileTestDone 5 true) (st { ready1 with tiles := [(5, { fenced := true, testing := true, strike := 1 })] })) pFtTileTest esOK (fun m => !(m.tile 5).fenced && (m.tile 5).strike == 0) = true ∧
    act (exec (.tileTestDone 5 false) (st { ready1 with tiles := [(5, { fenced := true, testing := true })] })) pFtTileTest esOK (fun m => (m.tile 5).fenced && m.ft.testResult.getLsbD 5) = true ∧
    act (exec (.tileTestDone 256 true) (st { ready1 with tiles := [(256, { testing := true })], ft := { dieTest := some 2, testing := [256] } })) pFtDieTest esOK (fun m => m.dieState 2 2) = true ∧
    act (exec (.dieDrained 0) (st { ready1 with halves := [(0, { state := 1 }), (1, { state := 1 })] })) pFtDieDrain esOK (fun m => m.dieState 0 2 && m.sched.saved.length == 1) = true ∧
    leaves (exec (.dieDrained 0) (st full)) (st full) full = true ∧
    (spareMapFor [3] []).isSome = true ∧
    act (exec (.stackRetrainChannelDone 1 4 true [3]) (st { ready1 with ft := { retrain := some (1, [4]) } })) pFtStackRetrain esOK (fun m => (m.chan 1 4).weak == [3] && m.ft.retrain == none) = true ∧
    act (exec (.stackRetrainChannelDone 1 4 false []) (st { ready1 with ft := { retrain := some (1, [4]) } })) pFtStackRetrain esSTATE (fun m => (m.stack 1).state == 4) = true := by
  decide +kernel

/-! Safety, power and clocks. -/

def safMod (f : SafS → SafS) : Mod := (fabMod id).updSaf f
def kicked (n : Fin 8) (c : BitVec 9) : Mod := { safMod fun x => { x with cause := c, entered := n.val } with mod := { mstate := 7 } }
theorem test_lasers :
    good (exec (.returnLossTrip 0) (st (safMod fun x => { x with shutter := [(0, 2)] }))) (fun t => !(t.m.saf.shutter.has 0) && (t.m.port 0).state == 1 && (t.m.counter kSafLaserB1 0).value == 1) = true ∧
    good (exec (.lossOfLight 0) (st (fabMod id))) (fun t => t.m.saf.dark.has 0) = true ∧
    good (exec (.transmitTapTimeout 0) (st (safMod fun x => { x with dark := [(0, ())] }))) (fun t => t.m.saf.biasCut == [(0, 0)] && (t.m.port 3).cause == .nolaser) = true ∧
    good (exec (.shutterProbe 0) (st (fabMod id))) (fun t => t.m.saf.shutter == [(0, 1)]) = true ∧
    good (exec (.shutterFullOpen 0) (st (safMod fun x => { x with shutter := [(0, 1)], dark := [(0, ())] }))) (fun t => t.m.saf.shutter == [(0, 2)] && !(t.m.saf.dark.has 0)) = true ∧
    good (exec (.laserModuleRemove 0) (st (fabMod id))) (fun t => t.m.saf.noModule.has 0 && good (exec (.laserModuleInsert 0) t) fun u => (u.m.port 0).state == 2) = true := by decide +kernel
theorem test_barriers :
    good (exec .inputUndervoltage (st ready1)) (fun t => t.m.mod.mstate == 7 && t.m.saf.cause == 0x20 && t.m.saf.inputOpen && t.m.saf.undervolt && t.m.saf.kickCount == 1) = true ∧
    good (exec .fetReclose (st (safMod fun x => { x with inputOpen := true, undervolt := true }))) (fun t => !t.m.saf.inputOpen) = true ∧
    leaves (exec .fetReclose (st ready1)) (st ready1) ready1 = true ∧
    good (exec (.segmentOvercurrent 15) (st ready1)) (fun t => (t.m.half 15).state == 4) = true ∧
    good (exec (.segmentOvercurrent 16) (st ready1)) (fun t => t.m.iodState 0 == 1) = true ∧
    good (exec (.segmentOvercurrent 20) (st (fabMod id))) (fun t => (t.m.port 31).cause == .nolaser) = true ∧
    good (exec (.segmentOvercurrent 22) (st ready1)) (fun t => t.m.saf.segOpen.has 22) = true ∧
    good (exec (.junctionTrip 3) (st ready1)) (fun t => (t.m.half 3).stopped && good (exec (.junctionRecover 3 110) t) (fun u => (u.m.half 3).stopped) &&
      good (exec (.junctionRecover 3 109) t) (fun u => !(u.m.half 3).stopped)) = true ∧
    good (exec .interlockOpen (st ready1)) (fun t => t.m.mod.mstate == 7 && t.m.saf.cause == 1) = true ∧
    act (exec .safKick (st ready1)) pSafKick esOK (fun m => m.saf.cause == 0x100) = true ∧
    act (exec .safKick (st { ready1 with mod := { mstate := 6 } })) pSafKick esSTATE (fun m => m.mod.mstate == 6) = true ∧
    ((kicked 4 2).kick 0).saf.first = 0 ∧ ((kicked 4 2).kick 0).saf.cause = 3 ∧
    act (exec (.safRelease false true 10 40 89 60 false) (st (kicked 4 2))) pSafRelease esOK (fun m => m.mod.mstate == 3 && m.mod.warm && m.saf.cause == 0) = true ∧
    act (exec (.safRelease false true 10 40 90 60 false) (st (kicked 4 2))) pSafRelease esSTATE (fun m => m.mod.mstate == 7) = true ∧
    act (exec (.safRelease false true 10 40 89 80 false) (st (kicked 1 0x80))) pSafRelease esSTATE (fun _ => true) = true ∧
    (kicked 1 2).kickLeave.mod.mstate = 1 ∧ (kicked 2 2).kickLeave.mod.mstate = 2 := by decide +kernel
def pwrMod (f : PwrS → PwrS) : Mod := ready1.updPwr f
def halfMod (a b : Half) : Mod := { ready1 with halves := [(2, a), (3, b)] }
theorem test_power :
    good (exec (.busConverterFail 4) (st ready1)) (fun t => t.m.pwr.convOk == 0x0F && t.m.kod.evq.map Event.code == [evPwrConvFail] &&
      good (exec (.busConverterFail 0) t) fun u => u.m.mod.mstate == 7 && u.m.saf.cause == 0x40) = true ∧
    good (exec .refclkLoss (st ready1)) (fun t => t.m.pwr.refOsc && t.m.kod.evq.map Event.code == [evPwrRefLost]) = true ∧
    act (exec (.pwrRefSelect 0 true) (st (pwrMod fun p => { p with refOsc := true }))) pPwrRefSelect esOK (fun m => !m.pwr.refOsc) = true ∧
    act (exec (.pwrRefSelect 0 false) (st ready1)) pPwrRefSelect esSTATE (fun _ => true) = true ∧
    act (exec (.pwrRefSelect 1 false) (st ready1)) pPwrRefSelect esOK (fun m => m.pwr.refOsc) = true ∧
    act (exec (.pwrRefSelect 2 false) (st ready1)) pPwrRefSelect esRANGE (fun _ => true) = true ∧
    good (exec (.pllLockLoss 7) (st ready1)) (fun t => (t.m.half 14).state == 4 && (t.m.half 15).state == 4) = true ∧
    good (exec (.pllLockLoss 11) (st ready1)) (fun t => t.m.iodState 3 == 1) = true ∧
    good (exec (.fastClamp 8401) (st ready1)) (fun t => (t.m.half 15).div == 8) = true ∧ leaves (exec (.fastClamp 8400) (st ready1)) (st ready1) ready1 = true ∧
    good (exec (.powerCapSample 12) (st ready1)) (fun t => t.m.pwr.inputW == 12 && t.m.pwr.samples == 1) = true ∧
    good (exec (.coolantSample 11999 30000) (st ready1)) (fun t => t.m.pwr.derate && t.m.kod.evq.map Event.code == [evPwrDerate]) = true ∧
    good (exec (.coolantSample 12000 40000) (st ready1)) (fun t => !t.m.pwr.derate && t.m.kod.evq == []) = true := by decide +kernel
theorem test_clocks :
    good (exec (.clkADivChange 2) (st (halfMod { reqDiv := some 8 } {}))) (fun t => (t.m.half 2).div == 8 && (t.m.half 3).div == 4) = true ∧
    good (exec (.clkADivChange 2) (st (halfMod { reqDiv := some 5 } { div := 6, reqDiv := some 4 }))) (fun t => (t.m.half 2).div == 5 && (t.m.half 3).div == 4) = true ∧
    good (exec (.clkADivChange 2) (st (halfMod { reqDiv := some 5 } { div := 6, reqDiv := some 8 }))) (fun t => (t.m.half 2).div == 6 && (t.m.half 3).div == 6) = true ∧
    good (exec (.clkADivChange 2) (st (halfMod { reqDiv := some 5 } { div := 6 }))) (fun t => (t.m.half 2).div == 6 && (t.m.half 3).div == 6) = true ∧
    good (exec (.thermalLoopSample 2 96) (st ((halfMod { thermAge := 9 } {}).setPar pPwrTjTarget 95))) (fun t => (t.m.half 2).thermDiv == 5 && (t.m.half 2).thermAge == 0) = true ∧
    good (exec (.thermalLoopSample 2 89) (st ((halfMod { thermDiv := 6, thermAge := 99 } {}).setPar pPwrTjTarget 95))) (fun t => (t.m.half 2).thermDiv == 5) = true ∧
    good (exec (.thermalLoopSample 2 90) (st ((halfMod { thermDiv := 6, thermAge := 99 } {}).setPar pPwrTjTarget 95))) (fun t => (t.m.half 2).thermDiv == 6) = true ∧
    good (exec (.voltageLoopStep 2 1 false) (st ready1)) (fun t => (t.m.half 2).div == 4) = true ∧
    good (exec (.voltageLoopStep 2 0 true) (st ready1)) (fun t => (t.m.half 2).holdDiv == 5 && t.m.kod.evq.map Event.code == [evPwrVmaxHold]) = true ∧
    good (exec (.droopThrottle 0) (st ready1)) (fun t => (t.m.tile 0).droop && (t.m.half 0).droop && good (exec (.droopEnd 0) t) fun u => !(u.m.tile 0).droop) = true ∧
    good (exec (.seamPauseEnd 1) (st ({ halfMod { div := 8 } {} with dies := [(1, { seamPaused := true })] }))) (fun t => (t.m.die 1).seamRatio == (8, 4) && (t.m.counter kCchSeamRatioChg 1).value == 1) = true ∧
    good (exec (.seamPauseEnd 1) (st ({ halfMod { div := 8 } { div := 8 } with dies := [(1, { seamPaused := true })] }))) (fun t => (t.m.counter kCchSeamRatioChg 1).value == 0) = true ∧
    pairOk 5 6 = false ∧ pairOk 5 4 = true := by decide +kernel

/-! The dictionary: session 1 of a source on the side band, in role PROVIDER. -/

def prov : Session := { transport := .udp 9, role := 3, lastSeq := some 4 }
def kodMod (f : Kod → Kod) : Mod := ready1.updKod fun k => f { k with sessions := [(1, prov)] }
def ask (op : BitVec 8) (body : List KEntry) : KFrame :=
  { ver := 1, op := op, count := body.length, session := 1, seq := 5, tagged := true, reserved := false, lenOk := true, tagOk := true, body := body }
def ent (n : Nat) (t : Fin 16) (v : List Byte) : KEntry := { number := BitVec.ofNat 24 n, type := t, estat := 0, value := v }
/-- STATUS and the ESTATs of the answer sent last. -/
def answers (o : Out) (n : Fin 6) (l : List (Fin 16)) : Bool := good o fun t => match t.m.kod.sent with
  | r :: _ => r.status == n && r.entries.map KEntry.estat == l
  | [] => false
def silent (o : Out) : Bool := good o fun t => t.m.kod.sent == []
theorem test_kdp_frames :
    (kodMod id).kdpServed (.udp 9) = true ∧ (kodMod id).kdpServed (.vfl 0) = false ∧
    answers (exec (.kdpRead (.udp 9) (ask 1 [ent pKodSaveDelay 0 []])) (st (kodMod id))) 0 [0] = true ∧
    silent (exec (.kdpRead (.vfl 0) (ask 1 [])) (st (kodMod id))) = true ∧
    silent (exec (.kdpRead .pf0 (ask 1 [])) (st ((kodMod id).updFn 0 fun x => { x with mbxBusy := true }))) = true ∧
    answers (exec (.kdpRead (.udp 9) (ask 1 [])) (st (kodMod fun k => { k with held := List.replicate 32 ⟨.pf0, 0, 0, 0, 0, false, []⟩ }))) 4 [] = true ∧
    answers (exec (.kdpRead (.vf 2) { ask 1 [] with session := 0 }) (st (kodMod id))) 5 [] = true ∧
    answers (exec (.kdpRead (.udp 9) { ask 1 [] with ver := 2 }) (st (kodMod id))) 2 [] = true ∧
    answers (exec (.kdpRead (.udp 9) { ask 1 [] with session := 2, reserved := true }) (st (kodMod id))) 1 [] = true ∧
    answers (exec (.kdpRead (.udp 9) { ask 1 [] with session := 2 }) (st (kodMod id))) 3 [] = true ∧
    answers (exec (.kdpRead (.udp 9) { ask 1 [] with session := 0, count := 1 }) (st (kodMod id))) 1 [] = true ∧
    silent (exec (.kdpRead (.udp 9) { ask 1 [] with seq := 4 }) (st (kodMod id))) = true ∧
    good (exec (.kdpRead (.udp 9) { ask 1 [] with tagOk := false }) (st (kodMod id))) (fun t => t.m.kod.badTag == 1 && t.m.kod.sent == []) = true ∧
    silent (exec (.mbxGo 0 (ask 1 []) []) (st ((kodMod id).updFn 0 fun x => { x with mbxBusy := true }))) = true := by decide +kernel
def write1 (n : Nat) (t : Fin 16) (v : List Byte) : KFrame := ask 2 [ent n t v]
def wrote (o : Out) (e : Nat) (f : Mod → Bool) : Bool := answers o 0 [Fin.ofNat 16 e] && good o fun t => f t.m
theorem test_kdp_requests :
    paramRow 1 = none ∧ ctrDef 1 = none ∧ answers (exec (.kdpRead (.udp 9) (ask 1 [ent 1 0 [], ent kHifFetch 0 []])) (st (kodMod id))) 0 [1, 0] = true ∧
    wrote (exec (.kdpWrite (.udp 9) (write1 pKodSaveDelay 3 [9, 0]) [{}]) (st (kodMod id))) esOK (fun m => m.par pKodSaveDelay == 9 && m.kod.dirty) = true ∧
    wrote (exec (.kdpWrite (.udp 9) (write1 pKodSaveDelay 3 [9]) [{}]) (st (kodMod id))) esTYPE (fun m => m.kod.params == []) = true ∧
    wrote (exec (.kdpWrite (.udp 9) (write1 pPartNumber 10 []) [{}]) (st (kodMod id))) esACCESS (fun _ => true) = true ∧
    wrote (exec (.kdpWrite (.udp 9) (write1 1 4 [9, 0]) [{}]) (st (kodMod id))) esNOPARAM (fun _ => true) = true ∧
    wrote (exec (.kdpWrite (.udp 9) (write1 pKodSaveDelay 3 [9, 0]) [{}]) (st ({ kodMod id with mod := { mstate := 6 } }))) esSTATE (fun m => m.kod.params == []) = true ∧
    wrote (exec (.kdpWrite (.udp 9) (write1 pPartCreate 11 (List.replicate 32 0)) [{}]) (st (kodMod fun k => { k with actions := [(pPartCreate, {})] }))) esBUSY (fun _ => true) = true ∧
    answers (exec (.kdpDiscover (.udp 9) (ask 0 [])) (st (kodMod id))) 0 [0, 0, 0, 0, 0, 0] = true ∧
    answers (exec (.kdpDescribe (.udp 9) (ask 3 [ent pKodSaveDelay 0 []])) (st (kodMod id))) 0 [0] = true ∧
    good (exec (.kdpLoginChallenge (.udp 9) { ask 4 [ent 0 2 [3], ent 1 11 (List.replicate 64 0)] with session := 0 }) (st (kodMod id))) (fun t =>
      t.m.kod.sessions.map (fun e => (e.1, e.2.role, e.2.challenge)) == [(1, 3, none), (2, 0, some 3)]) = true ∧
    answers (exec (.kdpLoginResponse (.udp 9) (ask 5 [ent 0 2 [0], ent 1 11 (List.replicate 64 0)]) true) (st (kodMod id))) 3 [] = true ∧
    good (exec (.kdpLoginResponse (.udp 9) (ask 5 [ent 0 2 [0], ent 1 11 (List.replicate 64 0)]) false)
      (st (kodMod fun k => { k with sessions := [(1, { prov with challenge := some 4 })] }))) (fun t => t.m.kod.fails.length == 1 && t.m.kod.sessions.all fun e => e.2.role == 3) = true ∧
    good (exec (.kdpLoginResponse (.udp 9) (ask 5 [ent 0 2 [0], ent 1 11 (List.replicate 64 0)]) true)
      (st (kodMod fun k => { k with sessions := [(1, { prov with challenge := some 4 })] }))) (fun t => t.m.kod.sessions.all fun e => e.2.role == 4) = true ∧
    good (exec (.kdpLogout (.udp 9) (ask 6 [])) (st (kodMod id))) (fun t => t.m.kod.sessions.isEmpty) = true ∧
    good (exec (.kdpSubscribe (.udp 9) (ask 7 [ent 0 3 [0xFF, 0]])) (st (kodMod id))) (fun t => t.m.kod.sessions.all fun e => e.2.mask == 0xFF && e.2.evNext == 1) = true ∧
    answers (exec (.kdpFetchEvents (.udp 9) (ask 8 [ent 0 5 (leBytes 0 8)])) (st (kodMod id))) 0 [] = true := by decide +kernel
def copyN (n : Nat) : SavedCopy := { seq := n, fwver := 0, entries := [] }
theorem test_dictionary_upkeep :
    good (exec (.actionRunningTimeout 9) (st (kodMod fun k => { k with actions := [(9, {})] }))) (fun t => t.m.kod.actions == [(9, { answered := true })]) = true ∧
    good (exec (.actionDone 9 0) (st (kodMod fun k => { k with actions := [(9, { final := some 0 })] }))) (fun t => t.m.kod.actions.isEmpty && t.m.kod.evq == []) = true ∧
    good (exec (.actionDone 9 0) (st (kodMod fun k => { k with actions := [(9, { answered := true, final := some 0 })] }))) (fun t => t.m.kod.evq.map Event.code == [evKodActDone]) = true ∧
    good (exec (.eventFrameSend 1) (st (kodMod fun k => { k with
      sessions := [(1, { prov with mask := 0xFFFF, evNext := 1 })], events := [⟨1, evDbgHalt, 0, 1, 0⟩] }))) (fun t =>
        t.m.kod.sent.map (fun r => (r.op, r.entries.length)) == [(0x10, 1)] && t.m.kod.sessions.all fun e => e.2.evNext == 2) = true ∧
    good (exec (.sessionIdleTimeout 1) (st (kodMod id))) (fun t => t.m.kod.sessions.isEmpty) = true ∧
    good (exec (.loginLockoutExpiry (.udp 9)) (st (kodMod fun k => { k with locked := [(.udp 9, 0)] }))) (fun t => t.m.kod.locked == []) = true ∧
    good (exec .kdpServerFailover (st { kodMod id with ft := { iodState := [(0, 1), (1, 1)] } })) (fun t => t.m.kod.server == 2) = true ∧
    leaves (exec .kdpServerFailover (st ready1)) (st ready1) ready1 = true ∧
    act (exec .kodSave (st ready1)) pKodSave esRUNNING (fun m => m.kod.saving.isSome) = true ∧
    good (exec .saveDelayExpiry (st (kodMod fun k => { k with dirty := true, lastRws := some 0 }))) (fun t => t.m.kod.saving.isSome && t.m.kod.lastRws == none) = true ∧
    (({ cfgA := some (copyN 4), cfgB := some (copyN 4) } : Kod).save 0 0 false).saving.map (fun e => (e.1, e.2.seq)) = some (true, 5) ∧
    (({ cfgA := some (copyN 3), cfgB := some (copyN 4) } : Kod).save 0 0 false).saving.map (fun e => (e.1, e.2.seq)) = some (false, 5) ∧
    act (exec .configSaveDone (st (kodMod fun k => { k with saving := some (true, copyN 5), saveAct := true }))) pKodSave esOK (fun m => m.kod.cfgB == some (copyN 5)) = true ∧
    act (exec .kodFactory (st (kodMod fun k => { k with cfgA := some (copyN 1) }))) pKodFactory esOK (fun m => m.kod.cfgA == none) = true ∧
    act (exec .kodFactory (st { ready1 with mod := { mstate := 7 } })) pKodFactory esSTATE (fun _ => true) = true := by decide +kernel

/-! Firmware: slots A hold the set of combination index 0; slot B of type 1 is a second version. -/

def rule (t : Nat) : PartnerRule := { ptype := t, vmin := 0, vmax := 9 }
def img (t v : Nat) : Image := { type := t, version := v, svn := 2, keyidx := 0, magicOk := true, reservedZero := true, blen := 0, sigOk := true, stepMin := 0, stepMax := 0xFFFF,
                                 rules := [rule 1, rule 2, rule 3, rule 4], digest := 0 }
def keyed : Fuse := { keyHash := [(0, 0x55b852781b9995a44c939b64e441ae2724b96f99c8f4fb9a141cfc9842c4b0e3)] }
def fs (m : Mod) : State := { m := m, fuse := keyed }
def fwMod (f : SecS → SecS) : Mod := ready1.updSec fun c => f { c with
  slots := [(2, { image := some (img 1 1) }), (3, { image := some (img 1 2) }), (4, { image := some (img 2 1) }), (6, { image := some (img 3 1) }), (8, { image := some (img 4 1) })] }
theorem test_firmware :
    (fwMod id).sec.tested keyed 0 = true ∧ (fwMod id).sec.tested keyed 1 = true ∧ (fwMod id).sec.tested keyed 2 = false ∧ imageValid { keyed with svnMin := [(1, 3)] } 1 (img 1 1) = false ∧
    imageValid {} 1 (img 1 1) = false ∧
    (fwMod id).freeSlotFw 1 = some 3 ∧ (fwMod fun c => { c with running := 1 }).freeSlotFw 1 = none ∧
    act (exec (.fwWrite (leBytes 1 8 ++ [5]) none) (fs (fwMod id))) pFwWrite esOK (fun m => (m.sec.slots.getD 3 {}).bytes == [(0, 5)] && m.sec.staging.has 3) = true ∧
    act (exec (.fwWrite (leBytes 1 8 ++ [5]) none) (fs (fwMod fun c => { c with running := 1 }))) pFwWrite esSTATE (fun _ => true) = true ∧
    act (exec (.fwCommit 1) (fs (fwMod id))) pFwCommit esOK (fun m => m.sec.pending == 1) = true ∧
    act (exec (.fwCommit 2) (fs (fwMod id))) pFwCommit esSTATE (fun m => m.sec.pending == 0) = true ∧
    act (exec .fwActivate (fs (fwMod id))) pFwActivate esOK (fun m => m.mod.mstate == 2) = true ∧
    act (exec .fwActivate (fs (fwMod fun c => { c with pending := 2 }))) pFwActivate esSTATE (fun m => m.mod.mstate == 4) = true ∧
    act (exec .fwLiveIod (fs (fwMod fun c => { c with pending := 1 }))) pFwLiveIod esRUNNING (fun m => m.sec.live == some (3, 1)) = true ∧
    act (exec .fwLiveIod (fs (fwMod id))) pFwLiveIod esSTATE (fun _ => true) = true ∧
    good (exec (.liveUpdateStepDone true) (fs (fwMod fun c => { c with live := some (3, 1) }))) (fun t => t.m.sec.live == some (3, 2)) = true ∧
    good (exec (.liveUpdateStepDone true) (fs (fwMod fun c => { c with live := some (3, 2) }))) (fun t => t.m.sec.live == some (3, 3)) = true ∧
    good (exec (.liveUpdateStepDone true) (fs (fwMod fun c => { c with live := some (3, 3) }))) (fun t => t.m.sec.live == some (3, 4)) = true ∧
    good (exec (.liveUpdateStepDone false) (fs (fwMod fun c => { c with live := some (3, 3) }))) (fun t => t.m.kod.evq.map Event.code == [evFwUpdateFail]) = true ∧
    good (exec (.liveUpdateStepDone true) (fs (fwMod fun c => { c with live := some (3, 4) }))) (fun t => t.m.sec.live == some (2, 1)) = true ∧
    (fwMod fun c => { c with updated := [3] }).freeSlotFw 1 = none ∧ (fwMod fun c => { c with updated := [3] }).sec.runs 3 = 3 ∧
    ((fwMod fun c => { c with live := some (2, 1), updated := [3] }).iodFail 0 0).sec.updated = [3] ∧
    act (exec (.liveUpdateStepDone true) (fs (fwMod fun c => { c with live := some (0, 4), pending := 1 }))) pFwLiveIod esOK (fun m => m.sec.running == 1 && m.sec.liveCount == 1) = true ∧
    good (exec (.fwSvnCommit 1) (fs (fwMod id))) (fun t => t.fuse.svnMin == [(1, 2)]) = true ∧
    good (exec (.fwSvnCommit 1) (fs (fwMod fun c => { c with running := 1 }))) (fun t => t.fuse.svnMin.isEmpty) = true ∧
    good (exec (.spdmReq 1 [0x10, 0x84, 0, 0]) (st (kodMod id))) (fun t => ((Tab.find 1 t.m.kod.sessions).map fun x => (x.spdm, x.spdmAt.stage)) == some (spdmVersion, 1)) = true ∧
    good (exec (.doeRequest [0x12, 0xE4, 0, 0]) (st ready1)) (fun t => t.m.sec.doe == spdmError 7 0xE4) = true ∧
    act (exec (.dbgUnlock true true) (st ({ ready1 with parts := {} }.updSec fun c => { c with nonce := some 0 }))) pDbgUnlock esOK (fun m => m.sec.unlockFlag && m.mod.mstate == 2) = true ∧
    act (exec (.dbgUnlock true true) (st (ready1.updSec fun c => { c with nonce := some 0 }))) pDbgUnlock esSTATE (fun m => m.sec.nonce == none) = true := by decide +kernel

theorem test_attestation :
    let s := fs (fwMod id)
    (s.spdmAnswer {} [0x12, 0x81, 0, 0]).1 = spdmError 4 0 ∧
    (s.spdmAnswer { stage := 1 } [0x12, 0xE1, 0, 0]).2.1.stage = 2 ∧
    (s.spdmAnswer { stage := 3 } [0x12, 0x82, 1, 0, 0, 0, 0, 4]).1 = spdmError 1 0 ∧
    (s.spdmAnswer { stage := 3 } [0x12, 0xE0, 0, 3]).1.length = 8 + 39 + 34 ∧ (s.spdmAnswer { stage := 3 } [0x12, 0xE0, 0, 3]).2.2.free = 32 ∧
    ((s.spdmAnswer { stage := 3 } [0x12, 0xE0, 0, 2]).1.drop 8).take 7 = [2, 1, 131, 0, 1, 128, 0] ∧
    (s.spdmAnswer { stage := 2 } [0x12, 0x85, 1, 9, 0, 0, 0, 0, 4, 0, 0, 0, 4, 0, 0, 0, 0x10, 0x84, 0, 0]).1 = spdmHead 0x05 0 9 ++ [0, 0] ++ spdmVersion ∧
    (spdmChunkGet { stage := 3, out := [7, 8], outHandle := 1 } [0x12, 0x86, 0, 1, 0, 0, 0, 0]).1 = [0x12, 0x06, 1, 1, 0, 0, 0, 0, 2, 0, 0, 0, 2, 0, 0, 0, 7, 8] ∧
    (spdmChunkGet {} [0x12, 0x86, 0, 1, 0, 0, 0, 0]).1 = spdmError 4 0 := by decide +kernel

/-! Counters, debug, audits. -/

def dbgMod (f : DbgS → DbgS) : Mod := (ready1.updDbg f).updSec fun c => { c with unlocked := true }
def counting (n : Nat) : Mod := { ready1 with ctr := [(kHifDbBad * 2 ^ 32, { value := n })] }
theorem test_counters :
    good (exec .odoCopy (st (counting 5))) (fun t => (t.m.counter kHifDbBad 0).stored == 5) = true ∧
    act (exec (.odoClear (BitVec.ofNat 32 kHifDbBad) 0) (st (counting 5))) pOdoClear esOK (fun m => (m.counter kHifDbBad 0).value == 0 && (m.counter kHifDbBad 0).epoch == 1) = true ∧
    act (exec (.odoClear (BitVec.ofNat 32 kHifDbBad) 0xFFFFFFFF) (st (counting 5))) pOdoClear esOK (fun m => (m.counter kHifDbBad 3).epoch == 1) = true ∧
    act (exec (.odoClear (BitVec.ofNat 32 kHifDbBad) 9999) (st (counting 5))) pOdoClear esRANGE (fun _ => true) = true ∧
    act (exec (.odoClear 1 0) (st (counting 5))) pOdoClear esRANGE (fun _ => true) = true ∧
    act (exec (.odoClear 0x0C2001 0x4012) (st (counting 5))) pOdoClear esRANGE (fun _ => true) = true ∧
    (ready1.updFt fun f => { f with iodState := [(1, 1)] }).ctrLive 0x0C1900 8 = false ∧
    (ready1.updFt fun f => { f with iodState := [(1, 1)] }).ctrLive 0x0C1900 7 = true ∧
    ctrSticks kHifDbBad = true ∧ (((counting 0xFFFFFFFE).count kHifDbBad 0).counter kHifDbBad 0).value = 0xFFFFFFFF ∧
    (((counting 0xFFFFFFFF).count kHifDbBad 0).counter kHifDbBad 0).ovf = true ∧
    ctrSticks kHifFetch = false ∧ ((({ ready1 with ctr := [(kHifFetch * 2 ^ 32, { value := 2 ^ 64 - 1 })] } : Mod).count kHifFetch 0).counter kHifFetch 0).value = 0 ∧
    (((counting 0xFFFFFFFE).setPar pOdoMaxEn 1).count kHifDbBad 0).kod.evq.map Event.code = [evOdoMax] := by decide +kernel
theorem test_debug :
    act (exec (.dbgTrigSet (leBytes (2 ^ 32 + 5 * 2 ^ 128) 24) true) (st ready1)) pDbgTrigSet esOK (fun m => (m.ctx 0 0).trig.has 0) = true ∧
    act (exec (.dbgTrigSet (leBytes (2 * 2 ^ 32) 24) true) (st ready1)) pDbgTrigSet esOK (fun m => !((m.ctx 0 0).trig.has 0)) = true ∧
    act (exec (.dbgResume 4) (st ({ dbgMod (fun d => { d with halted := [(4, 1)] }) with ctxs := [(0, { ctx1 with st := .halted, handle := some 4 })] }))) pDbgResume esOK (fun m =>
      (m.ctx 0 0).st == .run && m.dbg.halted.isEmpty) = true ∧
    act (exec (.dbgResume 4) (st ready1)) pDbgResume esSTATE (fun _ => true) = true ∧
    act (exec (.dbgFreewheel 255) (st ready1)) pDbgFreewheel esOK (fun m => m.dbg.fwl == [(255, false)] && m.dbg.fwlState == 1) = true ∧
    act (exec (.dbgFreewheel 128) (st ready1)) pDbgFreewheel esRANGE (fun _ => true) = true ∧
    act (exec (.dbgFreewheelEnd 127) (st (dbgMod fun d => { d with fwl := [(127, true)] }))) pDbgFreewheelEnd esOK (fun m => m.dbg.fwl.isEmpty) = true ∧
    act (exec .dbgBrake (st (dbgMod id))) pDbgBrake esOK (fun m => m.dbg.brake == 1 && m.dbg.fwl.has 255) = true ∧
    act (exec .dbgBrake (st ready1)) pDbgBrake esSTATE (fun m => m.dbg.brake == 0) = true ∧
    act (exec .dbgBrakeRelease (st (dbgMod fun d => { d with brake := 3 }))) pDbgBrakeRelease esOK (fun m => m.dbg.brake == 0) = true ∧
    act (exec .dbgBrakeRelease (st ready1)) pDbgBrakeRelease esSTATE (fun _ => true) = true ∧
    ready1.quiet 1 = true ∧ full.quiet 1 = false ∧
    good (exec (.freewheelDrained 1) (st (dbgMod fun d => { d with fwl := [(1, false)] }))) (fun t => t.m.dbg.fwl == [(1, true)] && t.m.kod.evq.map Event.code == [evFreewheelDone]) = true ∧
    good (exec .brakeCut (st (dbgMod fun d => { d with brake := 1 }))) (fun t => t.m.dbg.brake == 2 && (t.m.dbg.brakeRecs.getD 0 {}).taken) = true ∧
    (brakeInputs 9).find? (fun e => e.1 == 1) = some (1, .unit 1) ∧
    good (exec (.brakeMarker 9 1) (st (dbgMod fun d => { d with brake := 2, brakeRecs := [(1, { taken := true })] }))) (fun t =>
      (t.m.dbg.brakeRecs.getD 9 {}).taken && (t.m.dbg.brakeRecs.getD 9 {}).marked.has 1) = true ∧
    good (exec (.brakeMarker 9 1) (st (dbgMod fun d => { d with brake := 2 }))) (fun t => t.m.dbg.brakeRecs.isEmpty) = true ∧
    good (exec (.brakeFabMarkerTimeout 0) (st (dbgMod fun d => { d with brake := 2, brakeRecs := [(unitOfIod 0, { taken := true })] }))) (fun t =>
      (t.m.dbg.brakeRecs.getD (unitOfIod 0) {}).marked.has 2 && (t.m.dbg.brakeRecs.getD (unitOfIod 0) {}).isOpen) = true ∧
    good (exec (.brakeUnitTimeout 9) (st (dbgMod fun d => { d with brake := 2, brakeRecs := [(9, { taken := true })] }))) (fun t =>
      (t.m.dbg.brakeRecs.getD 9 {}).stopped && (t.m.dbg.brakeRecs.getD 9 {}).incomplete) = true ∧
    good (exec (.traceSpaceReturn 19) (st (dbgMod fun d => { d with lost := [(19, 3)] }))) (fun t =>
      (t.m.dbg.buf.getD 19 []).map (fun r => (r.kind, r.data, r.seq)) == [(9, 3, 0)] && t.m.dbg.lost.getD 19 0 == 0) = true := by decide +kernel
def sample (n : Nat) (w : Fin 8) (k : Int) : AuditSample := { excused := n, window := w, age := 0, peer := false, leak := k }
theorem test_audits :
    ready1.audited (.slots 0) = true ∧ sampleOk (.slots 0) (sample 1 2 0) = true ∧ ready1.hasWindow (.slots 0) (sample 1 2 0) = true ∧
    good (exec (.auditSample (.slots 0) (sample 1 2 0)) (st ready1)) (fun t => t.m.kod.evq == [] && t.m.net.audits.all fun a => !a.2.fault && a.2.inflight == 1) = true ∧
    good (exec (.auditSample (.slots 0) (sample 0 0 2)) (st ready1)) (fun t => t.m.kod.evq.map Event.code == [evLedgerFault] && t.m.net.audits.all fun a => a.2.fault) = true ∧
    leaves (exec (.auditSample (.slots 0) (sample 0 0 2)) (st { ready1 with mod := { mstate := 1 } })) (st { ready1 with mod := { mstate := 1 } }) { ready1 with mod := { mstate := 1 } } = true := by
  decide +kernel

/-- Credits of port 4 of router 3 towards router 2: one spent, one of them freed and reported (10 R300). -/
theorem test_credit_ledger :
    (let m := netMod fun n => { n with spent := [(171, 1)], freed := [(171, 1)] }
     sampleOk (.credit (.router 3 4) .bn 0) (sample 0 0 0) = true ∧ m.audited (.credit (.router 3 4) .bn 0) = true ∧
     ((m.sideband (.credit (.router 3 4) .bn 0)).ledgerTerms (.credit (.router 3 4) .bn 0)) = ⟨8, [7, 0], 1⟩ ∧
     good (exec (.auditSample (.credit (.router 3 4) .bn 0) (sample 0 0 0)) (st m)) (fun t => t.m.kod.evq == [] && t.m.net.reports == [(171, (1, 0))]) = true) := by
  decide +kernel

/-! Keys of the boot ROM (22 R596, R597). -/

/-- FIPS 180-4, the message "abc". -/
theorem test_sha256 : beNat (sha256 (infoBytes "abc")) = 0xba7816bf8f01cfea414140de5dae2223b00361a396177a9cb410ff61f20015ad := by decide +kernel
/-- RFC 5869, test case 3: the salt and the info string are empty, the input is 22 bytes 0x0B. -/
theorem test_hkdf_extract : beNat (hmac256 (List.replicate 32 0) (List.replicate 22 0x0B)) =
    0x19ef24a32c717b167f33a91d6f648bdf96596776afdb6377ac434c1c293ccb04 := by decide +kernel
theorem test_boot_keys :
    (hkdfScalar (List.replicate 32 0) (infoBytes "VZN DeviceID")).isSome = true ∧ State.reset.m.readUds State.reset.fuse 0 = some State.reset.fuse.uds ∧
    ({ ready1 with sec := { dieKeys := [(0, ⟨none, none⟩)] } } : Mod).readUds {} 0 = none := by decide +kernel

/-! Start-up and registers. -/

def standby (f : ModS → ModS) : Mod := { fwMod id with mod := f { mstate := 1 } }
theorem test_start_up :
    good (exec (.powerOn false 1) (fs (standby fun x => { x with mstate := 0 }))) (fun t => t.m.mod.mstate == 1 && t.m.pwr.refOsc && t.m.saf.segOpen.has 0 && !(t.m.saf.segOpen.has 22)) = true ∧
    leaves (exec (.powerOn true 0) (st ready1)) (st ready1) ready1 = true ∧
    good (exec .powerOff (st (counting 5))) (fun t => t.m.mod.mstate == 0 && t.m.ctr == [] && t.m.parts.parts == []) = true ∧
    act (exec (.modStart true) (fs (standby id))) pModStart esOK (fun m => m.mod.startReq) = true ∧
    act (exec (.modStart false) (fs (standby id))) pModStart esSTATE (fun m => !m.mod.startReq) = true ∧
    act (exec .modStop (st (counting 5))) pModStop esOK (fun m => m.mod.mstate == 1 && (m.counter kHifDbBad 0).value == 5) = true ∧
    act (exec .modStop (fs (standby id))) pModStop esSTATE (fun _ => true) = true ∧
    good (exec (.secureBoot true true 15) (fs (standby fun x => { x with startReq := true }))) (fun t => t.m.mod.mstate == 2 && t.m.mod.bringStep == 3 && t.m.sec.bootResult == 0) = true ∧
    good (exec (.secureBoot true false 15) (fs (standby fun x => { x with startReq := true }))) (fun t => t.m.mod.mstate == 6 && t.m.sec.factoryBad) = true ∧
    good (exec (.secureBoot true true 15) (st { ready1 with mod := { mstate := 2 } })) (fun t => t.m.mod.mstate == 6 && t.m.sec.bootResult == 4) = true ∧
    good (exec (.secureBoot false true 15) (fs (standby fun x => { x with startReq := true }))) (fun t => t.m.mod.mstate == 1) = true ∧
    ({ pending := 3, lkg := 5 } : SecS).candidates.take 3 = [3, 5, 0] ∧
    good (exec (.coldBringup 0 0) (st { ready1 with mod := { mstate := 2, bringStep := 3 } })) (fun t => t.m.mod.mstate == 3 && (t.m.port 31).state == 1 && t.m.mem.keyGen.getD 0xFE 0 == 1) = true ∧
    good (exec .readyReached (st { ready1 with mod := { mstate := 3 }, parts := {}, mem := { stackTab := (List.range 16).map fun i => (i, { state := 1 }) } })) (fun t => t.m.mod.mstate == 4) = true ∧
    leaves (exec .readyReached (st { ready1 with mod := { mstate := 3 } })) (st { ready1 with mod := { mstate := 3 } }) { ready1 with mod := { mstate := 3 } } = true := by decide +kernel
theorem test_registers :
    leaves (exec (.registerWrite 1 (.undefinedOffset 9) 5) (st ready1)) (st ready1) ready1 = true ∧
    good (exec (.registerWrite 1 .hifAqSqbase 5) (st ready1)) (fun t => (t.m.fn 1).sqBase == 5) = true ∧
    good (exec (.registerWrite 1 .hifAqSqbase 5) (st (fnMod { aqEn := true }))) (fun t => (t.m.fn 1).sqBase == 0) = true ∧
    good (exec (.registerWrite 1 .hifCtl 0x40000000) (st ready1)) (fun t => (t.m.fn 1).aqEn && good (exec (.registerWrite 1 .hifCtl 0) t) fun u => !(u.m.fn 1).aqEn) = true ∧
    good (exec (.registerWrite 1 (.msix 0) 5) (st ready1)) (fun t => (t.m.fn 1).msix == [(0, 5)]) = true ∧
    good (exec (.registerWrite 1 (.msix 3) 1) (st ready1)) (fun t => (t.m.fn 1).msix == [(3, 1)]) = true ∧
    good (exec (.registerWrite 1 (.msix 3) 0) (st (fnMod { pba := [(0, ())] }))) (fun t => (t.m.fn 1).pba.isEmpty && t.m.host.msixSent == [(1, 0)]) = true ∧
    leaves (exec (.registerWrite 1 (.msix (4 * msixVectors 1)) 5) (st ready1)) (st ready1) ready1 = true ∧
    good (exec (.registerWrite 0 (.csuStat 0) 0x8000000) (st (tile0 { recValid := true }))) (fun t => !(t.m.tile 0).recValid) = true ∧
    good (exec (.registerWrite 0 (.csuStat 0) 0) (st (tile0 { recValid := true }))) (fun t => (t.m.tile 0).recValid) = true ∧
    good (exec (.registerWrite 0 (.halfStat 2) 0x80) (st (halfMod { droop := true } {}))) (fun t => !(t.m.half 2).droop) = true ∧
    good (exec (.registerWrite 1 .mbxStat 0x40000000) (st (fnMod { mbxDone := true }))) (fun t => !(t.m.fn 1).mbxDone) = true ∧
    good (exec (.registerWrite 1 .tbyp 0x7FFF) (st ready1)) (fun t => t.m.dbg.tbyp == 0x3FFF) = true := by decide +kernel

/-! The whole block. -/

theorem test_queue :
    good (step { st ready1 with pending := [.hintDead at0 5 6, .fenceI at0] }) (fun t => t.pending == [.fenceI at0] && (t.m.ctx 0 0).instret == 1) = true ∧
    good (step (st ready1)) (fun t => t.m.ticks == 1 && t.pending == []) = true ∧
    good (step { State.reset with pending := [.powerOff] }) (fun t => t.m.mod.mstate == 0) = true ∧
    good (step { fs (fwMod id) with pending := [.fwSvnCommit 1] }) (fun t => t.fuse.svnMin == [(1, 2)]) = true ∧
    (∀ k ∈ [0, 1, 2, 3, 4], State.reset.fuse.svnMin.getD k 0 ≤ 64) := by decide +kernel

end Sys2Proof.Tests
end

section
/-! The control network (09 Table 9.4): what taking a message from it, the end of a task and an emptied saddle change and what they leave alone;
then the obligation. -/

namespace Sys2Proof.Machine

/-! A fold of an operation that keeps a part of the module. -/

theorem forEach_keeps {α β : Type} (g : Mod → β) {f : α → Mod → Mod} (step : ∀ x m, g (f x m) = g m) (l : List α) (m : Mod) :
    g (forEach l f m) = g m := by
  induction l generalizing m with
  | nil => rfl
  | cons x l ih => exact (ih (f x m)).trans (step x m)

@[simp] theorem forEach_nil {α : Type} (f : α → Mod → Mod) (m : Mod) : forEach [] f m = m := rfl

/-! Contexts, tiles and commands read back. -/

theorem Mod.ctx_of_ctxs {m n : Mod} (h : n.ctxs = m.ctxs) (t s : Nat) : n.ctx t s = m.ctx t s := by simp only [Mod.ctx, h]
theorem Mod.cmd?_of_host {m n : Mod} (h : n.host = m.host) (c : Nat) : n.cmd? c = m.cmd? c := by simp only [Mod.cmd?, h]

theorem Mod.cmd?_updCmd {m : Mod} {c : Nat} {h : HCmd} (hc : m.cmd? c = some h) (f : HCmd → HCmd) : (m.updCmd c f).cmd? c = some (f h) := by
  have e : m.host.cmds.adj c f = m.host.cmds.put c (f h) := Tab.adj_of_find hc f
  simp only [Mod.cmd?, Mod.updCmd, Mod.updHost, e, Tab.find_put_same]

/-! Taking a message (23 R634): the dies it reaches are stamped. -/

/-- A stamped message changes the causal counters of dies, nothing else. -/
theorem Mod.stampPath_frame (m : Mod) (a : Nat) (l : List Nat) : ∃ d, m.stampPath a l = { m with dies := d } := by
  induction l generalizing m a with
  | nil => exact ⟨_, rfl⟩
  | cons d l ih =>
    obtain ⟨x, e⟩ := ih (m.stampMsg a d) d
    exact ⟨x, e⟩

theorem Mod.stampTo_frame (m : Mod) (a b : Nat) : ∃ d, m.stampTo a b = { m with dies := d } := m.stampPath_frame a (dieHops a b)

/-- The module once a die has taken a control flit off the network. -/
def Mod.tookCn (m : Mod) (die : Nat) (f : CnFlit) : Mod :=
  (m.updNet fun n => { n with cn := n.cn.erase f }).stampTo (f.src.getD die) die

theorem Mod.takeCn_of_find {m : Mod} {p : CnFlit → Bool} {f : CnFlit} (h : m.net.cn.find? p = some f) (die : Nat) :
    m.takeCn die p = some (f, m.tookCn die f) := by
  simp only [Mod.takeCn, h]
  rfl

theorem Mod.tookCn_frame (m : Mod) (die : Nat) (f : CnFlit) :
    ∃ d, m.tookCn die f = { m with net := { m.net with cn := m.net.cn.erase f }, dies := d } :=
  (m.updNet fun n => { n with cn := n.cn.erase f }).stampTo_frame (f.src.getD die) die

section
variable (m : Mod) (die : Nat) (f : CnFlit)

@[simp] theorem Mod.tookCn_cn : (m.tookCn die f).net.cn = m.net.cn.erase f := by obtain ⟨_, e⟩ := m.tookCn_frame die f; rw [e]
@[simp] theorem Mod.tookCn_ctxs : (m.tookCn die f).ctxs = m.ctxs := by obtain ⟨_, e⟩ := m.tookCn_frame die f; rw [e]
@[simp] theorem Mod.tookCn_tiles : (m.tookCn die f).tiles = m.tiles := by obtain ⟨_, e⟩ := m.tookCn_frame die f; rw [e]
@[simp] theorem Mod.tookCn_parts : (m.tookCn die f).parts = m.parts := by obtain ⟨_, e⟩ := m.tookCn_frame die f; rw [e]
@[simp] theorem Mod.tookCn_sched : (m.tookCn die f).sched = m.sched := by obtain ⟨_, e⟩ := m.tookCn_frame die f; rw [e]
@[simp] theorem Mod.tookCn_host : (m.tookCn die f).host = m.host := by obtain ⟨_, e⟩ := m.tookCn_frame die f; rw [e]
@[simp] theorem Mod.ctx_tookCn (t s : Nat) : (m.tookCn die f).ctx t s = m.ctx t s := ctx_of_ctxs (m.tookCn_ctxs die f) t s
@[simp] theorem Mod.cmd?_tookCn (c : Nat) : (m.tookCn die f).cmd? c = m.cmd? c := cmd?_of_host (m.tookCn_host die f) c
@[simp] theorem Mod.otherTile_tookCn (p : Nat) (t : TileId) : (m.tookCn die f).otherTile p t = m.otherTile p t := by
  simp [Mod.otherTile, Mod.tilesOf, Mod.part, Mod.tile]

end

/-! An emptied saddle. -/

/-- The core goes on with its context, or turns to another one that can run. -/
theorem Mod.pickCur_cases (m : Mod) (t : Nat) : m.pickCur t = m ∨ ∃ c, m.pickCur t = m.updTile t fun x => { x with cur := c } := by
  simp only [Mod.pickCur]
  split
  · exact .inl rfl
  · split
    · exact .inr ⟨_, rfl⟩
    · exact .inl rfl

/-- Which context a core runs is a matter of tiles alone. -/
theorem Mod.pickCur_frame (m : Mod) (t : Nat) : ∃ ts, m.pickCur t = { m with tiles := ts } := by
  obtain e | ⟨c, e⟩ := m.pickCur_cases t
  · exact ⟨m.tiles, e⟩
  · exact ⟨_, e⟩

@[simp] theorem Mod.pickCur_win (m : Mod) (t : Nat) : ((m.pickCur t).tile t).win = (m.tile t).win := by
  obtain e | ⟨c, e⟩ := m.pickCur_cases t
  · rw [e]
  · rw [e, tile_updTile]

section
variable (m : Mod) (t s : Nat)

@[simp] theorem Mod.emptySaddle_ctx : (m.emptySaddle t s).ctx t s = { trig := (m.ctx t s).trig, mcsr := (m.ctx t s).mcsr } := by
  unfold Mod.emptySaddle
  obtain ⟨_, e⟩ := Mod.pickCur_frame _ t
  rw [e]
  exact m.ctx_setCtx t s _
@[simp] theorem Mod.emptySaddle_cn : (m.emptySaddle t s).net.cn = m.net.cn := by
  unfold Mod.emptySaddle
  obtain ⟨_, e⟩ := Mod.pickCur_frame _ t
  rw [e]
  rfl
@[simp] theorem Mod.emptySaddle_sched : (m.emptySaddle t s).sched = m.sched := by
  unfold Mod.emptySaddle
  obtain ⟨_, e⟩ := Mod.pickCur_frame _ t
  rw [e]
  rfl
@[simp] theorem Mod.emptySaddle_host : (m.emptySaddle t s).host = m.host := by
  unfold Mod.emptySaddle
  obtain ⟨_, e⟩ := Mod.pickCur_frame _ t
  rw [e]
  rfl
@[simp] theorem Mod.emptySaddle_cmd? (c : Nat) : (m.emptySaddle t s).cmd? c = m.cmd? c := cmd?_of_host (m.emptySaddle_host t s) c
@[simp] theorem Mod.emptySaddle_win : ((m.emptySaddle t s).tile t).win.getD s (0, 0) = (0, 0) := by
  have base (n : Mod) : ((n.updTile t fun x => { x with win := x.win.put s (0, 0) }).tile t).win.getD s (0, 0) = (0, 0) := by
    rw [Mod.tile_updTile, Tab.getD_put_same]
  simp only [Mod.emptySaddle, Mod.pickCur_win]
  exact base _

end

/-! What a command learns of the work and the end of a task. -/

/-- What is counted of a command's work is its own, beside counters and events. -/
theorem Mod.workDone_of_cmd {m : Mod} {c : Nat} {h : HCmd} (hc : m.cmd? c = some h) (em hm cyc mis : Nat) :
    Mod.Stores { m with host := { m.host with cmds := m.host.cmds.put c { h with
      emBytes := h.emBytes + em, hmBytes := h.hmBytes + hm, taskCyc := h.taskCyc + cyc, csumis := h.csumis + mis } } }
      (m.workDone c em hm cyc mis) := by
  have add {a n : Mod} (x : a.Stores n) (k q d : Nat) : a.Stores (if d = 0 then n else n.countBy k q d) := by
    split
    · exact x
    · exact x.countBy
  have hf : Tab.find c m.host.cmds = some h := hc
  simp only [Mod.workDone, hf]
  split
  · exact .refl _
  · split
    · exact .refl _
    · split
      · exact add (add (add (add (.refl _) _ _ _) _ _ _) _ _ _) _ _ _
      · exact .refl _

theorem Mod.workDone_of_none {m : Mod} {c : Nat} (hc : m.cmd? c = none) (em hm cyc mis : Nat) : m.workDone c em hm cyc mis = m := by
  have hf : Tab.find c m.host.cmds = none := hc
  simp only [Mod.workDone, hf]

/-- Counting a command's work touches commands, counters, events and what a store may touch. -/
theorem Mod.workDone_frame (m : Mod) (c em hm cyc mis : Nat) :
    ∃ cs, Mod.Stores { m with host := { m.host with cmds := cs } } (m.workDone c em hm cyc mis) := by
  cases hc : m.cmd? c with
  | none => exact ⟨m.host.cmds, by rw [workDone_of_none hc]; exact .refl _⟩
  | some h => exact ⟨_, workDone_of_cmd hc em hm cyc mis⟩

section
variable (m : Mod) (c em hm cyc mis : Nat)

@[simp] theorem Mod.workDone_ctxs : (m.workDone c em hm cyc mis).ctxs = m.ctxs := by
  obtain ⟨_, _, _, _, _, _, e⟩ := m.workDone_frame c em hm cyc mis
  rw [e]
@[simp] theorem Mod.workDone_net : (m.workDone c em hm cyc mis).net = m.net := by
  obtain ⟨_, _, _, _, _, _, e⟩ := m.workDone_frame c em hm cyc mis
  rw [e]

end

/-- The work counted leaves the status, the flags and the ended tasks of its command alone. -/
theorem Mod.workDone_cmd? {m : Mod} {c : Nat} {h : HCmd} (hc : m.cmd? c = some h) (em hm cyc mis : Nat) :
    ∃ g, (m.workDone c em hm cyc mis).cmd? c = some g ∧ g.tasksEnded = h.tasksEnded ∧ g.status = h.status ∧ g.aflags = h.aflags := by
  obtain ⟨_, _, _, _, _, e⟩ := workDone_of_cmd hc em hm cyc mis
  rw [e]
  exact ⟨_, Tab.find_put_same _ _ _, rfl, rfl, rfl⟩

/-- The end of a task touches its command and, in a STEP, the item it worked on. -/
theorem Mod.taskOver_frame (m : Mod) (k : Task) (st : Nat) (detail : BitVec 128) (exit : Option Nat) (fl : BitVec 4) :
    ∃ q cs, m.taskOver k st detail exit fl = { m with seq := q, host := { m.host with cmds := cs } } := by
  unfold Mod.taskOver
  split
  · exact ⟨_, _, rfl⟩
  · dsimp only
    split
    · exact ⟨_, _, rfl⟩
    · exact ⟨_, _, rfl⟩

section
variable (m : Mod) (k : Task) (st : Nat) (detail : BitVec 128) (exit : Option Nat) (fl : BitVec 4)

@[simp] theorem Mod.taskOver_ctxs : (m.taskOver k st detail exit fl).ctxs = m.ctxs := by
  obtain ⟨_, _, e⟩ := m.taskOver_frame k st detail exit fl
  rw [e]
@[simp] theorem Mod.taskOver_net : (m.taskOver k st detail exit fl).net = m.net := by
  obtain ⟨_, _, e⟩ := m.taskOver_frame k st detail exit fl
  rw [e]
@[simp] theorem Mod.taskOver_sched : (m.taskOver k st detail exit fl).sched = m.sched := by
  obtain ⟨_, _, e⟩ := m.taskOver_frame k st detail exit fl
  rw [e]
@[simp] theorem Mod.ctx_taskOver (t s : Nat) : (m.taskOver k st detail exit fl).ctx t s = m.ctx t s :=
  ctx_of_ctxs (m.taskOver_ctxs k st detail exit fl) t s

end

/-- A task that is over counts for its command, with its flags; its status ranks with the command's, unless a STEP's item keeps it (14 R398, R399). -/
theorem Mod.taskOver_cmd? {m : Mod} {k : Task} {h : HCmd} (hc : m.cmd? k.cmd = some h) {st : Nat}
    (hst : k.item = none ∨ ¬(st = stPOISON ∨ st = stSHARED)) (detail : BitVec 128) (exit : Option Nat) (fl : BitVec 4) :
    ∃ g, (m.taskOver k st detail exit fl).cmd? k.cmd = some g ∧ g.tasksEnded = h.tasksEnded + 1 ∧ g.status = worse h.status st ∧
      g.aflags = h.aflags ||| fl := by
  have keeps : (k.item.isSome && (st = stPOISON || st = stSHARED)) = false := by
    obtain hi | hs := hst
    · simp [hi]
    · simp only [hs, decide_false, Bool.and_false, ← Bool.decide_or]
  unfold Mod.taskOver
  refine ⟨_, cmd?_updCmd (h := h) ?_ _, ?_⟩
  · split
    · exact hc
    · split <;> exact hc
  · simp [keeps, HCmd.mark]

/-! A task that is to start again. -/

section
variable (m : Mod) (k : Task) (l : List TileId)

@[simp] theorem Mod.relaunch_ctx (t s : Nat) : (m.relaunch k l).ctx t s = m.ctx t s := rfl
@[simp] theorem Mod.relaunch_host : (m.relaunch k l).host = m.host := rfl
@[simp] theorem Mod.relaunch_ready_one (t : TileId) :
    (m.relaunch k [t]).sched.ready = m.sched.ready ++ [{ k with avoid := t :: k.avoid.filter fun x => x != t }] := by
  have avoids : (fun x => !([t].contains x)) = fun x => x != t := by
    funext x
    simp only [List.contains_cons, List.contains_nil, Bool.or_false, bne]
  simp only [Mod.relaunch, Mod.updSched_sched, avoids, List.singleton_append]

end

/-! The end of a task at its scheduler (04 R152). -/

/-- The tags of a task that ended OK go into the affinity directory; its command learns of its work and its end; its saddle is emptied. -/
theorem Mod.reapTask_eq {m : Mod} {t : TileId} {sd : SaddleId} {k : Task} {st : Nat} (hk : (m.ctx t.val sd.val).task = some k)
    (he : (m.ctx t.val sd.val).ending = some st) :
    ∃ (n : Mod) (cyc : Nat) (detail : BitVec 128) (exit : Option Nat), n.ctxs = m.ctxs ∧ n.net = m.net ∧ n.host = m.host ∧
      m.reapTask t sd = ((n.workDone k.cmd 0 0 cyc 0).taskOver k st detail exit (m.ctx t.val sd.val).tflags).emptySaddle t.val sd.val := by
  simp only [Mod.reapTask, hk, he]
  refine ⟨_, _, _, _, ?_, ?_, ?_, rfl⟩
  all_goals
    split
    · refine forEach_keeps _ (fun i n => ?_) _ _
      split <;> rfl
    · rfl

section
variable {m : Mod} {t : TileId} {sd : SaddleId} {k : Task} {st : Nat}
  (hk : (m.ctx t.val sd.val).task = some k) (he : (m.ctx t.val sd.val).ending = some st)
include hk he

theorem Mod.reapTask_ctx : (m.reapTask t sd).ctx t.val sd.val =
    { trig := (m.ctx t.val sd.val).trig, mcsr := (m.ctx t.val sd.val).mcsr } := by
  obtain ⟨n, cyc, _, _, hctx, -, -, e⟩ := reapTask_eq hk he
  have hn : (n.workDone k.cmd 0 0 cyc 0).ctx t.val sd.val = m.ctx t.val sd.val :=
    ctx_of_ctxs ((n.workDone_ctxs k.cmd 0 0 cyc 0).trans hctx) t.val sd.val
  simp [e, hn]
theorem Mod.reapTask_cn : (m.reapTask t sd).net.cn = m.net.cn := by
  obtain ⟨n, cyc, _, _, -, hnet, -, e⟩ := reapTask_eq hk he
  simp [e, hnet]
theorem Mod.reapTask_win : ((m.reapTask t sd).tile t.val).win.getD sd.val (0, 0) = (0, 0) := by
  obtain ⟨n, cyc, _, _, -, -, -, e⟩ := reapTask_eq hk he
  simp [e]
theorem Mod.reapTask_cmd? {h : HCmd} (hc : m.cmd? k.cmd = some h) (hi : k.item = none) :
    ∃ g, (m.reapTask t sd).cmd? k.cmd = some g ∧ g.tasksEnded = h.tasksEnded + 1 ∧ g.status = worse h.status st ∧
      g.aflags = h.aflags ||| (m.ctx t.val sd.val).tflags := by
  obtain ⟨n, cyc, detail, exit, -, -, hhost, e⟩ := reapTask_eq hk he
  obtain ⟨w, hw, wEnded, wStatus, wFlags⟩ := workDone_cmd? ((cmd?_of_host hhost k.cmd).trans hc) 0 0 cyc 0
  obtain ⟨g, hg, gEnded, gStatus, gFlags⟩ := taskOver_cmd? hw (.inl hi) detail exit (m.ctx t.val sd.val).tflags
  rw [e, emptySaddle_cmd?]
  exact ⟨g, hg, wEnded ▸ gEnded, wStatus ▸ gStatus, wFlags ▸ gFlags⟩

end

/-! The commands of the control network. -/

section
variable {s : State}

theorem execCnTaskend_first {t : TileId} {d : SaddleId} {f : CnFlit} {k : Task}
    (hf : s.m.net.cn.find? (fun f => f.op == .taskend && f.a == saddleKey t d) = some f)
    (hk : (s.m.ctx t.val d.val).task = some k) (hr : k.retry = []) :
    execCnTaskend t d s = Becomes s ((s.m.tookCn (8 + s.m.taskIod t.val d.val) f).reapTask t d) := by
  simp [execCnTaskend, Mod.takeCn_of_find hf, hk, hr, Becomes]

/-- A first checksum failure empties the saddle and relaunches the task, or ends it where no other tile is left (03 R112). -/
theorem execCnFault_first {t : TileId} {d : SaddleId} {f : CnFlit} {k : Task} {r : MatRec}
    (hf : s.m.net.cn.find? (fun f => f.op == .fault && f.a == saddleKey t d) = some f)
    (hk : (s.m.ctx t.val d.val).task = some k) (hr : k.retry = []) (hm : (s.m.ctx t.val d.val).mrec = some r) :
    execCnFault t d s = Becomes s (
      let n := s.m.tookCn (8 + s.m.taskIod t.val d.val) f
      if s.m.otherTile k.part.val t then (n.emptySaddle t.val d.val).relaunch { k with retry := [(t, r)] } [t]
      else (n.taskOver k stARITH (faultDetail fkCHECKSUM t.val 0 k.index 0 0) none (s.m.ctx t.val d.val).tflags).emptySaddle t.val d.val) := by
  simp [execCnFault, Mod.takeCn_of_find hf, hk, hr, hm, Becomes]

end

/-- Settles O26: with no unit stopped, each command takes its flit (`tookCn`); an end reaps the saddle (`reapTask_eq`), a first checksum failure
relaunches the task or ends it ARITH (`execCnFault_first`). -/
theorem controlNetwork : Obligations.ControlNetwork := by
  intro s hb
  dsimp only
  have free (u : Nat) (f : Mod → Mod) : s.m.atUnit u f = f s.m := Mod.atUnit_free (Mod.heldAt_of_not_braked hb u) f
  refine ⟨fun k hroute => ?doorbellStays, fun k f hroute hf => ?doorbell, fun k f hf => ?cmd, fun k f hf => ?cmpl, fun k e rest hk hq => ?event,
    fun t d f k hf hk hr st he => ?taskend, fun t d f k r hf hk hr hm => ⟨fun ho => ?relaunch, fun ho => ?fails⟩⟩
  case doorbellStays => simp [execCnDoorbell, free, hroute, Becomes]
  case doorbell => simp [execCnDoorbell, free, hroute, Mod.takeCn_of_find hf, Mod.tookCn, Becomes]
  case cmd => simp [execCnCmd, free, Mod.takeCn_of_find hf, Mod.tookCn, Becomes]
  case cmpl => simp [execCnCmpl, free, Mod.takeCn_of_find hf, Mod.tookCn, Becomes]
  case event => simp [execCnEvent, free, hk, hq, Becomes, Kod.record]
  case taskend =>
    have hk' : ((s.m.tookCn (8 + s.m.taskIod t.val d.val) f).ctx t.val d.val).task = some k := by simpa using hk
    have he' : ((s.m.tookCn (8 + s.m.taskIod t.val d.val) f).ctx t.val d.val).ending = some st := by simpa using he
    refine ⟨_, execCnTaskend_first hf hk hr, ?_, ?_, ?_, fun h hc hi => ?_⟩
    · simpa using Mod.reapTask_ctx hk' he'
    · simpa using Mod.reapTask_cn hk' he'
    · exact Mod.reapTask_win hk' he'
    · simpa using Mod.reapTask_cmd? hk' he' (h := h) (by simpa using hc) hi
  case relaunch =>
    refine ⟨_, execCnFault_first hf hk hr hm, ?_, ?_, ?_⟩
    all_goals simp [ho]
  case fails =>
    refine ⟨_, execCnFault_first hf hk hr hm, ?_, ?_, fun h hc => ?_⟩
    · simp [ho]
    · simp [ho]
    · have hc' : (s.m.tookCn (8 + s.m.taskIod t.val d.val) f).cmd? k.cmd = some h := by simpa using hc
      obtain ⟨g, hg, ended, status, -⟩ := Mod.taskOver_cmd? hc' (.inr (by decide : ¬(stARITH = stPOISON ∨ stARITH = stSHARED)))
        (faultDetail fkCHECKSUM t.val 0 k.index 0 0) none (s.m.ctx t.val d.val).tflags
      exact ⟨g, by simpa [ho] using hg, ended, status⟩

end Sys2Proof.Machine
end

section
/-! The vector unit's registers and operations (04 R136, R138): what each lane of a register built from lanes holds, and what an operation leaves
that the core issues; then the lane-wise FP32 operations. -/

namespace Sys2Proof.Machine

/-! Bytes of numbers. -/

@[simp] theorem length_leBytes (x n : Nat) : (leBytes x n).length = n := by
  induction n generalizing x with
  | zero => rfl
  | succ n ih => simp [leBytes, ih]

/-- The number that `n` bytes of `x` spell. -/
theorem leNat_leBytes (x n : Nat) : leNat (leBytes x n) = x % 256 ^ n := by
  induction n generalizing x with
  | zero => simp [leBytes, leNat, Nat.mod_one]
  | succ n ih => simp [leBytes, leNat, ih, Nat.pow_succ', Nat.mod_mul]

theorem leNat_append (l r : List Byte) : leNat (l ++ r) = leNat l + 256 ^ l.length * leNat r := by
  induction l with
  | nil => simp [leNat]
  | cons b l ih => simp only [List.cons_append, leNat, ih, List.length_cons, Nat.pow_succ', Nat.mul_add, Nat.mul_assoc, Nat.add_assoc]

/-! Lanes. -/

/-- The number that the bytes of words spell holds word `i` at bit `32 * i`. -/
theorem leNat_words_shift (l : List W32) (i : Nat) :
    leNat (l.flatMap fun w => leBytes w.toNat 4) / 2 ^ (32 * i) % 2 ^ 32 = (l.getD i 0).toNat := by
  induction l generalizing i with
  | nil => simp [leNat]
  | cons w l ih =>
    have hw : w.toNat < 2 ^ 32 := w.isLt
    have first_word : leNat ((w :: l).flatMap fun w => leBytes w.toNat 4) =
        w.toNat + 2 ^ 32 * leNat (l.flatMap fun w => leBytes w.toNat 4) := by
      simp only [List.flatMap_cons, leNat_append, leNat_leBytes, length_leBytes]
      omega
    rw [first_word]
    cases i with
    | zero => simpa using hw
    | succ i =>
      have next : 2 ^ (32 * (i + 1)) = 2 ^ 32 * 2 ^ (32 * i) := by rw [← Nat.pow_add]; congr 1; omega
      rw [next, ← Nat.div_div_eq_div_mul, Nat.add_mul_div_left _ _ (by decide), Nat.div_eq_of_lt hw, Nat.zero_add]
      simpa using ih i

theorem toNat_lane_ofNat (x : Nat) {i : Nat} (hi : i < 64) : (lane (BitVec.ofNat 2048 x) i).toNat = x / 2 ^ (32 * i) % 2 ^ 32 := by
  apply Nat.eq_of_testBit_eq
  intro j
  simp only [lane, BitVec.testBit_toNat, BitVec.getLsbD_extractLsb', BitVec.getLsbD_ofNat, Nat.testBit_mod_two_pow, Nat.testBit_div_two_pow]
  by_cases hj : j < 32
  · have inside : j + 32 * i < 2048 := by omega
    simp [hj, inside, Nat.add_comm]
  · simp [hj]

/-- A register made from lanes holds each of them (04 R138). -/
theorem lane_vecOf {l : List W32} {i : Nat} (hi : i < 64) : lane (vecOf l) i = l.getD i 0 :=
  BitVec.eq_of_toNat_eq ((toNat_lane_ofNat _ hi).trans (leNat_words_shift l i))

theorem lane_vecOf_range (f : Nat → W32) {i : Nat} (hi : i < 64) : lane (vecOf ((List.range 64).map f)) i = f i := by
  rw [lane_vecOf hi]
  simp [hi]

/-! An operation of the vector unit (04 R136). -/

/-- An operation that the core issues with room in its context's queue takes effect, if it passes the residue check. -/
theorem Mod.vecDo_of_issues {m n : Mod} {a : At} (h : m.Issues a n) (hq : (m.ctxAt a).vq < 8) (f : Mod → Mod) :
    m.vecDo a false f = f n :=
  core_of_issues h (decide_eq_false (Nat.not_le.mpr hq)) _

/-- An operation with no new NaN to fault on writes its registers, adds its flags and stands in the queue. -/
theorem Mod.vec_of_issues {s : State} {a : At} {n : Mod} (h : s.m.Issues a n) (hq : (s.m.ctxAt a).vq < 8) {f : Ctx → VRes} {r : VRes}
    (hr : f (s.m.ctxAt a) = r) (hnan : ((s.m.ctxAt a).nanFault && r.newNan) = false) :
    s.go (fun m => m.vec a false f) = Retires s n a 4 { r.regs.foldl (fun c (p : Nat × VecData) => c.setV p.1 p.2) (s.m.ctxAt a) with
      tflags := (s.m.ctxAt a).tflags ||| BitVec.ofNat 4 r.flags, vq := (s.m.ctxAt a).vq + 1 } := by
  have same : n.ctxAt a = s.m.ctxAt a := h.ctx
  rw [State.go_eq, vec, vecDo_of_issues h hq]
  simp only [same, hr, hnan, vecRetire, retire, updCtx, h.ctx, Bool.false_eq_true, if_false]
  rfl

/-! Lane-wise FP32 operations (02 Table 2.8). -/

/-- Each lane of the result is the rounded value of the operands' lanes. -/
theorem lane_fpLanes (f : List Val → Val) (ops : List VecData) (vd : VReg) :
    ∃ v, (fpLanes f ops vd).regs = [(vd.val, v)] ∧
      ∀ i < 64, (lane v i).toNat = toF32 (f (ops.map fun o => ofF32 (lane o i).toNat)) % 2 ^ 32 := by
  refine ⟨_, rfl, fun i hi => ?_⟩
  rw [List.map_map, lane_vecOf_range _ hi]
  simp [List.map_map, Function.comp_def]

/-- NAN_SEEN is the one flag, and an operand lane that is a NaN raises it. -/
theorem fpLanes_flags (f : List Val → Val) (ops : List VecData) (vd : VReg) :
    BitVec.ofNat 4 (fpLanes f ops vd).flags =
      if (List.range 64).any fun i => ops.any fun o => isNan32 (lane o i) then BitVec.ofNat 4 flNAN else 0 := by
  simp only [fpLanes, List.any_map, Function.comp_def]
  split <;> rfl

/-- A lane-wise FP32 operation of the registers `rs`, issued where NaNs do not fault. -/
theorem Mod.vec_fpLanes {s : State} {a : At} {n : Mod} (h : s.m.Issues a n) (hn : (s.m.ctxAt a).nanFault = false)
    (hq : (s.m.ctxAt a).vq < 8) (f : List Val → Val) (rs : List VReg) (vd : VReg) :
    ∃ v, s.go (fun m => m.vec a false fun c => fpLanes f (rs.map fun r => c.getV r.val) vd) =
        Retires s n a 4 { (s.m.ctxAt a).setV vd.val v with
          vq := (s.m.ctxAt a).vq + 1,
          tflags := (s.m.ctxAt a).tflags |||
            (if (List.range 64).any (fun i => rs.any fun r => isNan32 (lane ((s.m.ctxAt a).getV r.val) i)) then BitVec.ofNat 4 flNAN
            else 0) } ∧
      ∀ i < 64, (lane v i).toNat = toF32 (f (rs.map fun r => ofF32 (lane ((s.m.ctxAt a).getV r.val) i).toNat)) % 2 ^ 32 := by
  obtain ⟨v, hv, lanes⟩ := lane_fpLanes f (rs.map fun r => (s.m.ctxAt a).getV r.val) vd
  refine ⟨v, ?_, fun i hi => by simpa [Function.comp_def] using lanes i hi⟩
  rw [vec_of_issues h hq rfl (by rw [hn, Bool.false_and]), hv, fpLanes_flags]
  simp only [List.any_map, Function.comp_def, List.foldl_cons, List.foldl_nil]

/-- Settles O7: each operation is `fpLanes` of its own function and operand registers, so `Mod.vec_fpLanes` says what it leaves. -/
theorem vectorFloat : Obligations.VectorFloat := by
  intro s a n vd v1 v2 h hn hq c x y z
  have op := Mod.vec_fpLanes h hn hq (vd := vd)
  simp only [List.forall_mem_cons]
  refine ⟨?add, ?sub, ?mul, ?fma, ?min, ?max, ?abs, ?neg, List.forall_mem_nil _⟩
  case add => exact op (fun l => Val.add (vNth l 0) (vNth l 1)) [v1, v2]
  case sub => exact op (fun l => Val.add (vNth l 0) (vNth l 1).negate) [v1, v2]
  case mul => exact op (fun l => Val.mul (vNth l 0) (vNth l 1)) [v1, v2]
  case fma => exact op (fun l => Val.add (Val.mul (vNth l 0) (vNth l 1)) (vNth l 2)) [v1, v2, vd]
  case min => exact op (fun l => vMin (vNth l 0) (vNth l 1)) [v1, v2]
  case max => exact op (fun l => vMax (vNth l 0) (vNth l 1)) [v1, v2]
  case abs => exact op (fun l => (vNth l 0).abs) [v1]
  case neg => exact op (fun l => (vNth l 0).negate) [v1]

end Sys2Proof.Machine
end

section
/-! What becomes of a command (00, 11 R306): it completes and leaves the queue as it was, faults at an address that does not exist, or is refused
by name. -/

namespace Sys2Proof.Machine

/-- A command completes and leaves the queue as it was. -/
def Answers (o : Out) (s : State) : Prop := Completes o fun t => t.pending = s.pending

section
variable (s : State)

theorem State.go_answers (f : Mod → Mod) : Answers (s.go f) s := ⟨_, rfl, rfl⟩

/-! The dictionary protocol leaves the queue alone (21 R570-R588). -/

@[simp] theorem State.readRo_pending (x : Session) (r : PRow) (i : Nat) : (s.readRo x r i).2.pending = s.pending := by
  unfold State.readRo
  dsimp only
  repeat' split
  all_goals rfl

@[simp] theorem State.readCtr_pending (x : Session) (d : CtrDef) : (s.readCtr x d).2.pending = s.pending := by
  unfold State.readCtr
  dsimp only
  repeat' split
  all_goals rfl

@[simp] theorem State.readOne_pending (x : Session) (n : Nat) : (s.readOne x n).2.pending = s.pending := by
  unfold State.readOne
  dsimp only
  repeat' split
  all_goals simp

@[simp] theorem State.readAll_pending (x : Session) (l : List Nat) : (s.readAll x l).2.pending = s.pending := by
  induction l generalizing s with
  | nil => rfl
  | cons n l ih => exact (ih _).trans (s.readOne_pending x n)

@[simp] theorem State.setParam_pending (t : Transport) (sid : Nat) (r : PRow) (n i : Nat) (v : PVal) :
    (s.setParam t sid r n i v).2.pending = s.pending := by
  simp only [State.setParam, apply_ite Prod.snd, apply_ite State.pending, ite_self]

@[simp] theorem State.svnCommit_pending (t : Nat) : (s.svnCommit t).2.pending = s.pending := by
  unfold State.svnCommit
  dsimp only
  repeat' split
  all_goals rfl

@[simp] theorem State.actFw_pending (n : Nat) (v : PVal) (e : ActEnv) : (s.actFw n v e).2.pending = s.pending := by
  simp only [State.actFw, apply_ite Prod.snd, apply_ite State.pending, State.svnCommit_pending, ite_self]

@[simp] theorem State.act_pending (x : Session) (r : PRow) (n i : Nat) (v : PVal) (e : ActEnv) :
    (s.act x r n i v e).2.pending = s.pending := by
  simp only [State.act, apply_ite Prod.snd, apply_ite State.pending, State.actFw_pending, ite_self]

@[simp] theorem State.markDirty_pending (r : PRow) (x : Nat × State) : (s.markDirty r x).2.pending = x.2.pending := by
  simp only [State.markDirty, apply_ite Prod.snd, apply_ite State.pending, ite_self]

@[simp] theorem State.writeVal_pending (t : Transport) (sid : Nat) (x : Session) (r : PRow) (n i : Nat) (v : PVal) (e : ActEnv) :
    (s.writeVal t sid x r n i v e).2.pending = s.pending := by
  unfold State.writeVal
  dsimp only
  repeat' split
  all_goals simp

@[simp] theorem State.writeOne_pending (t : Transport) (sid : Nat) (x : Session) (e : KEntry) (env : ActEnv) :
    (s.writeOne t sid x e env).2.pending = s.pending := by
  unfold State.writeOne
  dsimp only
  repeat' split
  all_goals simp

@[simp] theorem State.writeAll_pending (t : Transport) (sid : Nat) (x : Session) (l : List KEntry) (env : List ActEnv) :
    (s.writeAll t sid x l env).2.pending = s.pending := by
  induction l generalizing s env with
  | nil => rfl
  | cons e l ih => exact (ih _ _).trans (s.writeOne_pending t sid _ e _)

@[simp] theorem State.request_pending (t : Transport) (f : KFrame) (x : Session) (env : List ActEnv) (sigOk : Bool) :
    (s.request t f x env sigOk).2.pending = s.pending := by
  unfold State.request
  dsimp only
  repeat' split
  all_goals simp

@[simp] theorem State.serve_pending (t : Transport) (f : KFrame) (env : List ActEnv) (sigOk : Bool) :
    (s.serve t f env sigOk).pending = s.pending := by
  unfold State.serve
  dsimp only
  repeat' split
  all_goals simp

@[simp] theorem State.submit_pending (t : Transport) (f : KFrame) (env : List ActEnv) (sigOk : Bool) :
    (s.submit t f env sigOk).pending = s.pending := by
  unfold State.submit
  dsimp only
  repeat' split
  all_goals simp


/-! The outcome of a command, by its kind. -/

theorem State.submit_answers (t : Transport) (f : KFrame) (env : List ActEnv) (sigOk : Bool) : Answers (.next (s.submit t f env sigOk)) s :=
  ⟨_, rfl, s.submit_pending t f env sigOk⟩

variable {s}

/-- A command whose operands pass their check does its work. -/
theorem check_answers {o r : Out} (ho : Answers o s) {ok : Bool} (h : ok = true) : Answers (if ok then o else r) s := by
  rwa [if_pos h]

/-- A command whose operands fail their check is refused by name. -/
theorem check_refuses (o : Out) (n : String) {ok : Bool} (h : ok = false) :
    ∃ name, (if ok then o else .refused (.illFormed n)) = .refused (.illFormed name) := ⟨n, if_neg (by simp [h])⟩

/-- A memory controller answers an access of an address that exists, and faults on any other (11 R306). -/
theorem controller_answers (pa : Nat) (f : Mod → Mod) : let o : Out := if paLimit ≤ pa then .fault (.noSuchAddress pa) else s.go f
    Answers o s ∨ (paLimit ≤ pa ∧ o = .fault (.noSuchAddress pa)) := by
  intro o
  by_cases h : paLimit ≤ pa
  · exact .inr ⟨h, if_pos h⟩
  · exact .inl (by simpa only [o, if_neg h] using s.go_answers f)

/-- A command is an access of a memory controller to an address. -/
def AccessOf (pa : Nat) (c : Instr) : Prop :=
  (∃ a b d, c = .memRead pa a b d) ∨ (∃ a b, c = .memWrite pa a b) ∨ (∃ a, c = .parityDelta pa a) ∨ (∃ a b d, c = .scrub pa a b d)

/-- The checked commands are those of `goIf` and `kdp`; FW_SVN_COMMIT blows fuses; every other command changes the module alone. -/
theorem exec_wellFormed {c : Instr} (h : c.wellFormed = true) :
    Answers (exec c s) s ∨ ∃ pa, paLimit ≤ pa ∧ exec c s = .fault (.noSuchAddress pa) ∧ AccessOf pa c := by
  cases c
  case memRead pa a b d => exact (controller_answers pa _).imp_right fun ⟨hpa, e⟩ => ⟨pa, hpa, e, .inl ⟨a, b, d, rfl⟩⟩
  case memWrite pa a b => exact (controller_answers pa _).imp_right fun ⟨hpa, e⟩ => ⟨pa, hpa, e, .inr (.inl ⟨a, b, rfl⟩)⟩
  case parityDelta pa a => exact (controller_answers pa _).imp_right fun ⟨hpa, e⟩ => ⟨pa, hpa, e, .inr (.inr (.inl ⟨a, rfl⟩))⟩
  case scrub pa a b d => exact (controller_answers pa _).imp_right fun ⟨hpa, e⟩ => ⟨pa, hpa, e, .inr (.inr (.inr ⟨a, b, d, rfl⟩))⟩
  case integerOp | branch | tswr | tsrd | red | creditReturn | cnSwr | auditSample | stackThermalSample | commandFetchDone | fabLinkUp |
      ethLaneLoss | frameReplay | vflDcmp | vflOpenAck | vflMgmt =>
    exact .inl (check_answers (s.go_answers _) h)
  case kdpDiscover | kdpRead | kdpWrite | kdpDescribe | kdpLoginChallenge | kdpLoginResponse | kdpLogout | kdpSubscribe | kdpFetchEvents =>
    exact .inl (check_answers (s.submit_answers ..) h)
  case mbxGo => exact .inl (s.submit_answers ..)
  case fwSvnCommit type => exact .inl ⟨_, rfl, s.svnCommit_pending type.toNat⟩
  all_goals exact .inl ⟨_, rfl, rfl⟩

theorem exec_illFormed {c : Instr} (h : c.wellFormed = false) : ∃ name, exec c s = .refused (.illFormed name) := by
  cases c
  case integerOp | branch | tswr | tsrd | red | creditReturn | cnSwr | auditSample | stackThermalSample | commandFetchDone | fabLinkUp |
      ethLaneLoss | frameReplay | vflDcmp | vflOpenAck | vflMgmt | kdpDiscover | kdpRead | kdpWrite | kdpDescribe | kdpLoginChallenge |
      kdpLoginResponse | kdpLogout | kdpSubscribe | kdpFetchEvents =>
    exact check_refuses _ _ h
  all_goals cases h

end

/-- Settles O59, by the kind of the command: the checked ones answer or are refused with their check (`check_answers`, `check_refuses`), the
controllers' accesses answer or fault (`controller_answers`), the dictionary protocol keeps the queue (`State.submit_pending`). -/
theorem everyCommandAnswers : Obligations.EveryCommandAnswers :=
  fun _ _ => ⟨exec_wellFormed, exec_illFormed⟩

end Sys2Proof.Machine
end

section
/-! A mirrored write whose partner region is not durable (11 R308, R329): the line of the partner has a stand-in although its own stack serves it,
and the write reaches that stand-in too. -/

namespace Sys2Proof.Machine

/-- Region 0 is a MIRROR that names region 1, which is PLAIN; region 2 is a SPARE. Stack 0 is in RESYNC after a failure, its pointer past the
first line of region 0, and its stand-ins are placed. MEM_REGION_SET refuses such a map (R308), so no run from reset makes it. -/
def brokenMirror : State :=
  { m := { mem := { regions := [(0, 0x20002000), (2, 0xA0000000)],
                    stackTab := [(0, { state := 5, resync := 128, fromFailed := true, rebuilt := true })] } } }

/-- The first stand-in of line 0 of region 1: pool line 2^20, in region 2. -/
def straySpare : Nat := 2 * 2 ^ 30 + 2048 * 69905 + 256

/-- Writing 1 to line 0 writes the stand-in of its partner. -/
theorem brokenMirror_write : brokenMirror.m.emLine straySpare = 0 ∧ (brokenMirror.m.memWriteLine 0 1 false).1.emLine straySpare = 1 := by
  decide +kernel

/-- Refutes O29: the clause on mirrored writes (11 R310) lacks the premise that the partner's region is durable. In `brokenMirror` both lines
are served by their stack, and a write of line 0 changes, beside the line and its partner, the stand-in of the partner. -/
theorem not_memoryAccesses : ¬ Obligations.MemoryAccesses := by
  intro h
  obtain ⟨-, mirror, -, -⟩ := h.1 brokenMirror 0 1 false (by decide) (by decide)
  obtain ⟨t, ht, -, -, other, -⟩ := mirror (by decide) (by decide) (by decide) (by decide)
  have write : exec (.memWrite 0 1 false) brokenMirror = Becomes brokenMirror (brokenMirror.m.memWriteLine 0 1 false).1 := rfl
  obtain rfl := Host.Outcome.next.inj (write.symm.trans ht)
  obtain ⟨kept, -⟩ := other straySpare (by decide)
  have before_after : (1 : LineData) = 0 := brokenMirror_write.2.symm.trans (kept.trans brokenMirror_write.1)
  exact absurd before_after (by decide +kernel)

end Sys2Proof.Machine
end

section
/-! External memory (11): what a read of a line finds after a write, the region map after a set of records, what a sample of a stack can change;
then the upkeep of regions, channels and stacks. -/

namespace Sys2Proof.Machine

/-! Runs of bytes. -/

theorem Mem.rd_wrs_of_lt {a b : Nat} (h : b < a) (vs : List Byte) (m : Mem) : Mem.rd b (Mem.wrs a vs m) = Mem.rd b m := by
  induction vs generalizing a m with
  | nil => rfl
  | cons v vs ih => exact (ih (by omega) _).trans (Mem.rd_wr_other (by omega) v m)

theorem Mem.rd_wrs_of_le {a b : Nat} {vs : List Byte} (h : a + vs.length ≤ b) (m : Mem) : Mem.rd b (Mem.wrs a vs m) = Mem.rd b m := by
  induction vs generalizing a m with
  | nil => rfl
  | cons v vs ih =>
    simp only [List.length_cons] at h
    exact (ih (by omega) _).trans (Mem.rd_wr_other (by omega) v m)

/-- A run of bytes just written reads back. -/
theorem Mem.rds_wrs_same (a : Nat) (vs : List Byte) {m : Mem} (w : m.wf = true) : Mem.rds (Mem.wrs a vs m) a vs.length = vs := by
  induction vs generalizing a m with
  | nil => rfl
  | cons v vs ih =>
    have first : Mem.rd a (Mem.wrs (a + 1) vs (Mem.wr a v m)) = v := (Mem.rd_wrs_of_lt (by omega) vs _).trans (Mem.rd_wr_same a v w)
    exact List.cons_eq_cons.mpr ⟨first, ih (a + 1) (Mem.wf_wr a v w)⟩

theorem Mem.rds_congr {m m' : Mem} (a n : Nat) (h : ∀ b, a ≤ b → b < a + n → Mem.rd b m' = Mem.rd b m) : Mem.rds m' a n = Mem.rds m a n := by
  induction n generalizing a with
  | zero => rfl
  | succ n ih => exact List.cons_eq_cons.mpr ⟨h a (by omega) (by omega), ih (a + 1) fun b h₁ h₂ => h b (by omega) (by omega)⟩

/-- A byte that a filter lets through at no value reads zero. -/
theorem Mem.rd_filter_none {a : Nat} {p : Host.Cell → Bool} (h : ∀ b, p (a, b) = false) (m : Mem) : Mem.rd a (m.filter p) = 0 := by
  induction m with
  | nil => rfl
  | cons e m ih =>
    obtain ⟨j, b⟩ := e
    cases hp : p (j, b) with
    | false => simpa [hp] using ih
    | true =>
      have other : j ≠ a := by
        rintro rfl
        simp [h b] at hp
      simpa [hp, Mem.rd, other] using ih

/-! Lines (11 R310). -/

/-- The bytes of a bit vector of whole bytes spell it. -/
theorem leNat_bytesOf {w : Nat} (h : w % 8 = 0) (v : BitVec w) : leNat (bytesOf v) = v.toNat := by
  have width : 256 ^ (w / 8) = 2 ^ w := by
    rw [show 256 = 2 ^ 8 from rfl, ← Nat.pow_mul, Nat.mul_div_cancel' (Nat.dvd_of_mod_eq_zero h)]
  rw [bytesOf, leNat_leBytes, width, Nat.mod_eq_of_lt v.isLt]

@[simp] theorem lineOf_bytesOf (d : LineData) : lineOf (bytesOf d) = d := by
  rw [lineOf, leNat_bytesOf (by decide), BitVec.ofNat_toNat, BitVec.setWidth_eq]

theorem Mod.emLine_of_em {m n : Mod} (h : n.mem.em = m.mem.em) (q : Nat) : n.emLine q = m.emLine q := by simp only [Mod.emLine, h]

@[simp] theorem Mod.countBy_mem (m : Mod) (num inst n : Nat) : (m.countBy num inst n).mem = m.mem := by
  obtain ⟨_, _, e⟩ := m.countBy_frame num inst n
  rw [e]
@[simp] theorem Mod.count_mem (m : Mod) (num inst : Nat) : (m.count num inst).mem = m.mem := m.countBy_mem num inst 1

@[simp] theorem Mod.emLine_count (m : Mod) (num inst q : Nat) : (m.count num inst).emLine q = m.emLine q := Mod.emLine_of_em (by simp) q

@[simp] theorem Mod.emStore_em (m : Mod) (pa k : Nat) (d : LineData) (p : Bool) :
    (m.emStore pa k d p).mem.em = Mem.wrs (pa / 128 * 128) (bytesOf d) m.mem.em := by
  simp [Mod.emStore, Mod.setPoison]

section
variable {m : Mod} (k : Nat) (d : LineData) (p : Bool)

/-- A line stored in its place is what it reads as. -/
theorem Mod.emLine_emStore_same (w : m.mem.em.wf = true) (pa : Nat) : (m.emStore pa k d p).emLine pa = d := by
  have read := Mem.rds_wrs_same (pa / 128 * 128) (bytesOf d) w
  simp only [bytesOf, length_leBytes] at read
  simp only [Mod.emLine, Mod.emStore_em]
  exact (congrArg lineOf read).trans (lineOf_bytesOf d)

/-- Storing a line leaves every other line alone. -/
theorem Mod.emLine_emStore_other {pa q : Nat} (h : q / 128 ≠ pa / 128) : (m.emStore pa k d p).emLine q = m.emLine q := by
  have out (b : Nat) (h₁ : q / 128 * 128 ≤ b) (h₂ : b < q / 128 * 128 + 128) :
      Mem.rd b (Mem.wrs (pa / 128 * 128) (bytesOf d) m.mem.em) = Mem.rd b m.mem.em := by
    obtain below | above : b < pa / 128 * 128 ∨ pa / 128 * 128 + 128 ≤ b := by omega
    · exact Mem.rd_wrs_of_lt below _ _
    · exact Mem.rd_wrs_of_le (by simpa [bytesOf] using above) _
  simp only [Mod.emLine, Mod.emStore_em, Mem.rds_congr _ 128 out]

end

/-! Regions (11 R308, R333). -/

/-- The region that a record names. -/
def recRegion (r : Nat) : Nat := bits r 63 53
/-- The value that a record gives its region. -/
def recValue (r : Nat) : BitVec 32 := BitVec.ofNat 32 (bits r 31 0)
/-- The region map with a region FORMING. -/
def markForming (t : Tab (BitVec 32)) (r : Nat) : Tab (BitVec 32) := t.upd r 0 (· ||| 0x10000000)

theorem getD_applyRegions_other {k : Nat} {rs : List Nat} (h : ∀ r ∈ rs, recRegion r ≠ k) (t : Tab (BitVec 32)) :
    (applyRegions rs t).getD k 0 = t.getD k 0 := by
  induction rs generalizing t with
  | nil => rfl
  | cons x rs ih =>
    rw [List.forall_mem_cons] at h
    exact (ih h.2 _).trans (Tab.getD_put_other (Ne.symm h.1) _ _ _)

/-- Each record gives its region its value, when no two name the same region. -/
theorem getD_applyRegions {rs : List Nat} (nodup : (rs.map recRegion).Nodup) {r : Nat} (h : r ∈ rs) (t : Tab (BitVec 32)) :
    (applyRegions rs t).getD (recRegion r) 0 = recValue r := by
  induction rs generalizing t with
  | nil => cases h
  | cons x rs ih =>
    obtain ⟨fresh, nodup⟩ := List.nodup_cons.mp nodup
    obtain rfl | h := List.mem_cons.mp h
    · have others : ∀ y ∈ rs, recRegion y ≠ recRegion r := fun y hy e => fresh (e ▸ List.mem_map_of_mem hy)
      exact (getD_applyRegions_other others _).trans (Tab.getD_put_same _ _ _ _)
    · exact ih nodup h _

theorem getD_markForming_other {l : List Nat} {k : Nat} (h : k ∉ l) (t : Tab (BitVec 32)) :
    (l.foldl markForming t).getD k 0 = t.getD k 0 := by
  induction l generalizing t with
  | nil => rfl
  | cons r l ih =>
    rw [List.mem_cons, not_or] at h
    exact (ih h.2 _).trans (Tab.getD_put_other h.1 _ _ _)

theorem formingOf_mark (v : BitVec 32) : formingOf (v ||| 0x10000000) = true := by simp [formingOf]

/-- Regions marked FORMING are FORMING. -/
theorem formingOf_markForming {l : List Nat} {k : Nat} (h : k ∈ l) (t : Tab (BitVec 32)) :
    formingOf ((l.foldl markForming t).getD k 0) = true := by
  induction l generalizing t with
  | nil => cases h
  | cons r l ih =>
    by_cases hk : k ∈ l
    · exact ih hk _
    · obtain rfl | h := List.mem_cons.mp h
      · rw [List.foldl_cons, getD_markForming_other hk, markForming, Tab.upd, Tab.getD_put_same]
        exact formingOf_mark _
      · exact absurd h hk

/-- No two records of a set name the same region. -/
theorem eq_of_recRegion_eq {rs : List Nat} (nodup : (rs.map recRegion).Nodup) {x r : Nat} (hx : x ∈ rs) (hr : r ∈ rs)
    (e : recRegion x = recRegion r) : x = r := by
  induction rs with
  | nil => cases hx
  | cons y rs ih =>
    obtain ⟨fresh, nodup⟩ := List.nodup_cons.mp nodup
    obtain rfl | x_later := List.mem_cons.mp hx
    · obtain rfl | r_later := List.mem_cons.mp hr
      · rfl
      · exact absurd (e ▸ List.mem_map_of_mem r_later) fresh
    · obtain rfl | r_later := List.mem_cons.mp hr
      · exact absurd (e ▸ List.mem_map_of_mem x_later) fresh
      · exact ih nodup x_later r_later

/-- The regions whose kind a set of records changes. -/
def Mod.changedBy (m : Mod) (rs : List Nat) : List Nat :=
  (rs.map recRegion).filter fun r => rs.any fun x => recRegion x == r && bits x 31 29 != kindOf (m.region r)

theorem Mod.mem_changedBy {m : Mod} {rs : List Nat} (nodup : (rs.map recRegion).Nodup) {r : Nat} (h : r ∈ rs) :
    recRegion r ∈ m.changedBy rs ↔ bits r 31 29 ≠ kindOf (m.region (recRegion r)) := by
  simp only [Mod.changedBy, List.mem_filter, List.mem_map_of_mem h, true_and, List.any_eq_true, Bool.and_eq_true, beq_iff_eq, bne_iff_ne]
  constructor
  · rintro ⟨x, hx, e, changes⟩
    exact eq_of_recRegion_eq nodup hx h e ▸ changes
  · exact fun changes => ⟨r, h, rfl, changes⟩

/-- The module with the regions of a set of records: those of changed kind are FORMING, and nothing stands in them (11 R308). -/
def Mod.withRecords (m : Mod) (rs : List Nat) : Mod := m.updMem fun e => { e with
  regions := (m.changedBy rs).foldl markForming (applyRegions rs e.regions)
  em := e.em.filter fun c => !(m.changedBy rs).contains (regionOf c.1)
  emKey := e.emKey.keep fun k _ => !(m.changedBy rs).contains (k / 2 ^ 23)
  emPoison := e.emPoison.keep fun k _ => !(m.changedBy rs).contains (k / 2 ^ 23) }

theorem Mod.regionSet_accepted {m : Mod} {blob : List Byte} (h8 : blob.length % 8 = 0) (hpos : 0 < blob.length) (hmax : blob.length ≤ 1024)
    (hrec : (recordsOf 8 blob).all regionRecOk = true) (nodup : ((recordsOf 8 blob).map recRegion).Nodup)
    (hmap : regionMapOk (applyRegions (recordsOf 8 blob) m.mem.regions) = true)
    (formed : ∀ r ∈ recordsOf 8 blob, formingOf (m.region (recRegion r)) = false) :
    m.regionSet [] blob = (esRUNNING, m.withRecords (recordsOf 8 blob)) := by
  have hform : (((recordsOf 8 blob).map fun r => bits r 63 53).any fun r => formingOf (m.region r)) = false := by
    simpa [recRegion] using formed
  have hnodup : ((recordsOf 8 blob).map fun r => bits r 63 53).Nodup := nodup
  have noneKept (l : List Nat) : (l.any fun r => ([] : List Nat).contains r) = false := by simp
  unfold Mod.regionSet
  simp only [h8, hrec, hmap, hform, hnodup, noneKept, Nat.ne_of_gt hpos, Nat.not_lt.mpr hmax, ne_eq, not_true_eq_false, or_self, if_false, decide_true,
    Bool.not_true, Bool.or_self, Bool.false_eq_true]
  rfl

theorem execMemRegionSet_accepted {s : State} {blob : List Byte} (hserve : s.m.serving = true) (hseq : s.m.seq.inService = false)
    (hinit : s.m.seq.initing = false) (h8 : blob.length % 8 = 0) (hpos : 0 < blob.length) (hmax : blob.length ≤ 1024)
    (hrec : (recordsOf 8 blob).all regionRecOk = true) (nodup : ((recordsOf 8 blob).map recRegion).Nodup)
    (hmap : regionMapOk (applyRegions (recordsOf 8 blob) s.m.mem.regions) = true)
    (formed : ∀ r ∈ recordsOf 8 blob, formingOf (s.m.region (recRegion r)) = false) :
    execMemRegionSet blob s = Acts s (s.m.withRecords (recordsOf 8 blob)) pMemRegionSet esRUNNING := by
  have noneKept : (s.m.seq.inService || s.m.seq.initing) = false := by rw [hseq, hinit]; rfl
  simp only [execMemRegionSet, State.go_eq, Mod.perform_serving hserve, Mod.regionsSet, noneKept, Bool.false_eq_true, if_false,
    Mod.regionSet_accepted h8 hpos hmax hrec nodup hmap formed]
  rfl

section
variable {m : Mod} {rs : List Nat} (nodup : (rs.map recRegion).Nodup) {r : Nat} (hr : r ∈ rs)
include nodup hr

theorem Mod.region_withRecords_changed (h : bits r 31 29 ≠ kindOf (m.region (recRegion r))) :
    formingOf ((m.withRecords rs).region (recRegion r)) = true ∧ ∀ a, regionOf a = recRegion r → Mem.rd a (m.withRecords rs).mem.em = 0 := by
  have changed := (Mod.mem_changedBy nodup hr).mpr h
  refine ⟨formingOf_markForming changed _, fun a ha => Mem.rd_filter_none (fun b => ?_) _⟩
  simpa [ha] using changed

theorem Mod.region_withRecords_kept (h : bits r 31 29 = kindOf (m.region (recRegion r))) :
    (m.withRecords rs).region (recRegion r) = recValue r := by
  have kept : recRegion r ∉ m.changedBy rs := fun c => (Mod.mem_changedBy nodup hr).mp c h
  exact (getD_markForming_other kept _).trans (getD_applyRegions nodup hr _)

end

/-! Samples of the stacks (11 R325-R327). -/

/-- The second module has the stack and the parameters of the first, and its events, more raised after them. -/
def Mod.SparesStack (i : Nat) (m n : Mod) : Prop :=
  n.stack i = m.stack i ∧ n.kod.params = m.kod.params ∧ m.kod.evq <+: n.kod.evq

namespace Mod.SparesStack

variable {m a : Mod} {i : Nat}

theorem refl (m : Mod) : SparesStack i m m := ⟨rfl, rfl, List.prefix_refl _⟩
theorem trans {b : Mod} (x : SparesStack i m a) (y : SparesStack i a b) : SparesStack i m b :=
  ⟨y.1.trans x.1, y.2.1.trans x.2.1, x.2.2.trans y.2.2⟩
theorem par {n : Mod} (h : SparesStack i m n) (k : Nat) : n.par k = m.par k := by simp only [Mod.par, h.2.1]

/-- Neither memory nor dictionary changes. -/
theorem of_mem_kod {n : Mod} (h : SparesStack i m a) (hm : n.mem = a.mem) (hk : n.kod = a.kod) : SparesStack i m n :=
  h.trans ⟨by simp only [Mod.stack, hm], by rw [hk], hk ▸ List.prefix_refl _⟩
theorem updMem {f : MemS → MemS} (h : SparesStack i m a) (hf : ∀ e, (f e).stackTab = e.stackTab) : SparesStack i m (a.updMem f) :=
  h.trans ⟨by simp only [Mod.stack, Mod.updMem, hf], rfl, List.prefix_refl _⟩
theorem updStack {j : Nat} (hj : i ≠ j) {f : Stack → Stack} (h : SparesStack i m a) : SparesStack i m (a.updStack j f) :=
  h.trans ⟨Tab.getD_put_other hj _ _ _, rfl, List.prefix_refl _⟩
theorem raise {c : BitVec 32} {x y z : Nat} (h : SparesStack i m a) : SparesStack i m (a.raise c x y z) :=
  h.trans ⟨rfl, rfl, List.prefix_append _ _⟩
theorem countBy {x y n : Nat} (h : SparesStack i m a) : SparesStack i m (a.countBy x y n) := by
  obtain ⟨_, _, e⟩ := a.countBy_frame x y n
  rw [e]
  exact h.trans ⟨rfl, rfl, List.prefix_append _ _⟩
theorem forEach {α : Type} {f : α → Mod → Mod} {l : List α} (step : ∀ x ∈ l, ∀ a, SparesStack i a (f x a)) (h : SparesStack i m a) :
    SparesStack i m (Machine.forEach l f a) := by
  induction l generalizing a with
  | nil => exact h
  | cons x l ih => exact ih (fun y hy => step y (List.mem_cons_of_mem x hy)) (h.trans (step x List.mem_cons_self a))

theorem ite {c : Prop} [Decidable c] {x y : Mod} (hx : SparesStack i m x) (hy : SparesStack i m y) : SparesStack i m (if c then x else y) := by
  split
  · exact hx
  · exact hy
theorem updFab {f : FabS → FabS} (h : SparesStack i m a) : SparesStack i m (a.updFab f) := of_mem_kod h rfl rfl
theorem updGroup {g : Nat} {f : Group → Group} (h : SparesStack i m a) : SparesStack i m (a.updGroup g f) := updFab h
theorem updCmd {c : Nat} {f : HCmd → HCmd} (h : SparesStack i m a) : SparesStack i m (a.updCmd c f) := of_mem_kod h rfl rfl
theorem emit {t : Nat} {p : Packet} (h : SparesStack i m a) : SparesStack i m (a.emit t p) := by
  unfold Mod.emit
  split
  · exact h
  · exact countBy (updFab h)
theorem collAbort {g : Nat} {x : Option Nat} (h : SparesStack i m a) : SparesStack i m (a.collAbort g x) := by
  unfold Mod.collAbort
  split
  · exact h
  · split
    · exact h
    · exact updCmd (updFab (updGroup (forEach (fun _ _ a => emit (refl a)) h)))
theorem abortAll (h : SparesStack i m a) : SparesStack i m a.abortAll := forEach (fun _ _ a => collAbort (refl a)) h
theorem stackFail {j : Nat} (hj : i ≠ j) (h : SparesStack i m a) : SparesStack i m (a.stackFail j) := ite h (raise (updStack hj h))
theorem enterResync {j : Nat} (hj : i ≠ j) {x : Bool} (h : SparesStack i m a) : SparesStack i m (a.enterResync j x) := by
  unfold Mod.enterResync
  refine updStack hj ?_
  exact updMem h fun _ => rfl

/-- A sample of a stack spares every other. -/
theorem stackSample {j : Nat} (hj : i ≠ j) {t : Int} (h : SparesStack i m a) : SparesStack i m (a.stackSample j t) := by
  have shown {f : Stack → Stack} : SparesStack i m ((if (a.stack j).state == 2 then a.countBy kMemThrottleCyc j 1050000 else a).updStack j f) :=
    updStack hj (ite (countBy h) h)
  unfold Mod.stackSample
  refine ite shown (ite (ite (ite ?lost ?resync) ?cooling) (ite ?crit (ite ?high (ite ?normal ?counted))))
  case lost => exact updStack hj (stackFail hj (updStack hj shown))
  case resync => exact enterResync hj (updStack hj shown)
  case crit => exact abortAll (raise (updStack hj shown))
  case high => exact raise (updStack hj shown)
  all_goals exact updStack hj shown

end Mod.SparesStack

/-- Samples of stacks, each with its number, one after another. -/
def Mod.sampled (m : Mod) (l : List (Int × Nat)) : Mod := forEach l (fun e m => m.stackSample e.2 e.1) m

theorem Mod.sampled_spares {i : Nat} {l : List (Int × Nat)} (h : ∀ e ∈ l, i ≠ e.2) (m : Mod) : SparesStack i m (m.sampled l) :=
  .forEach (fun e he a => .stackSample (h e he) (.refl a)) (.refl m)

/-- A sample of all stacks is, for each of them, its own sample between those of the others. -/
theorem execStackThermalSample_at {temps : List Int} {t : Int} {i : Nat} (hlen : temps.length = 16) (ht : temps[i]? = some t) (s : State) :
    ∃ a u, execStackThermalSample temps s = Becomes s u ∧ Mod.SparesStack i s.m a ∧ Mod.SparesStack i (a.stackSample i t) u := by
  obtain ⟨hi, rfl⟩ := List.getElem?_eq_some_iff.mp ht
  have cut : temps.zipIdx = (temps.take i).zipIdx ++ (temps[i], i) :: (temps.drop (i + 1)).zipIdx (i + 1) := by
    conv => lhs; rw [← List.take_append_drop i temps]
    rw [List.zipIdx_append, List.drop_eq_getElem_cons hi, List.zipIdx_cons, List.length_take, Nat.zero_add, Nat.min_eq_left (Nat.le_of_lt hi)]
  have all : execStackThermalSample temps s = Becomes s (s.m.sampled temps.zipIdx) := by
    simp only [execStackThermalSample, tempsOk, hlen, decide_true, State.goIf_true]
    rfl
  refine ⟨s.m.sampled (temps.take i).zipIdx, _, all, Mod.sampled_spares (fun e he => ?before) _, ?_⟩
  case before =>
    have := (List.mem_zipIdx he).2.1
    rw [List.length_take] at this
    omega
  simp only [cut, Mod.sampled, forEach, List.foldl_append, List.foldl_cons]
  refine Mod.sampled_spares (fun e he => ?after) _
  case after =>
    have := (List.mem_zipIdx he).1
    omega

/-! A stack's own sample. -/

@[simp] theorem Mod.stack_raise (m : Mod) (c : BitVec 32) (x p d i : Nat) : (m.raise c x p d).stack i = m.stack i := rfl
@[simp] theorem Mod.evq_raise (m : Mod) (c : BitVec 32) (x p d : Nat) :
    (m.raise c x p d).kod.evq = m.kod.evq ++ [⟨0, c, BitVec.ofNat 16 x, BitVec.ofNat 8 p, BitVec.ofNat 128 d⟩] := rfl

/-- An event of a code and a source is in the queue of the management block. -/
def Mod.Raised (m : Mod) (code : BitVec 32) (source : Nat) : Prop := ∃ e ∈ m.kod.evq, e.code = code ∧ e.source = BitVec.ofNat 16 source

theorem Mod.raised_raise (m : Mod) (c : BitVec 32) (x p d : Nat) : (m.raise c x p d).Raised c x :=
  ⟨⟨0, c, BitVec.ofNat 16 x, BitVec.ofNat 8 p, BitVec.ofNat 128 d⟩, by simp, rfl, rfl⟩
theorem Mod.SparesStack.raised {i : Nat} {m n : Mod} (h : SparesStack i m n) {c : BitVec 32} {x : Nat} (r : m.Raised c x) : n.Raised c x := by
  obtain ⟨e, he, r⟩ := r
  exact ⟨e, h.2.2.subset he, r⟩

section
variable {m : Mod} {i : Nat} {t : Int}

/-- A stack that trains or has failed only shows its temperature. -/
theorem Mod.stackSample_out (h : (m.stack i).state = 0 ∨ (m.stack i).state = 4) :
    (m.stackSample i t).stack i = { m.stack i with temp := t } := by
  obtain h | h := h
  all_goals simp [Mod.stackSample, h]

variable (hs : (m.stack i).state = 1) (hc : (m.stack i).crit = false)
include hs hc

/-- At 105 degrees a stack is Critical (11 R326). -/
theorem Mod.stackSample_critical (ht : 105 ≤ t) :
    ((m.stackSample i t).stack i).crit = true ∧ (m.stackSample i t).Raised evMemThermCrit i := by
  let k : Stack := { m.stack i with temp := t }
  let n := ((m.updStack i fun _ => k).updStack i fun _ => { k with crit := true, coolRun := 0, lost := decide (115 ≤ t) }).raise
    evMemThermCrit i noPart (i + t.toNat * 2 ^ 32)
  have sample : m.stackSample i t = n.abortAll := by simp [Mod.stackSample, hs, hc, ht, n, k]
  have spared : SparesStack i n n.abortAll := .abortAll (.refl n)
  rw [sample, spared.1]
  exact ⟨by simp [n], spared.raised (Mod.raised_raise ..)⟩

/-- The second sample in succession at or above the high limit doubles refresh (11 R325). -/
theorem Mod.stackSample_high (hr : (m.stack i).refresh2x = false) (hh : (m.stack i).hiRun = 1) (hi : m.par pMemTHigh ≤ t) (ht : t < 105) :
    ((m.stackSample i t).stack i).state = 2 ∧ ((m.stackSample i t).stack i).refresh2x = true ∧ ((m.stackSample i t).stack i).temp = t ∧
    (m.stackSample i t).Raised evMemThermHigh i := by
  let k : Stack := { m.stack i with temp := t }
  let n := (m.updStack i fun _ => k).updStack i fun _ => { k with hiRun := 2, loRun := 0, refresh2x := true, state := 2 }
  have sample : m.stackSample i t = n.raise evMemThermHigh i noPart (i + t.toNat * 2 ^ 32) := by
    simp [Mod.stackSample, hs, hc, hr, hh, hi, Int.not_le.mpr ht, n, k]
  rw [sample]
  exact ⟨by simp [n], by simp [n], by simp [n, k], Mod.raised_raise ..⟩

end

/-! Failure of a stack (11 R327). -/

@[simp] theorem Mod.chan_raise (m : Mod) (c : BitVec 32) (x p d i j : Nat) : (m.raise c x p d).chan i j = m.chan i j := rfl
@[simp] theorem Mod.stack_updChan (m : Mod) (i j : Nat) (f : Chan → Chan) (k : Nat) : (m.updChan i j f).stack k = m.stack k := rfl

/-- The module with a stack FAILED from now on; MEM_STACK_FAIL is raised. -/
def Mod.withFailed (m : Mod) (i : Nat) : Mod := (m.updStack i fun k => { k with
  state := 4, failTick := m.ticks, selfRefresh := false, crit := false, refresh2x := false, rebuild := none, rebuilt := false, skipped := [],
  fresh := [], unplaced := [] }).raise evMemStackFail i noPart i

theorem Mod.stackFail_of_not_failed {m : Mod} {i : Nat} (h : (m.stack i).state ≠ 4) : m.stackFail i = m.withFailed i := by
  simp [Mod.stackFail, h, Mod.withFailed]

section
variable (m : Mod) (i : Nat)

@[simp] theorem Mod.withFailed_state : ((m.withFailed i).stack i).state = 4 := by simp [Mod.withFailed]
@[simp] theorem Mod.withFailed_failTick : ((m.withFailed i).stack i).failTick = m.ticks := by simp [Mod.withFailed]
@[simp] theorem Mod.chan_withFailed (j k : Nat) : (m.withFailed i).chan j k = m.chan j k := rfl
theorem Mod.withFailed_em : (m.withFailed i).mem.em = m.mem.em := rfl
theorem Mod.withFailed_evq : ∃ e, (m.withFailed i).kod.evq = m.kod.evq ++ [e] ∧ e.code = evMemStackFail ∧ e.source = BitVec.ofNat 16 i :=
  ⟨_, rfl, rfl, rfl⟩

end

/-- A command left unanswered fails its stack. -/
theorem execStackCmdTimeout_fails {s : State} {st : SliceId} (h : (s.m.stack st.val).state ≠ 4) (c : ChanId) :
    execStackCmdTimeout st c s = Becomes s (s.m.withFailed st.val) := by
  simp only [execStackCmdTimeout, State.go_eq, Mod.stackFail_of_not_failed h]
  rfl

/-! Training (11 R320, R324). -/

theorem Mod.stackTrained_of_step_ne {m : Mod} {i : Nat} {c : ChanId} (h : (m.chan i c.val).step ≠ 6) : m.stackTrained i = false := by
  rw [Mod.stackTrained, List.all_eq_false]
  exact ⟨c.val, List.mem_range.mpr c.isLt, by simpa using h⟩

section
variable {s : State} {st : SliceId} {ch : ChanId} (h3 : 3 ≤ s.m.mod.mstate.val) (h5 : s.m.mod.mstate.val ≤ 5)
  (h0 : (s.m.stack st.val).state = 0) (w : List (Fin 76)) (ca : List (Fin 12)) (lb : Bool)
include h3 h5 h0

/-- A channel of a stack in TRAINING has a step to end while the module comes up, is READY or in SERVICE. -/
theorem step_to_end (h6 : (s.m.chan st.val ch.val).step < 6) :
    ¬ (s.m.mod.mstate.val < 3 ∨ 5 < s.m.mod.mstate.val ∨ (s.m.stack st.val).state ≠ 0 ∨ 6 ≤ (s.m.chan st.val ch.val).step) := by
  simp only [h0, ne_eq, not_true_eq_false, false_or]
  omega

/-- A step before the eye scan that succeeds moves its channel on. -/
theorem execMemTrainStepDone_moves (hc : (s.m.chan st.val ch.val).step < 3) : execMemTrainStepDone st ch true w ca lb s =
    Becomes s (s.m.updChan st.val ch.val fun c => { c with step := c.step + 1, attempts := 0 }) := by
  have h6 : (s.m.chan st.val ch.val).step < 6 := by omega
  have scan : (s.m.chan st.val ch.val).step ≠ 3 := by omega
  have spare : (s.m.chan st.val ch.val).step ≠ 4 := by omega
  have untrained : (!(s.m.updChan st.val ch.val fun c => { c with step := c.step + 1, attempts := 0 }).stackTrained st.val) = true := by
    rw [Mod.stackTrained_of_step_ne (c := ch) (by rw [Mod.chan_updChan]; dsimp only; omega), Bool.not_false]
  simp only [execMemTrainStepDone, State.go_eq, if_neg (step_to_end h3 h5 h0 h6), scan, spare, false_and, if_false, Option.isSome_some,
    Bool.and_self, Bool.and_false, decide_false, Bool.false_eq_true]
  exact congrArg (Becomes s) (if_pos untrained)

variable (h6 : (s.m.chan st.val ch.val).step < 6)
include h6

/-- A failed step is tried again, three attempts in all. -/
theorem execMemTrainStepDone_again (ha : (s.m.chan st.val ch.val).attempts < 2) : execMemTrainStepDone st ch false w ca lb s =
    Becomes s (s.m.updChan st.val ch.val fun c => { c with attempts := c.attempts + 1 }) := by
  have more : (s.m.chan st.val ch.val).attempts + 1 < 3 := by omega
  simp only [execMemTrainStepDone, State.go_eq, if_neg (step_to_end h3 h5 h0 h6), Bool.false_eq_true, and_false, if_false, Bool.false_and, more,
    if_true]
  rfl

/-- Its third failure raises MEM_TRAIN_FAIL with the result of the loop-back run and fails the stack (11 R324). -/
theorem execMemTrainStepDone_fails (ha : 2 ≤ (s.m.chan st.val ch.val).attempts) : execMemTrainStepDone st ch false w ca lb s =
    Becomes s (((s.m.updChan st.val ch.val fun c => { c with attempts := 3 }).raise evMemTrainFail st.val noPart
      (st.val + 256 * ch.val + 65536 * b2n lb)).withFailed st.val) := by
  rw [← Mod.stackFail_of_not_failed (by simp [h0])]
  have last : ¬ (s.m.chan st.val ch.val).attempts + 1 < 3 := by omega
  simp only [execMemTrainStepDone, State.go_eq, if_neg (step_to_end h3 h5 h0 h6), Bool.false_eq_true, and_false, if_false, Bool.false_and, last]
  rfl

end

/-! The traffic generator (11 R323, Table 11.10). -/

/-- A run that ends shows its miscompares; what the channel's array holds is the generator's. -/
theorem execMemTgDone_of_running {s : State} {st : SliceId} {ch : ChanId} (h : (s.m.chan st.val ch.val).tgStat.getLsbD 63 = true) (n f : Nat)
    (l : BitVec 76) : ∃ u, execMemTgDone st ch n f l s = Becomes s u ∧ u.mem.em = s.m.mem.em ∧
      u.chan st.val ch.val = { s.m.chan st.val ch.val with
        tgStat := BitVec.ofNat 64 ((if n = 0 then 0 else 2 ^ 62 + (f % 2 ^ 27) * 2 ^ 32) + min n 0xFFFFFFFF), tgLanes := l.setWidth 128 } := by
  unfold execMemTgDone
  simp only [State.go_eq, h, Bool.not_true, Bool.false_eq_true, if_false]
  split
  · exact ⟨_, rfl, rfl, Mod.chan_updChan ..⟩
  · exact ⟨_, rfl, rfl, Tab.getD_put_same ..⟩

/-- MEM_TG_STAT of a run that has ended: not running, FAIL where anything differed, the number of miscompares (Table 11.10). -/
theorem tgStat_fields (n f : Nat) : let d := BitVec.ofNat 64 ((if n = 0 then 0 else 2 ^ 62 + (f % 2 ^ 27) * 2 ^ 32) + min n 0xFFFFFFFF)
    d.getLsbD 63 = false ∧ (d.getLsbD 62 = true ↔ n ≠ 0) ∧ d.toNat % 2 ^ 32 = min n 0xFFFFFFFF := by
  intro d
  simp only [d, BitVec.getLsbD_ofNat, BitVec.toNat_ofNat, Nat.testBit_eq_decide_div_mod_eq]
  split
  · simp_all
  · simp_all
    omega

/-! Rebuild (11 R329-R331). -/

theorem Mod.retryable_of_none_skipped {m : Mod} {i : Nat} (h : (m.stack i).skipped = []) (e : Ecc) : m.retryable i e = none := by
  simp [Mod.retryable, h]

section
variable {s : State} {st : SliceId}

/-- A skipped line that can be had again comes first. -/
theorem execRebuildStep_retries {l : Nat} {e : Ecc} (h3 : (s.m.stack st.val).state ≠ 3) (hl : s.m.retryable st.val e = some l) :
    execRebuildStep st e s = Becomes s (
      let n := s.m.updStack st.val fun k => { k with skipped := k.skipped.del l }
      if (s.m.stack st.val).state == 4 then n.standinLine st.val (128 * l) e else n.resyncLine st.val (128 * l) e) := by
  have awake : ((s.m.stack st.val).state == 3) = false := by simpa using h3
  simp only [execRebuildStep, State.go_eq, awake, Bool.false_eq_true, if_false, hl]
  rfl

variable {e : Ecc} (hn : s.m.retryable st.val e = none)
include hn

theorem execRebuildStep_resyncs {pa : Nat} (h5 : (s.m.stack st.val).state = 5) (hp : s.m.nextDurable st.val (s.m.stack st.val).resync = some pa) :
    execRebuildStep st e s = Becomes s ((s.m.resyncLine st.val pa e).updStack st.val fun k => { k with resync := pa + 128 }) := by
  simp only [execRebuildStep, State.go_eq, h5, hn, ite_self, hp, beq_self_eq_true, if_true]
  rfl

variable {a : Nat} (h4 : (s.m.stack st.val).state = 4) (ha : (s.m.stack st.val).rebuild = some a)
include h4 ha

theorem execRebuildStep_ends (hp : s.m.nextDurable st.val a = none) : execRebuildStep st e s =
    Becomes s (s.m.updStack st.val fun k => { k with rebuild := none, rebuilt := true }) := by
  have failed : ((s.m.stack st.val).state == 5) = false := by rw [h4]; rfl
  simp only [execRebuildStep, State.go_eq, hn, ite_self, failed, Bool.false_eq_true, if_false, ha, hp]
  rfl

theorem execRebuildStep_places {pa : Nat} (hp : s.m.nextDurable st.val a = some pa) : execRebuildStep st e s =
    Becomes s ((s.m.standinLine st.val pa e).updStack st.val fun k => { k with rebuild := some (pa + 128) }) := by
  have failed : ((s.m.stack st.val).state == 5) = false := by rw [h4]; rfl
  simp only [execRebuildStep, State.go_eq, hn, ite_self, failed, Bool.false_eq_true, if_false, ha, hp]
  rfl

end

section
variable {m : Mod} {pa : Nat}

/-- A mirrored line of a failed stack is placed from its copy (11 R329). -/
theorem Mod.standinSource_mirror {c : Nat} (hk : kindOf (m.region (regionOf pa)) = kMIRROR)
    (copy : sameOffset (partnerOf (m.region (regionOf pa))) pa = c) (up : m.lineUp c = true) (hpa : m.poisoned pa = false)
    (hc : m.poisoned c = false) : m.standinSource pa .ok = some (m.emLine c) := by
  have sound : (Ecc.ok == Ecc.uncorrectable) = false := rfl
  simp only [Mod.standinSource, Mod.partners, Mod.member, hk, copy, up, hpa, hc, sound, Bool.and_false, Bool.false_eq_true, if_false, if_true]

/-- Both stand-ins of a line that has a source hold it. -/
theorem Mod.standinLine_places {i x y : Nat} {e : Ecc} {d : LineData} (hxy : m.standins i pa = [x, y]) (hd : m.standinSource pa e = some d)
    (w : m.mem.em.wf = true) (hne : x / 128 ≠ y / 128) :
    (m.standinLine i pa e).emLine x = d ∧ (m.standinLine i pa e).emLine y = d := by
  have two : ¬ [x, y].length < 2 := by simp
  have first_kept (n : Mod) (q : Bool) : (n.emStore y pa d q).emLine x = n.emLine x := Mod.emLine_emStore_other pa d q hne
  have first (n : Mod) (q : Bool) (h : n.mem.em = m.mem.em) : (n.emStore x pa d q).emLine x = d :=
    Mod.emLine_emStore_same pa d q (h ▸ w) x
  have second (n : Mod) (q : Bool) (h : n.mem.em.wf = true) : (n.emStore y pa d q).emLine y = d := Mod.emLine_emStore_same pa d q h y
  simp only [Mod.standinLine, hxy, if_neg two, hd, forEach, List.foldl_cons, List.foldl_nil, Mod.emLine_count, first_kept]
  exact ⟨first _ _ rfl, second _ _ (by rw [Mod.count_mem, Mod.emStore_em]; exact Mem.wf_wrs _ _ w)⟩

end

/-- Settles O30, a case for each command: the regions by `Mod.region_withRecords_changed` and `Mod.region_withRecords_kept`, training by the step's
outcome, a sample by `execStackThermalSample_at` (no other stack's sample touches this one), rebuild by what `execRebuildStep` turns to. -/
theorem memoryUpkeep : Obligations.MemoryUpkeep := by
  refine ⟨fun s st ch => ?_, fun s st => ?_⟩
  · dsimp only
    refine ⟨fun blob hserve hseq hinit h8 hpos hmax hrec nodup hmap formed => ?regions, fun hforming => ?formed,
      fun h3 h5 h0 w ca lb => ⟨?moves, ?again, ?fails⟩, fun hallowed hidle => ?start, ?ignored, ?stop, fun n f l hrun => ?done⟩
    case regions =>
      exact ⟨_, execMemRegionSet_accepted hserve hseq hinit h8 hpos hmax hrec nodup hmap formed, rfl,
        fun r hr => ⟨Mod.region_withRecords_changed nodup hr, Mod.region_withRecords_kept nodup hr⟩⟩
    case formed =>
      have forming : (s.m.mem.regions.any fun e => formingOf e.2) = true := List.any_eq_true.mpr hforming
      simp only [exec_regionFormingDone, execRegionFormingDone, State.go_eq, if_pos forming]
      rfl
    case moves => exact execMemTrainStepDone_moves h3 h5 h0 w ca lb
    case again => exact fun h6 _ ha => execMemTrainStepDone_again h3 h5 h0 w ca lb h6 ha
    case fails =>
      intro h6 _ ha
      exact ⟨_, execMemTrainStepDone_fails h3 h5 h0 w ca lb h6 ha, Mod.withFailed_state .., by simp, _, _, List.append_assoc _ [_] [_], rfl, rfl⟩
    case start =>
      simp only [exec_memTgStart, execMemTgStart, State.go_eq, hallowed, hidle, Bool.and_self, Bool.not_false, if_true]
      rfl
    case ignored => rfl
    case stop => rfl
    case done =>
      obtain ⟨u, hu, em, chan⟩ := execMemTgDone_of_running hrun n f l
      obtain ⟨run, fail, errors⟩ := tgStat_fields n f
      exact ⟨_, hu, by rwa [chan], by rwa [chan], by rwa [chan], by rw [chan], em⟩
  · dsimp only
    refine ⟨fun temps t hlen ht hc => ?samples, fun hc hs => ?park, fun h5 hend => ?resynced, fun c hs => ?timeout,
      fun h4 hr hb => ?start, fun a e h4 hsk ha hp => execRebuildStep_ends (Mod.retryable_of_none_skipped hsk e) h4 ha hp,
      fun l e h4 hl => ?retryFailed, fun l e h3 h4 hl => ?retry,
      fun pa e h5 hn hp => execRebuildStep_resyncs hn h5 hp, fun a pa x y h4 hsk ha hp hxy hk up hpa hcp w hne => ?places⟩
    case samples =>
      obtain ⟨a, u, hu, before, after⟩ := execStackThermalSample_at hlen ht s
      have same : a.stack st.val = s.m.stack st.val := before.1
      refine ⟨fun hs hr hh hi ht => ?high, fun hs ht => ?critical, fun hs => ⟨_, hu, ?out⟩⟩
      case high =>
        obtain ⟨state, refresh, temp, raised⟩ := Mod.stackSample_high (m := a) (by rwa [same]) (by rwa [same]) (by rwa [same]) (by rwa [same])
          (by rwa [before.par]) ht
        exact ⟨_, hu, by rwa [after.1], by rwa [after.1], by rwa [after.1], after.raised raised⟩
      case critical =>
        obtain ⟨crit, raised⟩ := Mod.stackSample_critical (m := a) (by rwa [same]) (by rwa [same]) ht
        exact ⟨_, hu, by rwa [after.1], after.raised raised⟩
      case out => exact (after.1.trans (Mod.stackSample_out (by rwa [same]))).trans (by rw [same])
    case park =>
      have parks : ((s.m.stack st.val).crit && (s.m.stack st.val).state != 3 && (s.m.stack st.val).state != 4 && (s.m.stack st.val).state != 0) =
          true := by
        obtain hs | hs | hs := hs
        all_goals
          rw [hc, hs]
          rfl
      exact congrArg (Becomes s) (if_pos parks)
    case resynced => exact congrArg (Becomes s) (if_pos ⟨by rw [h5]; rfl, by rw [hend]; rfl⟩)
    case timeout => exact ⟨_, execStackCmdTimeout_fails hs c, Mod.withFailed_state .., Mod.withFailed_failTick .., Mod.withFailed_em ..,
      Mod.withFailed_evq ..⟩
    case start => exact congrArg (Becomes s) (if_pos (by rw [h4, hr, hb]; rfl))
    case retryFailed =>
      have failed : ((s.m.stack st.val).state == 4) = true := by rw [h4]; rfl
      exact (execRebuildStep_retries (by rw [h4]; decide) hl).trans (congrArg (Becomes s) (if_pos failed))
    case retry =>
      have serves : ¬ ((s.m.stack st.val).state == 4) = true := by simpa using h4
      exact (execRebuildStep_retries h3 hl).trans (congrArg (Becomes s) (if_neg serves))
    case places =>
      obtain ⟨hx, hy⟩ := Mod.standinLine_places hxy (Mod.standinSource_mirror hk rfl up hpa hcp) w hne
      exact ⟨_, execRebuildStep_places (Mod.retryable_of_none_skipped hsk .ok) h4 ha hp, hx, hy, by simp⟩

end Sys2Proof.Machine
end

section
/-! The commands of the sequence engine (12 R334-R343): what a command that starts leaves of the engine's state, which entry it names, when it waits
for the end of a step; then the obligation. -/

namespace Sys2Proof.Machine

/-! A command starts. -/

section
variable (m : Mod) (id : Nat) (c : HCmd)

@[simp] theorem Mod.begin_seq : (m.begin id c).seq = m.seq := by
  simp only [Mod.begin]
  split <;> rfl
@[simp] theorem Mod.ent_begin (i : Nat) : (m.begin id c).ent i = m.ent i := by simp only [Mod.ent, Mod.begin_seq]
@[simp] theorem Mod.slotHeld_begin (n : Nat) : (m.begin id c).slotHeld n = m.slotHeld n := by simp only [Mod.slotHeld, Mod.begin_seq]
@[simp] theorem Mod.inStep_begin (i : Nat) : (m.begin id c).inStep i = m.inStep i := by simp only [Mod.inStep, Mod.begin_seq]
@[simp] theorem Mod.listOf_begin (n k : Nat) : (m.begin id c).listOf n k = m.listOf n k := by simp only [Mod.listOf, Mod.begin_seq]

end

/-- A command that its unit may start runs. -/
theorem State.go_runCmd {s : State} {id op : Nat} {c : HCmd} (h : s.m.startable id op = some c) (f : HCmd → Mod → Mod) :
    s.go (fun m => m.runCmd id op f) = Becomes s (f c (s.m.begin id c)) := by
  simp only [State.go_eq, Mod.runCmd, h]
  rfl

/-! The entry that a command names. -/

/-- A command names an entry of the table by its index and its generation, and the entry holds a sequence of the command's partition (12 R335). -/
def Mod.Names (m : Mod) (c : HCmd) : Prop :=
  m.seq.inService = true ∧ (m.ent (c.wf 0 31 0 % 2 ^ 20)).state ≠ 0 ∧
    (m.ent (c.wf 0 31 0 % 2 ^ 20)).gen % 4096 = c.wf 0 31 0 / 2 ^ 20 ∧ (m.ent (c.wf 0 31 0 % 2 ^ 20)).part = c.fn

section
variable {m : Mod} {c : HCmd}

theorem Mod.Names.begin (h : m.Names c) (id : Nat) : (m.begin id c).Names c := by
  simpa only [Mod.Names, Mod.begin_seq, Mod.ent_begin] using h

theorem Mod.named_of_names (h : m.Names c) (id : Nat) (f : Nat → SeqEnt → Mod → Mod) :
    m.named id c f = f (c.wf 0 31 0 % 2 ^ 20) (m.ent (c.wf 0 31 0 % 2 ^ 20)) m := by
  obtain ⟨service, held, gen, part⟩ := h
  simp [-Nat.reducePow, Mod.named, service, held, gen, part]

/-- A generation that does not match is NOSEQ (12 R335). -/
theorem Mod.named_of_gen_ne (h : (m.ent (c.wf 0 31 0 % 2 ^ 20)).gen % 4096 ≠ c.wf 0 31 0 / 2 ^ 20) (id : Nat) (f : Nat → SeqEnt → Mod → Mod) :
    m.named id c f = m.noSeqAt id (quarterOf (c.wf 0 31 0 % 2 ^ 20)) := by
  simp [-Nat.reducePow, Mod.named, h]

/-- A sequence without an item in a running step lets its commands through. -/
theorem Mod.seqHold_of_not_inStep (h : m.inStep (c.wf 0 31 0 % 2 ^ 20) = false) (id : Nat) (f : Mod → Mod) : m.seqHold id c f = f m := by
  simp [-Nat.reducePow, Mod.seqHold, h]

/-- A sequence with an item in a running step holds its commands until the step's end (12 R343). -/
theorem Mod.seqHold_of_inStep (h : m.Names c) (hi : m.inStep (c.wf 0 31 0 % 2 ^ 20) = true) (id : Nat) (f : Mod → Mod) :
    m.seqHold id c f = m.updSeq fun x => { x with held := x.held ++ [id] } := by
  obtain ⟨-, held, gen, part⟩ := h
  simp [-Nat.reducePow, Mod.seqHold, held, gen, part, hi]

theorem Mod.seqHold_of_gen_ne (h : (m.ent (c.wf 0 31 0 % 2 ^ 20)).gen % 4096 ≠ c.wf 0 31 0 / 2 ^ 20) (id : Nat) (f : Mod → Mod) :
    m.seqHold id c f = f m := by
  simp [-Nat.reducePow, Mod.seqHold, h]

end

/-- Settles O31, a case for each command: it starts (`State.go_runCmd`); one that names a sequence is applied to its entry (`Mod.named_of_names`),
waits for a step's end (`Mod.seqHold_of_inStep`), or names none (`Mod.named_of_gen_ne`). -/
theorem sequenceCommands : Obligations.SequenceCommands := by
  intro s id op c h
  dsimp only
  refine ⟨?slotSet, ?slotRefused, ?slotClear, ?admission, fun hs hl hg hp => ?named, fun hl hg => ?stale⟩
  case slotSet =>
    rintro rfl accepted
    refine ⟨fun free => ?_, fun o taken part held => ?_⟩
    · rw [exec_slotSet, execSlotSet, State.go_runCmd h]
      simp only [accepted, Mod.begin_seq, free]
    · rw [exec_slotSet, execSlotSet, State.go_runCmd h]
      simp [accepted, taken, part, held]
  case slotRefused =>
    rintro rfl k refused
    rw [exec_slotSet, execSlotSet, State.go_runCmd h]
    simp only [refused]
  case slotClear =>
    rintro rfl o taken part idle
    rw [exec_slotClear, execSlotClear, State.go_runCmd h]
    simp [taken, part, idle]
  case admission =>
    rintro rfl o k j r len service taken part quarter quota entry page
    rw [exec_seqAdmit, execSeqAdmit, State.go_runCmd h]
    simp only [len, taken, part, service, quarter, Nat.not_le.mpr quota, entry, page, Mod.begin_seq, bne_self_eq_false, Bool.not_true,
      Bool.false_eq_true, if_false]
  case named =>
    have names : (s.m.begin id c).Names c := Mod.Names.begin ⟨hs, hl, hg, hp⟩ id
    have applies := Mod.named_of_names names id
    have passes := Mod.seqHold_of_not_inStep (m := s.m.begin id c) (c := c)
    have waits := Mod.seqHold_of_inStep names
    simp only [Mod.inStep_begin] at passes waits
    generalize c.wf 0 31 0 % 2 ^ 20 = i at *
    refine ⟨?append, ?busy, ?park, ?resume, ?retire, ?query, ?held⟩
    case append =>
      rintro rfl idle decode room
      rw [exec_seqAppend, execSeqAppend, State.go_runCmd h, passes idle, Mod.seqAppend, applies]
      simp [decode, Nat.not_lt.mpr room]
    case busy =>
      rintro rfl idle prefill
      rw [exec_seqAppend, execSeqAppend, State.go_runCmd h, passes idle, Mod.seqAppend, applies]
      simp [prefill]
    case park =>
      rintro rfl idle live
      rw [exec_seqPark, execSeqPark, State.go_runCmd h, passes idle, Mod.seqPark, applies]
      simp [live]
    case resume =>
      rintro rfl parked
      rw [exec_seqResume, execSeqResume, State.go_runCmd h, applies]
      simp [parked]
    case retire =>
      rintro rfl idle going
      rw [exec_seqRetire, execSeqRetire, State.go_runCmd h, passes idle, Mod.seqRetire, applies]
      simp [going]
    case query =>
      rintro rfl
      rw [exec_seqQuery, execSeqQuery, State.go_runCmd h, applies]
      simp
    case held =>
      intro _ busy x hx
      simp only [List.mem_cons, List.not_mem_nil, or_false, Prod.mk.injEq] at hx
      obtain ⟨rfl, rfl⟩ | ⟨rfl, rfl⟩ | ⟨rfl, rfl⟩ := hx
      · rw [exec_seqAppend, execSeqAppend, State.go_runCmd h, waits busy]
      · rw [exec_seqPark, execSeqPark, State.go_runCmd h, waits busy]
      · rw [exec_seqRetire, execSeqRetire, State.go_runCmd h, waits busy]
  case stale =>
    intro x hx
    have gen : ((s.m.begin id c).ent (c.wf 0 31 0 % 2 ^ 20)).gen % 4096 ≠ c.wf 0 31 0 / 2 ^ 20 := by simpa using hg
    have passes := Mod.seqHold_of_gen_ne gen id
    have unnamed := Mod.named_of_gen_ne gen id
    simp only [List.mem_cons, List.not_mem_nil, or_false, Prod.mk.injEq] at hx
    obtain ⟨rfl, rfl⟩ | ⟨rfl, rfl⟩ | ⟨rfl, rfl⟩ | ⟨rfl, rfl⟩ | ⟨rfl, rfl⟩ := hx
    · rw [exec_seqAppend, execSeqAppend, State.go_runCmd h, passes, Mod.seqAppend, unnamed]
    · rw [exec_seqPark, execSeqPark, State.go_runCmd h, passes, Mod.seqPark, unnamed]
    · rw [exec_seqResume, execSeqResume, State.go_runCmd h, unnamed]
    · rw [exec_seqRetire, execSeqRetire, State.go_runCmd h, passes, Mod.seqRetire, unnamed]
    · rw [exec_seqQuery, execSeqQuery, State.go_runCmd h, unnamed]

end Sys2Proof.Machine
end

section
/-! Steps, selections and retirement (12 R350-R359): a step without demands, the end of an item, a step of one item; then the obligation. -/

namespace Sys2Proof.Machine

/-! Counting leaves the engine and the networks alone. -/

section
variable (m : Mod) (num inst n : Nat)
@[simp] theorem Mod.countBy_seq : (m.countBy num inst n).seq = m.seq := by obtain ⟨_, _, e⟩ := m.countBy_frame num inst n; rw [e]
@[simp] theorem Mod.countBy_net : (m.countBy num inst n).net = m.net := by obtain ⟨_, _, e⟩ := m.countBy_frame num inst n; rw [e]
@[simp] theorem Mod.count_seq : (m.count num inst).seq = m.seq := m.countBy_seq num inst 1
@[simp] theorem Mod.count_net : (m.count num inst).net = m.net := m.countBy_net num inst 1
end

/-! Building a step. -/

theorem Mod.demands_of_no_ready {m : Mod} {n : Nat} (h : ∀ k, m.listOf n k = []) (x : Slot) : m.demands x n = [] := by
  simp [Mod.demands, h]

/-- Without demands no quarter emits an item. -/
theorem emitAll_nil (a : StepArgs) (g : Grants) (m : Mod) : emitAll a [] g m = { m := m, left := g.getD (grantKey 2 0 3) 0 } := rfl

/-- A step that finds no ready sequence is recorded without items. -/
theorem Mod.buildStep_of_no_ready {m : Mod} {a : StepArgs} (h : ∀ k, m.listOf a.slot k = []) :
    m.buildStep a = m.updSeq fun y => { y with
      steps := y.steps.put a.id { slot := Fin.ofNat 256 a.slot, part := a.c.fn, items := [], quarters := [], resva := a.c.w 3 } } := by
  have none : (if m.seq.inService then m.demands a.x a.slot else []) = [] := by rw [demands_of_no_ready h, ite_self]
  simp only [Mod.buildStep, none, emitAll_nil]
  rfl

/-- A STEP of the partition's own slot, with no semaphores, is built. -/
theorem execStepCmd_builds {s : State} {id : Nat} {c : HCmd} {x : Slot} (h : s.m.startable id 2 = some c)
    (idle : s.m.slotBusy (c.wf 0 7 0) = false) (thawed : s.m.frozenPart c.fn.val = false) (res : c.w 3 ≠ 0) (sems : c.wf 0 47 32 = 0)
    (slot : Tab.find (c.wf 0 7 0) s.m.seq.slots = some x) (part : x.part = c.fn) :
    execStepCmd id s = Becomes s ((s.m.begin id c).buildStep ⟨id, c, c.wf 0 7 0, x⟩) := by
  simp only [execStepCmd, State.go_eq, h, idle, thawed, res, sems, Mod.begin_seq, slot, part, List.range_zero, List.any_nil, bne_self_eq_false,
    Bool.or_self, Bool.false_eq_true, if_false]
  rfl

/-! The end of an item (12 R353). -/

section
variable {m : Mod} {t : StepItem}

/-- An item whose entry has since passed to another sequence advances nothing. -/
theorem Mod.endItem_of_gen_ne (h : (m.ent t.ent).gen ≠ t.gen) (id p : Nat) (x : Slot) : m.endItem id p x t =
    (stepRec (seqIdOf t.ent { m.ent t.ent with gen := t.gen }) 0 t.pos false true false 0, m.count kSeqItemNoadv (quarterOf t.ent)) := by
  simp [Mod.endItem, h]

theorem Mod.summaries_of_mode {x : Slot} (h : x.mode ≠ 2) (m : Mod) (i : Nat) (e : SeqEnt) (old : Nat) : m.summaries x i e old = m := if_pos h
theorem Mod.freeWindow_of_mode {x : Slot} (h : x.mode ≠ 1) (m : Mod) (i old : Nat) : m.freeWindow x i old = m := if_pos h

/-- The entry of a sequence whose decode item ends, with the token sampled. -/
def SeqEnt.decoded (e : SeqEnt) (t : StepItem) (w : Nat) : SeqEnt :=
  { e with pos := e.pos + t.ntok, credit := 0, last := BitVec.ofNat 32 w, generated := e.generated + 1, state := 3 }

/-- A dense decode item with a valid result that ends no sequence moves its sequence on and records the token. -/
theorem Mod.endItem_decode {id p : Nat} {x : Slot} (gen : (m.ent t.ent).gen = t.gen) (live : (m.ent t.ent).live = true) (sound : t.poisoned = false)
    (read : (m.seqRead id p (quarterOf t.ent) t.result 8).1.poison = false)
    (valid : (leNat (m.seqRead id p (quarterOf t.ent) t.result 8).1.bytes).testBit 34 = true)
    (eos : (leNat (m.seqRead id p (quarterOf t.ent) t.result 8).1.bytes).testBit 33 = false)
    (kind : t.kind = 0) (dense : x.mode = 0) (endless : (m.ent t.ent).maxnew = 0) (room : (m.ent t.ent).pos + t.ntok < 16777216) :
    m.endItem id p x t =
      let r := m.seqRead id p (quarterOf t.ent) t.result 8
      (stepRec (seqIdOf t.ent { m.ent t.ent with gen := t.gen }) (leNat r.1.bytes % 2 ^ 32) ((m.ent t.ent).pos + t.ntok) true false false 0,
        r.2.setEnt t.ent ((m.ent t.ent).decoded t (leNat r.1.bytes))) := by
  have summ := Mod.summaries_of_mode (x := x) (by rw [dense]; decide)
  have win := Mod.freeWindow_of_mode (x := x) (by rw [dense]; decide)
  simp [Mod.endItem, gen, live, sound, read, valid, eos, kind, endless, summ, win, Nat.ne_of_lt room, SeqEnt.decoded]

end

/-! The end of a step. -/

@[simp] theorem forEach_cons {α : Type} (x : α) (l : List α) (f : α → Mod → Mod) (m : Mod) : forEach (x :: l) f m = forEach l f (f x m) := rfl

/-- With no command held the end of a step applies none. -/
theorem Mod.applyHeld_nil {m : Mod} (h : m.seq.held = []) : m.applyHeld = m := by
  have e : (m.updSeq fun s => { s with held := [] }) = m := by rw [Mod.updSeq, ← h]
  simp only [Mod.applyHeld, h, e, forEach_nil]

/-- A step of one item ends: its record goes into the completion, and no other sequence of the slot is there to gain credit. -/
theorem execStepEnd_one {s : State} {id q : Nat} {c : HCmd} {r : StepRun} {t : StepItem} {x : Slot} {n : BitVec 128 × Mod}
    (hc : s.m.cmd? id = some c) (hr : Tab.find id s.m.seq.steps = some r) (going : c.ended = false) (tasks : c.tasksEnded = c.tasks)
    (order : r.order = [(false, 0)]) (items : r.items = [t]) (npois : r.npois = []) (quarters : r.quarters = [q])
    (iod : s.m.finishes c.iod.val = true) (quarter : s.m.finishes q = true) (slot : Tab.find r.slot.val s.m.seq.slots = some x)
    (room : 1 ≤ 2 * (c.cext - b2n c.cstat)) (item : s.m.endItem id r.part.val x t = n)
    (alone : ∀ k ∈ [0, 1, 2, 3], ∀ j ∈ n.2.listOf r.slot.val k, j = t.ent) (held : n.2.seq.held = []) :
    execStepEnd id s = Becomes s (((((n.2.count kSeqSteps q).updNet fun y => { y with
        waits := y.waits.filter fun w => !(w.uid == 0 && w.key / 65536 == id)
        selGrants := y.selGrants.filter fun k => k / 65536 != id }).updSeq fun y => { y with steps := y.steps.del id }).updCmd id
      fun c => { c with recs := [n.1], spec := 1 + 2 ^ 32 }).endCmd id) := by
  have others : ([0, 1, 2, 3].flatMap fun k => n.2.listOf r.slot.val k).filter (fun i => !(([t].map (·.ent)).contains i)) = [] := by
    rw [List.filter_eq_nil_iff]
    intro j hj
    obtain ⟨k, hk, hj⟩ := List.mem_flatMap.mp hj
    simp [alone k hk j hj]
  have ends : (c.ended || c.tasksEnded != c.tasks || !([c.iod.val, q].all s.m.finishes)) = false := by
    simp [going, tasks, iod, quarter]
  simp only [execStepEnd, State.go_eq, hc, hr, slot, order, items, npois, quarters, ends, item, Bool.false_eq_true, if_false, Option.getD_some,
    List.foldl_cons, List.foldl_nil, List.getElem?_cons_zero, List.nil_append, forEach_nil, forEach_cons, others, List.length_singleton,
    if_pos room]
  rw [Mod.applyHeld_nil (by simpa using held)]
  rfl

/-! Selections (12 R357-R359). -/

section
variable {s : State} {id item : Nat} {r : StepRun} {t : StepItem} {x : Slot} (hr : Tab.find id s.m.seq.steps = some r)
  (ht : r.items[item]? = some t) (slot : Tab.find r.slot.val s.m.seq.slots = some x) (quarter : s.m.finishes (quarterOf t.ent) = true)
include hr ht slot quarter

/-- A selection whose SEMQ is granted reads its header and its queries (12 Table 12.13). -/
theorem execSelectionStart_reads (granted : selKey id item ∈ s.m.net.selGrants) (idle : t.selecting = none) :
    let h := (s.m.updNet fun n => { n with selGrants := n.selGrants.erase (selKey id item) }).seqRead id r.part.val (quarterOf t.ent) t.selbuf 64
    let b := h.2.seqRead id r.part.val (quarterOf t.ent) (t.selbuf + 64) (2 * x.d * x.hq)
    h.1.poison = false → b.1.poison = false → execSelectionStart id item s =
      Becomes s (b.2.updItem id item fun t => { t with selecting := some (leField h.1.bytes 0 1, b.1.bytes) }) := by
  dsimp only
  intro header queries
  have starts : (!(s.m.net.selGrants.contains (selKey id item)) || t.selecting.isSome || !(s.m.finishes (quarterOf t.ent))) = false := by
    simp [granted, idle, quarter]
  simp only [execSelectionStart, State.go_eq, hr, ht, starts, slot, Option.getD_some, header, queries, Bool.or_self, Bool.false_eq_true,
    if_false]
  rfl

end

/-- Where the candidates are few, every one is listed (12 R358). -/
theorem selectFor_few {x : Slot} {n : Nat} (h : n ≤ x.sinkb + x.localb + x.topk) (m : Mod) (e : SeqEnt) (l j : Nat) (qs : List Byte) :
    (m.selectFor x e l n j qs).1 = List.range n := by
  simp only [Mod.selectFor, if_pos h]

/-! Retirement (12 R344). -/

/-- An entry that is retiring, with one command waiting for it, becomes FREE and the command ends. -/
theorem execRetireDone_frees {s : State} {index : BitVec 20} {id : Nat} (retiring : (s.m.ent index.toNat).state = 5)
    (idle : s.m.inStep index.toNat = false) (quarter : s.m.finishes (quarterOf index.toNat) = true)
    (one : (s.m.freeEnt index.toNat).seq.retiring.filter (fun r => r.1 == index.toNat) = [(index.toNat, id)]) :
    execRetireDone index s = Becomes s (((s.m.freeEnt index.toNat).updSeq fun y => { y with
      retiring := y.retiring.filter fun r => r.1 != index.toNat }).seqEnd id scDONE 0) := by
  have frees : ((s.m.ent index.toNat).state != 5 || s.m.inStep index.toNat || !(s.m.finishes (quarterOf index.toNat))) = false := by
    simp [retiring, idle, quarter]
  simp only [execRetireDone, State.go_eq, frees, one, Bool.false_eq_true, if_false, forEach_cons, forEach_nil]
  rfl

/-- Settles O32, a lemma for each clause: the build of a step (`execStepCmd_builds`, `Mod.buildStep_of_no_ready`), its end (`execStepEnd_one`), the end
of an item (`Mod.endItem_decode`, `Mod.endItem_of_gen_ne`), selections (`execSelectionStart_reads`, `selectFor_few`), retirement
(`execRetireDone_frees`). -/
theorem sequenceSteps : Obligations.SequenceSteps := by
  intro s id
  dsimp only
  refine ⟨fun c x h idle thawed res sems slot part none => ?empty, fun c x h idle thawed res sems slot part => ?builds,
    fun c r t q x hc hr going tasks order items npois quarters iod quarter slot room alone held => ?ends,
    fun p x t => ⟨fun gen live sound read valid eos kind dense endless room => ?advances, fun stale => ?stale⟩,
    fun item r t x hr ht slot quarter => ⟨fun granted idle header queries => ?reads, fun l selecting => ?merges⟩,
    fun x e l n j qs few => ?few, fun index retiring idle quarter one => ?retires⟩
  case empty =>
    exact (execStepCmd_builds h idle thawed res sems slot part).trans
      (congrArg (Becomes s) (Mod.buildStep_of_no_ready (by simpa using none)))
  case builds => exact execStepCmd_builds h idle thawed res sems slot part
  case ends =>
    exact (execStepEnd_one hc hr going tasks order items npois quarters iod quarter slot room rfl alone held).trans
      (by simp only [Mod.updNet, Mod.updSeq, Mod.count_net, Mod.count_seq])
  case advances => exact Mod.endItem_decode gen live sound read valid eos kind dense endless room
  case stale => exact Mod.endItem_of_gen_ne stale id p x
  case reads => exact execSelectionStart_reads hr ht slot quarter granted idle header queries
  case merges =>
    simp only [exec_selectionMerge, execSelectionMerge, State.go_eq, hr, ht, selecting, slot, quarter, Option.getD_some, Bool.not_true,
      Bool.false_eq_true, if_false]
    rfl
  case few => exact selectFor_few few s.m e l j qs
  case retires => exact execRetireDone_frees retiring idle quarter one

end Sys2Proof.Machine
end

section
/-! The sequence table, the page pool and the budget of a step (12 R338, R339, R345, R346, R351): the sum of a table of grants, which each grant raises
by what is taken from the budget; then the obligation. -/

namespace Sys2Proof.Machine

/-! Sums of a table of numbers. -/

/-- The keys of a table rise. -/
def Tab.Rising {α : Type} (t : Tab α) : Prop := t.Pairwise fun a b => a.1 < b.1

/-- The sum of the numbers listed. -/
def Tab.total (t : Tab Nat) : Nat := (t.map Prod.snd).sum

theorem Tab.mem_put {α : Type} {k : Nat} {v : α} {t : Tab α} {e : Nat × α} (h : e ∈ t.put k v) : e.1 = k ∨ e ∈ t := by
  induction t with
  | nil => exact .inl (by rw [List.mem_singleton.mp h])
  | cons f r ih =>
    obtain ⟨j, w⟩ := f
    simp only [Tab.put] at h
    split at h
    · obtain rfl | h := List.mem_cons.mp h
      · exact .inl rfl
      · exact .inr (List.mem_cons_of_mem _ h)
    · split at h
      · obtain rfl | h := List.mem_cons.mp h
        · exact .inl rfl
        · exact .inr h
      · obtain rfl | h := List.mem_cons.mp h
        · exact .inr List.mem_cons_self
        · exact (ih h).imp_right (List.mem_cons_of_mem _)

theorem Tab.Rising.put {α : Type} {t : Tab α} (h : t.Rising) (k : Nat) (v : α) : Tab.Rising (t.put k v) := by
  induction t with
  | nil => exact List.pairwise_singleton _ _
  | cons e r ih =>
    obtain ⟨j, w⟩ := e
    obtain ⟨above, rising⟩ := List.pairwise_cons.mp h
    simp only [Tab.put]
    split
    · rename_i same
      exact List.pairwise_cons.mpr ⟨same ▸ above, rising⟩
    · split
      · rename_i lower
        refine List.pairwise_cons.mpr ⟨fun e he => ?_, h⟩
        obtain rfl | he := List.mem_cons.mp he
        · exact lower
        · exact Nat.lt_trans lower (above e he)
      · refine List.pairwise_cons.mpr ⟨fun e he => ?_, ih rising⟩
        obtain he | he := Tab.mem_put he
        · show j < e.1
          omega
        · exact above e he

theorem Tab.find_none_of_lt {α : Type} {t : Tab α} {k : Nat} (h : ∀ e ∈ t, k < e.1) : Tab.find k t = none := by
  induction t with
  | nil => rfl
  | cons e r ih =>
    obtain ⟨lower, rest⟩ := List.forall_mem_cons.mp h
    simp only [Tab.find, if_neg (Nat.ne_of_gt lower), ih rest]

/-- Raising one entry of a table by `d` raises the sum by `d`. -/
theorem Tab.total_put_add {t : Tab Nat} (h : t.Rising) (k d : Nat) : Tab.total (t.put k (t.getD k 0 + d)) = t.total + d := by
  induction t with
  | nil => simp [Tab.put, Tab.total]
  | cons e r ih =>
    obtain ⟨j, w⟩ := e
    obtain ⟨above, rising⟩ := List.pairwise_cons.mp h
    by_cases same : j = k
    · simp only [Tab.total, Tab.getD, Tab.put, Tab.find, if_pos same, Option.getD_some, List.map_cons, List.sum_cons]
      omega
    · by_cases lower : k < j
      · have absent : Tab.find k r = none := Tab.find_none_of_lt fun e he => Nat.lt_trans lower (above e he)
        simp only [Tab.total, Tab.getD, Tab.put, Tab.find, if_neg same, if_pos lower, absent, Option.getD_none, List.map_cons, List.sum_cons]
        omega
      · have rest : Tab.total (Tab.put k (Tab.getD r k 0 + d) r) = Tab.total r + d := ih rising
        simp only [Tab.total, Tab.getD, Tab.put, Tab.find, if_neg same, if_neg lower, List.map_cons, List.sum_cons] at rest ⊢
        omega

/-! The division of a step's budget (12 R351). -/

/-- What a quarter's sequences of a class still ask. -/
def classWant (ds : List Demand) (cls prio : Nat) (g : Grants) (q : Nat) : Nat :=
  ds.foldl (fun n d => if d.cls.val = cls ∧ d.prio.val = prio ∧ d.q.val = q then n + d.need else n) 0 - g.getD (grantKey cls prio q) 0

/-- A quarter's share of `give` tokens, in proportion to what it asks, rounded down. -/
def quarterShare (give : Nat) (want : Nat → Nat) (q : Nat) : Nat := give * want q / (want 0 + want 1 + want 2 + want 3)

/-- A quarter is granted its share `base q`, and one of the tokens left over while there are any and it asks for more. -/
def grantShare (cls prio : Nat) (base want : Nat → Nat) (a : Nat × Grants) (q : Nat) : Nat × Grants :=
  let extra := if 0 < a.1 ∧ base q < want q then 1 else 0
  (a.1 - extra, a.2.put (grantKey cls prio q) (a.2.getD (grantKey cls prio q) 0 + base q + extra))

theorem grantClass_eq (ds : List Demand) (cls prio cap : Nat) (g : Grants) : grantClass ds cls prio cap g =
    let want := classWant ds cls prio g
    let give := min cap (want 0 + want 1 + want 2 + want 3)
    let base := quarterShare give want
    if give = 0 then (0, g)
    else (give, ([0, 1, 2, 3].foldl (grantShare cls prio base want) (give - (base 0 + base 1 + base 2 + base 3), g)).2) := rfl

/-- Granting a share moves tokens from those left over to the grants: the share itself is what is added. -/
theorem grantShare_total {a : Nat × Grants} (h : a.2.Rising) (cls prio : Nat) (base want : Nat → Nat) (q : Nat) :
    (grantShare cls prio base want a q).2.Rising ∧
      Tab.total (grantShare cls prio base want a q).2 + (grantShare cls prio base want a q).1 = Tab.total a.2 + a.1 + base q := by
  refine ⟨h.put _ _, ?_⟩
  simp only [grantShare, Nat.add_assoc (a.2.getD _ 0), Tab.total_put_add h]
  split <;> omega

theorem grantShares_total {a : Nat × Grants} (h : a.2.Rising) (cls prio : Nat) (base want : Nat → Nat) (l : List Nat) :
    (l.foldl (grantShare cls prio base want) a).2.Rising ∧
      Tab.total (l.foldl (grantShare cls prio base want) a).2 + (l.foldl (grantShare cls prio base want) a).1 =
        Tab.total a.2 + a.1 + (l.map base).sum := by
  induction l generalizing a with
  | nil => exact ⟨h, rfl⟩
  | cons q l ih =>
    obtain ⟨rising, one⟩ := grantShare_total h cls prio base want q
    obtain ⟨rising, rest⟩ := ih rising
    refine ⟨rising, rest.trans ?_⟩
    rw [one, List.map_cons, List.sum_cons, Nat.add_assoc]

/-- The shares of the quarters add up to no more than what the class is given. -/
theorem sum_quarterShare_le (give : Nat) (want : Nat → Nat) :
    quarterShare give want 0 + quarterShare give want 1 + quarterShare give want 2 + quarterShare give want 3 ≤ give := by
  simp only [quarterShare]
  generalize ht : want 0 + want 1 + want 2 + want 3 = t
  calc give * want 0 / t + give * want 1 / t + give * want 2 / t + give * want 3 / t
      ≤ (give * want 0 + give * want 1) / t + give * want 2 / t + give * want 3 / t :=
        Nat.add_le_add_right (Nat.add_le_add_right (Nat.div_add_div_le_add_div ..) _) _
    _ ≤ (give * want 0 + give * want 1 + give * want 2) / t + give * want 3 / t :=
        Nat.add_le_add_right (Nat.div_add_div_le_add_div ..) _
    _ ≤ (give * want 0 + give * want 1 + give * want 2 + give * want 3) / t := Nat.div_add_div_le_add_div ..
    _ = give * t / t := by rw [← Nat.mul_add, ← Nat.mul_add, ← Nat.mul_add, ht]
    _ ≤ give := Nat.div_le_of_le_mul (Nat.le_of_eq (Nat.mul_comm give t))

/-- What is left of a budget and what has been granted make up no more than the budget. -/
def WithinBudget (budget : Nat) (a : Nat × Grants) : Prop := a.2.Rising ∧ Tab.total a.2 + a.1 ≤ budget

/-- Granting a class keeps within the budget: it is given no more than what is left, and its quarters no more than that. -/
theorem WithinBudget.grantClass {budget : Nat} {a : Nat × Grants} (h : WithinBudget budget a) (ds : List Demand) (cls prio keep : Nat) :
    WithinBudget budget (a.1 - (grantClass ds cls prio (a.1 - keep) a.2).1, (grantClass ds cls prio (a.1 - keep) a.2).2) := by
  obtain ⟨rising, sum⟩ := h
  rw [grantClass_eq]
  generalize classWant ds cls prio a.2 = want
  dsimp only
  split
  · exact ⟨rising, sum⟩
  · have capped : min (a.1 - keep) (want 0 + want 1 + want 2 + want 3) ≤ a.1 := Nat.le_trans (Nat.min_le_left ..) (Nat.sub_le ..)
    generalize min (a.1 - keep) (want 0 + want 1 + want 2 + want 3) = give at capped ⊢
    have shares := sum_quarterShare_le give want
    generalize quarterShare give want = base at shares ⊢
    obtain ⟨rising, granted⟩ :=
      grantShares_total (a := (give - (base 0 + base 1 + base 2 + base 3), a.2)) rising cls prio base want [0, 1, 2, 3]
    refine ⟨rising, ?_⟩
    simp only [List.map_cons, List.map_nil, List.sum_cons, List.sum_nil] at granted
    dsimp only
    omega

/-- One pass over the priorities of a class, highest first, that leaves `keep` tokens. -/
def grantPass (ds : List Demand) (cls keep : Nat) (a : Nat × Grants) : Nat × Grants :=
  [7, 6, 5, 4, 3, 2, 1, 0].foldl (fun a p => (a.1 - (grantClass ds cls p (a.1 - keep) a.2).1, (grantClass ds cls p (a.1 - keep) a.2).2)) a

theorem WithinBudget.grantPass {budget : Nat} {a : Nat × Grants} (h : WithinBudget budget a) (ds : List Demand) (cls keep : Nat) :
    WithinBudget budget (grantPass ds cls keep a) :=
  List.foldlRecOn _ _ h fun _ h p _ => h.grantClass ds cls p keep

/-- The passes of R351: due decodes, other decodes short of the reserve, prefills, the rest of the decodes. -/
theorem divideBudget_eq (x : Slot) (ds : List Demand) : divideBudget x ds =
    (grantPass ds 1 0 <| grantPass ds 2 0 <|
      grantPass ds 1 (if ds.any (fun d => d.cls == 2 && decide (0 < d.need)) then x.budget * x.pshare / 16 else 0) <|
      grantPass ds 0 0 (x.budget, [])).2 := rfl

/-- The four passes keep within the budget, so the grants do. -/
theorem divideBudget_total_le (x : Slot) (ds : List Demand) : Tab.total (divideBudget x ds) ≤ x.budget := by
  have start : WithinBudget x.budget (x.budget, []) := ⟨List.Pairwise.nil, Nat.le_of_eq (Nat.zero_add _)⟩
  obtain ⟨-, sum⟩ := (((start.grantPass ds 0 0).grantPass ds 1 _).grantPass ds 2 0).grantPass ds 1 0
  rw [divideBudget_eq]
  exact Nat.le_trans (Nat.le_add_right ..) sum

/-! The table (12 R339) and the pool (12 R346). -/

/-- SEQ_AST_INIT starts on an aligned base whose frames are mirrored and the engine's own, clear of the frame key table (12 R339). -/
theorem Mod.astInit_starts {m : Mod} (offline : m.seq.inService = false) (idle : m.seq.initing = false) (empty : m.seq.extents = [])
    (aligned : m.parN pSeqAstBase % 2 ^ 27 = 0) (fits : m.parN pSeqAstBase + 2 ^ 27 ≤ paLimit)
    (apart : m.parN pSeqAstBase + 2 ^ 27 ≤ m.parN pMemFktBase ∨ m.parN pMemFktBase + 2 ^ 25 ≤ m.parN pSeqAstBase)
    (frames : ∀ i < 2048,
      kindOf (m.region (regionOf (m.parN pSeqAstBase + i * 65536))) = kMIRROR ∧ m.tagOf (m.parN pSeqAstBase + i * 65536) = 0xFE) :
    m.astInit = (esRUNNING, m.updSeq fun x => { x with initing := true, base := m.parN pSeqAstBase }) := by
  have clear : ¬ (m.parN pMemFktBase < m.parN pSeqAstBase + 2 ^ 27 ∧ m.parN pSeqAstBase < m.parN pMemFktBase + 2 ^ 25) := by omega
  have sound : ((List.range 2048).all fun i =>
      kindOf (m.region (regionOf (m.parN pSeqAstBase + i * 65536))) == kMIRROR && m.tagOf (m.parN pSeqAstBase + i * 65536) == 0xFE) =
      true := by
    rw [List.all_eq_true]
    intro i hi
    obtain ⟨kind, tag⟩ := frames i (List.mem_range.mp hi)
    simp only [kind, tag, beq_self_eq_true, Bool.and_self]
  simp only [Mod.astInit, offline, idle, empty, aligned, sound, decide_eq_false clear, decide_eq_false (Nat.not_lt.mpr fits), List.any_nil,
    bne_self_eq_false, Bool.or_self, Bool.not_true, Bool.false_eq_true, if_false]

theorem recordsOf_one {n : Nat} {blob : List Byte} (pos : 0 < n) (h : blob.length = n) : recordsOf n blob = [leNat blob] := by
  simp [recordsOf, records, h, Nat.div_self pos, List.take_of_length_le (Nat.le_of_eq h), pos]

theorem Mod.poolSet_one {m n : Mod} {blob : List Byte} (len : blob.length = 16) (h : m.poolRecord (leNat blob) = some n) :
    m.poolSet blob = (esOK, n) := by
  simp [Mod.poolSet, len, recordsOf_one _ len, h]

/-- A record that adds an extent, where it is accepted (12 Table 12.7). -/
theorem Mod.poolRecord_adds {m n : Mod} {r : Nat} (h : m.poolRecord r = some n) (adds : r.testBit 74 = false) :
    n = m.updSeq fun x => { x with extents := x.extents ++ [{
      base := bits r 24 0, count := bits r 56 32, part := Fin.ofNat 128 (bits r 70 64), quarter := Fin.ofNat 4 (bits r 72 71),
      table := r.testBit 73 }] } := by
  simp only [Mod.poolRecord, adds, Bool.false_eq_true, if_false, Option.ite_none_left_eq_some, Option.some.injEq] at h
  obtain ⟨-, -, rfl⟩ := h
  rfl

/-- Settles O33: the table by `Mod.astInit_starts`, the pool by `Mod.poolSet_one` and `Mod.poolRecord_adds`, the budget by
`divideBudget_total_le`. -/
theorem sequencePools : Obligations.SequencePools := by
  refine ⟨fun s => ⟨fun initing => ?made, fun serving => ?starts, fun offline idle empty => ?accepted, fun blob n serving len record => ?pool⟩,
    divideBudget_total_le⟩
  case made =>
    simp only [exec_seqAstInitDone, execSeqAstInitDone, State.go_eq, initing, Bool.not_true, Bool.false_eq_true, if_false]
    rfl
  case starts =>
    rw [exec_seqAstInit, execSeqAstInit, State.go_eq, Mod.perform_serving serving]
    rfl
  case accepted => exact Mod.astInit_starts offline idle empty
  case pool =>
    refine ⟨?_, Mod.poolRecord_adds record⟩
    rw [exec_seqPoolSet, execSeqPoolSet, State.go_eq, Mod.perform_serving serving, Mod.poolSet_one len record]
    rfl

end Sys2Proof.Machine
end

section
/-! The interference of a window (13 R383, R384), then eviction, save and restore of a context (13 R369-R376): what picking the next context, counting
and saving an image leave alone; then the obligations. -/

namespace Sys2Proof.Machine

/-! Interference. -/

section
variable {m : Mod} {a w : Nat}

theorem Mod.interference_idle (h : a = 0 ∨ a = w) : m.interference a w = (0, m) := if_pos h

/-- Waiting beyond the activity has no value in the spec: a free one is drawn (log 28). -/
theorem Mod.interference_of_lt (active : a ≠ 0) (h : a < w) :
    m.interference a w = (Config.freeNat m.free % 2 ^ 32, { m with free := m.free + 1 }) := by
  have busy : ¬ (a = 0 ∨ a = w) := by omega
  simp only [Mod.interference, if_neg busy, if_pos h, Mod.draw]

theorem Mod.interference_of_gt (h : w < a) : m.interference a w = (min 0xFFFFFFFF (1024 * w / (a - w)), m) := by
  have busy : ¬ (a = 0 ∨ a = w) := by omega
  simp only [Mod.interference, if_neg busy, if_neg (Nat.lt_asymm h)]

end

/-- The module once the interference of a partition's window is kept. -/
def Mod.withInterf (m : Mod) (p : PartId) (i : Nat) : Mod := m.updSched fun x => { x with interf := x.interf.put p.val i }

/-- A window's interference is kept, and raised as an event above a threshold that is not off. -/
theorem execInterfWindowEnd_of {s : State} {a w i : Nat} {n : Mod} (h : s.m.interference a w = (i, n)) (p : PartId) :
    execInterfWindowEnd p a w s = Becomes s (
      if n.parN (pSchInterfThr + p.val) ≠ 0 ∧ n.parN (pSchInterfThr + p.val) < i then (n.withInterf p i).raise evSchInterf 0 p.val i
      else n.withInterf p i) := by
  simp only [execInterfWindowEnd, State.go_eq, h]
  rfl

/-- Whether or not the event is raised, the interference is kept. -/
theorem execInterfWindowEnd_keeps {s : State} {a w i : Nat} {n : Mod} (h : s.m.interference a w = (i, n)) (p : PartId) :
    Completes (execInterfWindowEnd p a w s) fun t => Tab.find p.val t.m.sched.interf = some i := by
  refine ⟨_, execInterfWindowEnd_of h p, ?_⟩
  dsimp only
  split <;> exact Tab.find_put_same _ _ _

/-- Settles O28: the value by `Mod.interference_idle` and `Mod.interference_of_gt`, what is kept and raised by `execInterfWindowEnd_of`. -/
theorem interferenceWindow : Obligations.InterferenceWindow := by
  intro s p a w
  refine ⟨fun idle => ?idle, fun less quiet => ?quiet, fun less on above => ?raised⟩
  case idle =>
    rw [exec_interfWindowEnd, execInterfWindowEnd_of (Mod.interference_idle idle), if_neg fun above => Nat.not_lt_zero _ above.2]
    rfl
  case quiet =>
    rw [exec_interfWindowEnd, execInterfWindowEnd_of (Mod.interference_of_gt less), if_neg (by omega)]
    rfl
  case raised =>
    rw [exec_interfWindowEnd, execInterfWindowEnd_of (Mod.interference_of_gt less), if_pos ⟨on, above⟩]
    rfl

/-! What picking the next context and counting leave alone. -/

section
variable (m : Mod) (t : Nat)

@[simp] theorem Mod.pickCur_sched : (m.pickCur t).sched = m.sched := by obtain ⟨_, e⟩ := m.pickCur_frame t; rw [e]
@[simp] theorem Mod.pickCur_mem : (m.pickCur t).mem = m.mem := by obtain ⟨_, e⟩ := m.pickCur_frame t; rw [e]
@[simp] theorem Mod.pickCur_cache : (m.pickCur t).cache = m.cache := by obtain ⟨_, e⟩ := m.pickCur_frame t; rw [e]
@[simp] theorem Mod.ctx_pickCur (i d : Nat) : (m.pickCur t).ctx i d = m.ctx i d := by obtain ⟨_, e⟩ := m.pickCur_frame t; rw [e]; rfl

end

section
variable (m : Mod) (num inst : Nat)

@[simp] theorem Mod.count_sched : (m.count num inst).sched = m.sched := by obtain ⟨_, _, e⟩ := m.countBy_frame num inst 1; rw [Mod.count, e]
@[simp] theorem Mod.ctx_count (i d : Nat) : (m.count num inst).ctx i d = m.ctx i d := by
  obtain ⟨_, _, e⟩ := m.countBy_frame num inst 1
  rw [Mod.count, e]
  rfl

end

/-- Whether work of a partition may be placed depends on the state of the module, its partitions, waypoints and debug alone. -/
theorem Mod.mayPlace_congr {m n : Mod} (hmod : n.mod = m.mod) (hparts : n.parts = m.parts) (hdbg : n.dbg = m.dbg) (hft : n.ft = m.ft) (p : Nat) :
    n.mayPlace p = m.mayPlace p := by
  simp only [Mod.mayPlace, Mod.serving, Mod.part, Mod.frozenPart, Mod.wp, hmod, hparts, hdbg, hft]

/-! The save of a context (13 R371, R372). -/

/-- The scheduler once the eviction of a saddle has ended with an image among the saved ones. -/
def SchedS.withSaved (x : SchedS) (key : Nat) (v : Saved) : SchedS :=
  { x with evicting := x.evicting.del key, saved := x.saved.put x.saved.fresh v, readySeq := x.readySeq + 1 }

section
variable (m : Mod) (t : TileId) (d : SaddleId) (k : Task)

/-- The image of the context in a saddle that runs `k`: its registers and its declared-live scratchpad. -/
def Mod.savedImage : Saved :=
  let c := m.ctx t.val d.val
  let img := (m.tile t.val).liveImage ((m.tile t.val).win.getD d.val (0, 0)).1 (taskLive k)
  { ctx := c.saved, ts := img.1, poison := img.2, slot := m.freeSlot c.part.val, iod := Fin.ofNat 4 (m.iodOfTask k),
    parked := c.saved.wait.isSome, ready := if c.saved.st == .run then some m.sched.readySeq else none }

/-- The module once the context of a saddle is in its slot and the saddle is EMPTY. -/
def Mod.savedAway : Mod :=
  let v := m.savedImage t d k
  let n := ((m.putImage v).updSched fun x => x.withSaved (saddleKey t d) v).count kSchEvict (m.iodOfTask k)
  ((n.setCtx t.val d.val { mcsr := (m.ctx t.val d.val).mcsr }).updTile t.val fun x => { x with win := x.win.put d.val (0, 0) }).pickCur t.val

/-- Beside the scheduler, the saddle and its tile, a save touches what a store may touch. -/
theorem Mod.savedAway_frame : ∃ ts n, m.Stores n ∧ m.savedAway t d k = { n with
    tiles := ts, ctxs := m.ctxs.put (ctxKey t.val d.val) { mcsr := (m.ctx t.val d.val).mcsr },
    sched := m.sched.withSaved (saddleKey t d) (m.savedImage t d k) } := by
  obtain ⟨_, e⟩ := Mod.pickCur_frame _ t.val
  obtain ⟨_, _, c⟩ := Mod.countBy_frame _ kSchEvict (m.iodOfTask k) 1
  obtain ⟨_, _, _, _, _, i⟩ := (Mod.Stores.refl m).putImage (v := m.savedImage t d k)
  rw [Mod.savedAway, e, Mod.count, c, i]
  exact ⟨_, _, ⟨_, _, _, _, _, rfl⟩, rfl⟩

@[simp] theorem Mod.savedAway_ctx : (m.savedAway t d k).ctx t.val d.val = { mcsr := (m.ctx t.val d.val).mcsr } := by
  obtain ⟨_, _, -, e⟩ := m.savedAway_frame t d k
  rw [e]
  exact Tab.getD_put_same _ _ _ _
@[simp] theorem Mod.savedAway_sched : (m.savedAway t d k).sched = m.sched.withSaved (saddleKey t d) (m.savedImage t d k) := by
  obtain ⟨_, _, -, e⟩ := m.savedAway_frame t d k
  rw [e]
@[simp] theorem Mod.mayPlace_savedAway (p : Nat) : (m.savedAway t d k).mayPlace p = m.mayPlace p := by
  obtain ⟨_, _, ⟨_, _, _, _, _, rfl⟩, e⟩ := m.savedAway_frame t d k
  rw [e]
  exact Mod.mayPlace_congr rfl rfl rfl rfl p

end

@[simp] theorem Mod.requeue_task_ctx (m : Mod) (w : Task) (i d : Nat) : (m.requeue (.task w)).ctx i d = m.ctx i d := rfl
@[simp] theorem Mod.requeue_task_sched (m : Mod) (w : Task) : (m.requeue (.task w)).sched = { m.sched with ready := w :: m.sched.ready } := rfl

/-! The commands. -/

section
variable {s : State} {t : TileId} {d : SaddleId}

theorem execContextEvictable_blocked (hb : s.m.braked = false) (blocked : (s.m.ctx t.val d.val).st = .blocked) :
    execContextEvictable t d s = Becomes s (s.m.setCtx t.val d.val { s.m.ctx t.val d.val with evictable := true }) := by
  rw [execContextEvictable, State.go_eq, Mod.atUnit_free (Mod.heldAt_of_not_braked hb _)]
  exact congrArg (fun c => Becomes s (s.m.setCtx t.val d.val c)) (if_pos (beq_iff_eq.mpr blocked))

/-- An eviction that finds its context blocked or halted stops it (13 R371). -/
theorem execEvictionReceived_stops {w : Work} (hb : s.m.braked = false) (evicting : Tab.find (saddleKey t d) s.m.sched.evicting = some w)
    (stopped : (s.m.ctx t.val d.val).st = .blocked ∨ (s.m.ctx t.val d.val).st = .halted) (lives : (s.m.ctx t.val d.val).ending = none) :
    execEvictionReceived t d s = Becomes s ((s.m.updCtx t.val d.val fun c => { c with st := .saving }).pickCur t.val) := by
  have stops : ((s.m.ctx t.val d.val).st == .blocked || (s.m.ctx t.val d.val).st == .halted) = true := by simpa using stopped
  simp only [execEvictionReceived, State.go_eq, Mod.atUnit_free (Mod.heldAt_of_not_braked hb _), evicting, stops, lives, Option.isNone_none,
    Bool.and_self, if_true, Becomes]

/-- A save that is complete empties the saddle; a task that may not be placed now waits again (13 R370). -/
theorem execSaveDone_requeues {k w : Task} (hb : s.m.braked = false) (evicting : Tab.find (saddleKey t d) s.m.sched.evicting = some (.task w))
    (saving : (s.m.ctx t.val d.val).st = .saving) (lives : (s.m.ctx t.val d.val).ending = none) (issued : (s.m.ctx t.val d.val).iq = [])
    (quiet : (s.m.ctx t.val d.val).vq = 0) (task : (s.m.ctx t.val d.val).task = some k)
    (written : ∀ r ∈ (s.m.tile t.val).running, r.sd ≠ d) (waits : s.m.mayPlace w.part.val = false) :
    execSaveDone t d s = Becomes s ((s.m.savedAway t d k).requeue (.task w)) := by
  have running : ((s.m.tile t.val).running.any fun r => r.sd == d) = false := by simpa using written
  have unplaced : (s.m.savedAway t d k).mayPlace w.part.val = false := by rw [Mod.mayPlace_savedAway, waits]
  simp only [execSaveDone, State.go_eq, Mod.atUnit_free (Mod.heldAt_of_not_braked hb _), evicting, saving, lives, issued, quiet, task, running,
    bne_self_eq_false, Option.isSome_none, List.isEmpty_nil, Bool.not_true, Bool.or_false, Bool.false_eq_true, if_false, Mod.workTask]
  split
  · exact congrArg (Becomes s) (if_neg fun placed => absurd (Bool.and_eq_true_iff.mp placed).1 (ne_true_of_eq_false unplaced))
  · rfl

/-- An image that reads back sound is the context again, with the saddle's machine registers, waiting as before (13 R374, R376). -/
theorem execRestoreDone_restores {h : Nat} {v : Saved} (hb : s.m.braked = false) (restoring : Tab.find (saddleKey t d) s.m.sched.restoring = some h)
    (steady : (s.m.tile t.val).changing = none) (saved : Tab.find h s.m.sched.saved = some v) :
    Completes (execRestoreDone t d .ok s) fun u =>
      u.m.ctx t.val d.val = { v.ctx with
        mcsr := (s.m.ctx t.val d.val).mcsr, blockedAt := s.m.ticks, st := if v.ctx.wait.isSome then .blocked else .run } ∧
      u.m.sched = { s.m.sched with restoring := s.m.sched.restoring.del (saddleKey t d), saved := s.m.sched.saved.del h } := by
  have sound : (Ecc.ok == Ecc.uncorrectable) = false := rfl
  refine ⟨_, rfl, ?_⟩
  simp only [Mod.atUnit_free (Mod.heldAt_of_not_braked hb _), restoring, steady, Option.isSome_none, Bool.false_eq_true, if_false, Mod.updSched_sched,
    saved, sound]
  constructor
  · simp only [Mod.ctx_pickCur, Mod.ctx_count]
    exact Mod.ctx_setCtx _ _ _ _
  · simp only [Mod.pickCur_sched, Mod.count_sched, Mod.updSched_sched, Mod.setCtx_sched]
    rfl

end

/-! The parked wait (13 R373). -/

/-- A parked wait for a copy is over once the copy has its status: the context receives it and retires the tag. -/
theorem Mod.parkedOver_copy {m : Mod} {c : Ctx} {tag id st : Nat} {rd : Reg} {cp : Copy} (wait : c.wait = some (.copy tag rd))
    (named : Tab.find tag c.tags = some id) (copy : Tab.find id m.copies = some cp) (done : cp.status = some st) :
    m.parkedOver c = some ({ c.endWait (some (rd, BitVec.ofNat 64 st)) with tags := c.tags.del tag }, some id) := by
  simp only [Mod.parkedOver, wait, named, copy, done]

/-- A parked context whose wait is over joins the saved runnable ones, the last of them; a copy it waited for is forgotten. -/
theorem execParkedWaitDone_over {s : State} {h id : Nat} {v : Saved} {c : Ctx} (saved : Tab.find h s.m.sched.saved = some v)
    (parked : v.parked = true) (finished : s.m.parkedOver v.ctx = some (c, some id)) :
    Completes (execParkedWaitDone h s) fun u => u.m.copies = s.m.copies.del id ∧
      Tab.find h u.m.sched.saved = some { v with ctx := c, parked := false, ready := some s.m.sched.readySeq } := by
  refine ⟨_, rfl, ?_⟩
  simp [saved, parked, finished, Mod.updSaved, Tab.adj_of_find saved]

/-- Settles O27: one lemma a command, the free interference by `Mod.interference_of_lt`. -/
theorem evictionAndRestore : Obligations.EvictionAndRestore := by
  refine ⟨fun s t d => ?_, fun s p a w active exceeds => execInterfWindowEnd_keeps (Mod.interference_of_lt active exceeds) p⟩
  intro c key hb
  refine ⟨execContextEvictable_blocked hb, fun w evicting stopped lives => ?received,
    fun k w evicting saving lives issued quiet task written waits => ?saved, fun h v restoring steady saved => ?restored,
    fun h v tag rd id cp st saved parked wait named copy done =>
      execParkedWaitDone_over saved parked (Mod.parkedOver_copy wait named copy done)⟩
  case received =>
    refine ⟨_, execEvictionReceived_stops hb evicting stopped lives, ?_, ?_, ?_, ?_⟩
    · rw [Mod.ctx_pickCur, Mod.ctx_updCtx]
    · rw [Mod.pickCur_sched, Mod.updCtx_sched]
    · rw [Mod.pickCur_mem, Mod.updCtx_mem]
    · rw [Mod.pickCur_cache, Mod.updCtx_cache]
  case saved =>
    refine ⟨_, execSaveDone_requeues hb evicting saving lives issued quiet task written waits, ?_, ?_, s.m.savedImage t d k, ?_, rfl, rfl, rfl⟩
    · rw [Mod.requeue_task_ctx, Mod.savedAway_ctx]
    · rw [Mod.requeue_task_sched, Mod.savedAway_sched]
      rfl
    · rw [Mod.requeue_task_sched, Mod.savedAway_sched]
      exact Tab.find_put_same _ _ _
  case restored =>
    obtain ⟨u, done, ctx, sched⟩ := execRestoreDone_restores hb restoring steady saved
    exact ⟨u, done, ctx, by rw [sched], by rw [sched]⟩

end Sys2Proof.Machine
end

section
/-! The commands that units of the module run for the host (14 R404-R410): what the start of a command leaves alone, what a pin does; then the
obligation. -/

namespace Sys2Proof.Machine

/-! The start of a command (14 R401, 23 R624). -/

theorem Mod.clearCtr_frame (m : Mod) (num inst : Nat) : ∃ t, m.clearCtr num inst = { m with ctr := t } := ⟨_, rfl⟩

/-- The start of a command touches commands, queue pairs and the counter set it resets. -/
theorem Mod.begin_frame (m : Mod) (id : Nat) (c : HCmd) :
    ∃ t cs qs, m.begin id c = { m with ctr := t, host := { m.host with cmds := cs, qps := qs } } := by
  simp only [Mod.begin]
  split
  · obtain ⟨_, e1⟩ := Mod.clearCtr_frame (m.updCmd id fun c => { c with started := true }) kCmdEmbytes _
    obtain ⟨_, e2⟩ := Mod.clearCtr_frame _ kCmdTaskcyc _
    obtain ⟨_, e3⟩ := Mod.clearCtr_frame _ kCmdHmbytes _
    obtain ⟨_, e4⟩ := Mod.clearCtr_frame _ kCmdCsumis _
    rw [e4, e3, e2, e1]
    exact ⟨_, _, _, rfl⟩
  · exact ⟨_, _, _, rfl⟩

/-- Without CSTAT a command is marked started, and no more. -/
theorem Mod.begin_of_no_cstat {c : HCmd} (h : c.cstat = false) (m : Mod) (id : Nat) :
    m.begin id c = m.updCmd id fun c => { c with started := true } := by
  simp only [Mod.begin, h]

section
variable (m : Mod) (id : Nat) (c : HCmd)

@[simp] theorem Mod.begin_cache : (m.begin id c).cache = m.cache := by obtain ⟨_, _, _, e⟩ := m.begin_frame id c; rw [e]
@[simp] theorem Mod.begin_mem : (m.begin id c).mem = m.mem := by obtain ⟨_, _, _, e⟩ := m.begin_frame id c; rw [e]
@[simp] theorem Mod.begin_parts : (m.begin id c).parts = m.parts := by obtain ⟨_, _, _, e⟩ := m.begin_frame id c; rw [e]
@[simp] theorem Mod.begin_net : (m.begin id c).net = m.net := by obtain ⟨_, _, _, e⟩ := m.begin_frame id c; rw [e]
@[simp] theorem Mod.begin_kod : (m.begin id c).kod = m.kod := by obtain ⟨_, _, _, e⟩ := m.begin_frame id c; rw [e]
@[simp] theorem Mod.begin_ft : (m.begin id c).ft = m.ft := by obtain ⟨_, _, _, e⟩ := m.begin_frame id c; rw [e]
@[simp] theorem Mod.begin_portState : (m.begin id c).host.portState = m.host.portState := by
  obtain ⟨_, _, _, e⟩ := m.begin_frame id c; rw [e]
@[simp] theorem Mod.parN_begin (n : Nat) : (m.begin id c).parN n = m.parN n := by simp only [Mod.parN, Mod.par, begin_kod]
@[simp] theorem Mod.part_begin (p : Nat) : (m.begin id c).part p = m.part p := by simp only [Mod.part, begin_parts]
@[simp] theorem Mod.servedBy_begin (k : Nat) : (m.begin id c).servedBy k = m.servedBy k := by
  simp only [Mod.servedBy, Mod.iodState, begin_ft]
  rfl
@[simp] theorem Mod.served_begin (k : Nat) : (m.begin id c).served k = m.served k := by
  simp only [Mod.served, servedBy_begin]
@[simp] theorem Mod.actingIod_begin (k : Nat) : (m.begin id c).actingIod k = m.actingIod k := by
  simp only [Mod.actingIod, servedBy_begin]
@[simp] theorem Mod.pinUsed_begin (p : Nat) : (m.begin id c).pinUsed p = m.pinUsed p := by simp only [Mod.pinUsed, begin_cache]
@[simp] theorem Mod.nameBar_begin (p b : Nat) : (m.begin id c).nameBar p b = m.nameBar p b := by
  simp only [Mod.nameBar, Mod.nameTile, begin_ft]
@[simp] theorem Mod.ownsBar_begin (p b : Nat) : (m.begin id c).ownsBar p b = m.ownsBar p b := by
  simp only [Mod.ownsBar, Mod.ownsTile, part_begin]
@[simp] theorem Mod.bar_begin (b : Nat) : (m.begin id c).bar b = m.bar b := by simp only [Mod.bar, begin_net]
@[simp] theorem Mod.freeRun_begin (p n : Nat) : (m.begin id c).freeRun p n = m.freeRun p n := by
  simp only [Mod.freeRun, Mod.wayAllowed, Mod.strictWays, part_begin, begin_cache, begin_parts]

end

/-! The end of a command. -/

/-- A command whose work is done is ended, and its report sets out (14 R401). -/
theorem Mod.endCmd_eq {m : Mod} {id : Nat} {d : HCmd} (h : m.cmd? id = some d) :
    m.endCmd id = (m.updCmd id fun c => { c with ended := true }).sendCn { op := .cmpl, dst := d.iod.val, a := id } := by
  simp only [Mod.endCmd, h]

/-! Pins (06 R196). -/

section
variable {m : Mod} {p n : Nat} {pages : List Nat} {load : Bool}

theorem Mod.pin_over_quota (h : m.parN (pCchPinQuota + p) < m.pinUsed p + n) : m.pin p n pages load = (.inr 0, m) := if_pos h

/-- Where no line stands in a run of units nothing is evicted from it. -/
theorem Mod.clearSlots_of_clear {u : Nat} (h : ∀ e ∈ m.cache.lines, coversWay u n e.1 e.2 = false) : m.clearSlots u n = m := by
  have none : (m.cache.lines.keep fun k l => coversWay u n k l) = [] := by
    simpa [Tab.keep, List.filter_eq_nil_iff] using h
  simp only [Mod.clearSlots, none, List.map_nil, forEach_nil]

/-- The module with one more extent, not backed, the youngest. -/
def Mod.withExtent (m : Mod) (p : PartId) (u n : Nat) : Mod :=
  m.updCache fun x => { x with
    extents := x.extents ++ [{ base := u, units := n, part := p, order := x.extentSeq + 1 }], extentSeq := x.extentSeq + 1 }

/-- A pin without backing that fits its quota takes the lowest free run of units. -/
theorem Mod.pin_places {p : PartId} {u : Nat} (quota : m.pinUsed p.val + n ≤ m.parN (pCchPinQuota + p.val)) (room : m.cache.extents.length < 1024)
    (run : m.freeRun p.val n = some u) (clear : ∀ e ∈ m.cache.lines, coversWay u n e.1 e.2 = false) :
    m.pin p.val n [] load = (.inl u, m.withExtent p u n) := by
  simp [Mod.pin, Nat.not_lt.mpr quota, Nat.not_le.mpr room, run, Mod.clearSlots_of_clear clear]
  rfl

end

/-! The commands. -/

section
variable {s : State} {id : Nat} {c : HCmd}

/-- A LAUNCH whose descriptor reads sound is refused, or puts its tasks into the ready list (14 R404). -/
theorem execLaunch_reads (h : s.m.startable id 1 = some c) :
    let r := (s.m.begin id c).emReadN (.nc (feAgent (s.m.actingIod c.iod.val))) c.fn.val (c.w 0) 64 4
    let desc := BitVec.ofNat 512 (leNat r.1.bytes)
    r.1.viol = false → r.1.poison = false → execLaunch id s = Becomes s (
      if taskRefused desc then (r.2.markCmd id stARITH (faultDetail fkLAUNCH 0 0 0 0 0)).endCmd id
      else (r.2.updCmd id fun x => { x with tasks := c.wf 1 15 0 + 1 }).updSched fun x => { x with
        ready := x.ready ++ (List.range (c.wf 1 15 0 + 1)).map fun i => {
          uid := 0, cmd := id, index := i, part := c.fn, desc := desc, a0 := BitVec.ofNat 64 (bits desc.toNat 127 64),
          a1 := BitVec.ofNat 64 (bits desc.toNat 191 128) + BitVec.ofNat 64 i } }) := by
  intro r desc viol sound
  simp only [r] at viol sound
  rw [execLaunch, State.go_runCmd h]
  simp only [Mod.actingIod_begin, viol, sound, Bool.false_eq_true, if_false]
  rfl

/-- A COPY whose descriptor or control word is refused starts and ends ARITH with the bit (14 R406). -/
theorem execCopyCmd_refuses (h : s.m.startable id 3 = some c) {k : Nat} (refused : s.m.copyRefusal c = some k) :
    execCopyCmd id s = Becomes s ((s.m.begin id c).refuseCmd id k) := by
  simp only [execCopyCmd, State.go_eq, h, refused]
  rfl

/-- One that is accepted, and retains nothing, takes a slot of the half chosen for it. -/
theorem execCopyCmd_pushes (h : s.m.startable id 3 = some c) (accepted : s.m.copyRefusal c = none) {half : SliceId}
    (free : s.m.copyHalf c.iod.val = some half) (once : c.retain = false) :
    let r := (s.m.begin id c).pushCopy none id c.fn half (c.slots.getD 1 0) (BitVec.ofNat 16 (c.wf 0 15 0))
    execCopyCmd id s = Becomes s (r.2.updCmd id fun c => { c with copy := some r.1 }) := by
  simp only [execCopyCmd, State.go_eq, h, accepted, free, once, Bool.false_and, Bool.false_eq_true, if_false]
  rfl

/-- A PWRITE of pannier bytes to PS that asks for no semaphore (14 R407). -/
theorem execPwrite_ps (h : s.m.startable id 4 = some c) (quiet : c.wf 1 3 3 = 0) (data : c.pannier ≠ []) (space : c.wf 1 2 0 = 1) :
    let r := (s.m.begin id c).psWriteN (.nc (feAgent (s.m.actingIod c.iod.val))) c.fn.val (c.w 0) c.pannier
    r.1.viol = false → r.1.poison = false → r.1.unperformed = false → execPwrite id s = Becomes s (r.2.endCmd id) := by
  intro r viol sound done
  simp only [r] at viol sound done
  rw [execPwrite, State.go_runCmd h]
  simp [quiet, data, space, viol, sound, done, r]

/-- The same to EM: its bytes are counted for the command. -/
theorem execPwrite_em (h : s.m.startable id 4 = some c) (quiet : c.wf 1 3 3 = 0) (data : c.pannier ≠ []) (space : c.wf 1 2 0 = 2) :
    let r := (s.m.begin id c).emWriteN (.nc (feAgent (s.m.actingIod c.iod.val))) c.fn.val (c.w 0) c.pannier 7
    r.1.viol = false → r.1.poison = false → r.1.unperformed = false →
      execPwrite id s = Becomes s ((r.2.workDone id c.pannier.length 0 0 0).endCmd id) := by
  intro r viol sound done
  simp only [r] at viol sound done
  rw [execPwrite, State.go_runCmd h]
  simp [quiet, data, space, viol, sound, done, r]

section
variable (h : s.m.startable id 0x20 = some c) (unbacked : c.wf 0 17 17 = 0) (units : 0 < c.wf 0 9 0) (few : c.wf 0 9 0 ≤ 768) {n : Mod} {k : Nat}
include h unbacked units few

/-- A PIN without backing reports the base it is granted (06 R196, R197). -/
theorem execPin_granted (granted : (s.m.begin id c).pin c.fn.val (c.wf 0 9 0) [] (c.wf 0 16 16 = 1) = (.inl k, n)) :
    execPin id s = Becomes s ((n.updCmd id fun c => { c with spec := k * 2 ^ 21 }).endCmd id) := by
  have fits : ¬(c.wf 0 9 0 = 0 ∨ 768 < c.wf 0 9 0) := by omega
  rw [execPin, State.go_runCmd h]
  simp [-Nat.reducePow, unbacked, fits, granted]

/-- One that is denied ends PINQUOTA with the reason. -/
theorem execPin_denied (denied : (s.m.begin id c).pin c.fn.val (c.wf 0 9 0) [] (c.wf 0 16 16 = 1) = (.inr k, n)) :
    execPin id s = Becomes s (((n.markCmd id stPINQUOTA 0).updCmd id fun c => { c with spec := k * 2 ^ 32 }).endCmd id) := by
  have fits : ¬(c.wf 0 9 0 = 0 ∨ 768 < c.wf 0 9 0) := by omega
  rw [execPin, State.go_runCmd h]
  simp [-Nat.reducePow, unbacked, fits, denied]

end

end

/-- Settles O34, a case for each command: it starts (`State.go_runCmd`), its reads and writes by `execLaunch_reads`, `execPwrite_ps` and
`execPwrite_em`, a pin by `Mod.pin_over_quota` and `Mod.pin_places`. -/
theorem hostCommands : Obligations.HostCommands := by
  intro s id op c h
  dsimp only
  refine ⟨fun quiet => Mod.begin_of_no_cstat quiet _ _, fun n d found => ?ends, ?nop, ?inval, ?launch, ?copy, ?copyRefused, ?pwrite, ?pin, ?unpin,
    ?bar, ?tag⟩
  case ends =>
    rw [Mod.endCmd_eq found]
    exact ⟨Mod.cmd?_updCmd found _, rfl⟩
  case nop =>
    rintro rfl
    rw [exec_nop, execNop, State.go_runCmd h]
  case inval =>
    rintro rfl
    rw [exec_mmuInval, execMmuInval, State.go_runCmd h]
  case launch =>
    rintro rfl viol sound
    have reads := execLaunch_reads h viol sound
    exact ⟨fun refused => reads.trans (by rw [if_pos refused]), fun accepted => reads.trans (by rw [if_neg (by simp [accepted])])⟩
  case copy =>
    rintro rfl half accepted free once
    exact execCopyCmd_pushes h accepted free once
  case copyRefused =>
    rintro rfl k refused
    exact execCopyCmd_refuses h refused
  case pwrite =>
    rintro rfl quiet data
    exact ⟨execPwrite_ps h quiet data, execPwrite_em h quiet data⟩
  case pin =>
    rintro rfl unbacked units few
    refine ⟨fun exceeds => ?_, fun u quota room run clear => ?_⟩
    · exact (execPin_denied h unbacked units few (Mod.pin_over_quota (by simpa using exceeds))).trans (by simp only [Nat.zero_mul])
    · exact execPin_granted h unbacked units few
        (Mod.pin_places (by simpa using quota) (by simpa using room) (by simpa using run) (by simpa using clear))
  case unpin =>
    rintro rfl unstored
    rw [exec_unpin, execUnpin, State.go_runCmd h]
    refine ⟨fun e held => ?_, fun none => ?_⟩
    · simp [-Nat.reducePow, held, unstored]
    · simp [-Nat.reducePow, none]
  case bar =>
    rintro rfl
    rw [exec_barAlloc, execBarAlloc, State.go_runCmd h]
    simp only [Mod.nameBar_begin, Mod.ownsBar_begin, Mod.bar_begin]
    exact ⟨fun owns empty => by simp [owns, empty], fun other => by simp [other]⟩
  case tag =>
    rintro rfl
    rw [exec_frameTag, execFrameTag, State.go_runCmd h]
    refine ⟨fun invalid => by simp [invalid], fun valid apart settled => ?_⟩
    have outside : ¬(s.m.parN pMemFktBase / 65536 < c.wf 0 24 0 + c.wf 1 25 0 ∧ c.wf 0 24 0 < s.m.parN pMemFktBase / 65536 + 512) := by omega
    simp only [valid, Bool.not_true, Bool.false_eq_true, if_false]
    refine congrArg (Becomes s) (if_neg ?_)
    simp only [Mod.parN_begin, Mod.part_begin, outside, false_or, List.any_eq_true, List.mem_range, not_exists]
    intro p ⟨low, leaves⟩
    simp [settled p low] at leaves

end Sys2Proof.Machine
end

section
/-! Queue pairs and retained results (14 R411, R412, R415-R420): commands that name a queue pair of their function, and a ring without entries to
write; then the obligation. -/

namespace Sys2Proof.Machine

/-! Queue pairs read back. -/

/-- A queue pair that is there is changed by what is done to it. -/
theorem Mod.updQp_congr {m : Mod} {q : Nat} {x : Qp} (h : m.qp? q = some x) {f g : Qp → Qp} (e : f x = g x) : m.updQp q f = m.updQp q g := by
  have adj (k : Qp → Qp) : m.host.qps.adj q k = m.host.qps.put q (k x) := Tab.adj_of_find h k
  simp only [Mod.updQp, Mod.updHost, adj, e]

theorem Mod.qp?_updQp {m : Mod} {q : Nat} {x : Qp} (h : m.qp? q = some x) (f : Qp → Qp) : (m.updQp q f).qp? q = some (f x) := by
  have adj : m.host.qps.adj q f = m.host.qps.put q (f x) := Tab.adj_of_find h f
  simp only [Mod.qp?, Mod.updQp, Mod.updHost, adj, Tab.find_put_same]

theorem Mod.qp?_of_host {m n : Mod} (h : n.host = m.host) (q : Nat) : n.qp? q = m.qp? q := by simp only [Mod.qp?, h]

section
variable (m : Mod) (num inst n : Nat)
@[simp] theorem Mod.countBy_host : (m.countBy num inst n).host = m.host := by obtain ⟨_, _, e⟩ := m.countBy_frame num inst n; rw [e]
@[simp] theorem Mod.count_host : (m.count num inst).host = m.host := m.countBy_host num inst 1
end

/-- With its journal empty a queue pair has nothing to write into its ring. -/
theorem Mod.pumpRing_of_no_journal {m : Mod} {q : Nat} {x : Qp} (h : m.qp? q = some x) (empty : x.journal = []) (n : Nat) :
    m.pumpRing q n = m := by
  cases n with
  | zero => rfl
  | succ n => simp [Mod.pumpRing, h, empty]

/-! The queue pair that a command names (14 R392). -/

section
variable {m : Mod} {id : Nat} {c : HCmd} {x : Qp} (h : m.qp? (c.wf 0 15 0) = some x)
include h

theorem Mod.ownQp_own (own : x.fn = c.fn) (f : Nat → Qp → Mod → Mod) : m.ownQp id c f = f (c.wf 0 15 0) x m := by
  simp only [Mod.ownQp, h, own, if_true]

/-- A queue pair of another function is a violation that does nothing. -/
theorem Mod.ownQp_other (other : x.fn ≠ c.fn) (f : Nat → Qp → Mod → Mod) : m.ownQp id c f = (m.violate c.fn.val).endCmd id := by
  simp only [Mod.ownQp, h, other, if_false]

end

/-! The commands. -/

section
variable {s : State} {id : Nat} {c : HCmd}

section
variable (h : s.m.startable id 0x38 = some c) (sqLow : 6 ≤ c.wf 2 4 0) (sqHigh : c.wf 2 4 0 ≤ 16) (cqLow : 6 ≤ c.wf 2 9 5)
  (cqHigh : c.wf 2 9 5 ≤ 16)
include h sqLow sqHigh cqLow cqHigh

theorem execQpCreate_over_quota (exceeds : (s.m.begin id c).parN (pHifQpQuota + c.fn.val) ≤
    ((s.m.begin id c).host.qps.filter fun e => e.2.fn == c.fn).length) :
    execQpCreate id s = Becomes s ((s.m.begin id c).noResource id) := by
  have sq : ¬(c.wf 2 4 0 < 6 ∨ 16 < c.wf 2 4 0) := by omega
  have cq : ¬(c.wf 2 9 5 < 6 ∨ 16 < c.wf 2 9 5) := by omega
  rw [execQpCreate, State.go_runCmd h]
  simp only [if_neg sq, if_neg cq, if_pos exceeds]

/-- Within its quota a function gets the lowest free number of the die it asks for (14 R411). -/
theorem execQpCreate_creates {n : Nat} (oneDie : c.wf 2 12 12 = 0) (served : s.m.served (c.wf 2 11 10) = true)
    (quota : ((s.m.begin id c).host.qps.filter fun e => e.2.fn == c.fn).length < (s.m.begin id c).parN (pHifQpQuota + c.fn.val))
    (free : (s.m.begin id c).freeQp [c.wf 2 11 10] = some n) :
    execQpCreate id s = Becomes s ((((s.m.begin id c).updHost fun y => { y with qps := y.qps.put n {
      iod := Fin.ofNat 4 (n / 16384), fn := c.fn, sqBase := c.w 0, cqBase := c.w 1, sqLog2 := c.wf 2 4 0, cqLog2 := c.wf 2 9 5,
      vec := c.wf 2 26 16, ncoal := c.wf 2 39 32, tcoal := c.wf 2 55 40, jslot := (s.m.begin id c).freeJournal c.fn } }).updCmd id
        fun c => { c with spec := n }).endCmd id) := by
  have sq : ¬(c.wf 2 4 0 < 6 ∨ 16 < c.wf 2 4 0) := by omega
  have cq : ¬(c.wf 2 9 5 < 6 ∨ 16 < c.wf 2 9 5) := by omega
  have die : (if c.wf 2 12 12 = 1 then [0, 1, 2, 3] else [c.wf 2 11 10]).filter (s.m.begin id c).served = [c.wf 2 11 10] := by
    simp [oneDie, served]
  rw [execQpCreate, State.go_runCmd h]
  simp only [if_neg sq, if_neg cq, if_neg (Nat.not_le.mpr quota), die, free]

end

/-- A queue pair with an empty journal is bound to new rings and has nothing to replay (14 R418). -/
theorem execQpRebind_rebinds {x : Qp} (h : s.m.startable id 0x3A = some c) (found : (s.m.begin id c).qp? (c.wf 0 15 0) = some x) (own : x.fn = c.fn)
    (sqLow : 6 ≤ c.wf 3 4 0) (sqHigh : c.wf 3 4 0 ≤ 16) (cqLow : 6 ≤ c.wf 3 9 5) (cqHigh : c.wf 3 9 5 ≤ 16) (empty : x.journal = []) :
    execQpRebind id s = Becomes s (((((s.m.begin id c).updQp (c.wf 0 15 0) fun x => { x with
      sqBase := c.w 1, cqBase := c.w 2, sqLog2 := c.wf 3 4 0, cqLog2 := c.wf 3 9 5, vec := c.wf 3 26 16, ncoal := c.wf 3 39 32,
      tcoal := c.wf 3 55 40, sqTail := 0, sqHead := 0, cqHead := 0, cqTail := 0, unann := 0, bound := true, journal := [] }).countBy
        kHifJrnlReplay x.iod.val 0).updCmd id fun c => { c with spec := 0 }).endCmd id) := by
  have sq : ¬(c.wf 3 4 0 < 6 ∨ 16 < c.wf 3 4 0) := by omega
  have cq : ¬(c.wf 3 9 5 < 6 ∨ 16 < c.wf 3 9 5) := by omega
  rw [execQpRebind, State.go_runCmd h, Mod.ownQp_own found own]
  simp only [if_neg sq, if_neg cq, empty, List.length_nil]
  rw [Mod.pumpRing_of_no_journal ((Mod.qp?_of_host (Mod.countBy_host ..) _).trans (Mod.qp?_updQp found _)) (by simp [empty])]
  rw [Mod.updQp_congr found]
  simp only [empty, List.map_nil]

end

/-- Settles O35, a case for each command: it starts (`State.go_runCmd`) and finds its own queue pair (`Mod.ownQp_own`) or another function's
(`Mod.ownQp_other`). -/
theorem queuePairs : Obligations.QueuePairs := by
  intro s id op c h
  dsimp only
  refine ⟨?create, fun x found own => ⟨?delete, ?rebind, ?lost, ?fetched, ?ack⟩, fun x found other i hi => ?other⟩
  case create =>
    rintro rfl oneDie sqLow sqHigh cqLow cqHigh served
    exact ⟨execQpCreate_over_quota h sqLow sqHigh cqLow cqHigh, fun n => execQpCreate_creates h sqLow sqHigh cqLow cqHigh oneDie served⟩
  case delete =>
    rintro rfl
    rw [exec_qpDelete, execQpDelete, State.go_runCmd h, Mod.ownQp_own found own]
  case rebind =>
    rintro rfl sqLow sqHigh cqLow cqHigh empty
    exact execQpRebind_rebinds h found own sqLow sqHigh cqLow cqHigh empty
  case lost =>
    rintro rfl unretained
    rw [exec_resultFetch, execResultFetch, State.go_runCmd h, Mod.ownQp_own found own, unretained]
  case fetched =>
    rintro rfl r retained attached
    rw [exec_resultFetch, execResultFetch, State.go_runCmd h, Mod.ownQp_own found own, retained]
    simp [attached]
  case ack =>
    rintro rfl
    rw [exec_resultAck, execResultAck, State.go_runCmd h, Mod.ownQp_own found own]
  case other =>
    simp only [List.mem_cons, List.not_mem_nil, or_false, Prod.mk.injEq] at hi
    obtain ⟨rfl, rfl⟩ | ⟨rfl, rfl⟩ | ⟨rfl, rfl⟩ | ⟨rfl, rfl⟩ := hi
    · rw [exec_qpDelete, execQpDelete, State.go_runCmd h, Mod.ownQp_other found other]
    · rw [exec_qpRebind, execQpRebind, State.go_runCmd h, Mod.ownQp_other found other]
    · rw [exec_resultFetch, execResultFetch, State.go_runCmd h, Mod.ownQp_other found other]
    · rw [exec_resultAck, execResultAck, State.go_runCmd h, Mod.ownQp_other found other]

end Sys2Proof.Machine
end

section
/-! Doorbells, fetching, attaching and detaching (14 R387-R393, R413-R419): what a detach leaves, what disabling partitions leaves of partitions and
functions; then the obligation. -/

namespace Sys2Proof.Machine

/-! Partitions and functions, which ending the work of a partition leaves alone (15 R429). -/

/-- The partitions and the functions of a module. -/
def Mod.partsFns (m : Mod) : PartsS × Tab Fn := (m.parts, m.host.fns)

section
variable (m : Mod)

@[simp] theorem Mod.updCmd_partsFns (c : Nat) (f : HCmd → HCmd) : (m.updCmd c f).partsFns = m.partsFns := rfl
@[simp] theorem Mod.updFab_partsFns (f : FabS → FabS) : (m.updFab f).partsFns = m.partsFns := rfl
@[simp] theorem Mod.updSeq_partsFns (f : SeqS → SeqS) : (m.updSeq f).partsFns = m.partsFns := rfl
@[simp] theorem Mod.updSched_partsFns (f : SchedS → SchedS) : (m.updSched f).partsFns = m.partsFns := rfl
@[simp] theorem Mod.updKod_partsFns (f : Kod → Kod) : (m.updKod f).partsFns = m.partsFns := rfl
@[simp] theorem Mod.updCtx_partsFns (t s : Nat) (f : Ctx → Ctx) : (m.updCtx t s f).partsFns = m.partsFns := rfl
theorem Mod.updHost_partsFns {f : HostS → HostS} (h : (f m.host).fns = m.host.fns) : (m.updHost f).partsFns = m.partsFns := by
  simp only [Mod.partsFns, Mod.updHost, h]
@[simp] theorem Mod.closeWindows_partsFns (p : Nat) : (m.closeWindows p).partsFns = m.partsFns := rfl
@[simp] theorem Mod.countBy_partsFns (num inst n : Nat) : (m.countBy num inst n).partsFns = m.partsFns := by
  obtain ⟨_, _, e⟩ := m.countBy_frame num inst n
  rw [e]
  rfl
@[simp] theorem Mod.pickCur_partsFns (t : Nat) : (m.pickCur t).partsFns = m.partsFns := by
  obtain ⟨_, e⟩ := m.pickCur_frame t
  rw [e]
  rfl
@[simp] theorem Mod.taskOver_partsFns (k : Task) (st : Nat) (detail : BitVec 128) (exit : Option Nat) (fl : BitVec 4) :
    (m.taskOver k st detail exit fl).partsFns = m.partsFns := by
  obtain ⟨_, _, e⟩ := m.taskOver_frame k st detail exit fl
  rw [e]
  rfl
@[simp] theorem Mod.endTask_partsFns (t s status kind mcause : Nat) (mtval : W64) :
    (m.endTask t s status kind mcause mtval).partsFns = m.partsFns := by
  simp only [Mod.endTask, pickCur_partsFns]
  rfl
@[simp] theorem Mod.endSaved_partsFns (h status : Nat) (detail : BitVec 128) : (m.endSaved h status detail).partsFns = m.partsFns := by
  simp only [Mod.endSaved]
  split
  · rfl
  · split
    · simp only [taskOver_partsFns]
      rfl
    · rfl
@[simp] theorem Mod.emit_partsFns (type : Nat) (p : Packet) : (m.emit type p).partsFns = m.partsFns := by
  simp only [Mod.emit]
  split
  · rfl
  · simp only [Mod.transmit, countBy_partsFns, updFab_partsFns]
@[simp] theorem Mod.collAbort_partsFns (g : Nat) (from? : Option Nat) : (m.collAbort g from?).partsFns = m.partsFns := by
  simp only [Mod.collAbort]
  split
  · rfl
  · split
    · rfl
    · simp only [updCmd_partsFns, updFab_partsFns, Mod.updGroup]
      exact forEach_keeps _ (fun _ _ => emit_partsFns ..) _ _
@[simp] theorem Mod.abandonWp_partsFns (p : Nat) : (m.abandonWp p).partsFns = m.partsFns := by
  simp only [Mod.abandonWp]
  split
  · exact countBy_partsFns ..
  · rfl
@[simp] theorem Mod.stopPart_partsFns (p : Nat) : (m.stopPart p).partsFns = m.partsFns := by
  unfold Mod.stopPart
  dsimp only
  rw [forEach_keeps _ (fun _ _ => endTask_partsFns ..), forEach_keeps _ (fun _ _ => endSaved_partsFns ..),
    forEach_keeps _ (fun _ _ => updCtx_partsFns ..), updSched_partsFns]

end

theorem Mod.part_of_partsFns {m n : Mod} (h : n.partsFns = m.partsFns) (p : Nat) : n.part p = m.part p :=
  congrArg (fun x => x.1.parts.getD p {}) h
theorem Mod.fn_of_partsFns {m n : Mod} (h : n.partsFns = m.partsFns) (p : Nat) : n.fn p = m.fn p :=
  congrArg (fun x => x.2.getD p {}) h
theorem Mod.fn_updFn_other {i j : Nat} (h : j ≠ i) (m : Mod) (f : Fn → Fn) : (m.updFn i f).fn j = m.fn j := Tab.getD_put_other h _ _ _

/-- A partition that is not ACTIVE is not disabled again. -/
theorem Mod.disable_of_not_active {m : Mod} {p : Nat} (h : (m.part p).st ≠ .active) : m.disable p = m := by
  simp [Mod.disable, h]

/-- Of partitions and functions, disabling changes the one it names: its state, its generation, its tick, and that its function is disabled. -/
theorem Mod.disable_partsFns {m : Mod} {p : Nat} (h : (m.part p).st = .active) : (m.disable p).partsFns =
    ((m.updPart p fun x => { x with st := .disabling, gen := x.gen + 1, disTick := m.ticks }).updFn p fun f =>
      { f with disabled := true }).partsFns := by
  unfold Mod.disable
  simp only [h, bne_self_eq_false, Bool.false_eq_true, if_false]
  refine (forEach_keeps Mod.partsFns (fun _ _ => collAbort_partsFns ..) _ _).trans ?_
  rw [updSeq_partsFns, updHost_partsFns _ rfl, stopPart_partsFns, abandonWp_partsFns, closeWindows_partsFns]

/-! Clearing VF Enable (14 R390, 15 R429). -/

/-- A function is reset and its partition disabled. -/
def Mod.dropFn (m : Mod) (p : Nat) : Mod := (m.resetFn p).disable p

@[simp] theorem Mod.part_updFn (m : Mod) (p q : Nat) (f : Fn → Fn) : (m.updFn p f).part q = m.part q := rfl
@[simp] theorem Mod.part_resetFn (m : Mod) (p q : Nat) : (m.resetFn p).part q = m.part q := rfl

section
variable (m : Mod) {p q : Nat}

/-- Dropping a function resets it; it changes its partition where that was ACTIVE. -/
theorem Mod.dropFn_partsFns : (m.dropFn p).partsFns = if (m.part p).st = .active then
    (((m.resetFn p).updPart p fun x => { x with st := .disabling, gen := x.gen + 1, disTick := m.ticks }).updFn p fun f =>
      { f with disabled := true }).partsFns else (m.resetFn p).partsFns := by
  split
  next active => exact disable_partsFns (m := m.resetFn p) active
  next idle => exact congrArg Mod.partsFns (disable_of_not_active (m := m.resetFn p) idle)

theorem Mod.part_dropFn_other (h : q ≠ p) : (m.dropFn p).part q = m.part q := by
  have frame := m.dropFn_partsFns (p := p)
  split at frame
  · exact (part_of_partsFns frame q).trans ((part_updFn ..).trans (part_updPart_other _ h _))
  · exact part_of_partsFns frame q

theorem Mod.fn_dropFn_other (h : q ≠ p) : (m.dropFn p).fn q = m.fn q := by
  have frame := m.dropFn_partsFns (p := p)
  have reset : (m.resetFn p).fn q = m.fn q := fn_updFn_other h _ _
  split at frame
  · exact (fn_of_partsFns frame q).trans ((fn_updFn_other h _ _).trans reset)
  · exact (fn_of_partsFns frame q).trans reset

end

/-- The function of partition `p` is reset; the partition, which was `x`, is being disabled if it was ACTIVE, and else as it was. -/
def Mod.Dropped (m : Mod) (x : Part) (p : Nat) : Prop :=
  (m.fn p).aqEn = false ∧
  (x.st = .active → (m.part p).st = .disabling ∧ (m.part p).gen = x.gen + 1 ∧ (m.fn p).disabled = true) ∧
  (x.st ≠ .active → (m.part p).st = x.st ∧ (m.part p).gen = x.gen)

theorem Mod.Dropped.congr {m n : Mod} {x : Part} {p : Nat} (h : m.Dropped x p) (part : n.part p = m.part p) (fn : n.fn p = m.fn p) :
    n.Dropped x p := by
  rwa [Mod.Dropped, part, fn]

theorem Mod.dropFn_dropped (m : Mod) (p : Nat) : (m.dropFn p).Dropped (m.part p) p := by
  have frame := m.dropFn_partsFns (p := p)
  have reset : ((m.resetFn p).fn p).aqEn = false := by rw [Mod.resetFn, Mod.fn_updFn]
  split at frame
  next active =>
    have part : (m.dropFn p).part p = { m.part p with st := .disabling, gen := (m.part p).gen + 1, disTick := m.ticks } :=
      (part_of_partsFns frame p).trans (part_updPart (m.resetFn p) p fun x => { x with st := .disabling, gen := x.gen + 1, disTick := m.ticks })
    have fn : (m.dropFn p).fn p = { (m.resetFn p).fn p with disabled := true } := (fn_of_partsFns frame p).trans (Mod.fn_updFn _ p _)
    rw [Mod.Dropped, part, fn]
    exact ⟨reset, fun _ => ⟨rfl, rfl, rfl⟩, fun idle => absurd active idle⟩
  next idle =>
    rw [Mod.Dropped, part_of_partsFns frame, fn_of_partsFns frame]
    exact ⟨reset, fun active => absurd active idle, fun _ => ⟨rfl, rfl⟩⟩

/-- Functions that are dropped one after the other. -/
def Mod.dropFns (m : Mod) (l : List Nat) : Mod := forEach l (fun p m => m.dropFn p) m

theorem Mod.dropFns_keeps {l : List Nat} {q : Nat} (h : q ∉ l) (m : Mod) : (m.dropFns l).part q = m.part q ∧ (m.dropFns l).fn q = m.fn q := by
  induction l generalizing m with
  | nil => exact ⟨rfl, rfl⟩
  | cons p l ih =>
    obtain ⟨first, rest⟩ := not_or.mp fun either => h (List.mem_cons.mpr either)
    obtain ⟨part, fn⟩ := ih rest (m.dropFn p)
    exact ⟨part.trans (m.part_dropFn_other first), fn.trans (m.fn_dropFn_other first)⟩

theorem Mod.dropFns_dropped {l : List Nat} (once : l.Nodup) {p : Nat} (h : p ∈ l) (m : Mod) : (m.dropFns l).Dropped (m.part p) p := by
  induction l generalizing m with
  | nil => cases h
  | cons q l ih =>
    obtain ⟨out, once⟩ := List.nodup_cons.mp once
    by_cases first : p = q
    · subst first
      obtain ⟨part, fn⟩ := dropFns_keeps out (m.dropFn p)
      exact (m.dropFn_dropped p).congr part fn
    · have later := ih once ((List.mem_cons.mp h).resolve_left first) (m.dropFn q)
      rwa [m.part_dropFn_other first] at later

/-- Numbers of the virtual functions. -/
def vfNumbers : List Nat := (List.range 127).map (· + 1)

theorem vfNumbers_nodup : vfNumbers.Nodup := List.Pairwise.map _ (fun _ _ apart same => apart (Nat.succ.inj same)) List.nodup_range

theorem mem_vfNumbers {p : Nat} : p ∈ vfNumbers ↔ 0 < p ∧ p < 128 := by
  simp only [vfNumbers, List.mem_map, List.mem_range]
  exact ⟨fun ⟨i, hi, e⟩ => by omega, fun h => ⟨p - 1, by omega, by omega⟩⟩

theorem execVfEnableClear_drops (s : State) : execVfEnableClear s = Becomes s (s.m.dropFns vfNumbers) := rfl

/-! A detach (14 R413-R417). -/

/-- The host port once the active port is DETACHED for a cause. -/
def HostS.detached (h : HostS) (cause : Fin 5) : HostS :=
  { h with
    portState := 2, cause := cause, flush := false,
    cmds := h.cmds.map fun e => (e.1, if e.2.hmUncertain then
      { (e.2.mark stUNCERTAIN 0) with hmUncertain := false, flushing := false } else e.2),
    qps := h.qps.map fun e => (e.1, { e.2 with
      bound := false, sqTail := e.2.sqHead, journal := e.2.journal.map fun j => { j.uncertain with pos := none } }),
    fns := h.fns.map fun e => (e.1, { e.2 with aqEn := false, msix := [], pba := [] }) }

theorem HostS.detached_qps (h : HostS) (cause : Fin 5) : ∀ e ∈ (h.detached cause).qps, e.2.bound = false ∧ e.2.sqTail = e.2.sqHead := by
  intro e he
  obtain ⟨x, -, rfl⟩ := List.mem_map.mp he
  exact ⟨rfl, rfl⟩

theorem HostS.detached_fns (h : HostS) (cause : Fin 5) : ∀ e ∈ (h.detached cause).fns, e.2.aqEn = false := by
  intro e he
  obtain ⟨x, -, rfl⟩ := List.mem_map.mp he
  rfl

/-- The module once a detach is counted and mailbox sessions have ended. -/
def Mod.leavingPort (m : Mod) (cause : Fin 5) : Mod :=
  if cause == 1 || cause == 2 then (m.count kHifDetach m.portIod.val).endMailbox fun _ => true else m.count kHifDetach m.portIod.val

theorem Mod.detach_of_attached {m : Mod} (h : m.host.portState ≠ 2) (cause : Fin 5) : m.detach cause =
    ((m.leavingPort cause).postPartly.mapContexts fun c => { c with hmFlush := false }).rewriteJournals.updHost (·.detached cause) := by
  have attached : ¬(m.host.portState == 2) = true := by simpa using h
  simp only [Mod.detach, if_neg attached]
  rfl

/-- What a detach counts and ends is a matter of counters, events and sessions. -/
theorem Mod.leavingPort_frame (m : Mod) (cause : Fin 5) : ∃ t k, m.leavingPort cause = { m with ctr := t, kod := k } := by
  obtain ⟨_, _, e⟩ := m.countBy_frame kHifDetach m.portIod.val 1
  simp only [Mod.leavingPort, Mod.count, e]
  split
  · exact ⟨_, _, rfl⟩
  · exact ⟨_, _, rfl⟩

/-- No copy to host memory is under way: none has posted a part of its rows. -/
theorem Mod.postPartly_of_no_copy {m : Mod} (h : ∀ e ∈ m.copies, e.2.started = true → e.2.walked = false → e.2.dspace ≠ 3) :
    m.postPartly = m := by
  have none : (m.copies.filter fun e => e.2.started && !e.2.walked && e.2.status.isNone && !e.2.refused && e.2.dspace == 3) = [] := by
    rw [List.filter_eq_nil_iff]
    intro e he under
    simp only [Bool.and_eq_true, Bool.not_eq_true', beq_iff_eq] at under
    obtain ⟨⟨⟨⟨started, walking⟩, -⟩, -⟩, host⟩ := under
    exact h e he started walking host
  simp only [Mod.postPartly, none, forEach_nil]

/-- Journal entries whose host writes are certain stay as they are (14 R417). -/
theorem Mod.rewriteJournals_of_certain {m : Mod} (h : ∀ e ∈ m.host.qps, ∀ j ∈ e.2.journal, j.certain = true) : m.rewriteJournals = m := by
  have keeps (l : Tab Qp) (hl : ∀ e ∈ l, ∀ j ∈ e.2.journal, j.certain = true) :
      forEach l (fun e m => forEach (e.2.journal.filter fun j => !j.certain) (fun j m => m.putJournal e.2 j.uncertain) m) m = m := by
    induction l with
    | nil => rfl
    | cons e l ih =>
      have certain : (e.2.journal.filter fun j => !j.certain) = [] := by
        simpa [List.filter_eq_nil_iff] using hl e List.mem_cons_self
      rw [forEach_cons, certain, forEach_nil]
      exact ih fun e he => hl e (List.mem_cons_of_mem _ he)
  exact keeps _ h

/-- With nothing of the port under way a detach leaves memory, ready tasks and sequences alone. -/
theorem Mod.detach_quiet {m : Mod} (h : m.host.portState ≠ 2) (cause : Fin 5)
    (copies : ∀ e ∈ m.copies, e.2.started = true → e.2.walked = false → e.2.dspace ≠ 3)
    (certain : ∀ e ∈ m.host.qps, ∀ j ∈ e.2.journal, j.certain = true) :
    (m.detach cause).mem = m.mem ∧ (m.detach cause).sched.ready = m.sched.ready ∧ (m.detach cause).seq = m.seq := by
  obtain ⟨_, _, frame⟩ := m.leavingPort_frame cause
  have posted : (m.leavingPort cause).postPartly = m.leavingPort cause := postPartly_of_no_copy (by rw [frame]; exact copies)
  have journals : ((m.leavingPort cause).mapContexts fun c => { c with hmFlush := false }).rewriteJournals =
      (m.leavingPort cause).mapContexts fun c => { c with hmFlush := false } := rewriteJournals_of_certain (by rw [frame]; exact certain)
  rw [detach_of_attached h, posted, journals, frame]
  exact ⟨rfl, rfl, rfl⟩

/-- A port that is attached becomes DETACHED for the cause: no queue pair is bound, no admin queue enabled. -/
theorem Mod.detach_host {m : Mod} (h : m.host.portState ≠ 2) (cause : Fin 5) : ∃ x : HostS, (m.detach cause).host = x.detached cause :=
  ⟨_, by rw [detach_of_attached h]; rfl⟩

/-- After a detach, whatever the port was, it is DETACHED. -/
theorem Mod.detach_portState (m : Mod) (cause : Fin 5) : (m.detach cause).host.portState = 2 := by
  by_cases h : m.host.portState = 2
  · simp [Mod.detach, h]
  · obtain ⟨x, e⟩ := detach_host h cause
    rw [e]
    rfl

/-- The functions move from port A to port B, detached (14 R387). -/
theorem Mod.portSelect_b {m : Mod} (h : m.host.portB = false) :
    m.portSelect 1 = (m.detach 4).updHost fun x => { x with portB := true, cause := 4 } := by
  simp [Mod.portSelect, h]

/-! Doorbells (14 R392, R393). -/

section
variable {m : Mod} {fn : PartId} {q : Nat} {x : Qp} (h : m.qp? q = some x)
include h

theorem Mod.sqDoorbell_other (other : x.fn ≠ fn) (v : Nat) : m.sqDoorbell fn q v = m.violate fn.val := by
  simp [Mod.sqDoorbell, h, other]
theorem Mod.cqDoorbell_other (other : x.fn ≠ fn) (v : Nat) : m.cqDoorbell fn q v = m.violate fn.val := by
  simp [Mod.cqDoorbell, h, other]

/-- A submission doorbell at the front end: counted where it goes back, else it moves the tail. -/
theorem Mod.sqDoorbell_own (own : x.fn = fn) (v : Nat) : m.sqDoorbell fn q v =
    let off (p : Nat) : Nat := (p + 2 ^ x.sqLog2 - x.sqHead % 2 ^ x.sqLog2) % 2 ^ x.sqLog2
    if off (v % 2 ^ x.sqLog2) < off (x.sqTail % 2 ^ x.sqLog2) then m.count kHifDbBad x.iod.val
    else m.updQp q fun y => { y with sqTail := y.sqHead + off (v % 2 ^ y.sqLog2) } := by
  simp only [Mod.sqDoorbell, h, own, bne_self_eq_false, Bool.false_eq_true, if_false]
  rw [updQp_congr h]
  rfl

/-- A completion doorbell that moves the head by no more than the ring holds, with no entry left in the journal. -/
theorem Mod.cqDoorbell_own (own : x.fn = fn) (v : Nat) :
    let adv := (v % 2 ^ x.cqLog2 + 2 ^ x.cqLog2 - x.cqHead % 2 ^ x.cqLog2) % 2 ^ x.cqLog2
    adv ≤ x.cqTail - x.cqHead → x.journal = [] → m.cqDoorbell fn q v = m.updQp q fun y => { y with cqHead := y.cqHead + adv } := by
  intro adv fits empty
  simp only [adv] at fits
  simp only [Mod.cqDoorbell, h, own, bne_self_eq_false, Bool.false_eq_true, if_false, if_neg (Nat.not_lt.mpr fits)]
  rw [pumpRing_of_no_journal (qp?_updQp h _) (by simp [empty])]
  exact updQp_congr h (by simp [empty, adv])

end

/-! The commands. -/

section
variable {s : State} {fn : PartId} {q : BitVec 16} {x : Qp} (hears : s.m.hears fn.val = true) (found : s.m.qp? q.toNat = some x) (v : BitVec 16)
include hears found

/-- A doorbell is taken at the die that serves its queue pair, or sent there (14 R393, 01 R31). -/
theorem execSqDoorbell_heard : execSqDoorbell fn q v s = Becomes s (
    if s.m.servedBy x.iod.val = some s.m.portIod.val then s.m.sqDoorbell fn q.toNat v.toNat
    else s.m.sendCn { op := .doorbell, dst := x.iod.val, a := q.toNat, b := v.toNat, c := 2 * fn.val, src := some (8 + s.m.portIod.val) }) := by
  simp only [execSqDoorbell, State.go_eq, hears, found, Bool.not_true, Bool.false_eq_true, if_false, Becomes]

theorem execCqDoorbell_heard : execCqDoorbell fn q v s = Becomes s (
    if s.m.servedBy x.iod.val = some s.m.portIod.val then s.m.cqDoorbell fn q.toNat v.toNat
    else s.m.sendCn { op := .doorbell, dst := x.iod.val, a := q.toNat, b := v.toNat, c := 2 * fn.val + 1, src := some (8 + s.m.portIod.val) }) := by
  simp only [execCqDoorbell, State.go_eq, hears, found, Bool.not_true, Bool.false_eq_true, if_false, Becomes]

end

section
variable {s : State} {fn : PartId}

/-- The command that slots fetched from the admin queue of a function become. -/
def Mod.adminCmd (m : Mod) (fn : PartId) (slots : List LineData) : HCmd :=
  { fn := fn, qp := none, iod := m.portIod, gen := (m.part fn.val).gen, ord := m.host.cmdSeq, slots := slots }

/-- The module once slots of the admin queue of a function are read. -/
def Mod.adminFetched (m : Mod) (fn : PartId) (slots : List LineData) : Mod :=
  (m.updFn fn.val fun x => { x with sqHead := x.sqHead + slots.length }).count kHifFetch m.portIod.val

section
variable {slots : List LineData} (shaped : slotsOk slots = true) (serving : s.m.serving = true) (hears : s.m.hears fn.val = true)
  (thawed : s.m.frozenPart fn.val = false) (there : slots.length ≤ s.m.unfetched fn none)
include shaped serving hears thawed there

/-- A command fetched that is accepted sets out for its unit; one that is refused has ended (14 R393, R395). -/
theorem execCommandFetchDone_accepted (accepted : (s.m.adminCmd fn slots).refusal = none) : execCommandFetchDone fn none slots s =
    Becomes s ((((s.m.adminFetched fn slots).updHost fun h => { h with
      cmds := h.cmds.put s.m.host.cmdSeq (s.m.adminCmd fn slots), cmdSeq := s.m.host.cmdSeq + 1 }).recordCmd s.m.host.cmdSeq).sendCn {
        op := .cmd, dst := s.m.portIod.val, a := s.m.host.cmdSeq }) := by
  have fetches : (!s.m.serving || !s.m.hears fn.val || s.m.frozenPart fn.val || decide (s.m.unfetched fn none < slots.length)) = false := by
    simp [serving, hears, thawed, there]
  rw [Mod.adminCmd] at accepted
  simp only [execCommandFetchDone, shaped, State.goIf_true, fetches, Bool.false_eq_true, if_false, Option.map_none, Mod.part_updFn, accepted]
  rfl

theorem execCommandFetchDone_refused {d : BitVec 128} (refused : (s.m.adminCmd fn slots).refusal = some d) : execCommandFetchDone fn none slots s =
    Becomes s (((s.m.adminFetched fn slots).updHost fun h => { h with
      cmds := h.cmds.put s.m.host.cmdSeq { (s.m.adminCmd fn slots).mark stARITH d with ended := true },
      cmdSeq := s.m.host.cmdSeq + 1 }).recordCmd s.m.host.cmdSeq) := by
  have fetches : (!s.m.serving || !s.m.hears fn.val || s.m.frozenPart fn.val || decide (s.m.unfetched fn none < slots.length)) = false := by
    simp [serving, hears, thawed, there]
  rw [Mod.adminCmd] at refused
  simp only [execCommandFetchDone, shaped, State.goIf_true, fetches, Bool.false_eq_true, if_false, Option.map_none, Mod.part_updFn, refused]
  rfl

end

/-- A detach by the link, its reset or its recovery (14 R413). -/
theorem detach_completes (attached : s.m.host.portState ≠ 2) (k : Fin 5) : Completes (Becomes s (s.m.detach k)) fun t =>
    t.m.host.portState = 2 ∧ t.m.host.cause = k ∧ t.m.host.flush = false ∧
    (∀ e ∈ t.m.host.qps, e.2.bound = false ∧ e.2.sqTail = e.2.sqHead) ∧ (∀ e ∈ t.m.host.fns, e.2.aqEn = false) ∧
    ((∀ e ∈ s.m.copies, e.2.started = true → e.2.walked = false → e.2.dspace ≠ 3) →
      (∀ e ∈ s.m.host.qps, ∀ j ∈ e.2.journal, j.certain = true) →
      t.m.mem = s.m.mem ∧ t.m.sched.ready = s.m.sched.ready ∧ t.m.seq = s.m.seq) := by
  obtain ⟨x, host⟩ := Mod.detach_host attached k
  refine ⟨_, rfl, ?_, ?_, ?_, ?_, ?_, Mod.detach_quiet attached k⟩
  all_goals dsimp only; rw [host]
  · rfl
  · rfl
  · rfl
  · exact x.detached_qps k
  · exact x.detached_fns k

end

/-- Settles O37, by the command: doorbells by `Mod.sqDoorbell_own` and its like, fetches by `execCommandFetchDone_admin`, detaches by
`detach_completes`, VF Enable by `Mod.dropFns_dropped`. -/
theorem hostPort : Obligations.HostPort := by
  intro s fn
  refine ⟨fun q v x hears found => ?doorbells, fun v hears on => ?admin, fun slots shaped serving hears thawed there => ?fetch,
    fun attached i k hi => ?detach, fun serving portA => ?select, fun serving => ?range, fun detached serving => ?attach, fun up off => ?enable,
    rfl, ?clear⟩
  case doorbells =>
    have sq := execSqDoorbell_heard hears found v
    have cq := execCqDoorbell_heard hears found v
    refine ⟨fun here own => ⟨fun forward => ?_, fun back => ?_, fun fits empty => ?_⟩, fun here other => ?_, fun away => ?_⟩
    · rw [exec_sqDoorbell, sq, if_pos here, Mod.sqDoorbell_own found own, if_neg (Nat.not_lt.mpr forward)]
    · rw [exec_sqDoorbell, sq, if_pos here, Mod.sqDoorbell_own found own, if_pos back]
    · rw [exec_cqDoorbell, cq, if_pos here, Mod.cqDoorbell_own found own _ fits empty]
    · rw [exec_sqDoorbell, sq, exec_cqDoorbell, cq, if_pos here, if_pos here]
      exact ⟨congrArg _ (Mod.sqDoorbell_other found other _), congrArg _ (Mod.cqDoorbell_other found other _)⟩
    · rw [exec_sqDoorbell, sq, exec_cqDoorbell, cq, if_neg away, if_neg away]
      exact ⟨rfl, rfl⟩
  case admin =>
    refine ⟨fun forward => ?_, fun fits => ?_⟩
    · simp only [exec_adminSqDoorbell, execAdminSqDoorbell, State.go_eq, hears, on, Bool.not_true, Bool.or_self, Bool.false_eq_true, if_false,
        if_neg (Nat.not_lt.mpr forward)]
      rfl
    · simp only [exec_adminCqDoorbell, execAdminCqDoorbell, State.go_eq, hears, on, Bool.not_true, Bool.or_self, Bool.false_eq_true, if_false,
        if_neg (Nat.not_lt.mpr fits)]
      rfl
  case fetch =>
    exact ⟨execCommandFetchDone_accepted shaped serving hears thawed there,
      fun d => execCommandFetchDone_refused shaped serving hears thawed there⟩
  case detach =>
    simp only [List.mem_cons, List.not_mem_nil, or_false, Prod.mk.injEq] at hi
    obtain ⟨rfl, rfl⟩ | ⟨rfl, rfl⟩ | ⟨rfl, rfl⟩ := hi
    all_goals exact detach_completes attached _
  case select =>
    refine ⟨_, rfl, ?_⟩
    simp only [Mod.perform_serving serving, Nat.lt_irrefl, if_false, Mod.portSelect_b portA]
    exact ⟨rfl, Mod.detach_portState _ _, rfl, rfl⟩
  case range =>
    simp only [exec_hifPortSelect, execHifPortSelect, State.go_eq, Mod.perform_serving serving]
    rfl
  case attach =>
    simp [execHifAttach, Mod.attach, detached, serving, Becomes]
  case enable =>
    simp [execHifAqEn, Mod.aqEnable, up, off, Becomes]
  case clear =>
    have physical : 0 ∉ vfNumbers := fun h => Nat.lt_irrefl 0 (mem_vfNumbers.mp h).1
    obtain ⟨part, -⟩ := Mod.dropFns_keeps physical s.m
    refine ⟨_, execVfEnableClear_drops s, ?_, ?_, fun p nonzero => ?_⟩
    · rw [part]
    · rw [part]
    · have dropped := Mod.dropFns_dropped vfNumbers_nodup (mem_vfNumbers.mpr ⟨Fin.pos_iff_ne_zero.mpr nonzero, p.isLt⟩) s.m
      dsimp only
      exact dropped

end Sys2Proof.Machine
end

section
/-! What a write of an agent through the caches leaves alone (06, 07): the operations of the homes and of the agents change free values, counters,
events, caches, memory, halves, violations, held messages and stamps of dies, and nothing else. -/

namespace Sys2Proof.Machine

/-- The module without what the caches, the memory under them and the messages between them may change. -/
def Mod.outside (m : Mod) : Mod :=
  { m with free := 0, ctr := [], kod := { m.kod with evq := [] }, halves := [], cache := {}, mem := {}, parts := {}, net := {}, dies := [] }

theorem Mod.host_of_outside {m n : Mod} (h : n.outside = m.outside) : n.host = m.host := congrArg (·.host) h

theorem Mod.Stores.outside {m n : Mod} (h : m.Stores n) : n.outside = m.outside := by
  obtain ⟨_, _, _, _, _, rfl⟩ := h
  rfl

theorem forEach_outside {α : Type} {f : α → Mod → Mod} (step : ∀ x m, (f x m).outside = m.outside) (l : List α) (m : Mod) :
    (forEach l f m).outside = m.outside := forEach_keeps Mod.outside step l m

/-- Pieces written one after another by a step that leaves the rest alone. -/
theorem writePieces_outside {f : Nat → List Byte → Mod → BRes × Mod} (step : ∀ a b m, (f a b m).2.outside = m.outside)
    (l : List (Nat × Nat)) (base : Nat) (bs : List Byte) (m : Mod) : (writePieces l base bs f m).2.outside = m.outside := by
  have pieces (r : BRes × Mod) : (l.foldl (fun r p =>
      let q := f p.1 ((bs.drop (p.1 - base)).take p.2) r.2; (r.1.join q.1, q.2)) r).2.outside = r.2.outside := by
    induction l generalizing r with
    | nil => rfl
    | cons p l ih => exact (ih _).trans (step ..)
  exact pieces ({}, m)

section
variable (m : Mod)

/-! Parts of the state. -/

@[simp] theorem Mod.updCache_outside (f : CacheS → CacheS) : (m.updCache f).outside = m.outside := rfl
@[simp] theorem Mod.updHalf_outside (h : Nat) (f : Half → Half) : (m.updHalf h f).outside = m.outside := rfl
@[simp] theorem Mod.violate_outside (p : Nat) : (m.violate p).outside = m.outside := rfl
@[simp] theorem Mod.withNet_outside (x : NetS) : ({ m with net := x } : Mod).outside = m.outside := rfl
@[simp] theorem Mod.draw_outside : m.draw.2.outside = m.outside := rfl
@[simp] theorem Mod.countBy_outside (num inst n : Nat) : (m.countBy num inst n).outside = m.outside := ((Stores.refl m).countBy).outside
@[simp] theorem Mod.count_outside (num inst : Nat) : (m.count num inst).outside = m.outside := m.countBy_outside num inst 1
@[simp] theorem Mod.stampTo_outside (a b : Nat) : (m.stampTo a b).outside = m.outside := by
  obtain ⟨_, e⟩ := m.stampTo_frame a b
  rw [e]
  rfl

/-! Lines, copies, requests and messages. -/

@[simp] theorem Mod.dropLine_outside (k : Nat) : (m.dropLine k).outside = m.outside := rfl
@[simp] theorem Mod.setLine_outside (k : Nat) (l : Line) : (m.setLine k l).outside = m.outside := rfl
@[simp] theorem Mod.touch_outside (k way : Nat) : (m.touch k way).outside = m.outside := rfl
@[simp] theorem Mod.setL1_outside (a k : Nat) (v : L1Line) : (m.setL1 a k v).outside = m.outside := rfl
@[simp] theorem Mod.delL1_outside (a k : Nat) : (m.delL1 a k).outside = m.outside := rfl
@[simp] theorem Mod.setReq_outside (k : Nat) (r : Req) : (m.setReq k r).outside = m.outside := rfl
@[simp] theorem Mod.delReq_outside (a k : Nat) : (m.delReq a k).outside = m.outside := rfl
@[simp] theorem Mod.send_outside (x : Msg) : (m.send x).outside = m.outside := rfl
@[simp] theorem Mod.undead_outside (k : Nat) : (m.undead k).outside = m.outside := rfl
@[simp] theorem Mod.spendBuf_outside (a k : Nat) : (m.spendBuf a k).outside = m.outside := rfl
@[simp] theorem Mod.markGone_outside (a : Nat) : (m.markGone a).outside = m.outside := rfl
@[simp] theorem Mod.allocate_outside (k : Nat) (r : Req) : (m.allocate k r).outside = m.outside := rfl
@[simp] theorem Mod.grant_outside (k : Nat) (a : AgentId) (l : Line) (kd : MsgKind) : (m.grant k a l kd).outside = m.outside := rfl
@[simp] theorem Mod.memWriteLine_outside (pa : Nat) (d : LineData) (p : Bool) : (m.memWriteLine pa d p).1.outside = m.outside :=
  ((Stores.refl m).memWriteLine).outside
@[simp] theorem Mod.memReadLine_outside (pa : Nat) : (m.memReadLine pa .ok .ok 0).2.outside = m.outside := ((Stores.refl m).memReadLine).outside
@[simp] theorem Mod.markDirtyFrame_outside (k : Nat) : (m.markDirtyFrame k).outside = m.outside := ((Stores.refl m).markDirtyFrame).outside
@[simp] theorem Mod.setDir_outside (k : Nat) (d : Dir) : (m.setDir k d).outside = m.outside := ((Stores.refl m).setDir).outside
@[simp] theorem Mod.lineTake_outside (k : Nat) (d : LineData) (p : Bool) : (m.lineTake k d p).1.outside = m.outside :=
  ((Stores.refl m).lineTake).outside
@[simp] theorem Mod.takeData_outside (k : Nat) (d : LineData) (p : Bool) : (m.takeData k d p).outside = m.outside :=
  ((Stores.refl m).takeData).outside
@[simp] theorem Mod.backRead_outside (pa : Nat) : (m.backRead pa .ok).2.outside = m.outside := ((Stores.refl m).backRead).outside
@[simp] theorem Mod.backWrite_outside (pa : Nat) (d : LineData) (p : Bool) : (m.backWrite pa d p).outside = m.outside :=
  ((Stores.refl m).backWrite).outside
@[simp] theorem Mod.setBusy_outside (k : Nat) (t : Txn) : (m.setBusy k t).outside = m.outside := by
  simp only [Mod.setBusy]
  split <;> rfl
@[simp] theorem Mod.clearBusy_outside (k : Nat) : (m.clearBusy k).outside = m.outside := by
  simp only [Mod.clearBusy]
  split <;> rfl
@[simp] theorem Mod.lookup_outside (k cls part : Nat) : (m.lookup k cls part).outside = m.outside := by
  unfold Mod.lookup
  dsimp only
  repeat' split
  all_goals simp
@[simp] theorem Mod.evictNow_outside (k : Nat) : (m.evictNow k).outside = m.outside := by
  unfold Mod.evictNow
  dsimp only
  repeat' split
  all_goals simp
@[simp] theorem Mod.install_outside (k way cls : Nat) (d : LineData) (dirty p : Bool) : (m.install k way cls d dirty p).outside = m.outside := by
  unfold Mod.install
  dsimp only
  split <;> simp
@[simp] theorem Mod.fosterRead_outside (k cls : Nat) : (m.fosterRead k cls).2.outside = m.outside := by simp [Mod.fosterRead]
@[simp] theorem Mod.fosterWrite_outside (k cls : Nat) (be : BitVec 128) (d : LineData) : (m.fosterWrite k cls be d).1.outside = m.outside := by
  simp only [Mod.fosterWrite]
  split <;> simp
@[simp] theorem Mod.sliceWrite_outside (k : Nat) (be : BitVec 128) (d : LineData) : (m.sliceWrite k be d).1.outside = m.outside := by
  simp only [Mod.sliceWrite]
  split <;> simp
@[simp] theorem Mod.dropDead_outside (k : Nat) : (m.dropDead k).outside = m.outside := by
  simp only [Mod.dropDead]
  repeat' split
  all_goals simp
@[simp] theorem Mod.startFill_outside (k : Nat) (r : List Req) : (m.startFill k r).outside = m.outside := by
  unfold Mod.startFill
  dsimp only
  split <;> simp
@[simp] theorem Mod.fillFor_outside (k : Nat) (r : Req) : (m.fillFor k r).outside = m.outside := by simp [Mod.fillFor]
@[simp] theorem Mod.sendInv_outside (k : Nat) (r : Req) (hs : List AgentId) (kd : MsgKind) : (m.sendInv k r hs kd).outside = m.outside := by
  simp only [Mod.sendInv]
  rw [forEach_outside (fun _ _ => send_outside ..), setBusy_outside, countBy_outside]
@[simp] theorem Mod.forward_outside (k : Nat) (r : Req) (holder : AgentId) (kd : MsgKind) : (m.forward k r holder kd).outside = m.outside := by
  simp [Mod.forward]
@[simp] theorem Mod.recordPut_outside (k : Nat) (a : AgentId) : (m.recordPut k a).outside = m.outside := by
  unfold Mod.recordPut
  dsimp only
  repeat' split
  all_goals simp
@[simp] theorem Mod.ncPerform_outside (k : Nat) (r : Req) : (m.ncPerform k r).outside = m.outside := by
  unfold Mod.ncPerform
  dsimp only
  repeat' split
  all_goals simp
@[simp] theorem Mod.admitReq_outside (k : Nat) (r : Req) : (m.admitReq k r).outside = m.outside := by
  unfold Mod.admitReq
  dsimp only
  repeat' split
  all_goals simp

/-! Ways, fills and what waits behind them. -/

@[simp] theorem Mod.startEvict_outside (v : Nat) : (m.startEvict v).outside = m.outside := by
  simp only [Mod.startEvict]
  repeat' split
  all_goals simp
@[simp] theorem Mod.wayFor_outside (k part : Nat) : (m.wayFor k part).2.outside = m.outside := by
  simp only [Mod.wayFor]
  repeat' split
  all_goals simp
@[simp] theorem Mod.sendBranch_outside (lacks : List AgentId) (x : Msg) : (m.sendBranch lacks x).outside = m.outside := by
  unfold Mod.sendBranch
  dsimp only
  repeat' split
  all_goals simp
@[simp] theorem Mod.serveFill_outside (k : Nat) (rs : List Req) (lacks : List AgentId) : (m.serveFill k rs lacks).outside = m.outside := by
  simp only [Mod.serveFill]
  split
  · rfl
  · rw [forEach_outside (fun _ _ => sendBranch_outside ..), setDir_outside]
@[simp] theorem Mod.advance_outside (k : Nat) (lacks : List AgentId) (n : Nat) : (m.advance k lacks n).outside = m.outside := by
  induction n generalizing m with
  | zero => rfl
  | succ n ih =>
    have admits (rs : List Req) (m : Mod) : (forEach rs (fun r m => m.admitReq k r) m).outside = m.outside :=
      forEach_outside (fun _ _ => admitReq_outside ..) rs m
    unfold Mod.advance
    dsimp only
    repeat' split
    all_goals simp [ih, admits]
@[simp] theorem Mod.retryFills_outside (set : Nat) : (m.retryFills set).outside = m.outside :=
  forEach_outside (fun _ _ => advance_outside ..) _ m
@[simp] theorem Mod.nackReq_outside (k : Nat) (r : Req) : (m.nackReq k r).outside = m.outside := by
  unfold Mod.nackReq
  dsimp only
  split <;> simp
@[simp] theorem Mod.joinFill_outside (k : Nat) (r : Req) (fills : List Mshr) : (m.joinFill k r fills).outside = m.outside := by
  unfold Mod.joinFill
  dsimp only
  repeat' split
  all_goals simp
@[simp] theorem Mod.prepPs_outside (k : Nat) : (m.prepPs k).outside = m.outside := by
  unfold Mod.prepPs
  dsimp only
  repeat' split
  all_goals simp
@[simp] theorem Mod.reqArrive_outside (k : Nat) (r : Req) : (m.reqArrive k r).outside = m.outside := by
  unfold Mod.reqArrive
  extract_lets stamped write fostered prepared fills tickets q counted
  have hs : stamped.outside = m.outside := by
    simp only [stamped]
    split <;> simp
  have hf : fostered.outside = m.outside := by
    simp only [fostered]
    repeat' split
    all_goals simp [hs]
  have hp : prepared.outside = m.outside := (stamped.prepPs_outside k).trans hs
  have hc : counted.outside = m.outside := by
    simp only [counted]
    split <;> simp [hp]
  clear_value stamped fostered prepared counted
  repeat' split
  all_goals simp [hs, hf, hp, hc]

/-! The home's side: transactions, fills, tickets. -/

@[simp] theorem Mod.concludeTxn_outside (k : Nat) (t : Txn) : (m.concludeTxn k t).outside = m.outside := by
  unfold Mod.concludeTxn
  dsimp only
  repeat' split
  all_goals simp
@[simp] theorem Mod.finishTxn_outside (k : Nat) (t : Txn) : (m.finishTxn k t).outside = m.outside := by simp [Mod.finishTxn]
@[simp] theorem Mod.ackAt_outside (k : Nat) (a : AgentId) (data : Option LineData) (p : Bool) : (m.ackAt k a data p).outside = m.outside := by
  unfold Mod.ackAt
  dsimp only
  repeat' split
  all_goals simp
@[simp] theorem Mod.pushAnswer_outside (k : Nat) (a : AgentId) (accepted : Bool) : (m.pushAnswer k a accepted).outside = m.outside := by
  unfold Mod.pushAnswer
  dsimp only
  repeat' split
  all_goals simp
@[simp] theorem Mod.fillLine_outside (k : Nat) (lacks : List AgentId) : (m.fillLine k .ok lacks).outside = m.outside := by
  unfold Mod.fillLine
  dsimp only
  repeat' split
  all_goals simp
@[simp] theorem Mod.admitTicket_outside (k : Nat) : (m.admitTicket k).outside = m.outside := by
  unfold Mod.admitTicket
  dsimp only
  repeat' split
  all_goals simp

/-! The agent's side. -/

@[simp] theorem Mod.loseCopy_outside (a : AgentId) (k : Nat) : (m.loseCopy a k).outside = m.outside := by
  unfold Mod.loseCopy
  dsimp only
  repeat' split
  all_goals simp
@[simp] theorem Mod.forwardAt_outside (x : Msg) : (m.forwardAt x).outside = m.outside := by
  unfold Mod.forwardAt
  dsimp only
  repeat' split
  all_goals simp
@[simp] theorem Mod.putCopy_outside (a : AgentId) (k : Nat) (st : L1St) : (m.putCopy a k st).outside = m.outside := by
  unfold Mod.putCopy
  repeat' split
  all_goals simp
@[simp] theorem Mod.l1Room_outside (a : AgentId) (k : Nat) : (m.l1Room a k).outside = m.outside := by
  unfold Mod.l1Room
  dsimp only
  repeat' split
  all_goals simp
@[simp] theorem Mod.grantAt_outside (x : Msg) (st : L1St) : (m.grantAt x st).outside = m.outside := by
  unfold Mod.grantAt
  dsimp only
  split <;> simp
@[simp] theorem Mod.pushAt_outside (x : Msg) : (m.pushAt x).outside = m.outside := by
  unfold Mod.pushAt
  dsimp only
  split <;> simp
@[simp] theorem Mod.nackAt_outside (x : Msg) : (m.nackAt x).outside = m.outside := by
  unfold Mod.nackAt
  dsimp only
  repeat' split
  all_goals simp

/-! Delivery, and whole accesses. -/

@[simp] theorem Mod.hearMsg_outside (x : Msg) : (m.hearMsg x).outside = m.outside := by
  unfold Mod.hearMsg
  repeat' split
  all_goals simp
@[simp] theorem Mod.deliver_outside (x : Msg) : (m.deliver x).outside = m.outside := by
  unfold Mod.deliver
  repeat' split
  all_goals simp
@[simp] theorem Mod.deliverOne_outside (p : Msg → Bool) : (m.deliverOne p).outside = m.outside := by
  unfold Mod.deliverOne
  split
  · rfl
  · rw [deliver_outside, hearMsg_outside]
    rfl
@[simp] theorem Mod.unhold_outside (k : Nat) : (m.unhold k).outside = m.outside := by
  unfold Mod.unhold
  dsimp only
  rw [forEach_outside (fun _ _ => send_outside ..), forEach_outside, withNet_outside]
  intro b m
  split
  · exact send_outside ..
  · rfl
@[simp] theorem Mod.settle_outside (k n : Nat) : (m.settle k n).outside = m.outside := by
  induction n generalizing m with
  | zero => rfl
  | succ n ih =>
    unfold Mod.settle
    repeat' split
    all_goals simp [ih]
@[simp] theorem Mod.runReq_outside (k : Nat) (r : Req) : (m.runReq k r).outside = m.outside := by
  unfold Mod.runReq
  dsimp only
  repeat' split
  all_goals simp
@[simp] theorem Mod.ncWrite_outside (a : AgentId) (k part cls : Nat) (be : BitVec 128) (d : LineData) (target : Option TileId) :
    (m.ncWrite a k part cls be d target).1.outside = m.outside := by
  unfold Mod.ncWrite
  dsimp only
  repeat' split
  all_goals simp
@[simp] theorem Mod.physWriteBy_outside (a : AgentId) (pa : Nat) (bs : List Byte) (cls : Nat) :
    (m.physWriteBy a pa bs cls).outside = m.outside :=
  writePieces_outside (fun _ _ _ => ncWrite_outside ..) _ pa bs m

end
end Sys2Proof.Machine
end

section
/-! Completion (14 R396-R403, R411, R415, R416, 18 R522): the records that commands of a front end hold, what a command that leaves its front end and
its entry into the journal change; then the obligation. -/

namespace Sys2Proof.Machine

/-- An entry of a table after every entry is updated. -/
theorem Tab.find_mapVals {α : Type} (f : α → α) (k : Nat) (t : Tab α) : Tab.find k (t.map fun e => (e.1, f e.2)) = (Tab.find k t).map f := by
  induction t with
  | nil => rfl
  | cons e t ih =>
    obtain ⟨j, v⟩ := e
    simp only [List.map_cons, Tab.find, ih]
    split <;> rfl

/-- An update of entries that are there adds none and removes none. -/
theorem Tab.isNone_find_adj {α : Type} (i k : Nat) (f : α → α) (t : Tab α) : (Tab.find i (t.adj k f)).isNone = (Tab.find i t).isNone := by
  cases h : Tab.find k t with
  | none => rw [Tab.adj_of_none h]
  | some v =>
    rw [Tab.adj_of_find h]
    by_cases e : i = k
    · subst e
      simp [h]
    · rw [Tab.find_put_other e]

/-! Command records (18 R522). -/

/-- Numbers without repetition that all occur in a list are no more than the list is long. -/
theorem length_le_of_nodup_subset {l used : List Nat} (once : l.Nodup) (held : ∀ i ∈ l, i ∈ used) : l.length ≤ used.length := by
  induction l generalizing used with
  | nil => exact Nat.zero_le _
  | cons a l ih =>
    obtain ⟨out, once⟩ := List.nodup_cons.mp once
    have first : a ∈ used := held a List.mem_cons_self
    have rest : ∀ i ∈ l, i ∈ used.erase a := by
      intro i hi
      have other : i ≠ a := fun same => out (same ▸ hi)
      exact (List.mem_erase_of_ne other).mpr (held i (List.mem_cons_of_mem a hi))
    have shorter := ih once rest
    have erased := List.length_erase_of_mem first
    have room := List.length_pos_of_mem first
    rw [List.length_cons]
    omega

/-- Below the number of records held there is one that is not held, and the search finds the lowest. -/
theorem exists_unused (used : List Nat) : ∃ n, n ≤ used.length ∧ n ∉ used ∧
    (List.range (used.length + 1)).find? (fun i => !used.contains i) = some n := by
  cases h : (List.range (used.length + 1)).find? (fun i => !used.contains i) with
  | none =>
    have held : ∀ i ∈ List.range (used.length + 1), i ∈ used := fun i hi => by simpa using List.find?_eq_none.mp h i hi
    have few := length_le_of_nodup_subset List.nodup_range held
    rw [List.length_range] at few
    omega
  | some n =>
    have low := List.mem_range.mp (List.mem_of_find?_eq_some h)
    have unused := List.find?_some h
    exact ⟨n, Nat.lt_succ_iff.mp low, by simpa using unused, rfl⟩

section
variable {m : Mod} {id : Nat} {c : HCmd} (h : m.cmd? id = some c)
include h

/-- With every record taken a command waits for one. -/
theorem Mod.recordCmd_full (full : 65536 ≤ (m.cmdRecords c.iod.val).length) :
    m.recordCmd id = m.updCmd id fun c => { c with unrecorded := true } := by
  simp only [Mod.recordCmd, h, recordSlots, full, if_true]

/-- Otherwise it takes the lowest free record, which is written where the area has a base. -/
theorem Mod.recordCmd_free (free : (m.cmdRecords c.iod.val).length < 65536) : ∃ n, n < 65536 ∧ n ∉ m.cmdRecords c.iod.val ∧
    m.recordCmd id = if m.parN pFtCfeStateBase = 0 then (m.updCmd id fun c => { c with recSlot := some n, unrecorded := false }) else
      (m.updCmd id fun c => { c with recSlot := some n, unrecorded := false }).physWriteBy
        (feAgent (m.actingIod c.iod.val)) (m.parN pFtCfeStateBase + 2 ^ 26 * c.iod.val + 1024 * n) c.recordBytes 4 := by
  obtain ⟨n, low, unused, found⟩ := exists_unused (m.cmdRecords c.iod.val)
  refine ⟨n, by omega, unused, ?_⟩
  simp only [Mod.recordCmd, h, recordSlots, Nat.not_le.mpr free, if_false, found, Option.getD_some]
  rfl

end

/-- Of the host port, recording changes the command alone. -/
theorem Mod.recordCmd_host (m : Mod) (id : Nat) : ∃ f, (m.recordCmd id).host = (m.updCmd id f).host := by
  cases h : m.cmd? id with
  | none =>
    have same : m.updCmd id (fun c => c) = m := by
      rw [Mod.updCmd, Mod.updHost, Tab.adj_of_none h]
    exact ⟨fun c => c, by rw [same, Mod.recordCmd, h]⟩
  | some c =>
    by_cases full : 65536 ≤ (m.cmdRecords c.iod.val).length
    · exact ⟨_, by rw [recordCmd_full h full]⟩
    · obtain ⟨n, -, -, e⟩ := recordCmd_free h (Nat.not_le.mp full)
      refine ⟨fun c => { c with recSlot := some n, unrecorded := false }, ?_⟩
      rw [e]
      split
      · rfl
      · exact host_of_outside (physWriteBy_outside ..)

section
variable (m : Mod) (id i : Nat)

/-- The host port beside its commands. -/
def Mod.hostRest : HostS := { m.host with cmds := [] }

@[simp] theorem Mod.recordCmd_hostRest : (m.recordCmd id).hostRest = m.hostRest := by
  obtain ⟨f, e⟩ := m.recordCmd_host id
  simp only [Mod.hostRest, e, Mod.updCmd, Mod.updHost]
@[simp] theorem Mod.isNone_cmd?_recordCmd : ((m.recordCmd id).cmd? i).isNone = (m.cmd? i).isNone := by
  obtain ⟨f, e⟩ := m.recordCmd_host id
  rw [cmd?_of_host e]
  exact Tab.isNone_find_adj i id f m.host.cmds
@[simp] theorem Mod.recordWaiting_hostRest (k : Nat) : (m.recordWaiting k).hostRest = m.hostRest :=
  forEach_keeps Mod.hostRest (fun _ _ => recordCmd_hostRest ..) _ m
@[simp] theorem Mod.isNone_cmd?_recordWaiting (k : Nat) : ((m.recordWaiting k).cmd? i).isNone = (m.cmd? i).isNone :=
  forEach_keeps (fun m => (m.cmd? i).isNone) (fun _ _ => isNone_cmd?_recordCmd ..) _ m

end

/-! A command leaves the front end. -/

theorem Mod.qp?_of_hostRest {m n : Mod} (h : n.hostRest = m.hostRest) (q : Nat) : n.qp? q = m.qp? q :=
  (congrArg (fun x : HostS => Tab.find q x.qps) h :)
theorem Mod.portState_of_hostRest {m n : Mod} (h : n.hostRest = m.hostRest) : n.host.portState = m.host.portState := (congrArg HostS.portState h :)

section
variable {m : Mod} {id : Nat} {c : HCmd} (h : m.cmd? id = some c)
include h

theorem Mod.dropCmd_eq : m.dropCmd id = (m.updHost fun x => { x with cmds := x.cmds.del id }).recordWaiting c.iod.val := by
  simp only [Mod.dropCmd, h]
theorem Mod.dropCmd_gone : (m.dropCmd id).cmd? id = none := by
  have del : (m.updHost fun x => { x with cmds := x.cmds.del id }).cmd? id = none := Tab.find_del_same id m.host.cmds
  rw [← Option.isNone_iff_eq_none, dropCmd_eq h, isNone_cmd?_recordWaiting, del]
  rfl
theorem Mod.dropCmd_hostRest : (m.dropCmd id).hostRest = m.hostRest := by
  rw [dropCmd_eq h, recordWaiting_hostRest]
  rfl

end

/-- A detached port writes no completion entries (14 R415). -/
theorem Mod.pumpRing_of_detached {m : Mod} (h : m.host.portState = 2) (q n : Nat) : m.pumpRing q n = m := by
  cases n with
  | zero => rfl
  | succ n =>
    simp only [Mod.pumpRing, h, beq_self_eq_true, Bool.true_or, if_true]
    split <;> rfl

/-- A command other than a deletion of a queue pair leaves its results retained under its JSEQ. -/
theorem Mod.settleCmd_of_other {c : HCmd} (h : c.opc ≠ 0x39) (m : Mod) (id jseq : Nat) : m.settleCmd id c jseq = m.updHost fun x => { x with
    retained := (x.retained.filter fun r => !(r.cmd == id && c.status == stOK)).map fun r =>
      if r.cmd = id then { r with jseq := some (jseq % 65536) } else r } := by
  simp only [Mod.settleCmd, h, false_and, if_false]

/-- The journal entry of a command on its queue pair. -/
def HCmd.entry (c : HCmd) (q : Nat) (x : Qp) : JEntry :=
  { jseq := x.jseq, entries := c.completion (x.sqHead % 2 ^ x.sqLog2) x.jseq q, certain := !c.hmUncertain }

/-- A queue pair with one more entry in its journal. -/
def Qp.entered (x : Qp) (id : Nat) (j : JEntry) : Qp :=
  { x with jseq := (x.jseq + 1) % 65536, journal := x.journal ++ [j], cset := if x.cset == some id then none else x.cset }

/-- The module once a completed command of a queue pair is in the journal. -/
def Mod.entered (m : Mod) (id : Nat) (c : HCmd) (q : Nat) (x : Qp) : Mod :=
  ((m.putJournal x (c.entry q x)).updQp q fun x' => x'.entered id (c.entry q x)).settleCmd id c x.jseq

section
variable {m : Mod} {id : Nat} {c : HCmd} {x : Qp} (other : c.opc ≠ 0x39)
include other

theorem Mod.entered_host (q : Nat) : ∃ r, (m.entered id c q x).host =
    { m.host with qps := m.host.qps.adj q fun x' => x'.entered id (c.entry q x), retained := r } := by
  have stored : (m.putJournal x (c.entry q x)).host = m.host := host_of_outside ((Stores.refl m).putJournal).outside
  rw [Mod.entered, settleCmd_of_other other, Mod.updQp, Mod.updHost, Mod.updHost, stored]
  exact ⟨_, rfl⟩

theorem Mod.entered_cmd? (q i : Nat) : (m.entered id c q x).cmd? i = m.cmd? i := by
  obtain ⟨r, host⟩ := entered_host (m := m) (id := id) (x := x) other q
  rw [Mod.cmd?, host]
  rfl
theorem Mod.entered_portState (q : Nat) : (m.entered id c q x).host.portState = m.host.portState := by
  obtain ⟨r, host⟩ := entered_host (m := m) (id := id) (x := x) other q
  rw [host]
theorem Mod.entered_qp? {q : Nat} (found : m.qp? q = some x) : (m.entered id c q x).qp? q = some (x.entered id (c.entry q x)) := by
  obtain ⟨r, host⟩ := entered_host (m := m) (id := id) (x := x) other q
  rw [Mod.qp?, host, Tab.adj_of_find found]
  exact Tab.find_put_same ..

end

/-! COMMAND_COMPLETE, of a command whose work is over, its front end served, its report in, that is no QP_DELETE (08 R261). -/

section
variable {s : State} {id : Nat} {c : HCmd} (h : s.m.cmd? id = some c) (finished : c.workOver = true) (copies : s.m.cmdCopies id = false)
  (served : s.m.served c.iod.val = true) (reported : (s.m.net.cn.any fun f => f.op == .cmpl && f.a == id) = false) (other : c.opc ≠ 0x39)
include h finished copies served reported other

/-- One of an earlier generation of its partition is counted and dropped (14 R400). -/
theorem execCommandComplete_stale (stale : (s.m.part c.fn.val).gen ≠ c.gen) :
    execCommandComplete id s = Becomes s ((s.m.count kHifGenStale c.iod.val).dropCmd id) := by
  have kind : (c.opc == 0x39) = false := by simpa using other
  have drops : s.m.completeCmd id = (s.m.count kHifGenStale c.iod.val).dropCmd id := by
    simp only [Mod.completeCmd, h, finished, copies, served, reported, kind, stale, Bool.not_true, Bool.false_and, Bool.or_self, Bool.false_eq_true,
      if_false, ne_eq, not_false_eq_true, if_true]
  have old : ((s.m.part c.fn.val).gen == c.gen) = false := by simpa using stale
  simp only [execCommandComplete, State.go_eq, h, drops, old, Bool.and_false, Bool.false_and, Bool.false_eq_true, if_false, Becomes]

/-- One whose host writes are uncertain has the port flush first (14 R403, R416). -/
theorem execCommandComplete_flushes (current : (s.m.part c.fn.val).gen = c.gen) (fabric : c.fabScope = false) (host : c.hostScope = true)
    (uncertain : c.hmUncertain = true) (idle : s.m.host.flush = false) (attached : s.m.host.portState ≠ 2) :
    execCommandComplete id s = Becomes s s.m.issueFlush := by
  have kind : (c.opc == 0x39) = false := by simpa using other
  have port : (s.m.host.portState == 2) = false := by simpa using attached
  have flushes : s.m.completeCmd id = s.m.issueFlush := by
    simp only [Mod.completeCmd, h, finished, copies, served, reported, kind, current, fabric, host, uncertain, idle, port, Bool.not_true,
      Bool.false_and, Bool.and_self, Bool.or_self, Bool.false_eq_true, if_false, ne_eq, not_true_eq_false, if_true]
  have stays : (s.m.issueFlush.cmd? id).isNone = false := by
    have found : s.m.issueFlush.cmd? id = (s.m.cmd? id).map fun k => { k with flushing := k.hmUncertain } :=
      Tab.find_mapVals (fun k : HCmd => { k with flushing := k.hmUncertain }) id s.m.host.cmds
    rw [found, h]
    rfl
  simp only [execCommandComplete, State.go_eq, h, flushes, stays, Bool.false_and, Bool.false_eq_true, if_false, Becomes]

/-- One of a queue pair on a detached port enters the journal (14 R415). -/
theorem execCommandComplete_journals {q : Nat} {x : Qp} (settled : s.m.calls c = false) (current : (s.m.part c.fn.val).gen = c.gen)
    (unfenced : c.fscope = 0) (queue : c.qp = some q) (found : s.m.qp? q = some x) (room : x.journal.length < 4096)
    (detached : s.m.host.portState = 2) : execCommandComplete id s = Becomes s ((s.m.entered id c q x).dropCmd id) := by
  have kind : (c.opc == 0x39) = false := by simpa using other
  have fabric : c.fabScope = false := by simp [HCmd.fabScope, unfenced]
  have host : c.hostScope = false := by simp [HCmd.hostScope, unfenced]
  have there : (s.m.entered id c q x).cmd? id = some c := (Mod.entered_cmd? other q id).trans h
  have still : ((s.m.entered id c q x).dropCmd id).host.portState = 2 :=
    (Mod.portState_of_hostRest (Mod.dropCmd_hostRest there)).trans ((Mod.entered_portState other q).trans detached)
  have journals : s.m.completeCmd id = (s.m.entered id c q x).dropCmd id := by
    refine Eq.trans ?_ (Mod.pumpRing_of_detached still q 4096)
    simp only [Mod.completeCmd, h, finished, copies, served, reported, kind, current, fabric, host, queue, found, Nat.not_le.mpr room,
      Bool.not_true, Bool.false_and, Bool.or_self, Bool.false_eq_true, if_false, ne_eq, not_true_eq_false]
    rfl
  simp only [execCommandComplete, State.go_eq, h, journals, settled, Bool.and_false, Bool.false_eq_true, if_false, Becomes]

end

/-- The same, as the obligation has it: the command is gone, its entry is the last of the journal, and the next has the next JSEQ. -/
theorem Mod.entered_dropped {m : Mod} {id q : Nat} {c : HCmd} {x : Qp} (h : m.cmd? id = some c) (other : c.opc ≠ 0x39)
    (found : m.qp? q = some x) :
    ((m.entered id c q x).dropCmd id).cmd? id = none ∧
      ((m.entered id c q x).dropCmd id).qp? q = some (x.entered id (c.entry q x)) := by
  have there : (m.entered id c q x).cmd? id = some c := (entered_cmd? other q id).trans h
  exact ⟨dropCmd_gone there, (qp?_of_hostRest (dropCmd_hostRest there) q).trans (entered_qp? other found)⟩

/-! The flush's return, a time limit, a coalescing timer. -/

theorem execFlushReturn_certain {s : State} {id : Nat} {c : HCmd} (h : s.m.cmd? id = some c) (under : s.m.host.flush = true) :
    Completes (execFlushReturn s) fun t => t.m.host.flush = false ∧
      t.m.cmd? id = some (if c.flushing then { c with hmUncertain := false, flushing := false } else c) := by
  simp only [execFlushReturn, State.go_eq, under, Bool.not_true, Bool.false_eq_true, if_false]
  refine ⟨_, rfl, rfl, (Tab.find_mapVals (fun e : HCmd => if e.flushing then { e with hmUncertain := false, flushing := false } else e) id
    s.m.host.cmds).trans ?_⟩
  exact congrArg (Option.map _) h

/-- A command that has not started when its time limit expires completes at once (14 R402). -/
theorem execTlimitExpiry_unstarted {s : State} {id : Nat} {c : HCmd} (h : s.m.cmd? id = some c) (going : c.workOver = false)
    (first : c.expired = false) (unstarted : c.started = false) (runs : s.m.dbg.brake.val ≤ 1) :
    Completes (execTlimitExpiry id s) fun t =>
      ∃ d, t.m.cmd? id = some d ∧ d.ended = true ∧ d.expired = true ∧ d.status = worse c.status stTIMEOUT := by
  simp only [execTlimitExpiry, State.go_eq, h, going, first, unstarted, Nat.not_lt.mpr runs, decide_false, Bool.or_self, Bool.false_eq_true,
    if_false, Bool.not_false, if_true]
  exact ⟨_, rfl, _, Mod.cmd?_updCmd (Mod.cmd?_updCmd (Mod.cmd?_updCmd h _) _) _, rfl, rfl, rfl⟩

/-- Settles O36, a case for each command: completion by `execCommandComplete_stale`, `execCommandComplete_flushes` and
`execCommandComplete_journals`, records by `Mod.recordCmd_full` and `Mod.recordCmd_free`. -/
theorem completions : Obligations.Completions := by
  intro s id c h
  refine ⟨fun finished copies served unreported other => ?complete, execFlushReturn_certain h, Mod.dropCmd_eq h,
    ⟨Mod.recordCmd_full h, Mod.recordCmd_free h⟩, execTlimitExpiry_unstarted h, fun q x found unannounced => ?announce⟩
  case complete =>
    have reported : (s.m.net.cn.any fun f => f.op == .cmpl && f.a == id) = false := by simpa using unreported
    refine ⟨execCommandComplete_stale h finished copies served reported other,
      fun current fabric host uncertain idle attached =>
        ⟨execCommandComplete_flushes h finished copies served reported other current fabric host uncertain idle attached, rfl⟩,
      fun q x settled current unfenced queue found room detached => ?_⟩
    obtain ⟨gone, entry⟩ := Mod.entered_dropped h other found
    exact ⟨_, execCommandComplete_journals h finished copies served reported other settled current unfenced queue found room detached,
      gone, _, entry, rfl, rfl⟩
  case announce =>
    simp only [exec_msixCoalesceTimer, execMsixCoalesceTimer, State.go_eq, found, unannounced, if_false]
    rfl

end Sys2Proof.Machine
end

section
/-! Keys of external memory (11 R316): what the memory, the caches and the messages between them do leaves the generation of every key as it is. -/

namespace Sys2Proof.Machine

/-- Pieces written one after another by a step that keeps a part of the module. -/
theorem writePieces_keeps {β : Type} (g : Mod → β) {f : Nat → List Byte → Mod → BRes × Mod} (step : ∀ a b m, g (f a b m).2 = g m)
    (l : List (Nat × Nat)) (base : Nat) (bs : List Byte) (m : Mod) : g (writePieces l base bs f m).2 = g m := by
  unfold writePieces
  generalize ({} : BRes) = res
  induction l generalizing res m with
  | nil => rfl
  | cons p l ih => exact (ih _ _).trans (step _ _ m)

section
variable (m : Mod)

/-! Operations that leave memory alone. -/

@[simp] theorem Mod.draw_mem : m.draw.2.mem = m.mem := rfl
@[simp] theorem Mod.stampTo_mem (a b : Nat) : (m.stampTo a b).mem = m.mem := by
  obtain ⟨_, e⟩ := m.stampTo_frame a b
  rw [e]
@[simp] theorem Mod.dropLine_mem (k : Nat) : (m.dropLine k).mem = m.mem := rfl
@[simp] theorem Mod.setLine_mem (k : Nat) (l : Line) : (m.setLine k l).mem = m.mem := rfl
@[simp] theorem Mod.touch_mem (k way : Nat) : (m.touch k way).mem = m.mem := rfl
@[simp] theorem Mod.setL1_mem (a k : Nat) (v : L1Line) : (m.setL1 a k v).mem = m.mem := rfl
@[simp] theorem Mod.delL1_mem (a k : Nat) : (m.delL1 a k).mem = m.mem := rfl
@[simp] theorem Mod.setReq_mem (k : Nat) (r : Req) : (m.setReq k r).mem = m.mem := rfl
@[simp] theorem Mod.delReq_mem (a k : Nat) : (m.delReq a k).mem = m.mem := rfl
@[simp] theorem Mod.send_mem (x : Msg) : (m.send x).mem = m.mem := rfl
@[simp] theorem Mod.undead_mem (k : Nat) : (m.undead k).mem = m.mem := rfl
@[simp] theorem Mod.spendBuf_mem (a k : Nat) : (m.spendBuf a k).mem = m.mem := rfl
@[simp] theorem Mod.markGone_mem (a : Nat) : (m.markGone a).mem = m.mem := rfl
@[simp] theorem Mod.allocate_mem (k : Nat) (r : Req) : (m.allocate k r).mem = m.mem := rfl
@[simp] theorem Mod.grant_mem (k : Nat) (a : AgentId) (l : Line) (kd : MsgKind) : (m.grant k a l kd).mem = m.mem := rfl
@[simp] theorem Mod.setDir_mem (k : Nat) (d : Dir) : (m.setDir k d).mem = m.mem := by
  unfold Mod.setDir
  split <;> rfl
@[simp] theorem Mod.setBusy_mem (k : Nat) (t : Txn) : (m.setBusy k t).mem = m.mem := by
  simp only [Mod.setBusy]
  split <;> rfl
@[simp] theorem Mod.clearBusy_mem (k : Nat) : (m.clearBusy k).mem = m.mem := by
  simp only [Mod.clearBusy]
  split <;> rfl
@[simp] theorem Mod.lookup_mem (k cls part : Nat) : (m.lookup k cls part).mem = m.mem := by
  unfold Mod.lookup
  dsimp only
  repeat' split
  all_goals simp
@[simp] theorem Mod.dropDead_mem (k : Nat) : (m.dropDead k).mem = m.mem := by
  simp only [Mod.dropDead]
  repeat' split
  all_goals simp
@[simp] theorem Mod.startFill_mem (k : Nat) (r : List Req) : (m.startFill k r).mem = m.mem := by
  unfold Mod.startFill
  dsimp only
  split <;> simp
@[simp] theorem Mod.fillFor_mem (k : Nat) (r : Req) : (m.fillFor k r).mem = m.mem := by simp [Mod.fillFor]
@[simp] theorem Mod.sendInv_mem (k : Nat) (r : Req) (hs : List AgentId) (kd : MsgKind) : (m.sendInv k r hs kd).mem = m.mem := by
  simp only [Mod.sendInv]
  rw [forEach_keeps Mod.mem (fun _ _ => send_mem ..), setBusy_mem, countBy_mem]
@[simp] theorem Mod.forward_mem (k : Nat) (r : Req) (holder : AgentId) (kd : MsgKind) : (m.forward k r holder kd).mem = m.mem := by
  simp [Mod.forward]
@[simp] theorem Mod.startEvict_mem (v : Nat) : (m.startEvict v).mem = m.mem := by
  simp only [Mod.startEvict]
  repeat' split
  all_goals simp
@[simp] theorem Mod.sendBranch_mem (lacks : List AgentId) (x : Msg) : (m.sendBranch lacks x).mem = m.mem := by
  unfold Mod.sendBranch
  dsimp only
  repeat' split
  all_goals simp
@[simp] theorem Mod.serveFill_mem (k : Nat) (rs : List Req) (lacks : List AgentId) : (m.serveFill k rs lacks).mem = m.mem := by
  simp only [Mod.serveFill]
  split
  · rfl
  · rw [forEach_keeps Mod.mem (fun _ _ => sendBranch_mem ..), setDir_mem]
@[simp] theorem Mod.nackReq_mem (k : Nat) (r : Req) : (m.nackReq k r).mem = m.mem := by
  unfold Mod.nackReq
  dsimp only
  split <;> simp
@[simp] theorem Mod.joinFill_mem (k : Nat) (r : Req) (fills : List Mshr) : (m.joinFill k r fills).mem = m.mem := by
  unfold Mod.joinFill
  dsimp only
  repeat' split
  all_goals simp
@[simp] theorem Mod.loseCopy_mem (a : AgentId) (k : Nat) : (m.loseCopy a k).mem = m.mem := by
  unfold Mod.loseCopy
  dsimp only
  repeat' split
  all_goals simp
@[simp] theorem Mod.forwardAt_mem (x : Msg) : (m.forwardAt x).mem = m.mem := by
  unfold Mod.forwardAt
  dsimp only
  repeat' split
  all_goals simp
@[simp] theorem Mod.nackAt_mem (x : Msg) : (m.nackAt x).mem = m.mem := by
  unfold Mod.nackAt
  dsimp only
  repeat' split
  all_goals simp
@[simp] theorem Mod.hearMsg_mem (x : Msg) : (m.hearMsg x).mem = m.mem := by
  unfold Mod.hearMsg
  repeat' split
  all_goals simp
@[simp] theorem Mod.unhold_mem (k : Nat) : (m.unhold k).mem = m.mem := by
  unfold Mod.unhold
  dsimp only
  rw [forEach_keeps Mod.mem (fun _ _ => send_mem ..), forEach_keeps Mod.mem]
  intro b m
  split <;> rfl

/-! Lines at their controllers (11 R310-R312, R328, R329). -/

@[simp] theorem Mod.updStack_keyGen (i : Nat) (f : Stack → Stack) : (m.updStack i f).mem.keyGen = m.mem.keyGen := rfl
@[simp] theorem Mod.setPoison_keyGen (pa : Nat) (p : Bool) : (m.setPoison pa p).mem.keyGen = m.mem.keyGen := rfl
@[simp] theorem Mod.markLost_keyGen (st pa : Nat) : (m.markLost st pa).mem.keyGen = m.mem.keyGen := rfl
@[simp] theorem Mod.emStore_keyGen (pa k : Nat) (d : LineData) (p : Bool) : (m.emStore pa k d p).mem.keyGen = m.mem.keyGen := by
  simp [Mod.emStore]
@[simp] theorem Mod.emTake_keyGen (pa k : Nat) (d : LineData) (p : Bool) : (m.emTake pa k d p).mem.keyGen = m.mem.keyGen := by
  simp only [Mod.emTake]
  split <;> simp
@[simp] theorem Mod.markStripe_keyGen (v : BitVec 32) (st pa : Nat) : (m.markStripe v st pa).mem.keyGen = m.mem.keyGen := by
  refine (forEach_keeps (fun m => m.mem.keyGen) (fun r m => ?_) _ _).trans (markLost_keyGen ..)
  dsimp only
  split <;> rfl
@[simp] theorem Mod.placeLine_keyGen (pa k : Nat) (d : LineData) (p : Bool) : (m.placeLine pa k d p).mem.keyGen = m.mem.keyGen := by
  have standins (l : List Nat) : (forEach l (fun a m => m.emStore a k d p) m).mem.keyGen = m.mem.keyGen :=
    forEach_keeps (fun m => m.mem.keyGen) (fun _ _ => emStore_keyGen ..) l m
  simp only [Mod.placeLine]
  repeat' split
  all_goals simp [standins]
@[simp] theorem Mod.memWriteLine_keyGen (pa : Nat) (d : LineData) (p : Bool) : (m.memWriteLine pa d p).1.mem.keyGen = m.mem.keyGen := by
  unfold Mod.memWriteLine
  dsimp only
  repeat' split
  all_goals simp
@[simp] theorem Mod.writePoison_keyGen (pa : Nat) : (m.writePoison pa).mem.keyGen = m.mem.keyGen := by
  simp only [Mod.writePoison]
  repeat' split
  all_goals simp
@[simp] theorem Mod.memReadLine_keyGen (pa : Nat) : (m.memReadLine pa .ok .ok 0).2.mem.keyGen = m.mem.keyGen := by
  have uncorrected : (Ecc.ok == Ecc.corrected) = false := rfl
  simp only [Mod.memReadLine, uncorrected, Bool.false_eq_true, if_false]
  repeat' split
  all_goals simp

/-! Lines at their home (06 R188, R191-R193, R205; 18 R513-R516). -/

@[simp] theorem Mod.markDirtyFrame_keyGen (k : Nat) : (m.markDirtyFrame k).mem.keyGen = m.mem.keyGen := by
  simp only [Mod.markDirtyFrame, Mod.putDirtyBit]
  repeat' split
  all_goals simp
@[simp] theorem Mod.lineTake_keyGen (k : Nat) (d : LineData) (p : Bool) : (m.lineTake k d p).1.mem.keyGen = m.mem.keyGen := by
  simp only [Mod.lineTake]
  repeat' split
  all_goals simp
@[simp] theorem Mod.takeData_keyGen (k : Nat) (d : LineData) (p : Bool) : (m.takeData k d p).mem.keyGen = m.mem.keyGen := by
  simp only [Mod.takeData]
  repeat' split
  all_goals simp
@[simp] theorem Mod.backRead_keyGen (pa : Nat) : (m.backRead pa .ok).2.mem.keyGen = m.mem.keyGen := by
  simp only [Mod.backRead]
  split <;> simp
@[simp] theorem Mod.backWrite_keyGen (pa : Nat) (d : LineData) (p : Bool) : (m.backWrite pa d p).mem.keyGen = m.mem.keyGen := by
  simp only [Mod.backWrite, Mod.recall]
  split <;> simp
@[simp] theorem Mod.evictNow_keyGen (k : Nat) : (m.evictNow k).mem.keyGen = m.mem.keyGen := by
  unfold Mod.evictNow
  dsimp only
  repeat' split
  all_goals simp
@[simp] theorem Mod.install_keyGen (k way cls : Nat) (d : LineData) (dirty p : Bool) :
    (m.install k way cls d dirty p).mem.keyGen = m.mem.keyGen := by
  unfold Mod.install
  dsimp only
  split <;> simp
@[simp] theorem Mod.fosterRead_keyGen (k cls : Nat) : (m.fosterRead k cls).2.mem.keyGen = m.mem.keyGen := by simp [Mod.fosterRead]
@[simp] theorem Mod.fosterWrite_keyGen (k cls : Nat) (be : BitVec 128) (d : LineData) :
    (m.fosterWrite k cls be d).1.mem.keyGen = m.mem.keyGen := by
  simp only [Mod.fosterWrite]
  split <;> simp
@[simp] theorem Mod.sliceWrite_keyGen (k : Nat) (be : BitVec 128) (d : LineData) : (m.sliceWrite k be d).1.mem.keyGen = m.mem.keyGen := by
  simp only [Mod.sliceWrite]
  split <;> simp
@[simp] theorem Mod.prepPs_keyGen (k : Nat) : (m.prepPs k).mem.keyGen = m.mem.keyGen := by
  unfold Mod.prepPs
  dsimp only
  repeat' split
  all_goals simp
@[simp] theorem Mod.wayFor_keyGen (k part : Nat) : (m.wayFor k part).2.mem.keyGen = m.mem.keyGen := by
  simp only [Mod.wayFor]
  repeat' split
  all_goals simp

/-! Requests and transactions (07 R227-R240). -/

@[simp] theorem Mod.recordPut_keyGen (k : Nat) (a : AgentId) : (m.recordPut k a).mem.keyGen = m.mem.keyGen := by
  unfold Mod.recordPut
  dsimp only
  repeat' split
  all_goals simp
@[simp] theorem Mod.ncPerform_keyGen (k : Nat) (r : Req) : (m.ncPerform k r).mem.keyGen = m.mem.keyGen := by
  unfold Mod.ncPerform
  dsimp only
  repeat' split
  all_goals simp
@[simp] theorem Mod.admitReq_keyGen (k : Nat) (r : Req) : (m.admitReq k r).mem.keyGen = m.mem.keyGen := by
  unfold Mod.admitReq
  dsimp only
  repeat' split
  all_goals simp
@[simp] theorem Mod.advance_keyGen (k : Nat) (lacks : List AgentId) (n : Nat) : (m.advance k lacks n).mem.keyGen = m.mem.keyGen := by
  induction n generalizing m with
  | zero => rfl
  | succ n ih =>
    have admits (rs : List Req) (m : Mod) : (forEach rs (fun r m => m.admitReq k r) m).mem.keyGen = m.mem.keyGen :=
      forEach_keeps (fun m => m.mem.keyGen) (fun _ _ => admitReq_keyGen ..) rs m
    unfold Mod.advance
    dsimp only
    repeat' split
    all_goals simp [ih, admits]
@[simp] theorem Mod.retryFills_keyGen (set : Nat) : (m.retryFills set).mem.keyGen = m.mem.keyGen :=
  forEach_keeps (fun m => m.mem.keyGen) (fun _ _ => advance_keyGen ..) _ m
@[simp] theorem Mod.reqArrive_keyGen (k : Nat) (r : Req) : (m.reqArrive k r).mem.keyGen = m.mem.keyGen := by
  unfold Mod.reqArrive
  extract_lets stamped write fostered prepared fills tickets q counted
  have hs : stamped.mem = m.mem := by
    simp only [stamped]
    split <;> simp
  have hf : fostered.mem.keyGen = m.mem.keyGen := by
    simp only [fostered]
    repeat' split
    all_goals simp [hs]
  have hp : prepared.mem.keyGen = m.mem.keyGen := by simp only [prepared, prepPs_keyGen, hs]
  have hc : counted.mem.keyGen = m.mem.keyGen := by
    simp only [counted]
    split <;> simp [hp]
  clear_value stamped fostered prepared counted
  repeat' split
  all_goals simp [hs, hf, hp, hc]
@[simp] theorem Mod.finishTxn_keyGen (k : Nat) (t : Txn) : (m.finishTxn k t).mem.keyGen = m.mem.keyGen := by
  simp only [Mod.finishTxn, Mod.concludeTxn, retryFills_keyGen, advance_keyGen]
  repeat' split
  all_goals simp
@[simp] theorem Mod.ackAt_keyGen (k : Nat) (a : AgentId) (data : Option LineData) (p : Bool) :
    (m.ackAt k a data p).mem.keyGen = m.mem.keyGen := by
  unfold Mod.ackAt
  dsimp only
  repeat' split
  all_goals simp
@[simp] theorem Mod.pushAnswer_keyGen (k : Nat) (a : AgentId) (accepted : Bool) : (m.pushAnswer k a accepted).mem.keyGen = m.mem.keyGen := by
  unfold Mod.pushAnswer
  dsimp only
  repeat' split
  all_goals simp
@[simp] theorem Mod.fillLine_keyGen (k : Nat) (lacks : List AgentId) : (m.fillLine k .ok lacks).mem.keyGen = m.mem.keyGen := by
  unfold Mod.fillLine
  dsimp only
  repeat' split
  all_goals simp
@[simp] theorem Mod.admitTicket_keyGen (k : Nat) : (m.admitTicket k).mem.keyGen = m.mem.keyGen := by
  unfold Mod.admitTicket
  dsimp only
  repeat' split
  all_goals simp

/-! What an agent does with a message, and whole accesses (07 Tables 7.4, 7.5). -/

@[simp] theorem Mod.l1Room_keyGen (a : AgentId) (k : Nat) : (m.l1Room a k).mem.keyGen = m.mem.keyGen := by
  simp only [Mod.l1Room, Mod.putCopy]
  repeat' split
  all_goals simp
@[simp] theorem Mod.grantAt_keyGen (x : Msg) (st : L1St) : (m.grantAt x st).mem.keyGen = m.mem.keyGen := by
  unfold Mod.grantAt
  dsimp only
  split <;> simp
@[simp] theorem Mod.pushAt_keyGen (x : Msg) : (m.pushAt x).mem.keyGen = m.mem.keyGen := by
  unfold Mod.pushAt
  dsimp only
  split <;> simp
@[simp] theorem Mod.deliver_keyGen (x : Msg) : (m.deliver x).mem.keyGen = m.mem.keyGen := by
  unfold Mod.deliver
  repeat' split
  all_goals simp
@[simp] theorem Mod.deliverOne_keyGen (p : Msg → Bool) : (m.deliverOne p).mem.keyGen = m.mem.keyGen := by
  unfold Mod.deliverOne
  split <;> simp
@[simp] theorem Mod.settle_keyGen (k n : Nat) : (m.settle k n).mem.keyGen = m.mem.keyGen := by
  induction n generalizing m with
  | zero => rfl
  | succ n ih =>
    unfold Mod.settle
    repeat' split
    all_goals simp [ih]
@[simp] theorem Mod.runReq_keyGen (k : Nat) (r : Req) : (m.runReq k r).mem.keyGen = m.mem.keyGen := by
  unfold Mod.runReq
  dsimp only
  repeat' split
  all_goals simp
@[simp] theorem Mod.ncWrite_keyGen (a : AgentId) (k part cls : Nat) (be : BitVec 128) (d : LineData) (target : Option TileId) :
    (m.ncWrite a k part cls be d target).1.mem.keyGen = m.mem.keyGen := by
  unfold Mod.ncWrite
  dsimp only
  repeat' split
  all_goals simp
@[simp] theorem Mod.physWriteBy_keyGen (a : AgentId) (pa : Nat) (bs : List Byte) (cls : Nat) :
    (m.physWriteBy a pa bs cls).mem.keyGen = m.mem.keyGen :=
  writePieces_keeps (fun m => m.mem.keyGen) (fun _ _ _ => ncWrite_keyGen ..) _ pa bs m
@[simp] theorem Mod.unpin_keyGen (e : Extent) : (m.unpin e false).mem.keyGen = m.mem.keyGen :=
  forEach_keeps (fun m => m.mem.keyGen) (fun _ _ => settle_keyGen ..) _ m

end
end Sys2Proof.Machine
end

section
/-! Partitions, shared regions, multicast sets and migration logs (15): the checks of a partition record, the state of the module, the release of
what a partition had; then the obligation. -/

namespace Sys2Proof.Machine

/-- What every step of a fold keeps true stays true. -/
theorem forEach_invariant {α : Type} {P : Mod → Prop} {f : α → Mod → Mod} (step : ∀ x m, P m → P (f x m)) (l : List α) {m : Mod} (h : P m) :
    P (forEach l f m) := by
  induction l generalizing m with
  | nil => exact h
  | cons x l ih => exact ih (step x m h)

/-- An action that the module serves answers as its own operation does. -/
theorem State.go_perform {s : State} (serves : s.m.serving = true) {f : Mod → Nat × Mod} {es : Nat} {n : Mod} (h : f s.m = (es, n))
    (num : Nat) : (s.go fun m => m.perform num f) = Acts s n num es := by
  rw [State.go_eq, Mod.perform_serving serves, h]
  rfl

/-! Tables read back. -/

theorem Tab.mem_of_find {α : Type} {k : Nat} {v : α} {t : Tab α} (h : Tab.find k t = some v) : (k, v) ∈ t := by
  induction t with
  | nil => cases h
  | cons e r ih =>
    obtain ⟨j, w⟩ := e
    simp only [Tab.find] at h
    split at h
    next same =>
      cases h
      exact same ▸ List.mem_cons_self
    next => exact List.mem_cons_of_mem _ (ih h)

/-- What a table holds after an entry was set is that entry, or stood there before. -/
theorem Tab.eq_or_mem_of_mem_put {α : Type} {k : Nat} {v : α} {t : Tab α} {e : Nat × α} (h : e ∈ t.put k v) : e = (k, v) ∨ e ∈ t := by
  induction t with
  | nil => exact .inl (List.mem_singleton.mp h)
  | cons f r ih =>
    obtain ⟨j, w⟩ := f
    simp only [Tab.put] at h
    split at h
    · exact (List.mem_cons.mp h).imp_right (List.mem_cons_of_mem _)
    · split at h
      · exact List.mem_cons.mp h
      · obtain rfl | h := List.mem_cons.mp h
        · exact .inr List.mem_cons_self
        · exact (ih h).imp_right (List.mem_cons_of_mem _)

/-! Bytes of a number. -/

theorem leNat_drop (l : List Byte) (n : Nat) : leNat (l.drop n) = leNat l / 256 ^ n := by
  induction n generalizing l with
  | zero => simp
  | succ n ih => cases l with
    | nil => simp [leNat]
    | cons b l =>
      have head : (b.toNat + 256 * leNat l) / 256 = leNat l := by have := b.isLt; omega
      rw [List.drop_succ_cons, ih, leNat, Nat.pow_succ', ← Nat.div_div_eq_div_mul, head]

theorem leNat_take (l : List Byte) (n : Nat) : leNat (l.take n) = leNat l % 256 ^ n := by
  induction n generalizing l with
  | zero => simp [leNat, Nat.mod_one]
  | succ n ih => cases l with
    | nil => simp [leNat]
    | cons b l =>
      have low : (b.toNat + 256 * leNat l) % 256 = b.toNat := by have := b.isLt; omega
      have high : (b.toNat + 256 * leNat l) / 256 = leNat l := by have := b.isLt; omega
      rw [List.take_succ_cons, leNat, leNat, ih, Nat.pow_succ', Nat.mod_mul, low, high]

theorem leField_eq (l : List Byte) (off n : Nat) : leField l off n = leNat l / 256 ^ off % 256 ^ n := by
  rw [leField, leNat_take, leNat_drop]

/-! The state of the module (24 R640). -/

/-- While a partition is not NONE a module in service is in SERVICE. -/
theorem Mod.refreshState_service {m : Mod} {p : Nat} (serves : m.serving = true) (held : (m.part p).st ≠ .none) :
    m.refreshState = { m with mod := { m.mod with mstate := 5 } } := by
  have listed : (m.parts.parts.any fun e => e.2.st != .none) = true := by
    cases found : Tab.find p m.parts.parts with
    | none => exact absurd (by rw [Mod.part, Tab.getD, found]; rfl) held
    | some x =>
      have same : m.part p = x := by rw [Mod.part, Tab.getD, found]; rfl
      exact List.any_eq_true.mpr ⟨_, Tab.mem_of_find found, by simpa [← same] using held⟩
  simp only [Mod.refreshState, serves, listed, Bool.not_true, Bool.false_eq_true, if_false, if_true]

/-! Partition records (15 R426, R427, R431). -/

theorem Mod.mem_otherParts {m : Mod} {p : Nat} {e : Nat × Part} (h : e ∈ m.parts.parts) (other : e.1 ≠ p) (held : e.2.st ≠ .none) :
    e.2 ∈ m.otherParts p :=
  List.mem_map_of_mem (List.mem_filter.mpr ⟨h, by simp [other, held]⟩)

/-- A sum of reserved bandwidth is not less than what it starts from and one of its terms. -/
theorem add_le_foldl_bwres {l : List Part} {y : Part} (h : y ∈ l) (b : Nat) : y.bwres + b ≤ l.foldl (fun n y => n + y.bwres) b := by
  have grows (l : List Part) (b : Nat) : b ≤ l.foldl (fun n y => n + y.bwres) b := by
    induction l generalizing b with
    | nil => exact Nat.le_refl b
    | cons x l ih => exact Nat.le_trans (Nat.le_add_right b _) (ih _)
  induction l generalizing b with
  | nil => cases h
  | cons x l ih =>
    obtain rfl | h := List.mem_cons.mp h
    · exact Nat.le_trans (Nat.le_of_eq (Nat.add_comm ..)) (grows l _)
    · exact Nat.le_trans (Nat.add_le_add_left (Nat.le_add_right b _) _) (ih h _)

section
variable {m : Mod} {order : Nat} {r : PartRec} (h : m.partRecOk order r = true)
include h

/-- What a record that may be applied says of itself, of its partition and of the frame of its root. -/
theorem Mod.partRecOk_own : r.clean = true ∧ r.tgmask ≠ 0 ∧ (m.part r.part).st ≠ .disabling ∧ m.tagOf (r.ptroot * 4096) = 0xFE := by
  simp only [Mod.partRecOk, Bool.and_eq_true] at h
  obtain ⟨⟨⟨⟨⟨⟨⟨⟨⟨clean, groups⟩, idle⟩, -⟩, -⟩, -⟩, root⟩, -⟩, -⟩, -⟩ := h
  exact ⟨clean, by simpa using groups, by simpa using idle, by simpa using root⟩

/-- A new partition takes no tile group of another. -/
theorem Mod.partRecOk_groups (new : (m.part r.part).st = .none) {y : Part} (other : y ∈ m.otherParts r.part) : y.tgmask &&& r.tgmask = 0 := by
  simp only [Mod.partRecOk, Bool.and_eq_true, Bool.not_eq_true', List.any_eq_false] at h
  obtain ⟨⟨⟨⟨⟨⟨-, apart⟩, -⟩, -⟩, -⟩, -⟩, -⟩ := h
  simpa [new] using apart y other

/-- A STRICT record has ways, and shares no way, no port and no more than the whole bandwidth with a STRICT partition. -/
theorem Mod.partRecOk_strict (strict : r.strict = true) : r.waymask ≠ 0 ∧ ∀ y ∈ m.otherParts r.part, y.strict = true →
    y.waymask &&& r.waymask = 0 ∧ y.portmask &&& r.portmask = 0 ∧ y.bwres + r.bwres ≤ 48 := by
  simp only [Mod.partRecOk, strict, if_true, Bool.and_eq_true, Bool.not_eq_true', List.any_eq_false, decide_eq_true_eq] at h
  obtain ⟨⟨⟨-, ⟨⟨⟨⟨ways, -⟩, apart⟩, -⟩, bandwidth⟩⟩, -⟩, -⟩ := h
  refine ⟨by simpa using ways, fun y other also => ?_⟩
  have mem : y ∈ (m.otherParts r.part).filter (·.strict) := List.mem_filter.mpr ⟨other, also⟩
  obtain ⟨noWay, noPort⟩ : y.waymask &&& r.waymask = 0 ∧ y.portmask &&& r.portmask = 0 := by simpa using apart y mem
  exact ⟨noWay, noPort, Nat.le_trans (add_le_foldl_bwres mem _) bandwidth⟩

/-- A record that is not STRICT asks for no ports, ways or bandwidth. -/
theorem Mod.partRecOk_shared (shared : r.strict = false) : r.portmask = 0 ∧ r.waymask = 0 ∧ r.bwres = 0 := by
  simp only [Mod.partRecOk, shared, Bool.false_eq_true, if_false, Bool.and_eq_true, beq_iff_eq] at h
  obtain ⟨⟨⟨-, ⟨ports, ways⟩, bandwidth⟩, -⟩, -⟩ := h
  exact ⟨ports, ways, bandwidth⟩

end

/-- The partition of a record, where it was NONE: ACTIVE, with its generation, bitmap and interference kept. -/
def PartRec.fresh (r : PartRec) (x : Part) : Part := {
  st := .active, gen := x.gen, tgmask := r.tgmask, portmask := r.portmask, waymask := r.waymask, bwres := r.bwres,
  strict := r.strict, ptroot := r.ptroot, migB := x.migB, migOvf := x.migOvf, interf := x.interf }

/-- The module with the new partition of a record, its key and its function. -/
def Mod.withFresh (m : Mod) (r : PartRec) : Mod :=
  ((m.updPart r.part r.fresh).updMem fun e => { e with keyGen := e.keyGen.upd r.part 0 (· + 1) }).updFn r.part fun f => { f with disabled := false }

theorem Mod.part_withFresh (m : Mod) (r : PartRec) : (m.withFresh r).part r.part = r.fresh (m.part r.part) := m.part_updPart r.part r.fresh

section
variable {m : Mod} {order : Nat} {blob : List Byte} (len : blob.length = 32)
include len

theorem Mod.partCreate_refused (h : m.partRecOk order (partRec (leNat blob)) = false) : m.partCreate order blob = (esSTATE, m) := by
  simp [Mod.partCreate, len, h]

variable (h : m.partRecOk order (partRec (leNat blob)) = true)
include h

theorem Mod.partCreate_adds (active : (m.part (partRec (leNat blob)).part).st = .active) : m.partCreate order blob =
    (esOK, m.updPart (partRec (leNat blob)).part fun x =>
      { x with tgmask := (partRec (leNat blob)).tgmask, portmask := (partRec (leNat blob)).portmask }) := by
  simp [Mod.partCreate, len, h, active]

theorem Mod.partCreate_creates (serves : m.serving = true) (new : (m.part (partRec (leNat blob)).part).st = .none) :
    m.partCreate order blob = (esOK, let n := m.withFresh (partRec (leNat blob)); { n with mod := { n.mod with mstate := 5 } }) := by
  have held : ((m.withFresh (partRec (leNat blob))).part (partRec (leNat blob)).part).st ≠ .none := by
    rw [Mod.part_withFresh]
    exact PartSt.noConfusion
  have inactive : ((m.part (partRec (leNat blob)).part).st == .active) = false := by rw [new]; rfl
  simp only [Mod.partCreate, len, h, inactive, Bool.not_true, Bool.false_eq_true, if_false, ne_eq, not_true_eq_false]
  exact congrArg _ (Mod.refreshState_service (m := m.withFresh _) serves held)

end

/-! Disabling (15 R428-R431). -/

theorem Mod.partDisable_range (m : Mod) {p : Nat} (h : 128 ≤ p) : m.partDisable p = (esRANGE, m) := by simp [Mod.partDisable, h]
theorem Mod.partDisable_state {m : Mod} {p : Nat} (h : p < 128) (idle : (m.part p).st ≠ .active) : m.partDisable p = (esSTATE, m) := by
  simp [Mod.partDisable, Nat.not_le.mpr h, idle]
theorem Mod.partDisable_active {m : Mod} {p : Nat} (h : p < 128) (active : (m.part p).st = .active) :
    m.partDisable p = (esRUNNING, m.disable p) := by simp [Mod.partDisable, Nat.not_le.mpr h, active]

theorem Mod.part_disable {m : Mod} {p : Nat} (active : (m.part p).st = .active) : (m.disable p).part p =
    { m.part p with st := .disabling, gen := (m.part p).gen + 1, disTick := m.ticks } :=
  (part_of_partsFns (disable_partsFns active) p).trans
    (m.part_updPart p fun x => { x with st := .disabling, gen := x.gen + 1, disTick := m.ticks })
theorem Mod.fn_disable {m : Mod} {p : Nat} (active : (m.part p).st = .active) : (m.disable p).fn p = { m.fn p with disabled := true } :=
  (fn_of_partsFns (disable_partsFns active) p).trans (Mod.fn_updFn _ p _)

/-! What a partition had is released (15 R431). -/

/-- No command of a function is held. -/
def Mod.NoCmdOf (p : PartId) (m : Mod) : Prop := ∀ e ∈ m.host.cmds, e.2.fn ≠ p

namespace Mod.NoCmdOf

variable {p : PartId} {m : Mod}

theorem of_host {n : Mod} (h : n.host = m.host) (free : m.NoCmdOf p) : n.NoCmdOf p := by rwa [Mod.NoCmdOf, h]

/-- A command that is updated stays its function's. -/
theorem updCmd (free : m.NoCmdOf p) (id : Nat) {f : HCmd → HCmd} (same : ∀ c, (f c).fn = c.fn) : (m.updCmd id f).NoCmdOf p := by
  intro e he
  change e ∈ m.host.cmds.adj id f at he
  cases found : Tab.find id m.host.cmds with
  | none => exact free e (Tab.adj_of_none found f ▸ he)
  | some c =>
    rw [Tab.adj_of_find found f] at he
    obtain rfl | he := Tab.eq_or_mem_of_mem_put he
    · exact fun own => free _ (Tab.mem_of_find found) ((same c).symm.trans own)
    · exact free e he

theorem recordCmd (free : m.NoCmdOf p) (id : Nat) : (m.recordCmd id).NoCmdOf p := by
  cases h : m.cmd? id with
  | none => simpa only [Mod.recordCmd, h] using free
  | some c =>
    by_cases full : 65536 ≤ (m.cmdRecords c.iod.val).length
    · exact recordCmd_full h full ▸ free.updCmd id fun _ => rfl
    · obtain ⟨n, -, -, e⟩ := recordCmd_free h (Nat.not_le.mp full)
      have taken := free.updCmd id (f := fun c => { c with recSlot := some n, unrecorded := false }) fun _ => rfl
      rw [e]
      split
      · exact taken
      · exact taken.of_host (host_of_outside (physWriteBy_outside ..))

end Mod.NoCmdOf

@[simp] theorem Mod.recordCmd_keyGen (m : Mod) (id : Nat) : (m.recordCmd id).mem.keyGen = m.mem.keyGen := by
  unfold Mod.recordCmd
  dsimp only
  repeat' split
  all_goals simp

/-- Records are free, and every I/O die records the commands that wait. -/
def Mod.recordAll (m : Mod) : Mod := forEach [0, 1, 2, 3] (fun k m => m.recordWaiting k) m

theorem Mod.recordAll_keyGen (m : Mod) : m.recordAll.mem.keyGen = m.mem.keyGen :=
  forEach_keeps (fun m => m.mem.keyGen) (fun _ _ => forEach_keeps (fun m => m.mem.keyGen) (fun _ _ => recordCmd_keyGen ..) _ _) _ m
theorem Mod.recordAll_hostRest (m : Mod) : m.recordAll.hostRest = m.hostRest :=
  forEach_keeps Mod.hostRest (fun _ _ => recordWaiting_hostRest ..) _ m
theorem Mod.NoCmdOf.recordAll {p : PartId} {m : Mod} (free : m.NoCmdOf p) : m.recordAll.NoCmdOf p :=
  forEach_invariant (fun _ _ h => forEach_invariant (fun _ _ h => h.recordCmd _) _ h) _ free

/-- The host port without the queue pairs, the commands and the retained results of a function. -/
def HostS.without (h : HostS) (p : Nat) : HostS := { h with
  qps := h.qps.keep fun _ q => q.fn.val != p,
  cmds := h.cmds.keep fun _ c => c.fn.val != p,
  retained := h.retained.filter fun r => r.fn.val != p }

theorem ne_of_val_bne {n : Nat} {i j : Fin n} (h : (i.val != j.val) = true) : i ≠ j := fun same => by simp [same] at h

/-- A release ends with the key replaced, then the host port cleared of the function, then records written. -/
theorem Mod.releasePart_ends (m : Mod) (p : Nat) : ∃ n : Mod, n.mem.keyGen = m.mem.keyGen.upd p 0 (· + 1) ∧
    m.releasePart p = (n.updHost fun h => h.without p).recordAll := by
  refine ⟨_, ?_, rfl⟩
  rw [forEach_keeps (fun m => m.mem.keyGen) (fun _ _ => by rw [count_mem])]
  exact congrArg (fun t : Tab Nat => t.upd p 0 (· + 1)) (forEach_keeps (fun m => m.mem.keyGen) (fun _ _ => unpin_keyGen ..) _ m)

theorem Mod.releasePart_releases (m : Mod) (p : PartId) : let x := m.releasePart p.val
    x.mem.keyGen.getD p.val 0 = m.mem.keyGen.getD p.val 0 + 1 ∧ (∀ e ∈ x.host.qps, e.2.fn ≠ p) ∧ (∀ e ∈ x.host.cmds, e.2.fn ≠ p) ∧
      ∀ r ∈ x.host.retained, r.fn ≠ p := by
  obtain ⟨n, key, ends⟩ := m.releasePart_ends p.val
  have rest := (n.updHost fun h => h.without p.val).recordAll_hostRest
  have qps := congrArg HostS.qps rest
  have retained := congrArg HostS.retained rest
  dsimp only [Mod.hostRest] at qps retained
  dsimp only
  rw [ends, Mod.recordAll_keyGen, Mod.updHost_mem, key, qps, retained]
  have free : (n.updHost fun h => h.without p.val).NoCmdOf p := fun e he => ne_of_val_bne (List.mem_filter.mp he).2
  exact ⟨Tab.getD_put_same .., fun e he => ne_of_val_bne (List.mem_filter.mp he).2, free.recordAll,
    fun r hr => ne_of_val_bne (List.mem_filter.mp hr).2⟩

theorem Mod.retirePart_retires (m : Mod) (p : PartId) :
    (∀ e ∈ (m.retirePart p.val).seq.slots, e.2.part ≠ p) ∧ ∀ e ∈ (m.retirePart p.val).seq.extents, e.part ≠ p :=
  ⟨fun _ he => ne_of_val_bne (List.mem_filter.mp he).2, fun _ he => ne_of_val_bne (List.mem_filter.mp he).2⟩

/-! Shared regions (15 R436-R440). -/

section
variable {m : Mod} {blob : List Byte} {n first count : Nat} (len : blob.length = 16)
  (word : leNat blob = n + first * 2 ^ 32 + count * 2 ^ 64) (low : 1 ≤ n) (high : n ≤ 15) (pos : 0 < count) (fits : first + count ≤ 2 ^ 25)
include len word low high pos fits

/-- A record of SHR_SET in range, with its fields taken apart. -/
theorem Mod.shrSet_fields : m.shrSet blob =
    if m.shrState n ≠ 0 ∨ m.mem.frameTag.any (fun e => decide (first ≤ e.1 ∧ e.1 < first + count ∧ e.2.toNat < 128)) then (esSTATE, m)
    else (esOK, ((m.shrKey n).retag first count (0x80 + n)).setShr n (some (1, first, count))) := by
  obtain ⟨number, start, frames⟩ : bits (leNat blob) 7 0 = n ∧ bits (leNat blob) 56 32 = first ∧ bits (leNat blob) 95 64 = count := by
    simp only [bits]
    omega
  obtain ⟨top, middle, bottom⟩ : bits (leNat blob) 127 96 = 0 ∧ bits (leNat blob) 63 57 = 0 ∧ bits (leNat blob) 31 8 = 0 := by
    simp only [bits]
    omega
  have range : ¬ (n = 0 ∨ 15 < n ∨ count = 0 ∨ 2 ^ 25 < first + count) := by omega
  simp only [Mod.shrSet, len, number, start, frames, top, middle, bottom, range, ne_eq, not_true_eq_false, false_or, if_false]

end

section
variable {m : Mod} {n : Nat} (low : 1 ≤ n) (high : n ≤ 15)
include low high

/-- A slot from 1 to 15 is none that the actions refuse. -/
theorem slot_in_range : ¬ (n = 0 ∨ 15 < n) := by omega

theorem Mod.shrSeal_loading {f c : Nat} (h : Tab.find n m.parts.shr = some (1, f, c)) : m.shrSeal n = (esOK, m.setShr n (some (2, f, c))) := by
  simp only [Mod.shrSeal, slot_in_range low high, h, if_false]
theorem Mod.shrSeal_other {st : Fin 3} {f c : Nat} (h : Tab.find n m.parts.shr = some (st, f, c)) (other : st ≠ 1) :
    m.shrSeal n = (esSTATE, m) := by
  simp only [Mod.shrSeal, slot_in_range low high, h, if_false]
  split
  next e =>
    cases e
    exact absurd rfl other
  next => rfl
theorem Mod.shrSeal_free (h : Tab.find n m.parts.shr = none) : m.shrSeal n = (esSTATE, m) := by
  simp only [Mod.shrSeal, slot_in_range low high, h, if_false]
theorem Mod.shrClear_set {st : Fin 3} {f c : Nat} (h : Tab.find n m.parts.shr = some (st, f, c)) :
    m.shrClear n = (esOK, ((m.retag f c 0xFE).shrKey n).setShr n none) := by
  simp only [Mod.shrClear, slot_in_range low high, h, if_false]
theorem Mod.shrClear_free (h : Tab.find n m.parts.shr = none) : m.shrClear n = (esSTATE, m) := by
  simp only [Mod.shrClear, slot_in_range low high, h, if_false]

/-- A repair in range, with its fields taken apart. -/
theorem Mod.shrRepair_fields {h d : List Byte} {line : Nat} (head : h.length = 16) (data : d.length = 128)
    (word : leNat h = n + line * 2 ^ 64) (aligned : line % 128 = 0) (reach : line < 2 ^ 41) : m.shrRepair (h ++ d) =
    if m.shrState n ≠ 2 ∨ (m.tagOf line).toNat ≠ 0x80 + n then (esSTATE, m) else (esOK, m.physWrite line d 7) := by
  obtain ⟨number, place⟩ : bits (leNat h) 7 0 = n ∧ bits (leNat h) 104 64 = line := by
    simp only [bits]
    omega
  obtain ⟨top, bottom⟩ : bits (leNat h) 127 105 = 0 ∧ bits (leNat h) 63 8 = 0 := by
    simp only [bits]
    omega
  have range : ¬ (n = 0 ∨ 15 < n ∨ line % 128 ≠ 0) := by omega
  simp only [Mod.shrRepair, List.take_left' head, List.drop_left' head, List.length_append, head, data, number, place, top, bottom, range,
    ne_eq, not_true_eq_false, false_or, if_false]

end

/-! Multicast sets (15 R445). -/

theorem Mod.mcastSet_sets {h d : List Byte} {k n : Nat} (head : h.length = 8) (low : 1 ≤ n) (high : n ≤ 64) (small : k < 256)
    (data : d.length = 8 * n) (word : leNat h % 65536 = k + n * 256) (m : Mod) (p : Nat) : m.mcastSet p (h ++ d) =
    (esOK, m.updParts fun x => { x with mcast := x.mcast.put (p * 256 + k) ((recordsOf 8 d).map (BitVec.ofNat 64)) }) := by
  have whole : leNat (h ++ d) = leNat h + 256 ^ 8 * leNat d := by rw [leNat_append, head]
  have index : leField (h ++ d) 0 1 = k := by rw [leField_eq, whole]; omega
  have entries : leField (h ++ d) 1 1 = n := by rw [leField_eq, whole]; omega
  have shaped : ¬ (8 + 8 * n < 16 ∨ 8 + 8 * n ≠ 8 + 8 * n) := by omega
  simp only [Mod.mcastSet, index, entries, List.drop_left' head, List.length_append, head, data, shaped, Nat.not_lt.mpr high, if_false]

/-- Settles O38, by the action: creation by `Mod.partRecOk_own` and its like and by `Mod.partCreate_creates`, disabling by `Mod.disable_partsFns`,
shared regions by `Mod.shrSet_fields` and `Mod.shrRepair_fields`, the release by `Mod.releasePart_releases`. -/
theorem partitions : Obligations.Partitions := by
  intro s
  refine ⟨fun serves => ⟨fun blob len => ⟨fun bad => ?refused, fun ok new => ?created, fun ok active => ?added⟩,
    fun p => ⟨fun out => ?range, fun inside idle => ?idle, fun inside active => ?disable⟩,
    fun blob n first count len word low high pos fits => ⟨fun taken => ?taken, fun free untagged => ?set⟩,
    fun n st f c low high found => ⟨fun loading => ?loading, fun other => ?unsealed, ?clear⟩,
    fun n low high found => ⟨?sealFree, ?clearFree⟩,
    fun h d n line head data word low high aligned reach => ⟨fun sealed tag => ?repair, fun unsealed => ?unrepaired⟩,
    fun p h d k n head low high small data word => ?mcast,
    fun p => ?flip⟩, fun p disabling drained => ?done, fun n p => ?release, fun writable p on => ?log⟩
  case refused =>
    refine State.go_perform serves (Mod.partCreate_refused len (Bool.eq_false_iff.mpr fun ok => ?_)) _
    obtain ⟨clean, groups, idle, root⟩ := Mod.partRecOk_own ok
    obtain bad | bad | bad | bad | ⟨shared, bad⟩ | ⟨strict, bad⟩ | ⟨e, he, other, held, new, bad⟩ | ⟨e, he, other, held, strict, also, bad⟩ := bad
    · exact Bool.false_ne_true (bad.symm.trans clean)
    · exact groups bad
    · exact idle bad
    · exact absurd root (by simpa using bad)
    · obtain ⟨ports, ways, bandwidth⟩ := Mod.partRecOk_shared ok shared
      obtain bad | bad | bad := bad
      · exact bad ports
      · exact bad ways
      · exact bad bandwidth
    · exact (Mod.partRecOk_strict ok strict).1 bad
    · exact bad (Mod.partRecOk_groups ok new (Mod.mem_otherParts he other held))
    · obtain ⟨ways, ports, bandwidth⟩ := (Mod.partRecOk_strict ok strict).2 _ (Mod.mem_otherParts he other held) also
      obtain bad | bad | bad := bad
      · exact bad ways
      · exact bad ports
      · exact Nat.not_lt.mpr bandwidth bad
  case created =>
    have own := s.m.part_withFresh (partRec (leNat blob))
    refine ⟨_, State.go_perform serves (Mod.partCreate_creates len ok serves new) _, ?_⟩
    exact ⟨own, congrArg Part.viol own, Tab.getD_put_same .., rfl, rfl, fun q other => s.m.part_updPart_other other _, rfl, rfl⟩
  case added => exact State.go_perform serves (Mod.partCreate_adds len ok active) _
  case range => exact State.go_perform serves (Mod.partDisable_range _ out) _
  case idle => exact State.go_perform serves (Mod.partDisable_state inside idle) _
  case disable =>
    refine ⟨State.go_perform serves (Mod.partDisable_active inside active) _, ?_⟩
    rw [Mod.part_disable active, Mod.fn_disable active]
    exact ⟨rfl, rfl, rfl⟩
  case taken =>
    exact State.go_perform serves ((Mod.shrSet_fields len word low high pos fits).trans (if_pos (.inl taken))) _
  case set =>
    refine State.go_perform serves ((Mod.shrSet_fields len word low high pos fits).trans (if_neg ?_)) _
    rintro (taken | own)
    · exact taken free
    · obtain ⟨e, he, hit⟩ := List.any_eq_true.mp own
      obtain ⟨above, below, tag⟩ := of_decide_eq_true hit
      exact Nat.not_lt.mpr (untagged e he above below) tag
  case loading => exact State.go_perform serves (Mod.shrSeal_loading low high (loading ▸ found)) _
  case unsealed => exact State.go_perform serves (Mod.shrSeal_other low high found other) _
  case clear => exact State.go_perform serves (Mod.shrClear_set low high found) _
  case sealFree => exact State.go_perform serves (Mod.shrSeal_free low high found) _
  case clearFree => exact State.go_perform serves (Mod.shrClear_free low high found) _
  case repair =>
    exact State.go_perform serves ((Mod.shrRepair_fields low high head data word aligned reach).trans (if_neg (by simp [sealed, tag]))) _
  case unrepaired =>
    exact State.go_perform serves ((Mod.shrRepair_fields low high head data word aligned reach).trans (if_pos (.inl unsealed))) _
  case mcast => exact State.go_perform serves (Mod.mcastSet_sets head low high small data word _ _) _
  case flip => exact State.go_perform serves (f := fun m => m.migFlip p.val) rfl _
  case done =>
    simp only [exec_disableDone, execDisableDone, State.go_eq, disabling, drained]
    rfl
  case release =>
    obtain ⟨key, qps, cmds, retained⟩ := n.releasePart_releases p
    exact ⟨key, qps, cmds, retained, n.retirePart_retires p⟩
  case log =>
    simp only [exec_migLogOnWrite, execMigLogOnWrite, State.go_eq, writable, if_true]
    rfl

end Sys2Proof.Machine
end

section
/-! Fabric ports below the packets (16 R448-R457, R480): modes, bring-up, lanes, lasers, quarantine. -/

namespace Sys2Proof.Machine

/-! What counting and events leave of the fabric. -/

section
variable (m : Mod) (num inst n : Nat)

@[simp] theorem Mod.countBy_fab : (m.countBy num inst n).fab = m.fab := by obtain ⟨_, _, e⟩ := m.countBy_frame num inst n; rw [e]
@[simp] theorem Mod.countBy_ticks : (m.countBy num inst n).ticks = m.ticks := by obtain ⟨_, _, e⟩ := m.countBy_frame num inst n; rw [e]
@[simp] theorem Mod.count_fab : (m.count num inst).fab = m.fab := m.countBy_fab num inst 1
@[simp] theorem Mod.count_ticks : (m.count num inst).ticks = m.ticks := m.countBy_ticks num inst 1
@[simp] theorem Mod.port_count (i : Nat) : (m.count num inst).port i = m.port i := by simp only [Mod.port, count_fab]
@[simp] theorem Mod.port_raise (c : BitVec 32) (x y z i : Nat) : (m.raise c x y z).port i = m.port i := rfl

end

theorem Mod.port_updPort_other {i j : Nat} (h : j ≠ i) (m : Mod) (f : Port → Port) : (m.updPort i f).port j = m.port j :=
  Tab.getD_put_other h _ _ _

/-- A port that leaves UP is DOWN for the cause, with no lane in use. -/
@[simp] theorem Mod.port_portDown (m : Mod) (i : Nat) (cause : LinkCause) :
    (m.portDown i cause).port i = { m.port i with state := 1, cause := cause, width := 0 } := port_updPort ..
theorem Mod.port_portDown_other {i j : Nat} (h : j ≠ i) (m : Mod) (cause : LinkCause) : (m.portDown i cause).port j = m.port j :=
  port_updPort_other h ..

/-! Modes (16 R448). -/

section
variable {m : Mod} {order i mode : Nat}

theorem execFabPortMode_writes {s : State} {i : PortId} (writable : s.m.writable = true) (known : mode ≤ 2) :
    exec (.fabPortMode i mode) s = Becomes s (s.m.portMode s.fuse.order.val i.val mode).2 := by
  simp only [exec_fabPortMode, execFabPortMode, State.go_eq, writable, known, decide_true, Bool.and_self, if_true, Becomes]

theorem Mod.portMode_absent (known : mode ≤ 2) (absent : portFitted order i = false) : m.portMode order i mode = (esSTATE, m) := by
  simp [Mod.portMode, Nat.not_lt.mpr known, absent]

/-- A quad takes one port in mode ETH. -/
theorem Mod.portMode_second {j : Nat} (four : j < 4) (other : 4 * (i / 4) + j ≠ i) (fitted : portFitted order (4 * (i / 4) + j) = true)
    (eth : m.parN (pFabPortMode + 4 * (i / 4) + j) = 2) : m.portMode order i 2 = (esSTATE, m) := by
  have taken : ((List.range 4).any fun j => 4 * (i / 4) + j != i && portFitted order (4 * (i / 4) + j) &&
      m.parN (pFabPortMode + 4 * (i / 4) + j) == 2) = true :=
    List.any_eq_true.mpr ⟨j, List.mem_range.mpr four, by simp [other, fitted, eth]⟩
  simp [Mod.portMode, taken]

/-- The module without the bias cut that a port caused (19 R543). -/
def Mod.biasBack (m : Mod) (i : Nat) : Mod :=
  if m.saf.biasCut.getD (i / 4) 32 == i then m.updSaf fun x => { x with biasCut := x.biasCut.del (i / 4) } else m

theorem Mod.parN_biasBack (n : Nat) : (m.biasBack i).parN n = m.parN n := by
  unfold Mod.biasBack
  split <;> rfl

theorem Mod.portMode_accepts (known : mode ≤ 2) (fitted : portFitted order i = true)
    (alone : mode = 2 → ∀ j, j < 4 → 4 * (i / 4) + j ≠ i → m.parN (pFabPortMode + 4 * (i / 4) + j) ≠ 2) :
    let n := m.biasBack i
    m.portMode order i mode = (esOK, if m.parN (pFabPortMode + i) = mode then n.setPar (pFabPortMode + i) mode
      else ((n.setPar (pFabPortMode + i) mode).portDown i .none).updPort i fun p => { p with
        mode := mode, ethHalf := false, removed := [], state := if mode = 0 then 1 else 2 }) := by
  have free : (mode == 2 && (List.range 4).any fun j => 4 * (i / 4) + j != i && portFitted order (4 * (i / 4) + j) &&
      m.parN (pFabPortMode + 4 * (i / 4) + j) == 2) = false := by
    rw [Bool.and_eq_false_imp]
    intro eth
    refine List.any_eq_false.mpr fun j four => ?_
    have := alone (by simpa using eth) j (List.mem_range.mp four)
    simp only [Bool.and_eq_true, bne_iff_ne, beq_iff_eq]
    exact fun ⟨⟨other, _⟩, taken⟩ => this other taken
  have same := m.parN_biasBack (i := i) (pFabPortMode + i)
  simp only [Mod.biasBack] at same
  simp only [Mod.portMode, Nat.not_lt.mpr known, fitted, free, if_false, Bool.not_true, Bool.or_self, Bool.false_eq_true, Mod.biasBack, same]
  by_cases kept : m.parN (pFabPortMode + i) = mode <;> simp [kept]

end

/-! Bring-up (16 R449, R450, R453). -/

/-- The lane that each lit fibre carries, one hexadecimal digit a fibre. -/
def laneMapOf : List (Fin 8) → Nat
  | [] => 0
  | x :: l => x.val + 16 * laneMapOf l

theorem foldl_lanes (lanes : List (Fin 8)) (a n : Nat) :
    (lanes.zipIdx n).foldl (fun a (e : Fin 8 × Nat) => a + e.1.val * 16 ^ e.2) a = a + 16 ^ n * laneMapOf lanes := by
  induction lanes generalizing a n with
  | nil => simp [laneMapOf]
  | cons x l ih =>
    rw [List.zipIdx_cons, List.foldl_cons, ih, laneMapOf]
    ring

theorem laneMapOf_digit {lanes : List (Fin 8)} {k : Nat} (hk : k < lanes.length) : laneMapOf lanes / 16 ^ k % 16 = lanes[k].val := by
  induction lanes generalizing k with
  | nil => cases hk
  | cons x l ih =>
    have small := x.isLt
    rw [laneMapOf]
    cases k with
    | zero => simp only [pow_zero, Nat.div_one, List.getElem_cons_zero]; omega
    | succ k =>
      have rest : (x.val + 16 * laneMapOf l) / 16 = laneMapOf l := by omega
      rw [Nat.pow_succ', ← Nat.div_div_eq_div_mul, rest, ih (by simpa using hk), List.getElem_cons_succ]

/-- A port comes UP with its lanes. -/
def Mod.cameUp (m : Mod) (i : Nat) (lanes : List (Fin 8)) (width : Nat) : Mod :=
  (m.updPort i fun p => { p with
    state := 4, cause := .none, width := width, laneMap := laneMapOf lanes, removed := [], seq := 0,
    drops := 0 }).raise evFabLinkUp i noPart (i + width * 2 ^ 32)

theorem Mod.port_cameUp (m : Mod) (i : Nat) (lanes : List (Fin 8)) (width : Nat) : (m.cameUp i lanes width).port i = { m.port i with
    state := 4, cause := .none, width := width, laneMap := laneMapOf lanes, removed := [], seq := 0, drops := 0 } :=
  (port_raise ..).trans (port_updPort ..)

/-- A port that came up shows its width and its lanes. -/
theorem Mod.cameUp_shows (m : Mod) (i : Nat) (lanes : List (Fin 8)) (width : Nat) :
    ((m.cameUp i lanes width).port i).state = 4 ∧ ((m.cameUp i lanes width).port i).cause = .none ∧
    ((m.cameUp i lanes width).port i).width = width ∧
    ∀ k (hk : k < lanes.length), ((m.cameUp i lanes width).port i).laneMap / 16 ^ k % 16 = lanes[k].val := by
  rw [port_cameUp]
  exact ⟨rfl, rfl, rfl, fun _ hk => laneMapOf_digit hk⟩

/-- The module once a port has accepted its partner. -/
def Mod.accepted (m : Mod) (i : Nat) (c : BitVec 16) (e credit : Nat) : Mod :=
  m.updPort i fun p => { p with
    partner := c, entry := e, credit := min credit (m.parN (pFabPeerCeil + i)), keyGen := p.keyGen + 1, quarantined := false }

section
variable {s : State} {i : PortId} {h : Nat} {c : BitVec 16} {ok : Bool} {lanes : List (Fin 8)} {credit : Nat}
  (nodup : lanes.Nodup) (ready : s.m.mayTrain s.fuse.order.val i.val = true)
include nodup ready

theorem execFabLinkUp_dark (dark : lanes = []) : exec (.fabLinkUp i h c ok lanes credit) s = Becomes s (s.m.portDown i.val .nolight) := by
  subst dark
  simp [execFabLinkUp, lanesOk, ready, Becomes]

theorem execFabLinkUp_eth (lit : lanes ≠ []) (eth : (s.m.port i.val).mode = 2) : exec (.fabLinkUp i h c ok lanes credit) s =
    Becomes s (if lanes.length = 8 ∨ ((s.m.port i.val).ethHalf = true ∧ 4 ≤ lanes.length) then
      s.m.cameUp i.val lanes (if lanes.length = 8 then 8 else 4) else s.m.portDown i.val .train) := by
  simp [execFabLinkUp, lanesOk, nodup, ready, lit, eth, Becomes, Mod.cameUp, foldl_lanes]

theorem execFabLinkUp_narrow (lit : lanes ≠ []) (vfl : (s.m.port i.val).mode = 1) (narrow : vflWidth lanes.length = 0) :
    exec (.fabLinkUp i h c ok lanes credit) s = Becomes s (s.m.portDown i.val .train) := by
  simp [execFabLinkUp, lanesOk, nodup, ready, lit, vfl, narrow, Becomes]

theorem execFabLinkUp_vfl (vfl : (s.m.port i.val).mode = 1) (wide : vflWidth lanes.length ≠ 0) :
    exec (.fabLinkUp i h c ok lanes credit) s = Becomes s (match s.m.allowed h c, ok with
      | some e, true => (s.m.accepted i.val c e credit).cameUp i.val lanes (vflWidth lanes.length)
      | _, _ => (s.m.portDown i.val .auth).count kFabAuthFail (i.val / 8)) := by
  have lit : lanes ≠ [] := fun dark => wide (by rw [dark]; rfl)
  simp only [exec_fabLinkUp, execFabLinkUp, lanesOk, nodup, decide_true, State.goIf_true, ready, Bool.not_true, Bool.false_eq_true, if_false,
    List.isEmpty_iff, lit, vfl, wide, show (1 : Nat) ≠ 2 by decide, Becomes]
  cases s.m.allowed h c with
  | none => rfl
  | some e => cases ok with
    | false => rfl
    | true => simp only [foldl_lanes, pow_zero, Nat.one_mul, Nat.zero_add]; rfl

end

/-- A partner that is accepted has an entry of its identity and module that is valid and not quarantined. -/
theorem Mod.allowed_of_some {m : Mod} {h e : Nat} {c : BitVec 16} (found : m.allowed h c = some e) : m.moduleId ≠ 0 ∧
    ∃ a, (e, a) ∈ m.fab.allow ∧ a.valid = true ∧ a.quar = false ∧ a.idHash = h ∧ a.module = c := by
  simp only [Mod.allowed] at found
  split at found
  next => cases found
  next named =>
    obtain ⟨⟨k, a⟩, hit, rfl⟩ := Option.map_eq_some_iff.mp found
    have fits := List.find?_some hit
    simp only [Bool.and_eq_true, Bool.not_eq_true', beq_iff_eq] at fits
    obtain ⟨⟨⟨valid, clear⟩, hash⟩, claimed⟩ := fits
    exact ⟨named, a, List.mem_of_find?_eq_some hit, valid, clear, hash, claimed⟩

/-! Quads and their laser sources (16 R452). -/

theorem Mod.port_portDown_eq (m : Mod) (i j : Nat) (cause : LinkCause) :
    (m.portDown j cause).port i = if i = j then { m.port i with state := 1, cause := cause, width := 0 } else m.port i := by
  split
  next same => subst same; exact m.port_portDown i cause
  next other => exact m.port_portDown_other other cause

theorem Mod.quadDark_port {j : Nat} (four : j < 4) (m : Mod) (q : Nat) :
    ((m.quadDark q).port (4 * q + j)).state = 1 ∧ ((m.quadDark q).port (4 * q + j)).cause = .nolaser := by
  have cases4 : j = 0 ∨ j = 1 ∨ j = 2 ∨ j = 3 := by omega
  simp only [Mod.quadDark, forEach_cons, forEach_nil, port_portDown_eq, Nat.add_left_cancel_iff]
  obtain rfl | rfl | rfl | rfl := cases4 <;> exact ⟨rfl, rfl⟩

theorem Mod.quadDark_saf (m : Mod) (q : Nat) : (m.quadDark q).saf = m.saf :=
  forEach_keeps (f := fun i m => m.portDown (4 * q + i) .nolaser) Mod.saf (fun _ _ => rfl) _ m

/-! Quarantine (16 R480). -/

/-- A quarantined port is DOWN, and its partner's entry is marked. -/
theorem Mod.quarantine_marks (m : Mod) (i : Nat) : ((m.quarantine i).port i).quarantined = true ∧ ((m.quarantine i).port i).state = 1 ∧
    (m.quarantine i).fab.allow = m.fab.allow.adj (m.port i).entry fun e => { e with quar := true } := by
  simp only [Mod.quarantine, port_raise, port_updPort, port_portDown, true_and]
  rfl

/-- The seventeenth drop within 1 ms quarantines the partner. -/
theorem Mod.portDrop_seventeenth {m : Mod} {i : Nat} (sixteen : (m.port i).drops = 16) (recent : ¬ (m.port i).dropTick + ticksPerMs < m.ticks)
    (k : Nat) : m.portDrop i k = ((m.count k i).updPort i fun p => { p with drops := 17, dropTick := (m.port i).dropTick }).quarantine i := by
  simp only [Mod.portDrop, port_count, sixteen, count_ticks, recent, Nat.reduceEqDiff, or_self, if_false, Nat.reduceAdd, Nat.reduceLT, if_true]
  simp only [Mod.updPort, port_count]

/-- An entry's quarantine is over for it and for every port of it. -/
theorem Mod.quarExpiry_clears {s : State} {e : Nat} {a : Allow} (found : Tab.find e s.m.fab.allow = some a) :
    Completes (exec (.quarExpiry e) s) fun t => Tab.find e t.m.fab.allow = some { a with quar := false } ∧
      ∀ x ∈ t.m.fab.ports, x.2.entry = e → x.2.quarantined = false := by
  refine ⟨_, rfl, ?_, ?_⟩
  · simp only [Mod.updFab, Tab.adj_of_find found, Tab.find_put_same]
  · intro x hx own
    obtain ⟨p, -, rfl⟩ := List.mem_map.mp hx
    by_cases held : (p.2.quarantined && p.2.entry == e) = true
    · rw [if_pos held]
    · rw [if_neg held] at own ⊢
      exact Bool.eq_false_of_not_eq_true fun quar => held (Bool.and_eq_true_iff.mpr ⟨quar, beq_iff_eq.mpr own⟩)

/-- Settles O39, a case for each clause: modes by `Mod.portMode_absent`, `Mod.portMode_second` and `Mod.portMode_accepts`, bring-up by
`execFabLinkUp_vfl` and its like with `Mod.cameUp_shows`, the seventeenth drop by `Mod.portDrop_seventeenth`. -/
theorem fabricPorts : Obligations.FabricPorts := by
  unfold Obligations.FabricPorts
  intro s i
  dsimp only
  refine ⟨fun mode writable known => ⟨fun absent => ?absent, fun j four other fitted eth second => ?second, fun fitted alone => ?fitted⟩,
    fun h c ok lanes credit nodup ready => ?up, fun h c e => Mod.allowed_of_some, fun c fitted on down clear serves => ?retry,
    fun up vfl => ⟨fun lane held => ?lane, ?renew⟩, fun up eth good few => ?eth, fun up n most => ?replay, fun q => ?laser,
    fun sixteen recent k => ?drop, fun e a => Mod.quarExpiry_clears⟩
  case absent => rw [execFabPortMode_writes writable known, Mod.portMode_absent known absent]
  case second =>
    subst second
    rw [execFabPortMode_writes writable known, Mod.portMode_second four other fitted eth]
  case fitted =>
    rw [execFabPortMode_writes writable known, Mod.portMode_accepts known fitted alone]
    exact ⟨fun changed => by rw [if_neg changed]; rfl, fun kept => by rw [if_pos kept]; rfl⟩
  case up =>
    refine ⟨execFabLinkUp_dark nodup ready, fun vfl lit narrow => execFabLinkUp_narrow nodup ready lit vfl narrow,
      fun vfl wide refused => ?_, fun e vfl wide found yes => ?_, fun eth all => ?_, fun eth half four few => ?_, fun eth few lit => ?_⟩
    · rw [execFabLinkUp_vfl nodup ready vfl wide]
      obtain none | rfl := refused
      · rw [none]
      · cases s.m.allowed h c <;> rfl
    · rw [execFabLinkUp_vfl nodup ready vfl wide, found, yes]
      refine ⟨_, rfl, Mod.cameUp_shows .., ?_⟩
      rw [Mod.port_cameUp, Mod.accepted, Mod.port_updPort]
      exact ⟨rfl, rfl, rfl, rfl⟩
    · rw [execFabLinkUp_eth nodup ready (fun dark => by simp [dark] at all) eth, if_pos (.inl all), if_pos all]
      exact ⟨_, rfl, Mod.cameUp_shows ..⟩
    · rw [execFabLinkUp_eth nodup ready (fun dark => by simp [dark] at four) eth, if_pos (.inr ⟨half, four⟩), if_neg (Nat.ne_of_lt few)]
      exact ⟨_, rfl, Mod.cameUp_shows ..⟩
    · rw [execFabLinkUp_eth nodup ready lit eth, if_neg (by omega)]
  case retry =>
    simp only [exec_fabLinkFailRetry, execFabLinkFailRetry, State.go_eq]
    rw [if_neg (by simp [fitted, on, down, clear, serves])]
    rfl
  case lane =>
    simp only [exec_laneRemove, execLaneRemove, State.go_eq, up, vfl, held, bne_self_eq_false, Bool.or_self, Bool.false_eq_true,
      if_false, List.length_cons]
    exact ⟨fun some => by rw [if_neg some]; rfl, fun none => by rw [if_pos none]; rfl⟩
  case renew =>
    simp only [exec_keyRenew, execKeyRenew, State.go_eq, up, vfl, beq_self_eq_true, Bool.and_self, if_true]
    rfl
  case eth =>
    simp only [exec_ethLaneLoss, execEthLaneLoss, laneLossOk, few, decide_true, State.goIf_true, up, eth, bne_self_eq_false, Bool.or_self,
      Bool.false_eq_true, if_false]
    rfl
  case replay =>
    simp only [exec_frameReplay, execFrameReplay, replayOk, most, decide_true, State.goIf_true, up, beq_self_eq_true, if_true]
    rfl
  case laser =>
    refine ⟨_, rfl, ?_, fun j four => Mod.quadDark_port four _ _⟩
    rw [Mod.quadDark_saf, Mod.updSaf, Tab.has, Tab.find_put_same, Option.isSome_some]
  case drop =>
    rw [Mod.portDrop_seventeenth sixteen recent]
    obtain ⟨marked, down, entries⟩ := Mod.quarantine_marks ((s.m.count k i.val).updPort i.val fun x => { x with
      drops := 17, dropTick := (s.m.port i.val).dropTick }) i.val
    refine ⟨marked, down, fun a found => ?_⟩
    rw [entries, Mod.port_updPort, Mod.port_count]
    have same : Tab.find (s.m.port i.val).entry (s.m.count k i.val).fab.allow = some a := by rw [Mod.count_fab]; exact found
    exact (congrArg _ (Tab.adj_of_find same _)).trans (Tab.find_put_same ..)

end Sys2Proof.Machine
end

section
/-! The tables of the fabric (16 R453, R466, R469, R470, R482, R486-R488, 00 R14): fields of records, records applied whole or not at all. -/

namespace Sys2Proof.Machine

/-! Fields of a number (00 R9, R14). -/

theorem testBit_bits (x hi lo j : Nat) : (bits x hi lo).testBit j = (decide (j < hi + 1 - lo) && x.testBit (lo + j)) := by
  rw [bits, Nat.testBit_mod_two_pow, Nat.testBit_div_two_pow, Nat.add_comm j lo]

theorem bits_congr {x y hi lo : Nat} (same : ∀ j, lo ≤ j → j ≤ hi → x.testBit j = y.testBit j) : bits x hi lo = bits y hi lo := by
  refine Nat.eq_of_testBit_eq fun j => ?_
  simp only [testBit_bits]
  by_cases inside : j < hi + 1 - lo
  · rw [same (lo + j) (by omega) (by omega)]
  · simp only [inside, decide_false, Bool.false_and]

/-- A number whose field `hi:lo` is `p`. -/
def putField (x hi lo p : Nat) : Nat := dropField x hi lo + p * 2 ^ lo

section
variable {x hi lo : Nat} (ends : lo ≤ hi)
include ends

theorem dropField_eq : dropField x hi lo = 2 ^ (hi + 1) * (x / 2 ^ (hi + 1)) + x % 2 ^ lo := by
  have split : 2 ^ (hi + 1) = 2 ^ lo * 2 ^ (hi + 1 - lo) := by rw [← Nat.pow_add]; congr 1; omega
  have low := Nat.div_add_mod x (2 ^ lo)
  have field := Nat.div_add_mod (x / 2 ^ lo) (2 ^ (hi + 1 - lo))
  rw [dropField, bits, split, ← Nat.div_div_eq_div_mul]
  refine Nat.sub_eq_of_eq_add ?_
  calc x = 2 ^ lo * (2 ^ (hi + 1 - lo) * (x / 2 ^ lo / 2 ^ (hi + 1 - lo)) + x / 2 ^ lo % 2 ^ (hi + 1 - lo)) + x % 2 ^ lo := by rw [field, low]
    _ = _ := by ring

theorem testBit_putField {p : Nat} (fits : p < 2 ^ (hi + 1 - lo)) (j : Nat) :
    (putField x hi lo p).testBit j = if lo ≤ j ∧ j ≤ hi then p.testBit (j - lo) else x.testBit j := by
  have low : x % 2 ^ lo < 2 ^ lo := Nat.mod_lt _ (Nat.two_pow_pos lo)
  have below : 2 ^ lo * p + x % 2 ^ lo < 2 ^ (hi + 1) := by
    have split : 2 ^ (hi + 1) = 2 ^ lo * 2 ^ (hi + 1 - lo) := by rw [← Nat.pow_add]; congr 1; omega
    rw [split]
    exact Nat.lt_of_lt_of_le (Nat.add_lt_add_left low _) (Nat.mul_succ .. ▸ Nat.mul_le_mul_left _ fits)
  have shape : putField x hi lo p = 2 ^ (hi + 1) * (x / 2 ^ (hi + 1)) + (2 ^ lo * p + x % 2 ^ lo) := by
    rw [putField, dropField_eq ends]
    ring
  rw [shape, Nat.testBit_two_pow_mul_add _ below, Nat.testBit_two_pow_mul_add _ low, Nat.testBit_mod_two_pow, Nat.testBit_div_two_pow]
  by_cases above : hi < j
  · rw [if_neg (by omega), if_neg (by omega), Nat.sub_add_cancel (by omega)]
  · by_cases under : j < lo
    · rw [if_pos (by omega), if_pos under, if_neg (by omega), decide_eq_true under, Bool.true_and]
    · rw [if_pos (by omega), if_neg under, if_pos (by omega)]

end

theorem dropField_eq_putField (x hi lo : Nat) : dropField x hi lo = putField x hi lo 0 := by rw [putField, Nat.zero_mul, Nat.add_zero]

section
variable {x hi lo p h l : Nat} (ends : lo ≤ hi)
include ends

theorem bits_putField_same (fits : p < 2 ^ (hi + 1 - lo)) : bits (putField x hi lo p) hi lo = p := by
  refine Nat.eq_of_testBit_eq fun j => ?_
  rw [testBit_bits, testBit_putField ends fits]
  by_cases inside : j < hi + 1 - lo
  · rw [if_pos (by omega), Nat.add_sub_cancel_left, decide_eq_true inside, Bool.true_and]
  · rw [decide_eq_false inside, Bool.false_and]
    exact (Nat.testBit_lt_two_pow (Nat.lt_of_lt_of_le fits (Nat.pow_le_pow_right two_pos (by omega)))).symm

theorem bits_putField_other (fits : p < 2 ^ (hi + 1 - lo)) (apart : h < lo ∨ hi < l) : bits (putField x hi lo p) h l = bits x h l :=
  bits_congr fun j _ _ => by rw [testBit_putField ends fits, if_neg (by omega)]

theorem bits_dropField_same : bits (dropField x hi lo) hi lo = 0 := by
  rw [dropField_eq_putField, bits_putField_same ends (Nat.two_pow_pos _)]

theorem bits_dropField_other (apart : h < lo ∨ hi < l) : bits (dropField x hi lo) h l = bits x h l := by
  rw [dropField_eq_putField, bits_putField_other ends (Nat.two_pow_pos _) apart]

theorem putField_lt {n : Nat} (fits : p < 2 ^ (hi + 1 - lo)) (inside : hi < n) (small : x < 2 ^ n) : putField x hi lo p < 2 ^ n := by
  refine Nat.lt_pow_two_of_testBit _ fun j above => ?_
  rw [testBit_putField ends fits, if_neg (by omega)]
  exact Nat.testBit_lt_two_pow (Nat.lt_of_lt_of_le small (Nat.pow_le_pow_right two_pos above))

end

theorem dropField_le (x hi lo : Nat) : dropField x hi lo ≤ x := Nat.sub_le ..

/-! A window's entry (16 Table 16.6). -/

/-- A window's entry with its owner in PART and its reserved fields zero, whatever its KIND. -/
def ownedEntry (e p : Nat) : Nat := putField (dropField (dropField e 159 152) 35 0) 151 145 p

theorem winEntry_eq (e p : Nat) :
    winEntry e p = if 4 ≤ bits (ownedEntry e p) 130 128 then dropField (ownedEntry e p) 130 128 else ownedEntry e p := rfl

section
variable {e p : Nat} (owner : p < 128)
include owner

theorem bits_ownedEntry {h l : Nat} (part : h < 145 ∨ 151 < l) (reserved : h < 152 ∨ 159 < l) (low : 35 < l) :
    bits (ownedEntry e p) h l = bits e h l := by
  rw [ownedEntry, bits_putField_other (by omega) owner part, bits_dropField_other (by omega) (.inr low), bits_dropField_other (by omega) reserved]

/-- A field that neither the device owns nor a reserved KIND shares is kept. -/
theorem bits_winEntry {h l : Nat} (part : h < 145 ∨ 151 < l) (reserved : h < 152 ∨ 159 < l) (low : 35 < l) (kind : h < 128 ∨ 130 < l) :
    bits (winEntry e p) h l = bits e h l := by
  rw [winEntry_eq]
  split
  · rw [bits_dropField_other (by omega) kind, bits_ownedEntry owner part reserved low]
  · exact bits_ownedEntry owner part reserved low

/-- The entry in force: the owner in PART, reserved bits zero, a reserved KIND OFF. -/
theorem winEntry_fields (small : e < 2 ^ 256) : winEntry e p < 2 ^ 256 ∧ bits (winEntry e p) 151 145 = p ∧
    bits (winEntry e p) 159 152 = 0 ∧ bits (winEntry e p) 35 0 = 0 ∧
    bits (winEntry e p) 130 128 = if bits e 130 128 < 4 then bits e 130 128 else 0 := by
  have bound : ownedEntry e p < 2 ^ 256 :=
    putField_lt (by omega) owner (by omega) (Nat.lt_of_le_of_lt (Nat.le_trans (dropField_le ..) (dropField_le ..)) small)
  have part : bits (ownedEntry e p) 151 145 = p := bits_putField_same (by omega) owner
  have reserved : bits (ownedEntry e p) 159 152 = 0 := by
    rw [ownedEntry, bits_putField_other (by omega) owner (.inr (by omega)), bits_dropField_other (by omega) (.inr (by omega)),
      bits_dropField_same (by omega)]
  have low : bits (ownedEntry e p) 35 0 = 0 := by
    rw [ownedEntry, bits_putField_other (by omega) owner (.inl (by omega)), bits_dropField_same (by omega)]
  have kind : bits (ownedEntry e p) 130 128 = bits e 130 128 := bits_ownedEntry owner (.inl (by omega)) (.inl (by omega)) (by omega)
  rw [winEntry_eq, kind]
  split
  next off =>
    rw [if_neg (Nat.not_lt.mpr off), bits_dropField_other (by omega) (.inr (by omega)), bits_dropField_other (by omega) (.inr (by omega)),
      bits_dropField_other (by omega) (.inl (by omega)), bits_dropField_same (by omega)]
    exact ⟨Nat.lt_of_le_of_lt (dropField_le ..) bound, part, reserved, low, rfl⟩
  next known => exact ⟨bound, part, reserved, low, by rw [if_pos (Nat.not_le.mp known), kind]⟩

end

/-! Records (16 R453, R486, R487). -/

theorem leNat_lt (l : List Byte) : leNat l < 256 ^ l.length := by
  have whole := leNat_take l l.length
  rw [List.take_length] at whole
  exact whole ▸ Nat.mod_lt _ (Nat.pow_pos (by decide))

section
variable {m : Mod} {f : Nat → Mod → Option Mod}

theorem Mod.applyAll_one (r : Nat) : m.applyAll [r] f = match f r m with
    | none => (esSTATE, m)
    | some n => (esOK, n) := rfl

theorem foldl_bind_none (l : List Nat) : l.foldl (fun (a : Option Mod) r => a.bind (f r)) none = none := by
  induction l with
  | nil => rfl
  | cons r l ih => exact ih

/-- One record that no module takes, and none of them is applied. -/
theorem Mod.applyAll_refused {rs : List Nat} {r : Nat} (h : r ∈ rs) (bad : ∀ n, f r n = none) : m.applyAll rs f = (esSTATE, m) := by
  suffices none : ∀ a : Option Mod, rs.foldl (fun (a : Option Mod) r => a.bind (f r)) a = none by rw [Mod.applyAll, none]
  induction rs with
  | nil => cases h
  | cons x rs ih =>
    intro a
    obtain rfl | h := List.mem_cons.mp h
    · cases a with
      | none => exact foldl_bind_none rs
      | some n => rw [List.foldl_cons, Option.bind_some, bad, foldl_bind_none]
    · exact ih h _

end

/-! The allow list (16 R453, Table 16.3). -/

theorem Mod.fabAllowSet_one {m : Mod} {blob : List Byte} (len : blob.length = 48) : m.fabAllowSet blob = match m.allowPut (leNat blob) with
    | none => (esSTATE, m)
    | some n => (esOK, n) := by
  simp only [Mod.fabAllowSet, len, recordsOf_one (by decide) len, Mod.applyAll_one]
  rfl

/-- The place of a record: that of the entry of its identity, else the lowest free one. -/
theorem Mod.allowPut_places {m : Mod} {r i : Nat} (valid : r.testBit 63 = true)
    (place : ((∃ e ∈ m.fab.allow, e.2.idHash = bits r 383 128) ∧ ∀ e ∈ m.fab.allow, e.2.idHash = bits r 383 128 → e.1 = i) ∨
      ((∀ e ∈ m.fab.allow, e.2.idHash ≠ bits r 383 128) ∧ i < 4096 ∧ m.fab.allow.has i = false ∧ ∀ j < i, m.fab.allow.has j = true)) :
    ∃ n, m.allowPut r = some n ∧ Tab.find i n.fab.allow = some (allowOf r) := by
  have found : (((m.fab.allow.find? fun x => x.2.idHash == bits r 383 128).map Prod.fst).or
      ((List.range 4096).find? fun i => !(m.fab.allow.has i))) = some i := by
    obtain ⟨⟨e, he, hash⟩, only⟩ | ⟨new, room, free, low⟩ := place
    · cases hit : m.fab.allow.find? fun x => x.2.idHash == bits r 383 128 with
      | none => exact absurd (beq_iff_eq.mpr hash) (List.find?_eq_none.mp hit e he)
      | some x =>
        have own := only x (List.mem_of_find?_eq_some hit) (beq_iff_eq.mp (List.find?_some hit :))
        simp [own]
    · have none : m.fab.allow.find? (fun x => x.2.idHash == bits r 383 128) = none :=
        List.find?_eq_none.mpr fun e he hash => new e he (beq_iff_eq.mp hash)
      rw [none, Option.map_none, Option.none_or, List.find?_range_eq_some]
      exact ⟨by simp [free], List.mem_range.mpr room, fun j hj => by simp [low j hj]⟩
  simp only [Mod.allowPut, allowOf, found, valid, if_true]
  exact ⟨_, rfl, Tab.find_put_same ..⟩

/-! Routes (16 R486, Table 16.13). -/

/-- One record of a route. -/
def Mod.routePut (m : Mod) (order r : Nat) : Option Mod :=
  let id := bits r 63 48
  let pv := r.testBit 15
  let av := r.testBit 7
  if bits r 47 16 ≠ 0 ∨ bits r 14 13 ≠ 0 ∨ bits r 6 5 ≠ 0 ∨ id = 0 ∨ id = 0xFFFF ∨ (av ∧ !pv) ∨
      (pv ∧ !(portFitted order (bits r 12 8))) ∨ (av ∧ !(portFitted order (bits r 4 0))) then none
  else if pv then
    let x : Route := ⟨Fin.ofNat 32 (bits r 12 8), if av then some (Fin.ofNat 32 (bits r 4 0)) else none⟩
    some (m.updFab fun b => { b with routes := b.routes.put id x })
  else some (m.updFab fun b => { b with routes := b.routes.del id })

theorem Mod.fabRouteSet_eq (m : Mod) (order : Nat) (blob : List Byte) : m.fabRouteSet order blob =
    if blob.length % 8 ≠ 0 ∨ blob.length = 0 ∨ 1024 < blob.length then (esTYPE, m)
    else m.applyAll (recordsOf 8 blob) fun r m => m.routePut order r := rfl

theorem Mod.fabRouteSet_one {m n : Mod} {order : Nat} {blob : List Byte} (len : blob.length = 8)
    (taken : m.routePut order (leNat blob) = some n) : m.fabRouteSet order blob = (esOK, n) := by
  simp [fabRouteSet_eq, len, recordsOf_one _ len, applyAll_one, taken]

/-- The record of a route by port `pri`, with an alternate port where `av` says so; without `pv` it takes the route away. -/
def routeWord (id : Nat) (pv : Bool) (pri : PortId) (av : Bool) (alt : PortId) : Nat :=
  id * 2 ^ 48 + b2n pv * 2 ^ 15 + pri.val * 2 ^ 8 + b2n av * 2 ^ 7 + alt.val

theorem b2n_le (b : Bool) : b2n b ≤ 1 := by cases b <;> decide

theorem testBit_of_div_mod {x i : Nat} {b : Bool} (h : x / 2 ^ i % 2 = b2n b) : x.testBit i = b := by
  rw [Nat.testBit_eq_decide_div_mod_eq, h]
  cases b <;> rfl

theorem routeWord_fields {id : Nat} (last : id < 65535) (pv av : Bool) (pri alt : PortId) : let r := routeWord id pv pri av alt
    bits r 63 48 = id ∧ bits r 47 16 = 0 ∧ bits r 14 13 = 0 ∧ bits r 6 5 = 0 ∧ bits r 12 8 = pri.val ∧ bits r 4 0 = alt.val ∧
    r.testBit 15 = pv ∧ r.testBit 7 = av := by
  have hpv := b2n_le pv
  have hav := b2n_le av
  have hpri := pri.isLt
  have halt := alt.isLt
  simp only [routeWord, bits, Nat.reducePow, Nat.reduceAdd, Nat.reduceSub]
  refine ⟨?_, ?_, ?_, ?_, ?_, ?_, testBit_of_div_mod ?_, testBit_of_div_mod ?_⟩ <;> omega

theorem Mod.routePut_word {m : Mod} {order id : Nat} {pv av : Bool} {pri alt : PortId} (first : 1 ≤ id) (last : id < 65535)
    (fitted : pv = true → portFitted order pri.val = true) (also : av = true → pv = true ∧ portFitted order alt.val = true) :
    m.routePut order (routeWord id pv pri av alt) = some (m.updFab fun b => { b with
      routes := if pv then b.routes.put id ⟨pri, if av then some alt else none⟩ else b.routes.del id }) := by
  obtain ⟨hid, high, mid, low, hpri, halt, hpv, hav⟩ := routeWord_fields last pv av pri alt
  simp only [routePut, hid, high, mid, low, hpri, halt, hpv, hav]
  rw [if_neg]
  · cases pv <;> simp
  · rintro (bad | bad | bad | bad | bad | ⟨on, bad⟩ | ⟨on, bad⟩ | ⟨on, bad⟩)
    · exact bad rfl
    · exact bad rfl
    · exact bad rfl
    · exact Nat.not_lt.mpr first (bad ▸ Nat.one_pos)
    · omega
    · simp [(also on).1] at bad
    · simp [fitted on] at bad
    · simp [(also on).2] at bad

theorem Mod.routePut_reserved {r : Nat} (bad : bits r 63 48 = 0 ∨ bits r 47 16 ≠ 0) (m : Mod) (order : Nat) : m.routePut order r = none := by
  rw [routePut, if_pos]
  obtain bad | bad := bad
  · exact .inr (.inr (.inr (.inl bad)))
  · exact .inl bad

/-! Groups (16 R470, Table 16.7). -/

section
variable {m : Mod} {blob : List Byte} (len : blob.length = 32)
include len

theorem Mod.fabGroupSet_one : let r := leNat blob
    let g := bits r 15 0
    m.fabGroupSet blob = if 8 < bits r 111 108 ∨ (∃ x, Tab.find g m.fab.groups = some x ∧ x.cur ≠ none) ∨
        (Tab.find g m.fab.groups = none ∧ 1024 ≤ m.fab.groups.length) then (esSTATE, m)
      else (esOK, m.updFab fun b => { b with groups := b.groups.put g { entry := BitVec.ofNat 256 (r - bits r 74 16 * 2 ^ 16) } }) := by
  simp only [Mod.fabGroupSet, len, recordsOf_one (by decide) len, Mod.applyAll_one]
  cases found : Tab.find (bits (leNat blob) 15 0) m.fab.groups with
  | none =>
    by_cases bad : 8 < bits (leNat blob) 111 108 ∨ 1024 ≤ m.fab.groups.length <;> simp [bad, dropField]
  | some x => cases runs : x.cur with
    | none => by_cases bad : 8 < bits (leNat blob) 111 108 <;> simp [bad, runs, dropField]
    | some c => simp [runs]

/-! Windows and remote keys (16 R466, R469, R488). -/

/-- One record of a remote key. -/
def Mod.rkeyPut (m : Mod) (p r : Nat) : Mod := m.updFab fun b => { b with
  rkeys := b.rkeys.put (p * 2 ^ 24 + bits r 127 104) ⟨BitVec.ofNat 64 (bits r 255 192), BitVec.ofNat 64 (bits r 191 128)⟩ }

theorem Mod.fabRkeySet_one (p : Nat) (clear : bits (leNat blob) 102 0 = 0) (valid : (leNat blob).testBit 103 = true) :
    let n := m.rkeyPut p (leNat blob)
    m.fabRkeySet p blob = if m.parN (pFabRkeyQuota + p) < (n.fab.rkeys.filter fun e => e.1 / 2 ^ 24 == p).length then (esSTATE, m) else (esOK, n) := by
  simp only [Mod.fabRkeySet, len, recordsOf_one (by decide) len, Mod.applyAll_one, clear, valid]
  rfl

end

theorem Mod.fabWinSet_word {m : Mod} {p w : Nat} {h d : List Byte} (head : h.length = 8) (data : d.length = 32) (word : leNat h = w) (few : w ≤ 255) :
    m.fabWinSet p (h ++ d) = if m.winOwner w ≠ some p then (esSTATE, m)
      else (esOK, m.updFab fun b => { b with windows := b.windows.put w (BitVec.ofNat 256 (winEntry (leNat d) p)) }) := by
  have number : leField (h ++ d) 0 8 = w := by rw [leField, List.drop_zero, ← head, List.take_left, word]
  have entry : (h ++ d).drop 8 = d := by rw [← head, List.drop_left]
  simp only [Mod.fabWinSet, number, entry, List.length_append, head, data, Nat.not_lt.mpr few]
  rfl

/-! Ethernet queue pairs (16 R482, R487, Table 16.14). -/

theorem Mod.fabEthQpSet_one {m n : Mod} {blob : List Byte} (len : blob.length = 64) (taken : m.ethBind (leNat blob) = some n) :
    m.fabEthQpSet blob = (esOK, n) := by
  simp [fabEthQpSet, len, recordsOf_one _ len, applyAll_one, taken]

section
variable {m : Mod} {r : Nat} (eth : (m.port (bits r 416 412)).mode = 2)
include eth

theorem Mod.ethBind_removes (gone : r.testBit 474 = true) : let k := ethKey (bits r 416 412) (bits r 135 112)
    m.ethBind r = some ((m.ethFail k).updFab fun b => { b with eth := b.eth.del k }) := by
  simp only [ethBind, eth, gone, ne_eq, not_true, if_false, if_true]

theorem Mod.ethBind_binds (bind : r.testBit 474 = false) (own : ¬ (bits r 394 384 ≠ 0 ∨ bits r 111 0 ≠ 0 ∨
      m.fab.eth.has (ethKey (bits r 416 412) (bits r 135 112)) ∨ bits r 511 496 < 0xF000 ∨ bits r 511 496 = 0xFFFF ∨
      m.fab.eth.any (fun e => e.2.f 511 496 == bits r 511 496) ∨
      !(m.ownsSem (bits r 423 417) (m.nameSem (bits r 423 417) (bits r 495 480))) ∨ bits r 479 475 < 4 ∨ 16 < bits r 479 475 ∨
      bits r 473 472 = 3 ∨ bits r 471 424 % 8 ≠ 0 ∨ 1024 ≤ (m.fab.eth.filter fun e => e.1 / 2 ^ 24 == bits r 416 412).length)) :
    m.ethBind r = some (m.updFab fun b => { b with eth := b.eth.put (ethKey (bits r 416 412) (bits r 135 112)) {
      bind := BitVec.ofNat 512 r, spsn := BitVec.ofNat 24 (bits r 183 160), rpsn := BitVec.ofNat 24 (bits r 207 184) } }) := by
  simp only [ethBind, eth, bind, ne_eq, not_true, if_false, Bool.false_eq_true]
  exact if_neg own

end

/-- Settles O40, a case for each table: the place of a record by `Mod.allowPut_places`, routes by `Mod.routePut_word`, a refused record by
`Mod.applyAll_refused`, the fields of a window's entry by `winEntry_fields` and `bits_winEntry`. -/
theorem fabricTables : Obligations.FabricTables := by
  unfold Obligations.FabricTables
  intro s serves
  refine ⟨fun blob len => ⟨fun n taken => ?allow, fun none => ?refused, fun i valid place => ?place⟩,
    fun blob id pri len first last fitted => ⟨fun word => ?primary, fun alt also word => ?both, fun word => ?removed⟩,
    fun blob whole some most ⟨r, hr, bad⟩ => ?reserved, fun blob len => ⟨fun few idle room => ?group, fun bad => ?busy⟩,
    fun p h d w head data word few => ⟨fun own => ?window, fun other => ?other⟩,
    fun p blob len clear valid => ⟨fun within => ?key, fun beyond => ?quota⟩,
    fun blob len eth => ⟨fun bind bits394 bits111 new low high fresh sem small large four aligned room => ?bind, fun gone => ?unbind⟩⟩
  case allow => exact State.go_perform serves (by rw [Mod.fabAllowSet_one len, taken]) _
  case refused => exact State.go_perform serves (by rw [Mod.fabAllowSet_one len, none]) _
  case place =>
    obtain ⟨n, taken, found⟩ := Mod.allowPut_places valid place
    refine ⟨_, State.go_perform serves (f := fun m => m.fabAllowSet blob) (by rw [Mod.fabAllowSet_one len, taken]) _, ?_⟩
    exact found.trans (by rw [allowOf, valid])
  case primary =>
    have taken := Mod.routePut_word (m := s.m) (pv := true) (av := false) (alt := 0) first last (fun _ => fitted) (fun no => by cases no)
    exact State.go_perform serves (Mod.fabRouteSet_one len ((congrArg _ (word.trans (by simp [routeWord, b2n]))).trans taken)) _
  case both =>
    have taken := Mod.routePut_word (m := s.m) (pv := true) (av := true) first last (fun _ => fitted) (fun _ => ⟨rfl, also⟩)
    exact State.go_perform serves (Mod.fabRouteSet_one len ((congrArg _ (word.trans (by simp [routeWord, b2n]))).trans taken)) _
  case removed =>
    have taken := Mod.routePut_word (m := s.m) (order := s.fuse.order.val) (pv := false) (pri := 0) (av := false) (alt := 0) first last
      (fun no => by cases no) (fun no => by cases no)
    exact State.go_perform serves (Mod.fabRouteSet_one len ((congrArg _ (word.trans (by simp [routeWord, b2n]))).trans taken)) _
  case reserved =>
    refine State.go_perform serves ?_ _
    rw [Mod.fabRouteSet_eq, if_neg (by simp [whole, some, Nat.not_lt.mpr most]), Mod.applyAll_refused hr (fun n => n.routePut_reserved bad _)]
  case group =>
    refine State.go_perform serves ((Mod.fabGroupSet_one len).trans (if_neg ?_)) _
    rintro (many | ⟨x, found, runs⟩ | ⟨new, full⟩)
    · exact Nat.not_lt.mpr few many
    · exact runs (idle x found)
    · exact Nat.not_lt.mpr full (room new)
  case busy => exact State.go_perform serves ((Mod.fabGroupSet_one len).trans (if_pos bad)) _
  case window =>
    have bound : leNat d < 2 ^ 256 := (leNat_lt d).trans_eq (by rw [data]; norm_num)
    obtain ⟨small, part, high, low, kind⟩ := winEntry_fields p.isLt bound
    refine ⟨_, small, part, high, low, bits_winEntry p.isLt ?_ ?_ ?_ ?_, bits_winEntry p.isLt ?_ ?_ ?_ ?_, bits_winEntry p.isLt ?_ ?_ ?_ ?_, kind,
      State.go_perform serves ((Mod.fabWinSet_word head data word few).trans (if_neg (not_not_intro own))) _⟩
    all_goals omega
  case other => exact State.go_perform serves ((Mod.fabWinSet_word head data word few).trans (if_pos other)) _
  case key => exact State.go_perform serves ((Mod.fabRkeySet_one len p.val clear valid).trans (if_neg (Nat.not_lt.mpr within))) _
  case quota => exact State.go_perform serves ((Mod.fabRkeySet_one len p.val clear valid).trans (if_pos beyond)) _
  case bind =>
    refine State.go_perform serves (Mod.fabEthQpSet_one len (Mod.ethBind_binds eth bind ?_)) _
    rintro (bad | bad | bad | bad | bad | bad | bad | bad | bad | bad | bad | bad)
    · exact bad bits394
    · exact bad bits111
    · exact Bool.false_ne_true (new.symm.trans bad)
    · exact Nat.not_lt.mpr low bad
    · exact high bad
    · obtain ⟨e, he, same⟩ := List.any_eq_true.mp bad
      exact fresh e he (beq_iff_eq.mp same)
    · simp [sem] at bad
    · exact Nat.not_lt.mpr small bad
    · exact Nat.not_lt.mpr large bad
    · exact four bad
    · exact bad aligned
    · exact Nat.not_lt.mpr bad room
  case unbind => exact State.go_perform serves (Mod.fabEthQpSet_one len (Mod.ethBind_removes eth gone)) _

end Sys2Proof.Machine
end

section
/-! Packets at a port (16 R457, R459, R462, R465, R466, R480): what a port drops, sends on, checks and gives to the module. -/

namespace Sys2Proof.Machine

/-! What the count of a packet's bytes leaves. -/

section
variable (m : Mod) (p : Packet)

theorem Mod.admitted_frame : ∃ t q, m.admitted p = { m with ctr := t, kod := { m.kod with evq := m.kod.evq ++ q } } := m.countBy_frame ..

@[simp] theorem Mod.admitted_moduleId : (m.admitted p).moduleId = m.moduleId := by obtain ⟨_, _, e⟩ := m.admitted_frame p; rw [e]; rfl
@[simp] theorem Mod.admitted_strictPort (i : Nat) : (m.admitted p).strictPort i = m.strictPort i := by
  obtain ⟨_, _, e⟩ := m.admitted_frame p
  rw [e]
  rfl
@[simp] theorem Mod.admitted_transitPort (order src dst : Nat) : (m.admitted p).transitPort order src dst = m.transitPort order src dst := by
  obtain ⟨_, _, e⟩ := m.admitted_frame p
  rw [e]
  rfl

end

/-! Admission (16 R457, R465, R480). -/

section
variable {m : Mod} {order type : Nat} {p : Packet} {f : Mod → Mod}

theorem Mod.ingress_down (down : (m.port p.port.val).state ≠ 4 ∨ (m.port p.port.val).mode ≠ 1) : m.ingress order type p f = m := by
  rw [ingress, if_pos (by simpa using down)]

/-- What a port that is UP does with a packet, in the order of its checks. -/
theorem Mod.ingress_up (up : (m.port p.port.val).state = 4) (vfl : (m.port p.port.val).mode = 1) : m.ingress order type p f =
    if p.credit = false then m.portDrop p.port.val kFabCreditViol
    else if p.malformed = true ∨ lenOk type p = false then m.portDrop p.port.val kFabMalformed
    else if m.quarSrc p.src = true then m
    else if m.srcOk p.port.val p.src = false then m.portDrop p.port.val kFabSrcDrop
    else if p.dst.toNat = m.moduleId then f (m.admitted p)
    else if type = 12 then m.admitted p
    else (m.admitted p).transit order type p := by
  have away : (m.countBy kFabRxBytes p.port.val p.payload.length).moduleId = m.moduleId := m.admitted_moduleId p
  simp only [ingress, up, vfl, away, admitted, bne_self_eq_false, Bool.or_self, Bool.false_eq_true, if_false, Bool.or_eq_true, Bool.not_eq_true']

theorem Mod.ingress_delivers (h : m.Delivers type p) : m.ingress order type p f = f (m.admitted p) := by
  obtain ⟨up, vfl, credit, sound, len, clear, own, here⟩ := h
  rw [ingress_up up vfl]
  simp [credit, sound, len, clear, own, here]

end

/-! Transit (16 R459). -/

section
variable {m : Mod} {order type : Nat} {p : Packet}

theorem Mod.transit_spent (spent : p.hops = 0) : m.transit order type p = m.count kFabTransitDrop (p.port.val / 8) := by
  rw [transit, if_pos (.inl (by simp [spent]))]

theorem Mod.transit_sends {j : PortId} (hops : p.hops.val ≠ 0) (shared : m.strictPort p.port.val = none)
    (route : m.transitPort order (p.port.val / 8) p.dst.toNat = some j) : m.transit order type p =
    (m.updFab fun b => { b with sent := (type, { p with hops := Fin.ofNat 8 (p.hops.val - 1), port := j }) :: b.sent }).countBy
      kFabTxBytes j.val p.payload.length := by
  rw [transit, if_neg (by simp [hops, shared]), route]
  rfl

end

/-! Windows (16 R466). -/

theorem Mod.window_eq_some_iff {m : Mod} {w src right off len q : Nat} {keyOk : BitVec 64 → Bool} {kinds : List Nat} {e : BitVec 256} :
    m.window w src keyOk right off len kinds = some (q, e) ↔
      m.winOwner w = some q ∧ Tab.find w m.fab.windows = some e ∧ (m.part q).st = .active ∧ winF e 255 192 ≠ 0 ∧
       keyOk (BitVec.ofNat 64 (winF e 255 192)) = true ∧
       (winF e 175 160 = 0 ∨ (winF e 191 176 ≤ src ∧ src < winF e 191 176 + winF e 175 160)) ∧ e.toNat.testBit right = true ∧
       off + len ≤ winF e 75 36 ∧ winKind e ∈ kinds := by
  unfold Mod.window
  cases m.winOwner w with
  | none => simp
  | some x => cases Tab.find w m.fab.windows with
    | none => simp
    | some y =>
      simp only [Option.some.injEq, Option.ite_none_right_eq_some, Prod.mk.injEq, Bool.and_eq_true, Bool.or_eq_true, beq_iff_eq, bne_iff_ne,
        decide_eq_true_eq, List.contains_iff_mem]
      constructor
      · rintro ⟨⟨⟨⟨⟨⟨⟨active, key⟩, ok⟩, range⟩, right⟩, inside⟩, kind⟩, rfl, rfl⟩
        exact ⟨rfl, rfl, active, key, ok, range, right, inside, kind⟩
      · rintro ⟨rfl, rfl, active, key, ok, range, right, inside, kind⟩
        exact ⟨⟨⟨⟨⟨⟨⟨active, key⟩, ok⟩, range⟩, right⟩, inside⟩, kind⟩, rfl, rfl⟩

/-! End-to-end transport (16 R461-R463). -/

section
variable {m : Mod} {p : Packet} {f : Mod → RxDone}

theorem Mod.receive_duplicate (opened : (m.rx (rxKey p)).isOpen = true)
    (again : 2 ^ 31 ≤ (p.eseq - (m.rx (rxKey p)).low).toNat ∨ (m.rx (rxKey p)).done.contains p.eseq = true) :
    m.receive p f = m.answer p none 0 := by
  simp only [receive, opened, Bool.not_true, Bool.false_eq_true, if_false]
  exact if_pos again

theorem Mod.receive_beyond (opened : (m.rx (rxKey p)).isOpen = true) (near : (p.eseq - (m.rx (rxKey p)).low).toNat < 2 ^ 31)
    (beyond : 65536 ≤ (p.eseq - (m.rx (rxKey p)).low).toNat) (new : (m.rx (rxKey p)).done.contains p.eseq = false) : m.receive p f = m := by
  simp only [receive, opened, Bool.not_true, Bool.false_eq_true, if_false]
  rw [if_neg, if_pos (.inl beyond)]
  rintro (far | done)
  · exact Nat.not_lt.mpr far near
  · exact Bool.false_ne_true (new.symm.trans done)

theorem Mod.receive_fresh (h : m.Fresh p) : m.receive p f = if (f m).hold = true then (f m).m else (f m).m.settled p (f m).data (f m).afl := by
  obtain ⟨opened, near, new, free⟩ := h
  simp only [receive, opened, new, free, Bool.not_true, Bool.false_eq_true, or_false, if_false]
  rw [if_neg (by omega), if_neg (by omega)]
  rfl

end

/-! Packets for a window (16 R466). -/

section
variable {m : Mod} {order type right : Nat} {kinds : List Nat} {p : Packet} {f : Nat → BitVec 256 → Mod → RxDone}
  (here : m.Delivers type p) (carried : (m.admitted p).carries p = true)
include here carried

theorem Mod.dataPkt_delivers : m.dataPkt order type right kinds p f = (m.admitted p).receive p fun m =>
    match m.window p.win.toNat p.src.toNat (· == p.key) right p.offset.toNat p.len kinds with
    | none => { m := m.winViol p.win.toNat, data := if type = 2 then some (List.replicate p.len 0) else none }
    | some (q, e) => f q e m := by
  rw [dataPkt, ingress_delivers here, carried]
  rfl

variable (fresh : (m.admitted p).Fresh p)
include fresh

theorem Mod.dataPkt_refused (none : (m.admitted p).window p.win.toNat p.src.toNat (· == p.key) right p.offset.toNat p.len kinds = none) :
    m.dataPkt order type right kinds p f =
      ((m.admitted p).winViol p.win.toNat).settled p (if type = 2 then some (List.replicate p.len 0) else .none) 0 := by
  rw [dataPkt_delivers here carried, receive_fresh fresh, none]
  rfl

theorem Mod.dataPkt_performed {q : Nat} {e : BitVec 256}
    (some : (m.admitted p).window p.win.toNat p.src.toNat (· == p.key) right p.offset.toNat p.len kinds = some (q, e)) :
    m.dataPkt order type right kinds p f =
      if (f q e (m.admitted p)).hold = true then (f q e (m.admitted p)).m
      else (f q e (m.admitted p)).m.settled p (f q e (m.admitted p)).data (f q e (m.admitted p)).afl := by
  rw [dataPkt_delivers here carried, receive_fresh fresh, some]

end

/-! The commands of packets. -/

/-- A command by which a packet of a type arrives; of the WRITE_REDUCE packets the segments of collectives. -/
def IsPacket (p : Packet) (i : Instr) (type : Nat) : Prop :=
  (i, type) ∈ [(Instr.vflWrite p, 0), (.vflRead p, 2), (.vflReadRsp p, 3), (.vflSignal p, 4), (.vflMulticast p, 5), (.vflOpen p, 7),
    (.vflColl p, 9), (.vflSlow p, 10), (.vflAbort p, 11)] ∨ (i = .vflWriteReduce p ∧ type = 1 ∧ isSegment p = true)

section
variable {s : State} {p : Packet} (awake : s.m.braked = false)
include awake

/-- What reaches a unit acts while the Brake is off. -/
theorem State.go_atUnit (u : Nat) (f : Mod → Mod) : (s.go fun m => m.atUnit u f) = Becomes s (f s.m) := by
  rw [State.go_eq, Mod.atUnit_free (Mod.heldAt_of_not_braked awake u)]
  rfl

/-- A child's segment is added to those of its group; a packet of another module adds nothing. -/
def Mod.childSegment (p : Packet) (x : Group) (m : Mod) : Mod :=
  match (grpChildren x.entry).findIdx? (· == p.src.toNat) with
  | none => m
  | some i => m.collAdd p.group.toNat (p.offset.toNat % 2 ^ 24) i p.payload p.afl

theorem exec_vflWriteReduce_segment (segment : isSegment p = true) : exec (.vflWriteReduce p) s =
    Becomes s (s.m.ingress s.fuse.order.val 1 p fun m => m.receive p fun m => m.collRx p fun x _ m => m.childSegment p x) := by
  rw [exec_vflWriteReduce, execVflWriteReduce, State.go_atUnit awake, segment, if_pos rfl]
  rfl

theorem exec_vflWriteReduce_window (window : isSegment p = false) (permits : opPermits p.op.val p.fmt.val p.fmt.val = true)
    (valid : fmtValid p.fmt.val = true) : exec (.vflWriteReduce p) s =
    Becomes s (s.m.dataPkt s.fuse.order.val 1 wrRED [1, 2] p fun q e m => m.pktReduce p q e) := by
  rw [exec_vflWriteReduce, execVflWriteReduce, State.go_atUnit awake, window, permits, valid]
  rfl

theorem exec_vflWriteReduce_bad (window : isSegment p = false) (bad : opPermits p.op.val p.fmt.val p.fmt.val = false) :
    exec (.vflWriteReduce p) s = Becomes s (s.m.ingress s.fuse.order.val 1 { p with malformed := true } fun m => m) := by
  rw [exec_vflWriteReduce, execVflWriteReduce, State.go_atUnit awake, window, bad]
  rfl

/-- Every command of a packet passes the checks of its port. -/
theorem exec_packet_ingress {i : Instr} {type : Nat} (packet : IsPacket p i type) :
    type ≠ 12 ∧ ∃ f, exec i s = Becomes s (s.m.ingress s.fuse.order.val type p f) := by
  obtain packet | ⟨rfl, rfl, segment⟩ := packet
  · simp only [List.mem_cons, Prod.mk.injEq, List.not_mem_nil, or_false] at packet
    obtain ⟨rfl, rfl⟩ | ⟨rfl, rfl⟩ | ⟨rfl, rfl⟩ | ⟨rfl, rfl⟩ | ⟨rfl, rfl⟩ | ⟨rfl, rfl⟩ | ⟨rfl, rfl⟩ | ⟨rfl, rfl⟩ | ⟨rfl, rfl⟩ := packet
    all_goals exact ⟨by decide, _, State.go_atUnit awake ..⟩
  · exact ⟨by decide, _, exec_vflWriteReduce_segment awake segment⟩

/-- The commands whose packets speak of a window check it before they act. -/
theorem exec_packet_dataPkt {i : Instr} {type : Nat} (packet : IsPacket p i type)
    (data : type ∈ [0, 2, 4, 5]) : ∃ right kinds f, exec i s = Becomes s (s.m.dataPkt s.fuse.order.val type right kinds p f) := by
  simp only [IsPacket, List.mem_cons, Prod.mk.injEq, List.not_mem_nil, or_false] at packet
  obtain (⟨rfl, rfl⟩ | ⟨rfl, rfl⟩ | ⟨-, rfl⟩ | ⟨rfl, rfl⟩ | ⟨rfl, rfl⟩ | ⟨-, rfl⟩ | ⟨-, rfl⟩ | ⟨-, rfl⟩ | ⟨-, rfl⟩) | ⟨-, rfl, -⟩ := packet
  case inl.inl | inl.inr.inl | inl.inr.inr.inr.inl | inl.inr.inr.inr.inr.inl => exact ⟨_, _, _, State.go_atUnit awake ..⟩
  all_goals exact absurd data (by decide)

end

/-- Settles O41: each command is `Mod.ingress` of its type (`exec_packet_ingress`), whose checks are those of `Mod.ingress_up`; transit by
`Mod.transit_sends`, duplicates by `Mod.receive_duplicate`, windows by `Mod.window_eq_some_iff`. -/
theorem packetAdmission : Obligations.PacketAdmission := by
  unfold Obligations.PacketAdmission
  intro s p i type packet awake
  obtain ⟨other, f, run⟩ := exec_packet_ingress awake packet
  dsimp only
  refine ⟨fun down => ?down, fun up vfl => ⟨fun none => ?credit, fun credit bad => ?malformed, fun credit sound len => ⟨fun quar => ?quarantined,
    fun clear strange => ?strange, fun clear own away => ⟨fun spent => ?spent, fun j hops shared route => ?sent⟩⟩⟩,
    fun here data carried opened => ⟨fun again => ?again, fun near beyond new => ?beyond⟩, fun w src keyOk right off len kinds q e =>
    Mod.window_eq_some_iff⟩
  case down => rw [run, Mod.ingress_down down]
  case credit => rw [run, Mod.ingress_up up vfl, if_pos none]
  case malformed => rw [run, Mod.ingress_up up vfl, if_neg (by simp [credit]), if_pos bad]
  case quarantined => simp [run, Mod.ingress_up up vfl, credit, sound, len, quar]
  case strange => simp [run, Mod.ingress_up up vfl, credit, sound, len, clear, strange]
  case spent => simp [run, Mod.ingress_up up vfl, credit, sound, len, clear, own, away, other, Mod.transit_spent spent]
  case sent =>
    have way := Mod.transit_sends (m := s.m.admitted p) (type := type) (order := s.fuse.order.val) hops (by simp [shared]) (by simpa using route)
    simp [run, Mod.ingress_up up vfl, credit, sound, len, clear, own, away, other, way]
  case again =>
    obtain ⟨right, kinds, f, run⟩ := exec_packet_dataPkt awake packet data
    rw [run, Mod.dataPkt_delivers here carried, Mod.receive_duplicate opened again]
  case beyond =>
    obtain ⟨right, kinds, f, run⟩ := exec_packet_dataPkt awake packet data
    rw [run, Mod.dataPkt_delivers here carried, Mod.receive_beyond opened near beyond new]

end Sys2Proof.Machine
end

section
/-! Packets performed at a window and answered; answers at their sender; the opening of transport (16 R460-R463, R466-R468, R477). -/

namespace Sys2Proof.Machine

/-! Giving tokens (16 R461, R463). -/

/-- One packet that waits for its destination is given the next ESEQ and a token. -/
theorem Mod.pump_one {m : Mod} {o : OutPkt} (opened : (m.e2e o.iod.val o.p.dst.toNat).isOpen = true)
    (some : 0 < (m.e2e o.iod.val o.p.dst.toNat).tokens) (only : m.fab.out = [o]) (waits : o.waiting = true) :
    let t := m.e2e o.iod.val o.p.dst.toNat
    let q : OutPkt := { o with waiting := false, p := { o.p with eseq := t.next } }
    m.pump o.iod.val o.p.dst.toNat = (((m.updFab fun b => { b with out := [q] }).setE2e o.iod.val o.p.dst.toNat { t with
      tokens := t.tokens - 1, next := t.next + 1 }).trace (16 + o.iod.val) 6 (unitOfIod o.iod.val) o.part.val t.next.toNat o.p.dst.toNat) := by
  simp [Mod.pump, opened, only, Mod.pump.go, waits, some, forEach, Mod.traceTx]

@[simp] theorem Mod.admitted_e2e (m : Mod) (p : Packet) (iod dst : Nat) : (m.admitted p).e2e iod dst = m.e2e iod dst := by
  rw [e2e, admitted, countBy_fab, ← e2e]

/-! The commands, when nothing is stopped. -/

theorem forEach_concat {α : Type} (l : List α) (x : α) (f : α → Mod → Mod) (m : Mod) : forEach (l ++ [x]) f m = f x (forEach l f m) :=
  List.foldl_concat ..

theorem Becomes.inj {s : State} {m n : Mod} (h : Becomes s m = Becomes s n) : m = n := congrArg State.m (Host.Outcome.next.inj h)


section
variable {s : State} {p : Packet} (awake : s.m.braked = false)
include awake

/-- A run of answered ESEQs is taken one by one. -/
def Mod.dcmpOne (p : Packet) (i : Nat) (m : Mod) : Mod :=
  match m.answered p (p.eseq + BitVec.ofNat 32 i) false with
  | none => m
  | some o => m.delivered o p.afl []

theorem exec_vflDcmp_delivers (here : s.m.Delivers 6 p) {run : Nat} (one : 1 ≤ run) (most : run ≤ 64) :
    exec (.vflDcmp p run) s = Becomes s (forEach (List.range run) (Mod.dcmpOne p) (s.m.admitted p)) := by
  have ok : dcmpOk run = true := decide_eq_true ⟨one, most⟩
  rw [exec_vflDcmp, execVflDcmp, ok, State.goIf, if_pos rfl, State.go_atUnit awake, Mod.ingress_delivers here]
  rfl

theorem exec_vflOpenAck_delivers (here : s.m.Delivers 8 p) {grant : Nat} (small : grant < 65536) : exec (.vflOpenAck p grant) s =
    let t := (s.m.admitted p).e2e p.siod.val p.src.toNat
    Becomes s (if t.openSent = true ∧ t.isOpen = false then ((s.m.admitted p).setE2e p.siod.val p.src.toNat { t with
        isOpen := true, tokens := grant, grant := grant, next := 0 }).pump p.siod.val p.src.toNat
      else s.m.admitted p) := by
  have ok : grantOk grant = true := decide_eq_true small
  rw [exec_vflOpenAck, execVflOpenAck, ok, State.goIf, if_pos rfl, State.go_atUnit awake, Mod.ingress_delivers here]
  simp only [Bool.and_eq_true, Bool.not_eq_true']

end

/-- Settles O42, a case for each packet: data packets by `Mod.dataPkt_performed` and `Mod.dataPkt_refused`, answers by `exec_vflDcmp_delivers`,
tokens by `Mod.pump_one`. -/
theorem packets : Obligations.Packets := by
  unfold Obligations.Packets
  intro s p awake
  dsimp only
  refine ⟨fun i type right which here carried fresh => ⟨fun q e some => ?written, fun none => ?unwritten⟩,
    fun here carried fresh => ⟨fun q e some => ⟨fun clear sound => ?read, fun viol => ?unread⟩, fun none => ?noRead⟩,
    fun here carried fresh q e some => ⟨fun next => ?signal, fun ahead => ?held⟩,
    fun window permits valid here carried fresh q e some clear sound clean => ?reduce,
    fun window bad up vfl credit => ?bad,
    fun here => ⟨fun o found => ?dcmp, fun run one most x before => ?run, fun none => ?stray⟩,
    fun here => ⟨fun o found => ?rsp, fun none => ?noRsp⟩,
    fun here => ?opens,
    fun grant small here => ⟨fun sent shut => ?grants, fun other => ?unasked⟩,
    fun m o opened some only waits => Mod.pump_one opened some only waits,
    fun m o afl data none => ?back⟩
  case written =>
    simp only [List.mem_cons, Prod.mk.injEq, List.not_mem_nil, or_false] at which
    obtain ⟨rfl, rfl, rfl⟩ | ⟨rfl, rfl, rfl⟩ := which
    all_goals exact (State.go_atUnit awake ..).trans (congrArg _ (Mod.dataPkt_performed here carried fresh some))
  case unwritten =>
    simp only [List.mem_cons, Prod.mk.injEq, List.not_mem_nil, or_false] at which
    obtain ⟨rfl, rfl, rfl⟩ | ⟨rfl, rfl, rfl⟩ := which
    all_goals exact (State.go_atUnit awake ..).trans (congrArg _ (Mod.dataPkt_refused here carried fresh none))
  case read =>
    rw [exec_vflRead, execVflRead, State.go_atUnit awake, Mod.dataPkt_performed here carried fresh some]
    simp only [clear, sound, Bool.false_eq_true, if_false]
  case unread =>
    rw [exec_vflRead, execVflRead, State.go_atUnit awake, Mod.dataPkt_performed here carried fresh some]
    simp only [viol, Bool.false_eq_true, if_true, if_false]
  case noRead => exact (State.go_atUnit awake ..).trans (congrArg _ (Mod.dataPkt_refused here carried fresh none))
  case signal =>
    rw [exec_vflSignal, execVflSignal, State.go_atUnit awake, Mod.dataPkt_performed here carried fresh some]
    simp only [next, beq_self_eq_true, Bool.false_eq_true, if_true, if_false]
  case held =>
    rw [exec_vflSignal, execVflSignal, State.go_atUnit awake, Mod.dataPkt_performed here carried fresh some]
    simp only [beq_eq_false_iff_ne.mpr ahead, Bool.false_eq_true, if_true, if_false]
  case reduce =>
    rw [exec_vflWriteReduce_window awake window permits valid, Mod.dataPkt_performed here carried fresh some]
    simp only [Mod.pktReduce, clear, sound, clean, Bool.false_eq_true, if_false]
  case bad =>
    rw [exec_vflWriteReduce_bad awake window bad, Mod.ingress_up (p := { p with malformed := true }) up vfl, if_neg (by simp [credit]), if_pos (.inl rfl)]
  case dcmp =>
    rw [exec_vflDcmp_delivers awake here (Nat.le_refl 1) (by decide)]
    simp [Mod.dcmpOne, found]
  case run =>
    rw [exec_vflDcmp_delivers awake here one (by omega)] at before
    rw [exec_vflDcmp_delivers awake here (by omega) (by omega), List.range_succ, forEach_concat, Becomes.inj before]
    cases found : x.answered p (p.eseq + BitVec.ofNat 32 run) false <;> simp only [Mod.dcmpOne, found]
  case stray =>
    rw [exec_vflDcmp_delivers awake here (Nat.le_refl 1) (by decide)]
    simp [Mod.dcmpOne, none]
  case rsp => rw [exec_vflReadRsp, execVflReadRsp, State.go_atUnit awake, Mod.ingress_delivers here, found]
  case noRsp => rw [exec_vflReadRsp, execVflReadRsp, State.go_atUnit awake, Mod.ingress_delivers here, none]
  case opens =>
    rw [exec_vflOpen, execVflOpen, State.go_atUnit awake, Mod.ingress_delivers here]
  case grants =>
    rw [exec_vflOpenAck_delivers awake here small]
    simp only [Mod.admitted_e2e]
    rw [if_pos ⟨sent, shut⟩]
  case unasked =>
    rw [exec_vflOpenAck_delivers awake here small]
    simp only [Mod.admitted_e2e]
    refine congrArg _ (if_neg ?_)
    rintro ⟨sent, shut⟩
    obtain unsent | opened := other
    · exact Bool.false_ne_true (unsent.symm.trans sent)
    · exact Bool.false_ne_true (shut.symm.trans opened)
  case back =>
    rw [Mod.delivered, none]
end Sys2Proof.Machine
end

section
/-! Collectives (16 R470-R476, 14 R408): refusals, the start, segments up and down the tree, aborts, hints. -/

namespace Sys2Proof.Machine

/-! Refusals and the start (16 R471, R472; 14 R408). -/

section
variable {s : State} {id : Nat} {c : HCmd} (h : s.m.startable id 5 = some c)
include h

theorem execCollective_refuses {k : Nat} (bad : s.m.collRefusal c = some k) :
    exec (.collective id) s = Becomes s ((s.m.begin id c).refuseCmd id k) := by
  simp only [exec_collective, execCollective, State.go_eq, h, bad]
  rfl

variable (good : s.m.collRefusal c = none) {x : Group} (found : Tab.find (c.wf 1 15 0) s.m.fab.groups = some x)
include good found

theorem execCollective_waits (runs : x.cur ≠ none) : exec (.collective id) s = Becomes s s.m := by
  simp only [exec_collective, execCollective, State.go_eq, h, good, found, Option.isSome_iff_ne_none.mpr runs, if_true]
  rfl

/-- The collective that a command asks for. -/
def HCmd.coll (c : HCmd) (id : Nat) : Coll := {
  cmd := id, kind := Fin.ofNat 4 (c.wf 1 26 24), op := c.wf 1 19 16, fmt := c.wf 1 23 20, count := c.wf 1 63 32, root := c.wf 2 15 0,
  va := c.w 0, part := c.fn }

/-- The module once a collective has started at this member. -/
def Mod.collBegun (m : Mod) (id : Nat) (c : HCmd) : Mod := (m.begin id c).updGroup (c.wf 1 15 0) fun x => { x with cur := some (c.coll id) }

theorem execCollective_starts (idle : x.cur = none) : exec (.collective id) s =
    let n := s.m.collBegun id c
    Becomes s (if (c.coll id).count = 0 then (n.updGroup (c.wf 1 15 0) fun x => { x with cur := none, collSeq := x.collSeq + 1 }).endCmd id
      else if (c.coll id).kind = 3 ∧ n.moduleId ≠ (c.coll id).root then n
      else forEach (List.range (c.coll id).segs) (fun i m => m.collLocal (c.wf 1 15 0) i) n) := by
  simp only [exec_collective, execCollective, State.go_eq, h, good, found, idle]
  rfl

end

/-- A command that is not refused names a group of its partition, a plain format that the operation permits, and a tensor that fits. -/
theorem Mod.collRefusal_none {m : Mod} {c : HCmd} (good : m.collRefusal c = none) :
    (∃ x, Tab.find (c.wf 1 15 0) m.fab.groups = some x ∧ grpPart x.entry = c.fn.val) ∧ fmtBlock (c.wf 1 23 20) = 0 ∧
    opPermits (c.wf 1 19 16) (c.wf 1 23 20) (c.wf 1 23 20) = true ∧ ¬ 2 ^ 24 * 512 < (c.wf 1 63 32 * fmtWidth (c.wf 1 23 20) + 7) / 8 := by
  simp only [collRefusal] at good
  split_ifs at good with group fmt op kind size
  have plain : fmtValid (c.wf 1 23 20) = true ∧ fmtBlock (c.wf 1 23 20) = 0 := by simpa using fmt
  refine ⟨?_, plain.2, by simpa using op, size⟩
  cases found : Tab.find (c.wf 1 15 0) m.fab.groups with
  | none => simp [found] at group
  | some x => exact ⟨x, rfl, by simpa [found] using group⟩

/-! Packets of a collective (16 R471). -/

/-- How far ahead of the group's collective a packet is. -/
def collAhead (p : Packet) (x : Group) : Nat := (p.offset.toNat / 2 ^ 24 + 65536 - x.collSeq.toNat) % 65536

section
variable {m : Mod} {p : Packet} {f : Group → Coll → Mod → Mod}

theorem Mod.collRx_none (none : Tab.find p.group.toNat m.fab.groups = none) :
    m.collRx p f = { m := m.count kFabCollStale (p.port.val / 8) } := by
  simp only [collRx, none]

variable {x : Group} (found : Tab.find p.group.toNat m.fab.groups = some x)
include found

theorem Mod.collRx_other (other : x.cur = none ∨ collAhead p x ≠ 0) :
    m.collRx p f = { m := m.count kFabCollStale (p.port.val / 8), hold := decide (collAhead p x < 32768) } := by
  simp only [collRx, found]
  cases runs : x.cur with
  | none => rfl
  | some c =>
    have far := other.resolve_left (by simp [runs])
    exact if_neg far

theorem Mod.collRx_current {c : Coll} (runs : x.cur = some c) (current : p.offset.toNat / 2 ^ 24 = x.collSeq.toNat) :
    m.collRx p f = { m := f x c m } := by
  have level : (p.offset.toNat / 2 ^ 24 + 65536 - x.collSeq.toNat) % 65536 = 0 := by omega
  simp only [collRx, found, runs, level, if_true]

end

section
variable {s : State} {p : Packet} (awake : s.m.braked = false)
include awake

theorem exec_vflColl_delivers (here : s.m.Delivers 9 p) : exec (.vflColl p) s =
    Becomes s ((s.m.admitted p).receive p fun m => m.collRx p fun x _ m =>
      if grpParent x.entry = p.src.toNat then m.collResult p.group.toNat (p.offset.toNat % 2 ^ 24) p.payload p.afl else m) := by
  rw [exec_vflColl, execVflColl, State.go_atUnit awake, Mod.ingress_delivers here]

theorem exec_vflWriteReduce_delivers (here : s.m.Delivers 1 p) (segment : isSegment p = true) : exec (.vflWriteReduce p) s =
    Becomes s ((s.m.admitted p).receive p fun m => m.collRx p fun x _ m => m.childSegment p x) := by
  rw [exec_vflWriteReduce_segment awake segment, Mod.ingress_delivers here]

/-- Both packets of a collective are taken by `Mod.collRx`. -/
theorem exec_segment_delivers {i : Instr} {type : Nat} (which : (i = .vflColl p ∧ type = 9) ∨ (i = .vflWriteReduce p ∧ type = 1 ∧ isSegment p = true))
    (here : s.m.Delivers type p) : ∃ f, exec i s = Becomes s ((s.m.admitted p).receive p fun m => m.collRx p f) := by
  obtain ⟨rfl, rfl⟩ | ⟨rfl, rfl, segment⟩ := which
  · exact ⟨_, exec_vflColl_delivers awake here⟩
  · exact ⟨_, exec_vflWriteReduce_delivers awake here segment⟩

theorem exec_vflAbort_unknown (here : s.m.Delivers 11 p) (none : Tab.find p.group.toNat (s.m.admitted p).fab.groups = none) :
    exec (.vflAbort p) s = Becomes s ((s.m.admitted p).count kFabCollStale (p.port.val / 8)) := by
  rw [exec_vflAbort, execVflAbort, State.go_atUnit awake, Mod.ingress_delivers here, none]

theorem exec_vflAbort_known (here : s.m.Delivers 11 p) {x : Group} (found : Tab.find p.group.toNat (s.m.admitted p).fab.groups = some x) :
    exec (.vflAbort p) s = Becomes s (if x.cur ≠ none ∧ p.offset.toNat / 2 ^ 24 = x.collSeq.toNat then
        (s.m.admitted p).collAbort p.group.toNat (some p.src.toNat)
      else (s.m.admitted p).count kFabCollStale (p.port.val / 8)) := by
  rw [exec_vflAbort, execVflAbort, State.go_atUnit awake, Mod.ingress_delivers here, found]
  simp only [Bool.and_eq_true, Option.isSome_iff_ne_none, beq_iff_eq]

end

/-! Segments (16 R472). -/

section
variable {m : Mod} {g : Nat} {x : Group} {c : Coll} (found : Tab.find g m.fab.groups = some x) (runs : x.cur = some c)
include found runs

theorem Mod.collUp_of (i : Nat) (bs : List Byte) (afl : BitVec 4) : m.collUp g i bs afl =
    if grpParent x.entry = 0 then m.collResult g i bs afl else m.collPkt g x c (grpParent x.entry) 1 i bs afl := by
  simp only [collUp, found, runs]

/-- The last contribution of a reduction is combined, counted and passed on. -/
theorem Mod.collAdd_last {i who : Nat} {acc bs : List Byte} {afl : BitVec 4} (reduces : c.kind.val < 2)
    (last : Tab.find i c.parts = some ([who], acc)) (some : acc ≠ []) :
    let r := combineBytes c.op c.fmt acc bs
    let fl := afl ||| BitVec.ofNat 4 r.2
    m.collAdd g i who bs afl = ((m.count kFabRedComb (grpIod x.entry)).updColl g fun c => { c with
      afl := c.afl ||| fl, parts := c.parts.del i }).collUp g i r.1 (c.afl ||| fl) := by
  have two : c.kind ≠ 2 := fun h => by rw [h] at reduces; exact absurd reduces (by decide)
  have three : c.kind ≠ 3 := fun h => by rw [h] at reduces; exact absurd reduces (by decide)
  simp [collAdd, found, runs, two, three, Tab.getD, last, some]

end

/-! Aborts (16 R476). -/

theorem Mod.emit_groups (m : Mod) (type : Nat) (p : Packet) : (m.emit type p).fab.groups = m.fab.groups := by
  rw [emit]
  split
  · rfl
  · rw [transmit, countBy_fab]
    rfl

theorem Mod.emit_host (m : Mod) (type : Nat) (p : Packet) : (m.emit type p).host = m.host := by
  rw [emit]
  split
  · rfl
  · rw [transmit, countBy_host]
    rfl

/-- The module once ABORT is sent to every neighbour of a group but one. -/
def Mod.abortSent (m : Mod) (g : Nat) (x : Group) (from? : Option Nat) : Mod :=
  forEach ((grpNeighbours x.entry).filter fun n => some n != from?) (fun n m =>
    m.emit 11 { m.packet (grpIod x.entry) n 0 (x.collSeq.toNat * 2 ^ 24) 0 0 0 [] with group := BitVec.ofNat 16 g }) m

theorem Mod.abortSent_groups (m : Mod) (g : Nat) (x : Group) (from? : Option Nat) : (m.abortSent g x from?).fab.groups = m.fab.groups :=
  forEach_keeps (fun m => m.fab.groups) (fun _ _ => emit_groups ..) _ m

theorem Mod.abortSent_host (m : Mod) (g : Nat) (x : Group) (from? : Option Nat) : (m.abortSent g x from?).host = m.host :=
  forEach_keeps Mod.host (fun _ _ => emit_host ..) _ m

section
variable {m : Mod} {g : Nat} {x : Group} {c : Coll} (found : Tab.find g m.fab.groups = some x) (runs : x.cur = some c)
include found runs

theorem Mod.collAbort_eq (from? : Option Nat) : m.collAbort g from? =
    ((((m.abortSent g x from?).updGroup g fun x => { x with cur := none, collSeq := x.collSeq + 1 }).updFab fun b => { b with
      out := b.out.filter fun o => !((o.type == 1 || o.type == 9) && o.p.group == BitVec.ofNat 16 g && o.cmd == c.cmd) }).updCmd c.cmd
        fun k => { k.mark stCOLLABORT 0 with ended := true }) := by
  simp only [collAbort, found, runs]
  rfl

/-- An abort marks the command and leaves the group without a collective, its count one more. -/
theorem Mod.collAbort_ends (from? : Option Nat) {k : HCmd} (cmd : m.cmd? c.cmd = some k) :
    (m.collAbort g from?).cmd? c.cmd = some { k.mark stCOLLABORT 0 with ended := true } ∧
      Tab.find g (m.collAbort g from?).fab.groups = some { x with cur := none, collSeq := x.collSeq + 1 } := by
  have still : Tab.find g (m.abortSent g x from?).fab.groups = some x := by rw [abortSent_groups, found]
  have waits : (m.abortSent g x from?).cmd? c.cmd = some k := (cmd?_of_host (abortSent_host ..) c.cmd).trans cmd
  rw [collAbort_eq found runs]
  generalize m.abortSent g x from? = n at still waits ⊢
  refine ⟨cmd?_updCmd waits _, ?_⟩
  rw [updCmd_fab, updFab_fab, updGroup, updFab_fab, Tab.adj_of_find still, Tab.find_put_same]

end

/-! Hints (16 R475). -/

/-- The module once a SLOW hint is noted. -/
def Mod.slowNoted (m : Mod) (p : Packet) : Mod :=
  (m.updFab fun b => { b with slow := b.slow.put p.src.toNat m.ticks }).updGroup p.group.toNat fun x => { x with slow := x.slow.put p.src.toNat m.ticks }

section
variable {s : State} {p : Packet} (awake : s.m.braked = false) (here : s.m.Delivers 10 p)
include awake here

theorem exec_vflSlow_unknown (none : Tab.find p.group.toNat (s.m.admitted p).fab.groups = none) :
    exec (.vflSlow p) s = Becomes s (s.m.admitted p) := by
  rw [exec_vflSlow, execVflSlow, State.go_atUnit awake, Mod.ingress_delivers here, none]

theorem exec_vflSlow_known {x : Group} (found : Tab.find p.group.toNat (s.m.admitted p).fab.groups = some x) : exec (.vflSlow p) s =
    let n := s.m.admitted p
    Becomes s (if (∃ t, Tab.find p.src.toNat x.slow = some t ∧ n.ticks < t + ticksPerMs ∧ n.ticks ≠ t) then n.slowNoted p
      else (n.slowNoted p).sendSlow p.group.toNat x p.src (some ((n.slowNoted p).port p.port.val).partner.toNat)) := by
  rw [exec_vflSlow, execVflSlow, State.go_atUnit awake, Mod.ingress_delivers here, found]
  dsimp only
  cases Tab.find p.src.toNat x.slow <;> simp [Mod.slowNoted]

end

theorem execSlowHintTimer_eq (s : State) : exec .slowHintTimer s = Becomes s (if ∃ e ∈ s.m.mem.stackTab, e.2.state = 2 then
    forEach s.m.fab.groups (fun (g : Nat × Group) m => m.sendSlow g.1 g.2 (BitVec.ofNat 16 m.moduleId) none) s.m else s.m) := by
  by_cases high : ∃ e ∈ s.m.mem.stackTab, e.2.state = 2
  · have any : (s.m.mem.stackTab.any fun e => e.2.state == 2) = true := by simpa using high
    rw [exec_slowHintTimer, execSlowHintTimer, State.go_eq, any, if_pos high]
    rfl
  · have any : (s.m.mem.stackTab.any fun e => e.2.state == 2) = false := by simpa using high
    rw [exec_slowHintTimer, execSlowHintTimer, State.go_eq, any, if_neg high]
    rfl

/-- Settles O43, a case for each clause: the command by `execCollective_starts`, segments by `exec_segment_delivers` with `Mod.collRx_current` and
`Mod.collRx_other`, the last contribution by `Mod.collAdd_last`, aborts by `Mod.collAbort_ends`, hints by `exec_vflSlow_known`. -/
theorem collectives : Obligations.Collectives := by
  unfold Obligations.Collectives
  dsimp only
  refine ⟨fun s id c h => ⟨fun k bad => execCollective_refuses h bad, fun bad good => ?refused, fun x good found =>
      ⟨fun runs => execCollective_waits h good found runs, fun idle => ⟨fun none => ?empty, fun some kind away => ?awaits, fun some here => ?starts⟩⟩⟩,
    fun s p awake => ⟨fun i type which here fresh => ⟨fun none => ?unknown, fun x found => ⟨fun other past => ?past, fun other ahead => ?ahead⟩⟩,
      fun x c found runs current => ⟨fun here fresh parent => ?down, fun here segment fresh i child => ?up, fun here => ?abort⟩,
      fun here other => ?stale, fun x here found => ⟨fun t seen before soon => ?seen, fun first => ?first⟩, fun here none => ?noGroup⟩,
    fun n g i bs afl x c found runs => ⟨fun parent => ?toParent, fun root => ?atRoot,
      fun who acc reduces last some => Mod.collAdd_last found runs reduces last some, fun f k cmd => Mod.collAbort_ends found runs f cmd⟩,
    fun s => ⟨fun g awake => ?timeout, fun cool => ?cool, fun high => ?high⟩⟩
  case refused =>
    obtain ⟨⟨x, found, own⟩, plain, permits, fits⟩ := Mod.collRefusal_none good
    obtain block | no | long | none | ⟨y, other, foreign⟩ := bad
    · exact block plain
    · exact Bool.false_ne_true (no.symm.trans permits)
    · exact fits long
    · exact Option.some_ne_none x (found.symm.trans none)
    · exact foreign (Option.some.inj (other.symm.trans found) ▸ own)
  case empty => exact (execCollective_starts h good found idle).trans (congrArg (Becomes s) (if_pos none))
  case awaits => exact (execCollective_starts h good found idle).trans (congrArg (Becomes s) ((if_neg (Nat.ne_of_gt some)).trans (if_pos ⟨kind, away⟩)))
  case starts =>
    refine (execCollective_starts h good found idle).trans (congrArg (Becomes s) ((if_neg (Nat.ne_of_gt some)).trans (if_neg ?_)))
    exact fun ⟨kind, away⟩ => here.elim (· kind) (away ·)
  case unknown =>
    obtain ⟨f, run⟩ := exec_segment_delivers awake which here
    rw [run, Mod.receive_fresh fresh, Mod.collRx_none none]
    rfl
  case past =>
    obtain ⟨f, run⟩ := exec_segment_delivers awake which here
    rw [run, Mod.receive_fresh fresh, Mod.collRx_other found other]
    exact congrArg (Becomes s) (if_neg fun near => Nat.not_lt.mpr past (of_decide_eq_true near))
  case ahead =>
    obtain ⟨f, run⟩ := exec_segment_delivers awake which here
    rw [run, Mod.receive_fresh fresh, Mod.collRx_other found other]
    exact congrArg (Becomes s) (if_pos (decide_eq_true ahead))
  case down =>
    rw [exec_vflColl_delivers awake here, Mod.receive_fresh fresh, Mod.collRx_current found runs current, if_pos parent]
    rfl
  case up =>
    rw [exec_vflWriteReduce_delivers awake here segment, Mod.receive_fresh fresh, Mod.collRx_current found runs current, Mod.childSegment, child]
    rfl
  case abort => exact (exec_vflAbort_known awake here found).trans (congrArg (Becomes s) (if_pos ⟨by simp [runs], current⟩))
  case stale =>
    obtain none | ⟨x, found, other⟩ := other
    · exact exec_vflAbort_unknown awake here none
    · exact (exec_vflAbort_known awake here found).trans (congrArg (Becomes s) (if_neg fun ⟨runs, current⟩ => other.elim runs (· current)))
  case seen =>
    exact (exec_vflSlow_known awake here found).trans (congrArg (Becomes s) (if_pos ⟨t, seen, soon, Nat.ne_of_gt before⟩))
  case first =>
    refine (exec_vflSlow_known awake here found).trans (congrArg (Becomes s) (if_neg ?_))
    rintro ⟨t, seen, -⟩
    exact Option.some_ne_none t (seen.symm.trans first)
  case noGroup => exact exec_vflSlow_unknown awake here none
  case toParent => exact (Mod.collUp_of found runs i bs afl).trans (if_neg parent)
  case atRoot => exact (Mod.collUp_of found runs i bs afl).trans (if_pos root)
  case timeout =>
    rw [exec_collTimeout, execCollTimeout, State.go_eq, awake]
    rfl
  case cool => exact (execSlowHintTimer_eq s).trans (congrArg (Becomes s) (if_neg fun ⟨e, he, high⟩ => cool e he high))
  case high => exact (execSlowHintTimer_eq s).trans (congrArg (Becomes s) (if_pos high))

end Sys2Proof.Machine
end

section
/-! Delivery timeouts, Ethernet partners and dictionary fragments (16 R464, R482-R485, 21 R587). -/

namespace Sys2Proof.Machine

/-! Delivery timeouts (16 R464). -/

/-- The packet that a delivery timeout speaks of: the one of an ESEQ, or before the transport is open one that waits. -/
def Mod.timedOut (m : Mod) (iod : IodId) (dst : BitVec 16) (eseq : BitVec 32) : Option OutPkt :=
  m.fab.out.find? fun o => o.iod == iod && o.p.dst == dst && (if (m.e2e iod.val dst.toNat).isOpen then !o.waiting && o.p.eseq == eseq else o.waiting)

/-- The module once a packet's resend is counted. -/
def Mod.resent (m : Mod) (iod : IodId) (o : OutPkt) : Mod :=
  (m.updFab fun b => { b with out := b.out.map fun x => if x = o then { x with resends := x.resends + 1 } else x }).count kFabResend iod.val

/-- A packet leaves for a destination once more, where a port is left to it. -/
def Mod.retransmit (m : Mod) (o : OutPkt) (dst : Nat) : Mod :=
  match m.altPort o.part.val dst with
  | some i => m.transmit o.p i
  | none => m

theorem execDeliveryTimeout_found {s : State} (awake : s.m.braked = false) {iod : IodId} {dst : BitVec 16} {eseq : BitVec 32} {o : OutPkt}
    (found : s.m.timedOut iod dst eseq = some o) : exec (.deliveryTimeout iod dst eseq) s =
    let n := s.m.resent iod o
    Becomes s (if 3 ≤ o.resends then s.m.unreachable iod.val dst.toNat
      else if (s.m.e2e iod.val dst.toNat).isOpen = true then
        n.retransmit o dst.toNat
      else n.emit 7 (n.packet iod.val dst.toNat 0 0 0 0 0 [])) := by
  rw [Mod.timedOut] at found
  simp only [exec_deliveryTimeout, execDeliveryTimeout, State.go_eq, awake, Bool.false_eq_true, if_false, found]
  rfl

/-! Requests of an Ethernet partner (16 R482-R484). -/

/-- The module once a queue pair has taken a request of `n` bytes. -/
def Mod.roceTaken (m : Mod) (port qpn n : Nat) (q : EthQp) : Mod :=
  (m.countBy kFabRxBytes port n).updFab fun b => { b with eth := b.eth.put (ethKey port qpn) { q with rpsn := q.rpsn + 1 } }

theorem Mod.roce_takes {m : Mod} {port qpn : Nat} {q : EthQp} (found : Tab.find (ethKey port qpn) m.fab.eth = some q)
    (up : (m.port port).state = 4) (eth : (m.port port).mode = 2) (live : q.error = false) (n : Nat) (f : EthQp → Mod → Mod) :
    m.roce port qpn n f = f q (m.roceTaken port qpn n q) := by
  rw [roce, found]
  exact if_neg (by simp [up, eth, live])

section
variable {m : Mod} {port : PortId} {q : EthQp} {rkey : BitVec 32} {addr : Nat} {bs : List Byte}

theorem Mod.rdmaWrite_refused (none : m.roceWindow q rkey wrWR addr bs.length = none) :
    m.rdmaWrite port q rkey addr bs = (false, m.winViol (rkey.toNat % 256)) := by
  simp only [rdmaWrite, none]

theorem Mod.rdmaWrite_window {p : Nat} {e : BitVec 256} (some : m.roceWindow q rkey wrWR addr bs.length = some (p, e)) :
    let r := m.winWrite (.nc (ingressAgent port.val)) p e addr bs
    m.rdmaWrite port q rkey addr bs = if r.1.viol = true then (false, r.2.winViol (rkey.toNat % 256)) else (true, r.2) := by
  simp only [rdmaWrite, some]

end

section
variable {s : State} (awake : s.m.braked = false) {port : PortId} {qpn : BitVec 24} {q : EthQp}
  (found : Tab.find (ethKey port.val qpn.toNat) s.m.fab.eth = some q) (up : (s.m.port port.val).state = 4) (eth : (s.m.port port.val).mode = 2)
  (live : q.error = false)
include awake found up eth live

theorem execRoceWrite_takes (rkey : BitVec 32) (addr : Nat) (bs : List Byte) : exec (.roceWrite port qpn rkey addr bs) s =
    Becomes s ((s.m.roceTaken port.val qpn.toNat bs.length q).rdmaWrite port q rkey addr bs).2 := by
  rw [exec_roceWrite, execRoceWrite, State.go_atUnit awake, Mod.roce_takes found up eth live]

/-- What an RDMA WRITE with immediate data leaves once it is performed: its record, one more of them, and the semaphore signalled. -/
def Mod.immediate (m : Mod) (port : PortId) (qpn : BitVec 24) (q : EthQp) (imm : BitVec 32) (n : Nat) : Mod :=
  let part := q.f 423 417
  let v := m.emWriteN (.nc (ingressAgent port.val)) part (q.f 471 424 + 8 * (q.imms % 2 ^ q.f 479 475)) (leBytes (imm.toNat + n * 2 ^ 32) 8) 7
  let y := (if v.1.viol then v.2.violate part else v.2).updFab fun b => { b with
    eth := b.eth.adj (ethKey port.val qpn.toNat) fun x => { x with imms := x.imms + 1 } }
  y.signalFrom (ingressAgent port.val) (y.nameSem part (q.f 495 480)) 1

/-- An RDMA WRITE with immediate data: without data nothing is written, and what is not written leaves no record. -/
theorem execRoceWriteImm_takes {rkey : BitVec 32} {addr : Nat} {bs : List Byte} {done : Bool} {x : Mod}
    (written : (if bs.isEmpty then (true, s.m.roceTaken port.val qpn.toNat bs.length q)
      else (s.m.roceTaken port.val qpn.toNat bs.length q).rdmaWrite port q rkey addr bs) = (done, x)) (imm : BitVec 32) :
    exec (.roceWriteImm port qpn rkey addr bs imm) s = Becomes s (if done = true then x.immediate port qpn q imm bs.length else x) := by
  rw [exec_roceWriteImm, execRoceWriteImm, State.go_atUnit awake, Mod.roce_takes found up eth live]
  dsimp only
  rw [written]
  cases done <;> rfl

/-- The module once an RDMA READ is answered. -/
def Mod.roceReplied (m : Mod) (port : PortId) (qpn : BitVec 24) (bs : List Byte) : Mod :=
  (m.updFab fun b => { b with roceRsp := (port.val, qpn.toNat, bs) :: b.roceRsp }).countBy kFabTxBytes port.val bs.length

/-- The answer to an RDMA READ: zeros where it is not permitted, none where the source is poisoned. -/
def Mod.roceRead (m : Mod) (port : PortId) (qpn : BitVec 24) (q : EthQp) (rkey : BitVec 32) (addr len : Nat) : Mod :=
  match m.roceWindow q rkey wrRD addr len with
  | none => (m.winViol (rkey.toNat % 256)).roceReplied port qpn (List.replicate len 0)
  | some (p, e) =>
    let r := m.winRead (.nc (ingressAgent port.val)) p e addr len
    if r.1.viol then (r.2.winViol (rkey.toNat % 256)).roceReplied port qpn (List.replicate len 0)
    else if r.1.poison then r.2
    else r.2.roceReplied port qpn r.1.bytes

theorem execRoceRead_takes (rkey : BitVec 32) (addr len : Nat) : exec (.roceRead port qpn rkey addr len) s =
    Becomes s ((s.m.roceTaken port.val qpn.toNat 0 q).roceRead port qpn q rkey addr len) := by
  rw [exec_roceRead, execRoceRead, State.go_atUnit awake, Mod.roce_takes found up eth live]
  rfl

end

/-! Acknowledgement and retries (16 R484). -/

section
variable {s : State} {port : PortId} {qpn : BitVec 24} {q : EthQp}
  (found : Tab.find (ethKey port.val qpn.toNat) s.m.fab.eth = some q) (live : q.error = false)
include found live

theorem execRoceAck_takes (awake : s.m.braked = false) (psn : BitVec 24) : exec (.roceAck port qpn psn) s =
    Becomes s (s.m.updFab fun b => { b with
      eth := b.eth.put (ethKey port.val qpn.toNat) { q with retries := 0, outst := if psn = q.spsn - 1 then [] else q.outst } }) := by
  rw [exec_roceAck, execRoceAck, State.go_atUnit awake]
  simp only [Mod.updFab, Tab.adj_of_find found, live, Bool.false_eq_true, if_false]

theorem execRoceRetryTimeout_waits (waits : q.outst ≠ []) : exec (.roceRetryTimeout port qpn) s =
    let k := ethKey port.val qpn.toNat
    Becomes s (if 7 ≤ q.retries then s.m.ethFail k
      else (s.m.updFab fun b => { b with eth := b.eth.put k { q with retries := q.retries + 1 } }).count kFabResend (port.val / 8)) := by
  have going : (q.error || q.outst.isEmpty) = false := by simp [live, waits]
  rw [exec_roceRetryTimeout, execRoceRetryTimeout, State.go_eq]
  simp only [found, going, Bool.false_eq_true, if_false]
  rfl

end

/-! Dictionary fragments and the marker of the Brake (21 R587). -/

section
variable {s : State} {p : Packet} {total : Nat} (small : total ≤ 1536) (here : s.m.Delivers 12 p)
include small here

theorem execVflMgmt_marker (one : p.win = 1) : exec (.vflMgmt p total) s = Becomes s ((s.m.admitted p).peerMarker p.port.val) := by
  have ok : mgmtOk total = true := decide_eq_true small
  rw [exec_vflMgmt, execVflMgmt, ok, State.goIf_true, Mod.ingress_delivers here, if_pos one]
  rfl

variable (zero : p.win = 0)
include zero

theorem execVflMgmt_off (off : (s.m.admitted p).parB pKdpVflEn = false) : exec (.vflMgmt p total) s = Becomes s (s.m.admitted p) := by
  have ok : mgmtOk total = true := decide_eq_true small
  rw [exec_vflMgmt, execVflMgmt, ok, State.goIf_true, Mod.ingress_delivers here, if_neg (by simp [zero]), off, if_pos (by simp)]
  rfl

/-- A frame whose fragments are all there is put together. -/
theorem execVflMgmt_whole (on : (s.m.admitted p).parB pKdpVflEn = true) {f : List Byte}
    (whole : wholeFrame total ((s.m.admitted p).kod.frags.getD p.port.val [] ++ [(p.offset.toNat % 2048, p.payload)]) = some f) :
    exec (.vflMgmt p total) s = Becomes s ((s.m.admitted p).updKod fun k => { k with
      frags := k.frags.del p.port.val, mgmt := (p.port.val, f) :: k.mgmt }) := by
  have ok : mgmtOk total = true := decide_eq_true small
  rw [exec_vflMgmt, execVflMgmt, ok, State.goIf_true, Mod.ingress_delivers here, if_neg (by simp [zero]), on, zero, if_neg (by simp)]
  simp only [whole]
  rfl

end

/-- Settles O44, a case for each clause: timeouts by `execDeliveryTimeout_found`, RDMA WRITEs by `Mod.rdmaWrite_window` and `execRoceWriteImm_takes`,
RDMA READs by `execRoceRead_takes`, retries by `execRoceRetryTimeout_waits`, fragments by `execVflMgmt_whole` and its like. -/
theorem deliveryAndEthernet : Obligations.DeliveryAndEthernet := by
  unfold Obligations.DeliveryAndEthernet
  intro s awake
  dsimp only
  refine ⟨fun iod dst e o found => ⟨fun third => ?dead, fun few opened => ⟨fun i route => ?resent, fun none => ?noPort⟩, fun few shut => ?reopened⟩,
    fun port qpn q found => ⟨fun up eth live => ⟨fun rkey addr bs => ⟨fun none => ?noWrite, fun p e some => ⟨fun clear => ?write, fun viol => ?badWrite⟩,
      fun imm data none => ?noImm, fun imm x after => ?imm⟩, fun rkey addr len => ⟨fun none => ?noRead, fun p e some clear sound => ?read⟩⟩,
      fun live => ⟨fun psn => execRoceAck_takes found live awake psn, fun waits few => ?retry, fun waits seven => ?fails⟩⟩,
    fun p total small here => ⟨fun one => execVflMgmt_marker small here one, fun f zero on first whole => ?whole,
      fun zero off => execVflMgmt_off small here zero off⟩, fun port => rfl⟩
  case dead => exact (execDeliveryTimeout_found awake found).trans (congrArg (Becomes s) (if_pos third))
  case resent =>
    refine (execDeliveryTimeout_found awake found).trans (congrArg (Becomes s) ((if_neg (Nat.not_le.mpr few)).trans ((if_pos opened).trans ?_)))
    rw [Mod.retransmit, Mod.resent, route]
  case noPort =>
    refine (execDeliveryTimeout_found awake found).trans (congrArg (Becomes s) ((if_neg (Nat.not_le.mpr few)).trans ((if_pos opened).trans ?_)))
    rw [Mod.retransmit, Mod.resent, none]
  case reopened =>
    exact (execDeliveryTimeout_found awake found).trans (congrArg (Becomes s) ((if_neg (Nat.not_le.mpr few)).trans (if_neg (by simp [shut]))))
  case noWrite => exact (execRoceWrite_takes awake found up eth live rkey addr bs).trans (congrArg (Becomes s ·.2) (Mod.rdmaWrite_refused none))
  case write =>
    refine (execRoceWrite_takes awake found up eth live rkey addr bs).trans (congrArg (Becomes s ·.2) ((Mod.rdmaWrite_window some).trans (if_neg ?_)))
    exact fun viol => Bool.false_ne_true (clear.symm.trans viol)
  case badWrite =>
    exact (execRoceWrite_takes awake found up eth live rkey addr bs).trans (congrArg (Becomes s ·.2) ((Mod.rdmaWrite_window some).trans (if_pos viol)))
  case noImm =>
    exact execRoceWriteImm_takes awake found up eth live ((if_neg (by simpa using data)).trans (Mod.rdmaWrite_refused none)) imm
  case imm =>
    obtain ⟨rfl, rfl⟩ | ⟨p, e, data, some, clear, rfl⟩ := after
    · exact execRoceWriteImm_takes (rkey := rkey) (addr := addr) (bs := []) awake found up eth live rfl imm
    · have clean : ¬ _ = true := fun viol => Bool.false_ne_true (clear.symm.trans viol)
      exact execRoceWriteImm_takes awake found up eth live
        ((if_neg (by simpa using data)).trans ((Mod.rdmaWrite_window some).trans (if_neg clean))) imm
  case noRead =>
    rw [execRoceRead_takes awake found up eth live, Mod.roceRead, Mod.roceTaken, none]
    rfl
  case read =>
    rw [execRoceRead_takes awake found up eth live, Mod.roceRead, Mod.roceTaken, some]
    simp only [clear, sound, Bool.false_eq_true, if_false]
    rfl
  case retry => exact (execRoceRetryTimeout_waits found live waits).trans (congrArg (Becomes s) (if_neg (Nat.not_le.mpr few)))
  case fails => exact (execRoceRetryTimeout_waits found live waits).trans (congrArg (Becomes s) (if_pos seven))
  case whole => exact execVflMgmt_whole small here zero on (by rw [first]; exact whole)

end Sys2Proof.Machine
end

section
/-! Fuses (22 R602, R611): FW_SVN_COMMIT alone blows any, and the dictionary reaches it through the action of that name; every other command leaves
the factory record as it is. -/

namespace Sys2Proof.Machine

/-- The factory record has moved on, and no type has more fuses blown than there are, if none had. -/
def Fuse.MovesOn (a b : Fuse) : Prop :=
  Fuse.Follows a b ∧ ((∀ k, a.svnMin.getD k 0 ≤ 64) → ∀ k, b.svnMin.getD k 0 ≤ 64)

theorem Fuse.MovesOn.refl (a : Fuse) : a.MovesOn a :=
  ⟨⟨rfl, rfl, rfl, rfl, rfl, rfl, rfl, rfl, rfl, fun _ => Nat.le_refl _⟩, id⟩

theorem Fuse.MovesOn.of_eq {a b : Fuse} (h : b = a) : a.MovesOn b := h ▸ .refl a

theorem Fuse.Follows.trans {a b c : Fuse} (x : a.Follows b) (y : b.Follows c) : a.Follows c := by
  obtain ⟨x1, x2, x3, x4, x5, x6, x7, x8, x9, rise⟩ := x
  obtain ⟨y1, y2, y3, y4, y5, y6, y7, y8, y9, rise'⟩ := y
  exact ⟨y1.trans x1, y2.trans x2, y3.trans x3, y4.trans x4, y5.trans x5, y6.trans x6, y7.trans x7, y8.trans x8, y9.trans x9,
    fun t => (rise t).trans (rise' t)⟩

theorem Fuse.MovesOn.trans {a b c : Fuse} (x : a.MovesOn b) (y : b.MovesOn c) : a.MovesOn c :=
  ⟨x.1.trans y.1, y.2 ∘ x.2⟩

/-- Fuses of a type blown up to `n`, no more than there are. -/
def Fuse.blown (f : Fuse) (t n : Nat) : Fuse := { f with svnMin := f.svnMin.put t (max (f.svnMin.getD t 0) n) }

theorem Fuse.svnMin_blown_same (f : Fuse) (t n : Nat) : (f.blown t n).svnMin.getD t 0 = max (f.svnMin.getD t 0) n := Tab.getD_put_same _ _ _ _
theorem Fuse.svnMin_blown_other (f : Fuse) {t k : Nat} (h : k ≠ t) (n : Nat) : (f.blown t n).svnMin.getD k 0 = f.svnMin.getD k 0 :=
  Tab.getD_put_other h _ _ _

theorem Fuse.movesOn_blown (f : Fuse) (t : Nat) {n : Nat} (h : n ≤ 64) : f.MovesOn (f.blown t n) := by
  refine ⟨⟨rfl, rfl, rfl, rfl, rfl, rfl, rfl, rfl, rfl, fun k => ?rises⟩, fun few k => ?few⟩
  all_goals obtain rfl | other := eq_or_ne k t
  case rises.inl => exact (f.svnMin_blown_same k n).symm ▸ Nat.le_max_left _ _
  case rises.inr => exact (f.svnMin_blown_other other n).ge
  case few.inl => exact (f.svnMin_blown_same k n).symm ▸ Nat.max_le.mpr ⟨few k, h⟩
  case few.inr => exact (f.svnMin_blown_other other n).symm ▸ few k

section
variable (s : State)

/-- FW_SVN_COMMIT blows the fuses of a type up to an SVN of at most 64, or leaves the state as it is. -/
theorem State.svnCommit_cases (t : Nat) : (s.svnCommit t).2 = s ∨ ∃ n ≤ 64, (s.svnCommit t).2 = { s with fuse := s.fuse.blown t n } := by
  unfold State.svnCommit
  dsimp only
  split
  · exact .inl rfl
  split
  · exact .inl rfl
  split
  · exact .inl rfl
  split
  · exact .inl rfl
  · rename_i i _ few
    exact .inr ⟨i.svn, Nat.not_lt.mp few, rfl⟩

theorem State.svnCommit_moves (t : Nat) : s.fuse.MovesOn (s.svnCommit t).2.fuse := by
  obtain e | ⟨n, few, e⟩ := s.svnCommit_cases t
  · rw [e]
    exact .refl _
  · rw [e]
    exact s.fuse.movesOn_blown t few

/-! Requests of the dictionary. -/

@[simp] theorem State.readRo_fuse (x : Session) (r : PRow) (i : Nat) : (s.readRo x r i).2.fuse = s.fuse := by
  unfold State.readRo
  dsimp only
  split
  · rfl
  · split <;> rfl

@[simp] theorem State.readCtr_fuse (x : Session) (d : CtrDef) : (s.readCtr x d).2.fuse = s.fuse := by
  simp only [State.readCtr, apply_ite Prod.snd, apply_ite State.fuse, ite_self]

@[simp] theorem State.readOne_fuse (x : Session) (n : Nat) : (s.readOne x n).2.fuse = s.fuse := by
  unfold State.readOne
  split
  · dsimp only
    repeat' split
    all_goals simp
  · exact s.readCtr_fuse x _
  · rfl

@[simp] theorem State.readAll_fuse (x : Session) (l : List Nat) : (s.readAll x l).2.fuse = s.fuse := by
  induction l generalizing s with
  | nil => rfl
  | cons n l ih => exact (ih _).trans (s.readOne_fuse x n)

@[simp] theorem State.setParam_fuse (t : Transport) (sid : Nat) (r : PRow) (n i : Nat) (v : PVal) : (s.setParam t sid r n i v).2.fuse = s.fuse := by
  simp only [State.setParam, apply_ite Prod.snd, apply_ite State.fuse, ite_self]

@[simp] theorem State.markDirty_fuse (r : PRow) (x : Nat × State) : (s.markDirty r x).2.fuse = x.2.fuse := by
  simp only [State.markDirty, apply_ite Prod.snd, apply_ite State.fuse, ite_self]

theorem State.actFw_moves (n : Nat) (v : PVal) (e : ActEnv) : s.fuse.MovesOn (s.actFw n v e).2.fuse := by
  by_cases h : n = pFwSvnCommit
  · subst h
    exact s.svnCommit_moves v.int.toNat
  · refine .of_eq ?_
    simp only [State.actFw, if_neg h, apply_ite Prod.snd, apply_ite State.fuse, ite_self]

theorem State.act_moves (x : Session) (r : PRow) (n i : Nat) (v : PVal) (e : ActEnv) : s.fuse.MovesOn (s.act x r n i v e).2.fuse := by
  unfold State.act
  dsimp only
  split
  · exact .refl _
  split
  · exact State.actFw_moves { s with m := _ } n v e
  split
  · exact .refl _
  · exact .refl _

theorem State.writeVal_moves (t : Transport) (sid : Nat) (x : Session) (r : PRow) (n i : Nat) (v : PVal) (e : ActEnv) :
    s.fuse.MovesOn (s.writeVal t sid x r n i v e).2.fuse := by
  unfold State.writeVal
  dsimp only
  split
  · split
    · exact .refl _
    split
    · exact .refl _
    · exact s.act_moves x r n i v e
  split
  · split
    · split <;> exact .refl _
    · exact .refl _
  split
  · exact .refl _
  · exact .of_eq ((s.markDirty_fuse r _).trans (s.setParam_fuse t sid r n i v))

theorem State.writeOne_moves (t : Transport) (sid : Nat) (x : Session) (e : KEntry) (env : ActEnv) :
    s.fuse.MovesOn (s.writeOne t sid x e env).2.fuse := by
  unfold State.writeOne
  dsimp only
  split
  · exact .refl _
  · split <;> exact .refl _
  · split
    · exact .refl _
    split
    · exact .refl _
    split
    · exact .refl _
    split
    · exact s.writeVal_moves t sid x _ _ _ _ env
    · exact .refl _

theorem State.writeAll_moves (t : Transport) (sid : Nat) (x : Session) (l : List KEntry) (env : List ActEnv) :
    s.fuse.MovesOn (s.writeAll t sid x l env).2.fuse := by
  induction l generalizing s env with
  | nil => exact .refl _
  | cons e l ih => exact (s.writeOne_moves t sid _ e _).trans (ih _ _)

/-- A request moves the factory record on: one that writes may perform FW_SVN_COMMIT. -/
theorem State.request_moves (t : Transport) (f : KFrame) (x : Session) (env : List ActEnv) (sigOk : Bool) :
    s.fuse.MovesOn (s.request t f x env sigOk).2.fuse := by
  unfold State.request
  dsimp only
  split
  case h_3 => exact s.writeAll_moves t _ x f.body env
  case h_6 => split <;> exact .refl _
  all_goals
    refine .of_eq ?_
    simp [apply_ite Prod.snd, apply_ite State.fuse]

theorem State.serve_moves (t : Transport) (f : KFrame) (env : List ActEnv) (sigOk : Bool) : s.fuse.MovesOn (s.serve t f env sigOk).fuse := by
  unfold State.serve
  extract_lets
  split
  · exact .refl _
  split
  · exact .refl _
  split
  · exact .refl _
  split
  · split <;> exact .refl _
  extract_lets
  split
  · exact .refl _
  split
  · exact .refl _
  · exact State.request_moves { s with m := _ } t f _ env sigOk

theorem State.submit_moves (t : Transport) (f : KFrame) (env : List ActEnv) (sigOk : Bool) : s.fuse.MovesOn (s.submit t f env sigOk).fuse := by
  unfold State.submit
  split
  · exact .refl _
  split
  · exact s.serve_moves _ f env sigOk
  · exact State.serve_moves { s with m := _ } _ f env sigOk
  split
  · exact .refl _
  split
  · exact .refl _
  · exact State.serve_moves { s with m := _ } t f env sigOk

end

/-! Commands. -/


/-- A command whose operands fail their check does nothing. -/
theorem check_moves {s g t : State} {r : Refusal} {ok : Bool} (h : (if ok then .next g else .refused r : Out) = .next t)
    (moves : s.fuse.MovesOn g.fuse) : s.fuse.MovesOn t.fuse := by
  split at h
  · cases h
    exact moves
  · cases h

/-- An access of an address that does not exist faults. -/
theorem controller_moves {s t : State} {pa : Nat} {m : Mod} (h : (if paLimit ≤ pa then .fault (.noSuchAddress pa) else .next { s with m := m } : Out) = .next t) :
    s.fuse.MovesOn t.fuse := by
  split at h
  · cases h
  · cases h
    exact .refl _

/-- FW_SVN_COMMIT and the frames of the dictionary move the factory record on; every other command acts on the module alone. -/
theorem exec_moves {c : Instr} {s t : State} (h : exec c s = .next t) : s.fuse.MovesOn t.fuse := by
  cases c
  case memRead | memWrite | parityDelta | scrub => exact controller_moves h
  case integerOp | branch | tswr | tsrd | red | creditReturn | cnSwr | auditSample | stackThermalSample | commandFetchDone | fabLinkUp |
      ethLaneLoss | frameReplay | vflDcmp | vflOpenAck | vflMgmt =>
    exact check_moves h (.refl _)
  case kdpDiscover | kdpRead | kdpWrite | kdpDescribe | kdpLoginChallenge | kdpLoginResponse | kdpLogout | kdpSubscribe | kdpFetchEvents =>
    exact check_moves h (s.submit_moves ..)
  case mbxGo =>
    cases h
    exact s.submit_moves ..
  case fwSvnCommit type =>
    cases h
    exact s.svnCommit_moves type.toNat
  all_goals
    cases h
    exact .refl _

/-- Settles O58: an idle cycle leaves the record, and every command moves it on (`exec_moves`). -/
theorem fusesOnlyMoveOn : Obligations.FusesOnlyMoveOn := by
  intro s t h
  cases hp : s.pending with
  | nil =>
    simp only [step, hp] at h
    cases h
    exact Fuse.MovesOn.refl s.fuse
  | cons c rest =>
    simp only [step, hp] at h
    exact exec_moves (s := { s with pending := rest }) h

end Sys2Proof.Machine
end

section
/-! Counters (23 R615, R616, R621, R622): what counting leaves of the counter itself and of every other one. -/

namespace Sys2Proof.Machine

theorem ctrKey_inj {num inst k j : Nat} (hi : inst < 2 ^ 32) (hj : j < 2 ^ 32) (h : ctrKey k j = ctrKey num inst) : k = num ∧ j = inst := by
  simp only [ctrKey] at h
  omega

/-- Does counting `n` more events raise ODO_MAX (R616)? -/
def Mod.maxHit (m : Mod) (num inst n : Nat) : Bool :=
  let d := bumpCtr (ctrSticks num) n (m.counter num inst)
  d.ovf && !d.maxSent && m.parB pOdoMaxEn

section
variable (m : Mod) (num inst n : Nat)

variable {m num inst n} in
theorem Mod.countBy_of_hit (h : m.maxHit num inst n = true) : m.countBy num inst n =
    { m with ctr := m.ctr.put (ctrKey num inst) { bumpCtr (ctrSticks num) n (m.counter num inst) with maxSent := true } }.raise
      evOdoMax 0 noPart (num + inst * 2 ^ 32) := by
  simp only [maxHit] at h
  simp only [countBy, h, if_true]

variable {m num inst n} in
theorem Mod.countBy_of_no_hit (h : m.maxHit num inst n = false) : m.countBy num inst n =
    { m with ctr := m.ctr.put (ctrKey num inst) (bumpCtr (ctrSticks num) n (m.counter num inst)) } := by
  simp only [maxHit] at h
  simp only [countBy, h, Bool.false_eq_true, if_false]

/-- Counting changes the table of counters at the instance alone. -/
theorem Mod.countBy_ctr : (m.countBy num inst n).ctr = m.ctr.put (ctrKey num inst)
    { bumpCtr (ctrSticks num) n (m.counter num inst) with
      maxSent := (bumpCtr (ctrSticks num) n (m.counter num inst)).maxSent || m.maxHit num inst n } := by
  cases h : m.maxHit num inst n
  · rw [countBy_of_no_hit h, Bool.or_false]
  · rw [countBy_of_hit h, Bool.or_true]
    rfl

theorem Mod.counter_countBy : (m.countBy num inst n).counter num inst =
    { bumpCtr (ctrSticks num) n (m.counter num inst) with
      maxSent := (bumpCtr (ctrSticks num) n (m.counter num inst)).maxSent || m.maxHit num inst n } := by
  rw [counter, countBy_ctr]
  exact Tab.getD_put_same _ _ _ _

theorem Mod.counter_countBy_other {k j : Nat} (h : ctrKey k j ≠ ctrKey num inst) : (m.countBy num inst n).counter k j = m.counter k j := by
  rw [counter, countBy_ctr]
  exact Tab.getD_put_other h _ _ _

@[simp] theorem Mod.counter_clearCtr : (m.clearCtr num inst).counter num inst =
    { m.counter num inst with value := 0, ovf := false, epoch := (m.counter num inst).epoch + 1, maxSent := false } :=
  Tab.getD_put_same _ _ _ _

/-! What one more event leaves of the counter's fields: the mark of ODO_MAX is not among them. -/

theorem Mod.counter_count_fields : let c := m.counter num inst
    let d := (m.count num inst).counter num inst
    let b := bumpCtr (ctrSticks num) 1 c
    d.value = b.value ∧ d.ovf = b.ovf ∧ d.epoch = c.epoch ∧ d.stored = c.stored := by
  have kept : (bumpCtr (ctrSticks num) 1 (m.counter num inst)).epoch = (m.counter num inst).epoch ∧
      (bumpCtr (ctrSticks num) 1 (m.counter num inst)).stored = (m.counter num inst).stored := by
    unfold bumpCtr
    split
    · split <;> exact ⟨rfl, rfl⟩
    · exact ⟨rfl, rfl⟩
  rw [count, counter_countBy]
  exact ⟨rfl, rfl, kept⟩

/-- The module after an instance has counted one event `n` times. -/
def Mod.counted : Mod := Nat.repeat (fun x : Mod => x.count num inst) n m

theorem Mod.counted_kept : ((m.counted num inst n).counter num inst).epoch = (m.counter num inst).epoch ∧
    ((m.counted num inst n).counter num inst).stored = (m.counter num inst).stored := by
  induction n with
  | zero => exact ⟨rfl, rfl⟩
  | succ n ih =>
    obtain ⟨-, -, epoch, stored⟩ := (m.counted num inst n).counter_count_fields num inst
    exact ⟨epoch.trans ih.1, stored.trans ih.2⟩

variable {num}

/-- A STICK counter stops at its top, where OVF is set. -/
theorem Mod.counted_sticks (sticks : ctrSticks num = true) (small : (m.counter num inst).value ≤ 0xFFFFFFFF) :
    let c := m.counter num inst
    let d := (m.counted num inst n).counter num inst
    d.value = min (c.value + n) 0xFFFFFFFF ∧ d.ovf = (c.ovf || decide (0 < n ∧ 0xFFFFFFFF ≤ c.value + n)) := by
  induction n with
  | zero => exact ⟨(Nat.min_eq_left small).symm, by simp [counted, Nat.repeat]⟩
  | succ n ih =>
    obtain ⟨value, ovf⟩ := ih
    obtain ⟨value', ovf', -⟩ := (m.counted num inst n).counter_count_fields num inst
    change (((m.counted num inst n).count num inst).counter num inst).value = _ ∧ (((m.counted num inst n).count num inst).counter num inst).ovf = _
    rw [value', ovf']
    simp only [bumpCtr, sticks, if_true]
    by_cases top : 0xFFFFFFFF ≤ ((m.counted num inst n).counter num inst).value + 1
    · rw [if_pos top]
      rw [value] at top
      exact ⟨by dsimp only; omega, by simp; omega⟩
    · rw [if_neg top]
      rw [value] at top
      refine ⟨by dsimp only; omega, ?_⟩
      dsimp only
      rw [ovf]
      congr 1
      simp only [decide_eq_decide]
      omega

/-- A WRAP counter counts modulo 2^64. -/
theorem Mod.counted_wraps (wraps : ctrSticks num = false) (small : (m.counter num inst).value < 2 ^ 64) :
    let c := m.counter num inst
    let d := (m.counted num inst n).counter num inst
    d.value = (c.value + n) % 2 ^ 64 ∧ d.ovf = c.ovf := by
  induction n with
  | zero => exact ⟨(Nat.mod_eq_of_lt small).symm, rfl⟩
  | succ n ih =>
    obtain ⟨value, ovf⟩ := ih
    obtain ⟨value', ovf', -⟩ := (m.counted num inst n).counter_count_fields num inst
    change (((m.counted num inst n).count num inst).counter num inst).value = _ ∧ (((m.counted num inst n).count num inst).counter num inst).ovf = _
    rw [value', ovf']
    simp only [bumpCtr, wraps, Bool.false_eq_true, if_false]
    exact ⟨by rw [value]; omega, ovf⟩

/-- An event that finds a STICK counter at its top is reported, unless the epoch has had its report (R616). -/
theorem Mod.maxHit_of_top (sticks : ctrSticks num = true) (on : m.parB pOdoMaxEn = true) (top : 0xFFFFFFFF ≤ (m.counter num inst).value + n)
    (fresh : (m.counter num inst).maxSent = false) : m.maxHit num inst n = true := by
  simp [maxHit, bumpCtr, sticks, top, fresh, on]

theorem Mod.maxHit_of_sent (sent : (m.counter num inst).maxSent = true) : m.maxHit num inst n = false := by
  have kept : (bumpCtr (ctrSticks num) n (m.counter num inst)).maxSent = true := by
    unfold bumpCtr
    split
    · split <;> exact sent
    · exact sent
  simp [maxHit, kept]

end

/-- Settles O57: counts by induction (`Mod.counted_sticks`, `Mod.counted_wraps`), ODO_MAX by `Mod.maxHit_of_top` and `Mod.maxHit_of_sent`. -/
theorem countersCount : Obligations.CountersCount := by
  intro m num inst
  dsimp only
  refine ⟨fun n => ⟨(m.counted_kept num inst n).1, (m.counted_kept num inst n).2, fun sticks small => ?_, m.counted_wraps inst n⟩,
    fun n k j hi hj other => m.counter_countBy_other num inst n fun same => ?_, fun n sticks on top fresh => ?_, fun n sent => ?_,
    m.counter_clearCtr num inst⟩
  · obtain ⟨value, ovf⟩ := m.counted_sticks inst n sticks small
    exact ⟨value, fun some => ovf.trans (by simp [some])⟩
  · obtain ⟨rfl, rfl⟩ := ctrKey_inj hi hj same
    exact other.elim (· rfl) (· rfl)
  · have hit := m.maxHit_of_top inst n sticks on top fresh
    exact ⟨by rw [m.counter_countBy, hit, Bool.or_true], _, congrArg (·.kod.evq) (Mod.countBy_of_hit hit), rfl, rfl⟩
  · exact congrArg (·.kod.evq) (Mod.countBy_of_no_hit (m.maxHit_of_sent inst n sent))

end Sys2Proof.Machine
end

section
/-! The state after reset (24, log 12). -/

namespace Sys2Proof.Machine

theorem State.safe_of_idle {s : State} (h : s.pending = []) : s.Safe := ⟨s.idle, by simp only [step, h]⟩

/-- Settles O60: every table of the reset state is empty, so that each unit reads as its declared value, and the empty queue idles. -/
theorem resetState : Obligations.ResetState := by
  have counter (n i : Nat) : State.reset.m.counter n i = {} := rfl
  have fuse (k : Nat) : State.reset.fuse.svnMin.getD k 0 = 0 := rfl
  exact ⟨rfl, rfl, rfl, rfl, counter, fun n i => counter n i ▸ ⟨rfl, rfl, rfl⟩, fun _ => ⟨rfl, rfl⟩, rfl, rfl, rfl, fun _ => ⟨rfl, rfl, rfl, rfl⟩,
    fun _ => ⟨rfl, rfl⟩, fun k => (fuse k).trans_le (Nat.zero_le 64), State.safe_of_idle rfl⟩

end Sys2Proof.Machine
end

section
/-! Power, clocks and thermal control (20 R557-R568, 09 R294, R295). -/

namespace Sys2Proof.Machine

/-- A fold whose step for each element makes something true of it, which the steps for all elements keep. -/
theorem forEach_establishes {α : Type} {P : α → Mod → Prop} {f : α → Mod → Mod} (own : ∀ x m, P x (f x m))
    (keeps : ∀ x y m, P y m → P y (f x m)) {l : List α} {x : α} (h : x ∈ l) (m : Mod) : P x (forEach l f m) := by
  induction l generalizing m with
  | nil => cases h
  | cons y l ih =>
    obtain rfl | h := List.mem_cons.mp h
    · exact forEach_invariant (fun y m => keeps y x m) l (own x m)
    · exact ih h (f y m)

/-! Halves read back. -/

theorem Mod.half_of_halves {m n : Mod} (h : n.halves = m.halves) (i : Nat) : n.half i = m.half i := by simp only [half, h]

@[simp] theorem Mod.countBy_halves (m : Mod) (num inst n : Nat) : (m.countBy num inst n).halves = m.halves := by
  obtain ⟨_, _, e⟩ := m.countBy_frame num inst n
  rw [e]
@[simp] theorem Mod.count_halves (m : Mod) (num inst : Nat) : (m.count num inst).halves = m.halves := m.countBy_halves num inst 1

/-! Input and reference (20 R557, R560). -/

section
variable {s : State}

theorem execBusConverterFail_working (on : s.m.mod.mstate ≠ 0) {c : Fin 5} (works : s.m.pwr.convOk.getLsbD c.val = true) :
    exec (.busConverterFail c) s =
      let n := s.m.updPwr fun p => { p with convOk := p.convOk &&& ~~~(BitVec.ofNat 5 (2 ^ c.val)) }
      Becomes s (if s.m.pwr.convOk = 0x1F then n.raise evPwrConvFail 0 noPart c.val else n.kick 6) := by
  rw [exec_busConverterFail, execBusConverterFail, State.go_eq, if_neg (by simp [on, works])]
  simp only [beq_iff_eq]
  rfl

theorem execRefclkLoss_of_refclk (on : s.m.mod.mstate ≠ 0) (refclk : s.m.pwr.refOsc = false) : exec .refclkLoss s =
    Becomes s (((s.m.updPwr fun p => { p with refOsc := true }).count kPwrRefSwitch 0).raise evPwrRefLost 0 noPart 0) := by
  rw [exec_refclkLoss, execRefclkLoss, State.go_eq, if_neg (by simp [on, refclk])]
  rfl

/-! The reference is selected (20 R560). -/

theorem Mod.refSelect_range (m : Mod) {src : Nat} (h : 2 ≤ src) (present : Bool) : m.refSelect src present = (esRANGE, m) := if_pos h
theorem Mod.refSelect_absent (m : Mod) : m.refSelect 0 false = (esSTATE, m) := rfl
theorem Mod.refSelect_refclk {m : Mod} (osc : m.pwr.refOsc = true) :
    m.refSelect 0 true = (esOK, (m.updPwr fun p => { p with refOsc := false }).count kPwrRefSwitch 0) := by
  simp only [refSelect, osc]
  rfl
theorem Mod.refSelect_osc {m : Mod} (refclk : m.pwr.refOsc = false) (present : Bool) :
    m.refSelect 1 present = (esOK, (m.updPwr fun p => { p with refOsc := true }).count kPwrRefSwitch 0) := by
  simp only [refSelect, refclk]
  rfl

/-! Divisions (20 R562, R565, 09 R294). -/

theorem pairOk_iff (a b : Nat) : pairOk a b = true ↔ a = b ∨ a = 4 ∨ b = 4 := by simp [pairOk, or_assoc]

/-- A half changes its division and nothing of its cap; no other half changes. -/
theorem Mod.setDiv_halves (m : Mod) (h d : Nat) :
    ∃ y : Half, y.div = d ∧ y.capDiv = (m.half h).capDiv ∧ (m.setDiv h d).halves = m.halves.put h y := by
  unfold setDiv
  split
  next same => exact ⟨{ m.half h with reqDiv := none }, same, rfl, rfl⟩
  next =>
    refine ⟨_, ?div, ?cap, (count_halves _ _ _).trans rfl⟩
    all_goals rfl

/-- What the fast clamp does to a half. -/
def Mod.clamped (h : Nat) (m : Mod) : Mod := (m.updHalf h fun x => { x with capDiv := 8 }).setDiv h 8

/-- A half runs at the slowest division, held there by the cap. -/
def Mod.Slowest (h : Nat) (m : Mod) : Prop := (m.half h).div = 8 ∧ (m.half h).capDiv = 8

theorem Mod.clamped_slowest (h : Nat) (m : Mod) : Slowest h (m.clamped h) := by
  obtain ⟨y, div, cap, e⟩ := (m.updHalf h fun x => { x with capDiv := 8 }).setDiv_halves h 8
  have at_h : (m.clamped h).half h = y := by
    rw [half, clamped, e]
    exact Tab.getD_put_same _ _ _ _
  rw [half_updHalf] at cap
  exact ⟨at_h ▸ div, at_h ▸ cap⟩

theorem Mod.clamped_keeps (h j : Nat) (m : Mod) (slow : Slowest j m) : Slowest j (m.clamped h) := by
  obtain rfl | other := eq_or_ne j h
  · exact m.clamped_slowest j
  · obtain ⟨y, -, -, e⟩ := (m.updHalf h fun x => { x with capDiv := 8 }).setDiv_halves h 8
    have at_j : (m.clamped h).half j = m.half j := by
      rw [half, clamped, e, Tab.getD_put_other other]
      exact m.half_updHalf_other other _
    rwa [Slowest, at_j]

section
variable (on : s.m.powered = true)
include on

theorem execPllLockLoss_powered (d : Fin 12) : exec (.pllLockLoss d) s = Becomes s (
    if d.val < 8 then (s.m.halfFail s.fuse.order.val (2 * d.val)).halfFail s.fuse.order.val (2 * d.val + 1)
    else if s.m.iodState (d.val - 8) = 1 then s.m else s.m.iodFail s.fuse.order.val (d.val - 8)) := by
  rw [exec_pllLockLoss, execPllLockLoss, State.go_eq, if_neg (by simp [on])]
  rfl

theorem execClkADivChange_requested {h : SliceId} {d : Nat} (requested : (s.m.half h.val).reqDiv = some d) :
    exec (.clkADivChange h) s =
      let o := h.val ^^^ 1
      let e := (s.m.half o).div
      let both := (s.m.setDiv h.val (max d e)).setDiv o (max d e)
      Becomes s (if pairOk d e = true then s.m.setDiv h.val d
        else match (s.m.half o).reqDiv with
          | some f => if pairOk d f = true then (s.m.setDiv h.val d).setDiv o f else both
          | none => both) := by
  rw [exec_clkADivChange, execClkADivChange, State.go_eq]
  simp only [requested, on, Bool.not_true, Bool.false_eq_true, if_false]
  rfl

theorem execFastClamp_powered (w : Nat) : exec (.fastClamp w) s = Becomes s (
    if w ≤ s.m.clampW then s.m else (forEach (List.range 16) Mod.clamped s.m).count kPwrFastclamp 0) := by
  rw [exec_fastClamp, execFastClamp, State.go_eq]
  simp only [on, Bool.not_true, Bool.false_or, decide_eq_true_eq]
  rfl

/-- The module once the cap's loop has taken a sample. -/
def Mod.capSampled (m : Mod) (order w : Nat) : Mod :=
  let cap := m.effCap order
  m.updPwr fun p => { p with
    inputW := w, runs := trimRuns secondSamples (pushRun (decide (cap < 12000 * (w : Int))) p.runs), samples := p.samples + 1,
    lowRun := if decide (12000 * (w : Int) ≤ cap - 12000 * m.par pPwrHyst) then p.lowRun + 1 else 0 }

theorem execPowerCapSample_powered (w : Nat) : exec (.powerCapSample w) s =
    let n := s.m.capSampled s.fuse.order.val w
    Becomes s (
      if (decide (4500 ≤ n.pwr.excess) && decide (s.m.effCap s.fuse.order.val < 12000 * (w : Int)) && since n.pwr.samples n.pwr.lastSlow 10) = true
        then n.capSlow
      else if (decide (1000 ≤ n.pwr.lowRun ∧ n.pwr.excess < 2500) && since n.pwr.samples n.pwr.lastFast 10) = true then n.capRestore
      else n) := by
  have up : (s.m.updPwr fun p => { p with inputW := w }).powered = true := on
  rw [exec_powerCapSample, execPowerCapSample, State.go_eq]
  dsimp only
  rw [if_neg (by simp [up])]
  rfl

/-- The half once the thermal loop has taken a sample. -/
def Mod.thermSampled (m : Mod) (h : Nat) (c : Int) : Mod := m.updHalf h fun x => { x with tj := c, thermAge := x.thermAge + 1 }

theorem execThermalLoopSample_powered (h : SliceId) (c : Int) : exec (.thermalLoopSample h c) s =
    let n := s.m.thermSampled h.val c
    let x := n.half h.val
    Becomes s (
      if (decide (s.m.par pPwrTjTarget < c) && decide (10 ≤ x.thermAge) && x.thermDiv != 8) = true then
        (n.updHalf h.val fun x => { x with thermDiv := slower x.thermDiv, thermAge := 0 }).askDivs
      else if (decide (c < s.m.par pPwrTjTarget - 5) && decide (100 ≤ x.thermAge) && x.thermDiv != 4) = true then
        (n.updHalf h.val fun x => { x with thermDiv := faster x.thermDiv, thermAge := 0 }).askDivs
      else n) := by
  rw [exec_thermalLoopSample, execThermalLoopSample, State.go_eq, if_neg (by simp [on])]
  rfl

/-- The half once the voltage loop has taken a step. -/
def Mod.voltStepped (m : Mod) (h : Nat) (margin : Fin 3) : Mod :=
  let x := m.half h
  let v := if margin = 0 then x.vdd + 1 else if margin = 1 then x.vdd else x.vdd - 1
  m.updHalf h fun x => { x with vdd := min (min 140 (Config.vddFuse h x.div 1)) (max (min 140 (Config.vddFuse h x.div 0)) v) }

omit on in
theorem Mod.updHalf_congr {m : Mod} {h : Nat} {f g : Half → Half} (e : f (m.half h) = g (m.half h)) : m.updHalf h f = m.updHalf h g := by
  rw [updHalf, e, updHalf]

/-- The division of the half at its limit is the one it had before the step. -/
theorem execVoltageLoopStep_powered (h : SliceId) (g : Fin 3) (held : Bool) : exec (.voltageLoopStep h g held) s =
    let x := s.m.half h.val
    let n := s.m.voltStepped h.val g
    Becomes s (
      if (held && g == 0 && x.holdDiv != slower x.div) = true then
        ((n.updHalf h.val fun y => { y with holdDiv := max y.holdDiv (slower x.div) }).askDivs).raise evPwrVmaxHold 0 noPart h.val
      else n) := by
  have same : ((s.m.voltStepped h.val g).updHalf h.val fun y => { y with holdDiv := max y.holdDiv (slower y.div) }) =
      (s.m.voltStepped h.val g).updHalf h.val fun y => { y with holdDiv := max y.holdDiv (slower (s.m.half h.val).div) } := by
    refine Mod.updHalf_congr ?_
    rw [Mod.voltStepped, Mod.half_updHalf]
  rw [exec_voltageLoopStep, execVoltageLoopStep, State.go_eq, if_neg (by simp [on])]
  dsimp only
  rw [← same]
  rfl

theorem execDroopThrottle_begins {t : TileId} (calm : (s.m.tile t.val).droop = false) : exec (.droopThrottle t) s =
    let h := halfOfTile t.val
    Becomes s (((s.m.updTile t.val fun x => { x with droop := true }).updHalf h fun x => { x with droop := true }).count kPwrDroop h) := by
  rw [exec_droopThrottle, execDroopThrottle, State.go_eq, if_neg (by simp [on, calm])]
  rfl

end

theorem execSeamPauseEnd_paused {d : DieId} (paused : (s.m.die d.val).seamPaused = true) : exec (.seamPauseEnd d) s =
    let a := (s.m.half (2 * d.val)).div
    let b := (s.m.half (2 * d.val + 1)).div
    let r := (s.m.die d.val).seamRatio
    let n := s.m.updDie d.val fun x => { x with seamPaused := false, seamRatio := (a, b) }
    Becomes s (if a * r.2 = b * r.1 then n else n.count kCchSeamRatioChg d.val) := by
  rw [exec_seamPauseEnd, execSeamPauseEnd, State.go_eq, if_pos paused]
  rfl

theorem execCoolantSample_powered (on : s.m.mod.mstate ≠ 0) (f i : Nat) : exec (.coolantSample f i) s =
    let d := decide (40000 < i ∨ f < 12000)
    let n := s.m.updPwr fun p => { p with flowMilli := f, inletMilli := i, derate := d }
    Becomes s (if d = s.m.pwr.derate then n else n.raise evPwrDerate 0 noPart (n.effCap s.fuse.order.val / 12000).toNat) := by
  have awake : (s.m.mod.mstate == 0) = false := by simp [on]
  rw [exec_coolantSample, execCoolantSample, State.go_eq]
  simp only [Mod.updPwr, awake, Bool.or_false, beq_iff_eq]
  rfl

end

/-! The effective cap (20 R568). -/

theorem Mod.effCap_cool {m : Mod} (inlet : m.pwr.inletMilli ≤ 40000) (flow : 12000 ≤ m.pwr.flowMilli) (order : Nat) :
    m.effCap order = 12000 * m.kod.params.getD pPwrCap (tdp order) := by
  rw [effCap, if_neg (by omega), if_neg (by omega)]

theorem Mod.effCap_low_flow {m : Mod} (flow : m.pwr.flowMilli < 12000) (order : Nat) : m.effCap order ≤ tdp order * m.pwr.flowMilli := by
  rw [effCap, if_pos flow]
  exact min_le_right _ _

/-- Settles O50, a case for each command: divisions by `execClkADivChange_requested`, the clamp by `Mod.clamped_slowest` for each half, the loops by
the conditions of `execPowerCapSample_powered`, `execThermalLoopSample_powered` and `execVoltageLoopStep_powered`. -/
theorem powerAndClocks : Obligations.PowerAndClocks := by
  unfold Obligations.PowerAndClocks
  intro s
  dsimp only
  refine ⟨fun c on works => ⟨fun all => ?firstConv, fun some => ?secondConv⟩, execRefclkLoss_of_refclk,
    fun serves => ⟨fun osc => State.go_perform serves (Mod.refSelect_refclk osc) _, State.go_perform serves s.m.refSelect_absent _,
      fun b refclk => State.go_perform serves (Mod.refSelect_osc refclk b) _, fun n b big => State.go_perform serves (s.m.refSelect_range big b) _⟩,
    fun on => ⟨fun d => ⟨fun compute => ?pllDie, fun iod up => ?pllIod⟩,
      fun h d requested => ⟨fun fine => ?div, fun f bad other fine => ?divPair, fun f bad other bad' => ?divBoth, fun bad none => ?divAlone⟩,
      fun w exceeds => ?clamps, fun w under => ?calm,
      fun w => ⟨fun x above due => ?slow, fun x low due => ?restore, fun x low => ?keep, fun x why => ?keepHigh, fun x early => ?keepEarly⟩,
      fun h c => ⟨fun hot age top => ?hot, fun cold age bottom => ?cold, fun above below => ?mild⟩,
      fun h g => ⟨?volt, fun below free => ?hold⟩, fun t calm => execDroopThrottle_begins on calm⟩,
    fun t => rfl, fun d paused => ⟨fun same => ?sameRatio, fun other => ?newRatio⟩,
    fun f i on => ⟨fun same => ?derateSame, fun other => ?derateOther⟩,
    fun inlet flow => Mod.effCap_cool inlet flow _, fun flow => Mod.effCap_low_flow flow _, pairOk_iff⟩
  case firstConv => exact (execBusConverterFail_working on works).trans (congrArg (Becomes s) (if_pos all))
  case secondConv => exact (execBusConverterFail_working on works).trans (congrArg (Becomes s) (if_neg some))
  case pllDie => exact (execPllLockLoss_powered on d).trans (congrArg (Becomes s) (if_pos compute))
  case pllIod =>
    exact (execPllLockLoss_powered on d).trans (congrArg (Becomes s) ((if_neg (Nat.not_lt.mpr iod)).trans (if_neg up)))
  case div => exact (execClkADivChange_requested on requested).trans (congrArg (Becomes s) (if_pos fine))
  case divPair => simp [execClkADivChange_requested on requested, bad, other, fine]
  case divBoth => simp [execClkADivChange_requested on requested, bad, other, bad']
  case divAlone => simp [execClkADivChange_requested on requested, bad, none]
  case clamps =>
    rw [execFastClamp_powered on, if_neg (Nat.not_le.mpr exceeds)]
    refine ⟨_, rfl, fun h small => ?_⟩
    have slow : Mod.Slowest h (forEach (List.range 16) Mod.clamped s.m) :=
      forEach_establishes Mod.clamped_slowest Mod.clamped_keeps (List.mem_range.mpr small) s.m
    dsimp only
    rwa [Mod.half_of_halves (Mod.count_halves _ _ _) h]
  case calm => exact (execFastClamp_powered on w).trans (congrArg (Becomes s) (if_pos under))
  case slow =>
    refine (execPowerCapSample_powered on w).trans (congrArg (Becomes s) (if_pos ?_))
    simp only [Bool.and_eq_true, decide_eq_true_eq]
    exact ⟨⟨x, of_decide_eq_true above⟩, due⟩
  case restore =>
    refine (execPowerCapSample_powered on w).trans (congrArg (Becomes s) ((if_neg ?_).trans (if_pos ?_)))
    all_goals simp only [Bool.and_eq_true, decide_eq_true_eq]
    · exact fun ⟨⟨high, _⟩, _⟩ => absurd (high.trans_lt x) (by decide)
    · exact ⟨⟨low, x⟩, due⟩
  case keep =>
    refine (execPowerCapSample_powered on w).trans (congrArg (Becomes s) ((if_neg ?_).trans (if_neg ?_)))
    all_goals simp only [Bool.and_eq_true, decide_eq_true_eq]
    · exact fun ⟨⟨high, _⟩, _⟩ => absurd (high.trans_lt x) (by decide)
    · exact fun ⟨⟨long, _⟩, _⟩ => absurd long (Nat.not_le.mpr low)
  case keepHigh =>
    refine (execPowerCapSample_powered on w).trans (congrArg (Becomes s) ((if_neg ?_).trans (if_neg ?_)))
    all_goals simp only [Bool.and_eq_true, decide_eq_true_eq]
    · rintro ⟨⟨high, above⟩, due⟩
      obtain low | below | early := why
      · exact absurd high (Nat.not_le.mpr low)
      · exact absurd above (of_decide_eq_false below)
      · exact absurd due (by simp only [Mod.capSampled, early, Bool.false_eq_true, not_false_eq_true])
    · exact fun ⟨⟨_, low⟩, _⟩ => absurd x (Nat.not_le.mpr low)
  case keepEarly =>
    refine (execPowerCapSample_powered on w).trans (congrArg (Becomes s) ((if_neg ?_).trans (if_neg ?_)))
    all_goals simp only [Bool.and_eq_true, decide_eq_true_eq]
    · exact fun ⟨⟨high, _⟩, _⟩ => absurd (high.trans_lt x) (by decide)
    · exact fun ⟨_, due⟩ => absurd due (by simp only [Mod.capSampled, early, Bool.false_eq_true, not_false_eq_true])
  case hot =>
    refine (execThermalLoopSample_powered on h c).trans (congrArg (Becomes s) (if_pos ?_))
    simp only [Bool.and_eq_true, decide_eq_true_eq, bne_iff_ne]
    exact ⟨⟨hot, age⟩, top⟩
  case cold =>
    refine (execThermalLoopSample_powered on h c).trans (congrArg (Becomes s) ((if_neg ?_).trans (if_pos ?_)))
    all_goals simp only [Bool.and_eq_true, decide_eq_true_eq, bne_iff_ne]
    · exact fun ⟨⟨hot, _⟩, _⟩ => by omega
    · exact ⟨⟨cold, age⟩, bottom⟩
  case mild =>
    refine (execThermalLoopSample_powered on h c).trans (congrArg (Becomes s) ((if_neg ?_).trans (if_neg ?_)))
    all_goals simp only [Bool.and_eq_true, decide_eq_true_eq, bne_iff_ne]
    · exact fun ⟨⟨hot, _⟩, _⟩ => by omega
    · exact fun ⟨⟨cold, _⟩, _⟩ => by omega
  case volt => exact (execVoltageLoopStep_powered on h g false).trans (congrArg (Becomes s) (if_neg (by simp)))
  case hold => exact (execVoltageLoopStep_powered on h g true).trans (congrArg (Becomes s) (if_pos (by simp [below, free])))
  case sameRatio => exact (execSeamPauseEnd_paused paused).trans (congrArg (Becomes s) (if_pos same))
  case newRatio => exact (execSeamPauseEnd_paused paused).trans (congrArg (Becomes s) (if_neg other))
  case derateSame => exact (execCoolantSample_powered on f i).trans (congrArg (Becomes s) (if_pos same))
  case derateOther => exact (execCoolantSample_powered on f i).trans (congrArg (Becomes s) (if_neg other))

end Sys2Proof.Machine
end

section
/-! Live repair (18 R533-R536): what a reset of a tile and the state of a die's halves leave, then the actions and what ends them. -/

namespace Sys2Proof.Machine

/-! Dies: both halves of one in a state. -/

theorem Mod.dieState_setDie (m : Mod) (d : Nat) (n : Fin 5) : (m.setDie d n).dieState d n.val = true := by
  have even : ((m.setDie d n).half (2 * d)).state = n := by
    rw [setDie, half_updHalf_other _ (by omega), half_updHalf]
  have odd : ((m.setDie d n).half (2 * d + 1)).state = n := by
    rw [setDie, half_updHalf]
  simp [dieState, even, odd]

theorem Mod.dieState_of_halves {m n : Mod} (h : n.halves = m.halves) (d k : Nat) : n.dieState d k = m.dieState d k := by
  simp only [dieState, half_of_halves h]

theorem Mod.anyHalfFailed_iff (m : Mod) : m.anyHalfFailed = true ↔ ∃ h < 16, (m.half h).state = 4 := by
  simp [anyHalfFailed]

/-! Tiles. -/

theorem Mod.any_testing_false {m : Mod} (h : ∀ e ∈ m.tiles, e.2.testing = false) : (m.tiles.any fun e => e.2.testing) = false := by
  simpa using h

/-- A tile under test. -/
def Mod.beginTest (t : Nat) (m : Mod) : Mod := m.updTile t fun x => { x with testing := true }

theorem Mod.beginTest_testing (t : Nat) (m : Mod) : ((m.beginTest t).tile t).testing = true := by rw [beginTest, tile_updTile]
theorem Mod.beginTest_keeps (t j : Nat) (m : Mod) (h : (m.tile j).testing = true) : ((m.beginTest t).tile j).testing = true := by
  obtain rfl | other := eq_or_ne j t
  · exact m.beginTest_testing j
  · rwa [beginTest, tile_updTile_other _ other]

/-- A tile as it is at start-up: an empty array, no strike, no context in its saddles. -/
def Mod.FreshTile (t : Nat) (m : Mod) : Prop := (m.tile t).ts = [] ∧ (m.tile t).strike = 0 ∧ ∀ e ∈ m.ctxs, e.1 / 4 ≠ t

theorem Mod.ctxs_resetTile {m : Mod} {t : Nat} {e : Nat × Ctx} : e ∈ (m.resetTile t).ctxs ↔ e ∈ m.ctxs ∧ e.1 / 4 ≠ t := by
  simp [resetTile, Tab.keep]

/-- A tile that returns: its fence is for its test to say. -/
theorem Mod.tile_resetTile (m : Mod) (t : Nat) : (m.resetTile t).tile t = { m.tile t with
    ts := [], poison := [], win := [], running := [], strike := 0, strikeTick := 0, tvals := [], quiet := [], stepDown := [],
    checksSince := 0, selftestDue := false, selftest := none, droop := false } := Tab.getD_put_same _ _ _ _
theorem Mod.tile_resetTile_other {t j : Nat} (h : j ≠ t) (m : Mod) : (m.resetTile t).tile j = m.tile j := Tab.getD_put_other h _ _ _

theorem Mod.resetTile_fresh (t : Nat) (m : Mod) : FreshTile t (m.resetTile t) := by
  refine ⟨?_, ?_, fun e he => (ctxs_resetTile.mp he).2⟩
  all_goals rw [tile_resetTile]
theorem Mod.resetTile_keeps (t j : Nat) (m : Mod) (fresh : FreshTile j m) : FreshTile j (m.resetTile t) := by
  obtain rfl | other := eq_or_ne j t
  · exact m.resetTile_fresh j
  · obtain ⟨ts, strike, gone⟩ := fresh
    rw [FreshTile, tile_resetTile_other other]
    exact ⟨ts, strike, fun e he => gone e (ctxs_resetTile.mp he).1⟩

/-- The tiles of a die. -/
def tilesOfDie (d : Nat) : List Nat := (List.range 128).map fun i => 128 * d + i

theorem mem_tilesOfDie {d t : Nat} : t ∈ tilesOfDie d ↔ dieOfTile t = d := by
  simp only [tilesOfDie, List.mem_map, List.mem_range, dieOfTile]
  constructor
  · rintro ⟨i, hi, rfl⟩
    omega
  · rintro rfl
    exact ⟨t % 128, Nat.mod_lt _ (by decide), Nat.div_add_mod t 128⟩

theorem mem_tilesOfDie_add {d i : Nat} (h : i < 128) : 128 * d + i ∈ tilesOfDie d := List.mem_map.mpr ⟨i, List.mem_range.mpr h, rfl⟩

/-! Actions that the rules refuse, and that they accept. -/

section
variable {m : Mod}

theorem Mod.tileTest_refused {t : Nat} (h : t ≤ 1023) (why : (m.tile t).fenced = false ∨ ∃ e ∈ m.tiles, e.2.testing = true) :
    m.tileTest t = (esSTATE, m) := by
  rw [tileTest, if_neg (Nat.not_lt.mpr h), if_pos]
  obtain free | busy := why
  · simp [free]
  · have any : (m.tiles.any fun e => e.2.testing) = true := List.any_eq_true.mpr busy
    simp only [any, Bool.or_true]

theorem Mod.tileTest_begins {t : Nat} (h : t ≤ 1023) (fenced : (m.tile t).fenced = true) (up : (m.half (halfOfTile t)).state ≠ 4)
    (idle : ∀ e ∈ m.tiles, e.2.testing = false) : m.tileTest t = (esRUNNING, m.beginTest t) := by
  rw [tileTest, if_neg (Nat.not_lt.mpr h), if_neg]
  · rfl
  · simp [fenced, up, any_testing_false idle]

variable {d : Nat}

theorem Mod.dieDrain_refused (h : d ≤ 7) (why : ∃ h < 16, (m.half h).state ≠ 0) : m.dieDrain d = (esSTATE, m) := by
  rw [dieDrain, if_neg (Nat.not_lt.mpr h), if_pos]
  simpa using .inr why
theorem Mod.dieDrain_begins (h : d ≤ 7) (up : ∀ h < 16, (m.half h).state = 0) : m.dieDrain d = (esRUNNING, m.setDie d 1) := by
  have none_failed : m.anyHalfFailed = false := by
    rw [← Bool.not_eq_true, anyHalfFailed_iff]
    rintro ⟨h, small, failed⟩
    exact absurd ((up h small).symm.trans failed) (by decide)
  rw [dieDrain, if_neg (Nat.not_lt.mpr h), if_neg]
  simpa [none_failed] using up

theorem Mod.dieTest_refused (h : d ≤ 7) (failed : ∃ h < 16, (m.half h).state = 4) : m.dieTest d = (esSTATE, m) := by
  rw [dieTest, if_neg (Nat.not_lt.mpr h), if_pos]
  simp [m.anyHalfFailed_iff.mpr failed]
theorem Mod.dieReturn_refused (h : d ≤ 7) (failed : ∃ h < 16, (m.half h).state = 4) : m.dieReturn d = (esSTATE, m) := by
  rw [dieReturn, if_neg (Nat.not_lt.mpr h), if_pos]
  simp [m.anyHalfFailed_iff.mpr failed]

/-- The tiles of a die are under test, and are to report. -/
def Mod.underTest (m : Mod) (d : Nat) : Mod :=
  (m.setDie d 3).updFt fun f => { f with dieTest := some d, testing := tilesOfDie d, testResult := 0 }

theorem Mod.none_failed (h : ∀ h < 16, (m.half h).state ≠ 4) : m.anyHalfFailed = false := by
  rw [← Bool.not_eq_true, anyHalfFailed_iff]
  rintro ⟨i, small, failed⟩
  exact h i small failed

theorem Mod.dieTest_begins (h : d ≤ 7) (drained : m.dieState d 2 = true) (up : ∀ h < 16, (m.half h).state ≠ 4) (free : m.ft.dieTest = none)
    (idle : ∀ e ∈ m.tiles, e.2.testing = false) : m.dieTest d = (esRUNNING, (forEach (tilesOfDie d) beginTest m).underTest d) := by
  rw [dieTest, if_neg (Nat.not_lt.mpr h), if_neg]
  · rfl
  · simp [none_failed up, drained, free, any_testing_false idle]

theorem Mod.dieReturn_returns (h : d ≤ 7) (drained : m.dieState d 2 = true) (up : ∀ h < 16, (m.half h).state ≠ 4) :
    m.dieReturn d = (esOK, (forEach (tilesOfDie d) (fun t m => m.resetTile t) m).setDie d 0) := by
  rw [dieReturn, if_neg (Nat.not_lt.mpr h), if_neg]
  · rfl
  · simp [none_failed up, drained]

/-! What a module keeps while tiles begin their test, or return. -/

theorem Mod.beginTests_frame (l : List Nat) (m : Mod) : let n := forEach l beginTest m
    n.mem = m.mem ∧ n.cache = m.cache ∧ n.ctxs = m.ctxs :=
  ⟨forEach_keeps (·.mem) (f := beginTest) (fun _ _ => rfl) l m, forEach_keeps (·.cache) (f := beginTest) (fun _ _ => rfl) l m,
    forEach_keeps (·.ctxs) (f := beginTest) (fun _ _ => rfl) l m⟩

theorem Mod.resetTiles_mem (l : List Nat) (m : Mod) : (forEach l (fun t m => m.resetTile t) m).mem = m.mem :=
  forEach_keeps (·.mem) (f := fun t m => m.resetTile t) (fun _ _ => rfl) l m

theorem Mod.setDie_frame (m : Mod) (d : Nat) (n : Fin 5) :
    (m.setDie d n).mem = m.mem ∧ (m.setDie d n).ctxs = m.ctxs ∧ (m.setDie d n).tiles = m.tiles := ⟨rfl, rfl, rfl⟩

theorem Mod.underTest_frame (m : Mod) (d : Nat) : let n := m.underTest d
    n.mem = m.mem ∧ n.cache = m.cache ∧ n.ctxs = m.ctxs ∧ n.tiles = m.tiles := ⟨rfl, rfl, rfl, rfl⟩

theorem Mod.tile_of_tiles {m n : Mod} (h : n.tiles = m.tiles) (t : Nat) : n.tile t = m.tile t := by simp only [tile, h]

section
variable {s : State} {die : BitVec 8}

/-- What is seen of a die once its tiles are under test. -/
theorem Completes.underTest {o : Out} {n : Mod} (runs : o = Acts s (n.underTest die.toNat) pFtDieTest esRUNNING)
    (testing : ∀ i < 128, (n.tile (128 * die.toNat + i)).testing = true)
    (frame : n.mem = s.m.mem ∧ n.cache = s.m.cache ∧ n.ctxs = s.m.ctxs) :
    Completes o fun t => t.m.dieState die.toNat 3 = true ∧ t.m.ft.dieTest = some die.toNat ∧ t.m.ft.testResult = 0 ∧
      t.m.kod.lastAct = some (pFtDieTest, esRUNNING) ∧ (∀ i, i < 128 → (t.m.tile (128 * die.toNat + i)).testing = true) ∧
      t.m.mem = s.m.mem ∧ t.m.cache = s.m.cache ∧ t.m.ctxs = s.m.ctxs :=
  ⟨_, runs, (Mod.dieState_of_halves (m := n.setDie die.toNat 3) rfl _ _).trans (n.dieState_setDie die.toNat 3), rfl, rfl, rfl, testing, frame⟩

/-- What is seen of a die that returns. -/
theorem Completes.returned {o : Out} {n : Mod} (returns : o = Acts s (n.setDie die.toNat 0) pFtDieReturn esOK)
    (fresh : ∀ t ∈ tilesOfDie die.toNat, Mod.FreshTile t n) (mem : n.mem = s.m.mem) :
    Completes o fun t => t.m.dieState die.toNat 0 = true ∧ t.m.kod.lastAct = some (pFtDieReturn, esOK) ∧
      (∀ i, i < 128 → (t.m.tile (128 * die.toNat + i)).ts = [] ∧ (t.m.tile (128 * die.toNat + i)).strike = 0) ∧
      (∀ e ∈ t.m.ctxs, dieOfTile (e.1 / 4) ≠ die.toNat) ∧ t.m.mem = s.m.mem := by
  refine ⟨_, returns, (Mod.dieState_of_halves (m := n.setDie die.toNat 0) rfl _ _).trans (n.dieState_setDie die.toNat 0), rfl, fun i hi => ?_,
    fun e he mine => ?_, mem⟩
  · obtain ⟨ts, strike, -⟩ := fresh _ (mem_tilesOfDie_add hi)
    exact ⟨ts, strike⟩
  · obtain ⟨-, -, gone⟩ := fresh _ (mem_tilesOfDie.mpr mine)
    exact gone e he rfl

variable (serves : s.m.serving = true) (h : die.toNat ≤ 7) (drained : s.m.dieState die.toNat 2 = true) (up : ∀ h < 16, (s.m.half h).state ≠ 4)
include serves h drained up

/-- FT_DIE_TEST of a drained die: every tile of it is tested, with nothing of memory, caches and contexts touched. -/
theorem execFtDieTest_drained (free : s.m.ft.dieTest = none) (idle : ∀ e ∈ s.m.tiles, e.2.testing = false) :
    exec (.ftDieTest die) s = Acts s ((forEach (tilesOfDie die.toNat) Mod.beginTest s.m).underTest die.toNat) pFtDieTest esRUNNING :=
  (exec_ftDieTest die s).trans <|
    State.go_perform serves (f := fun m => m.dieTest die.toNat) (Mod.dieTest_begins h drained up free idle) pFtDieTest

/-- FT_DIE_RETURN of a drained die: its tiles are as at start-up, and no context is left in their saddles. -/
theorem execFtDieReturn_drained : exec (.ftDieReturn die) s =
    Acts s ((forEach (tilesOfDie die.toNat) (fun t m => m.resetTile t) s.m).setDie die.toNat 0) pFtDieReturn esOK :=
  (exec_ftDieReturn die s).trans <|
    State.go_perform serves (f := fun m => m.dieReturn die.toNat) (Mod.dieReturn_returns h drained up) pFtDieReturn

end

theorem Mod.beginTests_testing {d i : Nat} (h : i < 128) (m : Mod) : ((forEach (tilesOfDie d) beginTest m).tile (128 * d + i)).testing = true :=
  forEach_establishes (P := fun t m => (m.tile t).testing = true) beginTest_testing beginTest_keeps (mem_tilesOfDie_add h) m

theorem Mod.resetTiles_fresh {d t : Nat} (h : t ∈ tilesOfDie d) (m : Mod) : FreshTile t (forEach (tilesOfDie d) (fun t m => m.resetTile t) m) :=
  forEach_establishes resetTile_fresh resetTile_keeps h m

theorem Mod.stackRetrain_refused {w : Nat} (h : w < 2 ^ 20) (why : m.ft.retrain ≠ none ∨ ∃ i < 16, stackDown (m.stack i) = true) :
    m.stackRetrain w = (esSTATE, m) := by
  rw [stackRetrain, if_neg (not_not.mpr (Nat.div_eq_of_lt h)), if_pos]
  obtain busy | down := why
  · simp [Option.isSome_iff_ne_none.mpr busy]
  · simpa using .inr down

/-- The channels that a word of FT_STACK_RETRAIN names. -/
def channelsOf (w : Nat) : List Nat := (List.range 16).filter fun c => w.testBit c

theorem mem_channelsOf {w c : Nat} : c ∈ channelsOf w ↔ c < 16 ∧ w.testBit c = true := by simp [channelsOf]

theorem channelsOf_ne_nil {w : Nat} (h : w % 2 ^ 16 ≠ 0) : channelsOf w ≠ [] := by
  obtain ⟨c, hc⟩ := Nat.exists_testBit_of_ne_zero h
  rw [Nat.testBit_mod_two_pow, Bool.and_eq_true, decide_eq_true_eq] at hc
  exact List.ne_nil_of_mem (mem_channelsOf.mpr hc)

theorem Mod.stackRetrain_begins {w : Nat} (h : w < 2 ^ 20) (free : m.ft.retrain = none) (up : ∀ i < 16, stackDown (m.stack i) = false)
    (some_channel : w % 2 ^ 16 ≠ 0) : m.stackRetrain w =
      (esRUNNING, m.updFt fun f => { f with retrain := some (Fin.ofNat 16 (w / 2 ^ 16), channelsOf w) }) := by
  have stack : Fin.ofNat 16 (bits w 19 16) = Fin.ofNat 16 (w / 2 ^ 16) := by
    apply Fin.ext
    simp [bits]
  have any : ((List.range 16).filter fun c => w.testBit c).isEmpty = false := by
    rw [List.isEmpty_eq_false_iff]
    exact channelsOf_ne_nil some_channel
  rw [stackRetrain, if_neg (not_not.mpr (Nat.div_eq_of_lt h)), if_neg (by simpa [free] using up)]
  simp only [any, stack]
  rfl

end

/-! A tile reports (18 R534). -/

/-- What a report makes of the tile. -/
def Tile.tested (x : Tile) (pass : Bool) : Tile :=
  if pass then { x with testing := false, fenced := false, selftestFail := false } else { x with testing := false, fenced := true }

/-- The module once a tile has reported. -/
def Mod.tileTested (m : Mod) (t : Nat) (pass : Bool) : Mod :=
  let bit : BitVec 128 := BitVec.ofNat 128 (2 ^ (t % 128))
  ((if pass then m.resetTile t else m).updTile t fun x => x.tested pass).updFt fun f => { f with
    testResult := if pass then f.testResult &&& ~~~bit else f.testResult ||| bit, testing := f.testing.filter (· != t) }

theorem Mod.ft_tileTested (m : Mod) (t : Nat) (pass : Bool) : let bit : BitVec 128 := BitVec.ofNat 128 (2 ^ (t % 128))
    (m.tileTested t pass).ft = { m.ft with
      testResult := if pass then m.ft.testResult &&& ~~~bit else m.ft.testResult ||| bit, testing := m.ft.testing.filter (· != t) } := by
  cases pass <;> rfl

theorem Mod.tile_tileTested (m : Mod) (t : Nat) (pass : Bool) :
    (m.tileTested t pass).tile t = ((if pass then m.resetTile t else m).tile t).tested pass := Tab.getD_put_same _ _ _ _

theorem Mod.tile_tileTested_failed {t j : Nat} (h : j ≠ t) (m : Mod) : (m.tileTested t false).tile j = m.tile j := Tab.getD_put_other h _ _ _

theorem getLsbD_bit (i : Nat) : (BitVec.ofNat 128 (2 ^ (i % 128))).getLsbD (i % 128) = true := by
  rw [BitVec.getLsbD_ofNat, Nat.testBit_two_pow_self, Bool.and_true, decide_eq_true_eq]
  exact Nat.mod_lt i (by decide)

/-- FT_TEST_RESULT has the tile's bit where it failed. -/
theorem Mod.testResult_tileTested (m : Mod) (t : Nat) (pass : Bool) : (m.tileTested t pass).ft.testResult.getLsbD (t % 128) = !pass := by
  rw [ft_tileTested]
  cases pass
  · simp only [Bool.false_eq_true, if_false, BitVec.getLsbD_or, getLsbD_bit, Bool.or_true, Bool.not_false]
  · simp only [if_true, BitVec.getLsbD_and, BitVec.getLsbD_not, getLsbD_bit, Bool.not_true, Bool.and_false]

section
variable {s : State} {t : TileId} (testing : (s.m.tile t.val).testing = true)
include testing

theorem execTileTestDone_reports (pass : Bool) : exec (.tileTestDone t pass) s = Becomes s (
    let n := s.m.tileTested t.val pass
    match n.ft.dieTest with
    | none => n.acted pFtTileTest esOK
    | some d => if n.ft.testing.isEmpty then ((n.setDie d 2).updFt fun f => { f with dieTest := none }).acted pFtDieTest esOK else n) := by
  rw [exec_tileTestDone, execTileTestDone, State.go_eq]
  simp only [testing]
  rfl

theorem execTileTestDone_alone (alone : s.m.ft.dieTest = none) (pass : Bool) :
    exec (.tileTestDone t pass) s = Acts s (s.m.tileTested t.val pass) pFtTileTest esOK := by
  have alone' : (s.m.tileTested t.val pass).ft.dieTest = none := by rw [Mod.ft_tileTested]; exact alone
  rw [execTileTestDone_reports testing]
  simp only [alone']
  rfl

theorem execTileTestDone_last {d : Nat} (die : s.m.ft.dieTest = some d) (last : s.m.ft.testing = [t.val]) (pass : Bool) :
    exec (.tileTestDone t pass) s =
      Acts s (((s.m.tileTested t.val pass).setDie d 2).updFt fun f => { f with dieTest := none }) pFtDieTest esOK := by
  have die' : (s.m.tileTested t.val pass).ft.dieTest = some d := by rw [Mod.ft_tileTested]; exact die
  have none_left : (s.m.tileTested t.val pass).ft.testing.isEmpty = true := by rw [Mod.ft_tileTested]; simp [last]
  rw [execTileTestDone_reports testing]
  simp only [die', none_left, if_true]
  rfl

end

/-! A die is drained (18 R535). -/

section
variable {s : State} {d : DieId}

/-- The contexts of a die. -/
def Mod.ctxsOfDie (m : Mod) (d : Nat) : Tab Ctx := m.ctxs.filter fun e => dieOfTile (e.1 / 4) == d && e.2.st != .empty

/-- A context stands at an instruction boundary with no engine work of its own queued. -/
def Mod.atBoundary (m : Mod) (e : Nat × Ctx) : Bool :=
  e.2.ending.isNone && e.2.st != .loading && e.2.st != .saving && e.2.iq.isEmpty && e.2.vq == 0 &&
    ((m.tile (e.1 / 4)).running.all fun r => r.sd.val != e.1 % 4) &&
    (match e.2.wait with
      | some (.try _ _) => false
      | _ => true)

theorem execDieDrained_eq : exec (.dieDrained d) s = Becomes s (
    if (!(s.m.dieState d.val 1) || !((s.m.ctxsOfDie d.val).all s.m.atBoundary)) = true then s.m
    else
      let n := forEach (s.m.sched.evicting.filter fun e => dieOfTile (e.1 / 4) == d.val) (fun e m => m.endEviction e.1 e.2) s.m
      ((forEach (s.m.ctxsOfDie d.val) (fun e m => m.drainCtx e.1 e.2) n).setDie d.val 2).acted pFtDieDrain esOK) := rfl

theorem execDieDrained_drains (draining : s.m.dieState d.val 1 = true) (ready : ∀ e ∈ s.m.ctxsOfDie d.val, s.m.atBoundary e = true)
    (quiet : ∀ e ∈ s.m.sched.evicting, dieOfTile (e.1 / 4) ≠ d.val) :
    exec (.dieDrained d) s = Acts s ((forEach (s.m.ctxsOfDie d.val) (fun e m => m.drainCtx e.1 e.2) s.m).setDie d.val 2) pFtDieDrain esOK := by
  have all : (s.m.ctxsOfDie d.val).all s.m.atBoundary = true := List.all_eq_true.mpr ready
  have none : s.m.sched.evicting.filter (fun e => dieOfTile (e.1 / 4) == d.val) = [] :=
    List.filter_eq_nil_iff.mpr fun e he => by simpa using quiet e he
  rw [execDieDrained_eq, draining, all, none]
  rfl

theorem execDieDrained_waits {e : Nat × Ctx} (he : e ∈ s.m.ctxsOfDie d.val) (busy : s.m.atBoundary e = false) :
    exec (.dieDrained d) s = Becomes s s.m := by
  have all : (s.m.ctxsOfDie d.val).all s.m.atBoundary = false := List.all_eq_false.mpr ⟨e, he, by simp [busy]⟩
  rw [execDieDrained_eq, all, if_pos (by simp)]

theorem Mod.mem_ctxsOfDie {m : Mod} {d : Nat} {e : Nat × Ctx} :
    e ∈ m.ctxsOfDie d ↔ e ∈ m.ctxs ∧ dieOfTile (e.1 / 4) = d ∧ e.2.st ≠ .empty := by simp [ctxsOfDie]

theorem Mod.atBoundary_of {m : Mod} {e : Nat × Ctx} (ending : e.2.ending = none) (loading : e.2.st ≠ .loading) (saving : e.2.st ≠ .saving)
    (iq : e.2.iq = []) (vq : e.2.vq = 0) (engine : ∀ r ∈ (m.tile (e.1 / 4)).running, r.sd.val ≠ e.1 % 4)
    (wait : ∀ n rd, e.2.wait ≠ some (.try n rd)) : m.atBoundary e = true := by
  have waits : (match e.2.wait with
      | some (.try _ _) => false
      | _ => true) = true := by
    split
    next n rd h => exact absurd h (wait n rd)
    next => rfl
  have idle : (m.tile (e.1 / 4)).running.all (fun r => r.sd.val != e.1 % 4) = true :=
    List.all_eq_true.mpr fun r hr => by simpa using engine r hr
  rw [atBoundary, waits, idle]
  simp [ending, loading, saving, iq, vq]

theorem Mod.not_atBoundary {m : Mod} {e : Nat × Ctx} (busy : e.2.st = .loading ∨ e.2.st = .saving ∨ e.2.iq ≠ [] ∨ e.2.vq ≠ 0) :
    m.atBoundary e = false := by
  obtain loading | saving | iq | vq := busy
  · simp [atBoundary, loading]
  · simp [atBoundary, saving]
  · simp [atBoundary, iq]
  · simp [atBoundary, vq]

end

/-! A channel of a stack has trained (18 R536). -/

section
variable {s : State} {st : SliceId} {ch : ChanId} {rest : List Nat} (retrain : s.m.ft.retrain = some (st, ch.val :: rest))
include retrain

theorem execStackRetrainChannelDone_passes {weak : List (Fin 76)} {sm : BitVec 64}
    (spares : spareMapFor (weak.map (·.val)) (s.m.chan st.val ch.val).weakCa = some sm) :
    exec (.stackRetrainChannelDone st ch true weak) s =
      let n := s.m.updChan st.val ch.val fun y => { y with weak := weak.map (·.val), spareMap := sm, laneCe := [] }
      Becomes s (if rest.isEmpty = true then (n.updFt fun f => { f with retrain := none }).acted pFtStackRetrain esOK
        else n.updFt fun f => { f with retrain := some (st, rest) }) := by
  rw [exec_stackRetrainChannelDone, execStackRetrainChannelDone, State.go_eq]
  simp only [retrain, spares, bne_self_eq_false, Bool.or_self, Bool.false_eq_true, if_false]
  rfl

theorem execStackRetrainChannelDone_fails (weak : List (Fin 76)) : exec (.stackRetrainChannelDone st ch false weak) s =
    Acts s ((s.m.stackFail st.val).updFt fun f => { f with retrain := none }) pFtStackRetrain esSTATE := by
  rw [exec_stackRetrainChannelDone, execStackRetrainChannelDone, State.go_eq]
  simp only [retrain, bne_self_eq_false, Bool.or_self, Bool.false_eq_true, if_false]
  rfl

end

/-- Settles O48, a case for each clause: refusals and beginnings by the action's own lemmas (`Mod.dieTest_begins` and its like), reports of tiles by
`execTileTestDone_alone` and `execTileTestDone_last`, drains by `execDieDrained_drains`, channels by `execStackRetrainChannelDone_passes`. -/
theorem liveRepair : Obligations.LiveRepair := by
  unfold Obligations.LiveRepair
  intro s
  dsimp only
  refine ⟨fun serves => ⟨fun tile small => ⟨fun fenced up idle => State.go_perform serves (Mod.tileTest_begins small fenced up idle) _,
      fun why => State.go_perform serves (Mod.tileTest_refused small why) _⟩,
    fun d small => ⟨fun up => State.go_perform serves (Mod.dieDrain_begins small up) _,
      fun why => State.go_perform serves (Mod.dieDrain_refused small why) _,
      fun failed => ⟨State.go_perform serves (Mod.dieTest_refused small failed) _, State.go_perform serves (Mod.dieReturn_refused small failed) _⟩,
      fun drained up => ⟨fun free idle => ?dieTest, ?dieReturn⟩⟩,
    fun d big => ⟨State.go_perform serves (if_pos big) _, State.go_perform serves (if_pos big) _, State.go_perform serves (if_pos big) _⟩,
    fun w small => ⟨fun why => State.go_perform serves (Mod.stackRetrain_refused small why) _,
      fun free up any => ⟨_, fun c => mem_channelsOf, State.go_perform serves (Mod.stackRetrain_begins small free up any) _⟩⟩⟩,
    fun t testing alone => ⟨?passed, ?failed⟩, fun t d pass testing die last => ?last, fun d draining ready quiet => ?drains,
    fun d e he mine some busy => ?waits, fun st ch rest weak retrain => ⟨fun sm spares => ⟨fun done => ?lastChannel, fun more => ?nextChannel⟩, ?badChannel⟩⟩
  case dieTest =>
    exact .underTest (execFtDieTest_drained serves small drained up free idle) (fun i hi => Mod.beginTests_testing hi s.m)
      (s.m.beginTests_frame (tilesOfDie d.toNat))
  case dieReturn =>
    exact .returned (execFtDieReturn_drained serves small drained up) (fun t ht => Mod.resetTiles_fresh ht s.m) (s.m.resetTiles_mem _)
  case passed =>
    have tile : ((s.m.tileTested t.val true).acted pFtTileTest esOK).tile t.val = _ := s.m.tile_tileTested t.val true
    rw [if_pos rfl, Mod.tile_resetTile] at tile
    refine ⟨_, execTileTestDone_alone testing alone true, ?_⟩
    dsimp only
    rw [tile]
    exact ⟨rfl, rfl, rfl, rfl, rfl, s.m.testResult_tileTested t.val true, rfl⟩
  case failed =>
    have tile : ((s.m.tileTested t.val false).acted pFtTileTest esOK).tile t.val = _ := s.m.tile_tileTested t.val false
    refine ⟨_, execTileTestDone_alone testing alone false, ?_⟩
    dsimp only
    rw [tile]
    exact ⟨rfl, rfl, s.m.testResult_tileTested t.val false, rfl, fun j other => Mod.tile_tileTested_failed other s.m⟩
  case last =>
    refine ⟨_, execTileTestDone_last testing die last pass, ?_, rfl, ?_, rfl⟩
    · exact (Mod.dieState_of_halves (m := (s.m.tileTested t.val pass).setDie d 2) rfl _ _).trans (Mod.dieState_setDie _ d 2)
    · refine (congrArg Tile.fenced (s.m.tile_tileTested t.val pass)).trans ?_
      cases pass <;> rfl
  case drains =>
    refine execDieDrained_drains draining (fun e he => ?_) quiet
    obtain ⟨he, mine, some⟩ := Mod.mem_ctxsOfDie.mp he
    obtain ⟨ending, loading, saving, iq, vq, engine, wait⟩ := ready e he mine some
    exact Mod.atBoundary_of ending loading saving iq vq engine wait
  case waits => exact execDieDrained_waits (Mod.mem_ctxsOfDie.mpr ⟨he, mine, some⟩) (Mod.not_atBoundary busy)
  case lastChannel =>
    exact (execStackRetrainChannelDone_passes retrain spares).trans (congrArg (Becomes s) (if_pos (List.isEmpty_iff.mpr done)))
  case nextChannel =>
    exact (execStackRetrainChannelDone_passes retrain spares).trans (congrArg (Becomes s) (if_neg (mt List.isEmpty_iff.mp more)))
  case badChannel => exact execStackRetrainChannelDone_fails retrain weak

end Sys2Proof.Machine
end

section
/-! Requests of the dictionary protocol (21 R573-R584, R588): one read, one write, one value that takes effect, and each operation on its own; the
obligation puts them together. -/

namespace Sys2Proof.Machine

/-! Sessions. -/

theorem Tab.key_lt_fresh {α : Type} {t : Tab α} {e : Nat × α} (h : e ∈ t) : e.1 < t.fresh := by
  have rises (l : Tab α) : ∀ n, n ≤ l.foldl (fun n e => max n (e.1 + 1)) n ∧ ∀ e ∈ l, e.1 < l.foldl (fun n e => max n (e.1 + 1)) n := by
    induction l with
    | nil => simp
    | cons x l ih =>
      intro n
      obtain ⟨low, above⟩ := ih (max n (x.1 + 1))
      refine ⟨by simp only [List.foldl_cons]; omega, fun e mem => ?_⟩
      obtain rfl | mem := List.mem_cons.1 mem
      · simp only [List.foldl_cons]; omega
      · exact above e mem
  exact (rises t 0).2 e h

theorem Tab.has_of_fresh_le {α : Type} {t : Tab α} {k : Nat} (h : t.fresh ≤ k) : t.has k = false := by
  rw [Tab.has, Option.isSome_eq_false_iff, Option.isNone_iff_eq_none]
  cases found : Tab.find k t with
  | none => rfl
  | some v =>
    have := Tab.key_lt_fresh (Tab.mem_of_find found)
    exact absurd this (by omega)

@[simp] theorem Mod.locked_setSess (m : Mod) (t : Transport) (sid : Nat) (x : Session) : (m.setSess t sid x).kod.locked = m.kod.locked := by
  unfold setSess
  split <;> rfl
@[simp] theorem Mod.blobs_setSess (m : Mod) (t : Transport) (sid : Nat) (x : Session) : (m.setSess t sid x).kod.blobs = m.kod.blobs := by
  unfold setSess
  split <;> rfl
@[simp] theorem Mod.lockedOut_setSess (m : Mod) (t u : Transport) (sid : Nat) (x : Session) : (m.setSess t sid x).lockedOut u = m.lockedOut u := by
  simp only [lockedOut, locked_setSess]
@[simp] theorem Mod.loginKey_setSess (m : Mod) (t : Transport) (sid : Nat) (x : Session) (role idx : Nat) :
    (m.setSess t sid x).loginKey role idx = m.loginKey role idx := by
  simp only [loginKey, parBlob, blobs_setSess]

/-! READ (R573, R574). -/

section
variable {s : State} {x : Session} {n : Nat} {r : PRow}

theorem State.readOne_unreached (row : paramRow n = some r) (far : reaches x r (n - r.num) false = false) :
    s.readOne x n = (entry n r.type esOK ((zeroVal r.type).bytes r.type), { s with m := s.m.kodViolate x }) := by
  simp [readOne, row, far]

theorem State.readOne_unreadable (row : paramRow n = some r) (near : reaches x r (n - r.num) false = true) (closed : s.m.readable r = false) :
    s.readOne x n = (entry n 0 esSTATE [], s) := by
  simp [readOne, row, near, closed]

theorem State.readOne_action (row : paramRow n = some r) (near : reaches x r (n - r.num) false = true) (opened : s.m.readable r = true)
    (kind : r.access = 3 ∨ r.access = 4) : s.readOne x n = (entry n r.type esOK ((zeroVal r.type).bytes r.type), s) := by
  simp [readOne, row, near, opened, kind]

theorem State.readOne_held (row : paramRow n = some r) (near : reaches x r (n - r.num) false = true) (opened : s.m.readable r = true)
    (kind : r.access = 1 ∨ r.access = 2) (named : r.num ≠ pEvtName) : s.readOne x n = (entry n r.type esOK ((s.readRw x r n).bytes r.type), s) := by
  have passive : ¬ (r.access = 3 ∨ r.access = 4) := by omega
  have held : r.access ≠ 0 := by omega
  simp [readOne, row, near, opened, passive, named, held]

theorem State.readRw_num (bytes : isBytes r.type = false) (inst : r.num ≠ pOdoInst) (ctx : r.num ≠ pDbgCtxSel) :
    s.readRw x r n = match Tab.find n s.m.kod.params with
      | some v => .num v
      | none => defaultOf s.fuse.order.val n := by
  simp only [readRw, if_neg inst, if_neg ctx, bytes]
  rfl

theorem State.readOne_unknown (row : paramRow n = none) (ctr : ctrDef n = none) : s.readOne x n = (entry n 0 esNOPARAM [], s) := by
  simp [readOne, row, ctr]

end

/-! WRITE (R573): the checks come before the value, in their order. -/

section
variable {s : State} {t : Transport} {sid : Nat} {x : Session} {e : KEntry} {env : ActEnv} {r : PRow} {v : PVal}

theorem State.writeOne_unknown (row : paramRow e.number.toNat = none) (ctr : ctrDef e.number.toNat = none) :
    s.writeOne t sid x e env = (esNOPARAM, s) := by
  simp [writeOne, row, ctr]

theorem State.writeOne_unreached (row : paramRow e.number.toNat = some r) (far : reaches x r (e.number.toNat - r.num) true = false)
    (key : s.m.firstKey x e.number.toNat = false) : s.writeOne t sid x e env = (esOK, { s with m := s.m.kodViolate x }) := by
  simp [writeOne, row, far, key]

theorem State.writeOne_readOnly (row : paramRow e.number.toNat = some r) (near : reaches x r (e.number.toNat - r.num) true = true)
    (kind : r.access = 0) : s.writeOne t sid x e env = (esACCESS, s) := by
  simp [writeOne, row, near, kind]

theorem State.writeOne_untyped (row : paramRow e.number.toNat = some r) (near : reaches x r (e.number.toNat - r.num) true = true)
    (kind : r.access ≠ 0) (typed : r.value e = none) : s.writeOne t sid x e env = (esTYPE, s) := by
  simp [writeOne, row, near, kind, typed]

theorem State.writeOne_outside (row : paramRow e.number.toNat = some r) (near : reaches x r (e.number.toNat - r.num) true = true)
    (kind : r.access ≠ 0) (typed : r.value e = some v) (out : r.inRange s.fuse.order.val (e.number.toNat - r.num) v = false) :
    s.writeOne t sid x e env = (esRANGE, s) := by
  simp [writeOne, row, near, kind, typed, out]

theorem State.writeOne_value (row : paramRow e.number.toNat = some r) (near : reaches x r (e.number.toNat - r.num) true = true)
    (kind : r.access ≠ 0) (typed : r.value e = some v) (within : r.inRange s.fuse.order.val (e.number.toNat - r.num) v = true) :
    s.writeOne t sid x e env = s.writeVal t sid x r e.number.toNat (e.number.toNat - r.num) v env := by
  simp [writeOne, row, near, kind, typed, within]

end

section
variable {s : State} {t : Transport} {sid : Nat} {x : Session} {r : PRow} {n i : Nat} {v : PVal} {env : ActEnv}

theorem State.writeVal_param (kind : r.access = 1 ∨ r.access = 2) : s.writeVal t sid x r n i v env =
    if !s.m.writable || !(s.m.ruleAllows r n i v) then (esSTATE, s) else s.markDirty r (s.setParam t sid r n i v) := by
  have act : r.access ≠ 4 := by omega
  have wo : r.access ≠ 3 := by omega
  simp only [writeVal, if_neg act, if_neg wo]

theorem State.writeVal_closed (kind : r.access = 1 ∨ r.access = 2) (closed : s.m.writable = false ∨ s.m.ruleAllows r n i v = false) :
    s.writeVal t sid x r n i v env = (esSTATE, s) := by
  rw [writeVal_param kind, if_pos (by simpa using closed)]

theorem State.writeVal_open (kind : r.access = 1 ∨ r.access = 2) (writable : s.m.writable = true) (allowed : s.m.ruleAllows r n i v = true) :
    s.writeVal t sid x r n i v env = s.markDirty r (s.setParam t sid r n i v) := by
  rw [writeVal_param kind, if_neg (by simp [writable, allowed])]

theorem State.writeVal_action (kind : r.access = 4) : s.writeVal t sid x r n i v env =
    if !(s.m.actAllowed r.num) then (s.actRefused x r n i v env esSTATE, s)
    else if s.m.kod.actions.has n then (s.actRefused x r n i v env esBUSY, s)
    else s.act x r n i v env := by
  simp only [writeVal, if_pos kind]

theorem State.markDirty_of_ne {y : Nat × State} (h : ¬ (r.access = 2 ∧ y.1 = esOK)) : s.markDirty r y = y := if_neg h

/-- A number that no write treats specially takes the value written. -/
theorem State.setParam_plain {v : Int} (plain : r.num ∉ [pFabPortMode, pOdoInst, pDbgCtxSel, pMigLogOn, pWpBase, pWpSlotMib, pPwrDivLimit,
    pCchNcMode + 1024, pCsuQuietChecks, pFtDirtymapBase]) (bytes : isBytes r.type = false) :
    s.setParam t sid r n i (.num v) = (esOK, { s with m := s.m.setPar n v }) := by
  simp only [List.mem_cons, List.not_mem_nil, or_false, not_or] at plain
  obtain ⟨mode, inst, ctx, log, base, slot, div, nc, quiet, map⟩ := plain
  simp [setParam, mode, inst, ctx, log, base, slot, div, nc, quiet, map, bytes, PVal.int]

end

theorem State.writeAll_head (s : State) (t : Transport) (sid : Nat) (x : Session) (e : KEntry) (rest : List KEntry) (env : ActEnv)
    (envs : List ActEnv) : (s.writeAll t sid x (e :: rest) (env :: envs)).1.head? =
      some (entry e.number.toNat e.type.val (s.writeOne t sid { (s.m.sess t sid).getD x with role := x.role } e env).1 []) := rfl

/-! The operations (R577-R588). -/

section
variable {s : State} {t : Transport} {x : Session} {f : KFrame} {env : List ActEnv} {sig : Bool}

theorem State.request_discover (op : f.op = 0) : s.request t f x env sig =
    (let a := s.readAll x [0x010001, 0x010002, 0x010003, 0x010004, 0x010005, 0x010006]; ((0, f.session.toNat, a.1), a.2)) := by
  simp [request, op]
theorem State.request_read (op : f.op = 1) : s.request t f x env sig =
    (let a := s.readAll x (f.body.map fun e => e.number.toNat); ((0, f.session.toNat, a.1), a.2)) := by
  simp [request, op]
theorem State.request_write (op : f.op = 2) : s.request t f x env sig =
    (let a := s.writeAll t f.session.toNat x f.body env; ((0, f.session.toNat, a.1), a.2)) := by
  simp [request, op]
theorem State.request_describe (op : f.op = 3) : s.request t f x env sig =
    ((0, f.session.toNat, f.body.map fun e => describe s.fuse.order.val e.number.toNat), s) := by
  simp [request, op, Function.comp_def]

theorem State.request_challenge_full (op : f.op = 4) (full : 32 ≤ s.m.kod.sessions.length) :
    s.request t f x env sig = ((4, f.session.toNat, []), s) := by
  simp [request, op, full]
theorem State.request_challenge (op : f.op = 4) (room : s.m.kod.sessions.length < 32) {role : Nat} (asked : challengeRole f.body = some role) :
    s.request t f x env sig = (let a := s.m.challenge t role; ((0, a.1, a.2.1), { s with m := a.2.2 })) := by
  simp [request, op, asked, Nat.not_le.2 room]

/-- The session of a challenge is a new one, of the transport's starting role. -/
theorem Mod.challenge_session (m : Mod) (t : Transport) (role : Nat) : let a := m.challenge t role
    a.1 ≠ 0 ∧ a.2.1.length = 3 ∧ m.kod.sessions.has a.1 = false ∧
    ∃ y, Tab.find a.1 a.2.2.kod.sessions = some y ∧ y.transport = t ∧ y.role = startRole t ∧ y.challenge = some (Fin.ofNat 5 role) := by
  refine ⟨?_, rfl, Tab.has_of_fresh_le (Nat.le_max_right ..), _, Tab.find_put_same .., rfl, rfl, rfl⟩
  have : 1 ≤ max 1 m.kod.sessions.fresh := Nat.le_max_left ..
  simp only [challenge]
  omega

theorem State.request_response_unasked (op : f.op = 5) (unasked : x.challenge = none) :
    s.request t f x env sig = ((3, f.session.toNat, []), s) := by
  simp [request, op, unasked]
theorem State.request_response (op : f.op = 5) {role : Fin 5} (asked : x.challenge = some role) : s.request t f x env sig =
    (let a := s.m.loginResponse t f.session.toNat x role f sig
     ((0, f.session.toNat, [entry 0 2 esOK [BitVec.ofNat 8 a.1]]), { s with m := a.2 })) := by
  simp [request, op, asked]

theorem Mod.loginResponse_locked {m : Mod} {sid : Nat} {role : Fin 5} (locked : m.lockedOut t = true) :
    m.loginResponse t sid x role f sig = (x.role.val, m.setSess t sid { x with challenge := none }) := by
  simp [loginResponse, locked]
theorem Mod.loginResponse_unsigned {m : Mod} {sid : Nat} {role : Fin 5} (free : m.lockedOut t = false) :
    m.loginResponse t sid x role f false = (x.role.val, (m.setSess t sid { x with challenge := none }).loginFailed t) := by
  simp [loginResponse, free]
/-- A response in form, signed by a key in use of a role that the transport reaches, is granted. -/
theorem Mod.loginResponse_granted {m : Mod} {sid : Nat} {role : Fin 5} {k b : _} {key : Byte} {sg : List Byte} (free : m.lockedOut t = false)
    (near : loginReaches t role.val = true) (body : f.body = [⟨k, 2, b, [key]⟩, ⟨k + 1, 11, b, sg⟩]) (len : sg.length = 64)
    (used : m.loginKey role.val key.toNat = true) : m.loginResponse t sid x role f true = (role.val,
      (m.setSess t sid { x with challenge := none }).setSess t sid { x with
        challenge := none, role := role, lastSeq := some f.seq.toNat }) := by
  simp [loginResponse, free, near, body, len, leNat, used]

theorem State.request_logout (op : f.op = 6) (named : f.session.toNat ≠ 0) : s.request t f x env sig =
    ((0, f.session.toNat, []), { s with m := s.m.updKod fun k => { k with sessions := k.sessions.del f.session.toNat } }) := by
  simp [request, op, named]
theorem State.request_subscribe (op : f.op = 7) (named : f.session.toNat ≠ 0) {e : KEntry} (body : f.body = [e]) : s.request t f x env sig =
    ((0, f.session.toNat, []), { s with m := s.m.setSess t f.session.toNat { x with
      mask := BitVec.ofNat 16 (leNat e.value), evNext := s.m.kod.evseq + 1 } }) := by
  simp [request, op, named, body]
theorem State.request_sessionless (op : f.op = 6 ∨ f.op = 7) (none : f.session.toNat = 0) : s.request t f x env sig = ((3, 0, []), s) := by
  obtain op | op := op <;> simp [request, op, none]
theorem State.request_fetch (op : f.op = 8) {e : KEntry} (body : f.body = [e]) : s.request t f x env sig = ((0, f.session.toNat,
    eventEntries ((s.m.kod.events.filter fun v => decide (leNat e.value ≤ v.seq) && x.sees v).take 32)), s) := by
  simp [request, op, body]

end

/-- Settles O52, by the lemma of each read, of each check of a write, and of each operation. -/
theorem kdpRequests : Obligations.KdpRequests := by
  unfold Obligations.KdpRequests
  refine fun s t x => ⟨fun n r row => ⟨State.readOne_unreached row, fun near => ⟨State.readOne_unreadable row near, fun opened =>
    ⟨State.readOne_action row near opened, fun kind bytes inst ctx named => ⟨?held, ?default⟩⟩⟩⟩, fun _ => State.readOne_unknown, fun _ _ => rfl,
    fun sid e env => ⟨State.writeOne_unknown, fun r row => ⟨State.writeOne_unreached row, fun near => ⟨State.writeOne_readOnly row near,
      State.writeOne_untyped row near, fun _ => State.writeOne_outside row near, fun v typed within => ?written⟩⟩,
      fun _ _ => State.writeAll_head ..⟩,
    fun _ _ _ _ _ => State.setParam_plain, fun f env sig => ⟨State.request_discover, State.request_read, State.request_write,
      State.request_describe, State.request_challenge_full, ?challenge, State.request_response_unasked, ?locked, ?unsigned, ?granted,
      State.request_logout, fun op named _ => State.request_subscribe op named, State.request_sessionless, fun op _ => State.request_fetch op⟩⟩
  case held =>
    intro v found
    rw [State.readOne_held row near opened kind named, State.readRw_num bytes inst ctx, found, PVal.bytes]
  case default =>
    intro found
    rw [State.readOne_held row near opened kind named, State.readRw_num bytes inst ctx, found]
  case written =>
    have value (kind : r.access ≠ 0) := State.writeOne_value (t := t) (sid := sid) (x := x) (env := env) row near kind typed within
    refine ⟨fun kind closed => ?_, fun kind writable allowed => ?_, fun kind writable allowed => ⟨fun ok => ?_, fun refused => ?_⟩,
      fun kind closed => ?_, fun kind opened busy => ?_, fun kind opened idle => ?_⟩
    · rw [value (by omega), State.writeVal_closed kind closed]
    · rw [value (by omega), State.writeVal_open (.inl kind) writable allowed, State.markDirty_of_ne fun h => by omega]
    · rw [value (by omega), State.writeVal_open (.inr kind) writable allowed, State.markDirty, if_pos ⟨kind, ok⟩, ok]
    · rw [value (by omega), State.writeVal_open (.inr kind) writable allowed, State.markDirty_of_ne fun h => refused h.2]
    · rw [value (by omega), State.writeVal_action kind, if_pos (by simp [closed])]
    · rw [value (by omega), State.writeVal_action kind, if_neg (by simp [opened]), if_pos busy]
    · rw [value (by omega), State.writeVal_action kind, if_neg (by simp [opened]), if_neg (by simp [idle])]
  case challenge =>
    intro op room role asked
    obtain ⟨named, three, new, session⟩ := s.m.challenge_session t role
    rw [State.request_challenge op room asked]
    exact ⟨rfl, named, three, new, session⟩
  case locked =>
    intro op role asked locked
    rw [State.request_response op asked, Mod.loginResponse_locked locked]
  case unsigned =>
    intro op role asked free unsigned
    rw [State.request_response op asked, unsigned, Mod.loginResponse_unsigned free]
  case granted =>
    intro op role k b key sg asked free signed near body len used _
    rw [State.request_response op asked, signed, Mod.loginResponse_granted free near body len used]

end Sys2Proof.Machine
end

section
/-! Frames of the dictionary protocol (21 R570-R572, R578-R587): the way of a frame to the serving block, then the block's checks in their order. -/

namespace Sys2Proof.Machine

/-! A frame reaches the serving block (R585, R587). -/

section
variable {s : State} {t : Transport} {f : KFrame} {env : List ActEnv} {sig : Bool} {i : Instr}

theorem State.submit_served (served : s.m.kdpServed t = true) (idle : ∀ p, mailboxOf t = some p → (s.m.fn p.val).mbxBusy = false) :
    s.submit t f env sig = (s.reached t).serve t f env sig := by
  cases t with
  | udp a => simp [submit, served, reached]
  | vfl p => simp [submit, served, reached]; rfl
  | pf0 =>
    have idle := idle 0 rfl
    simp [submit, served, reached, mailboxOf, tenantOf, show (s.m.fn 0).mbxBusy = false from idle]
  | vf k =>
    have idle := idle k rfl
    simp [submit, served, reached, mailboxOf, tenantOf, idle]

theorem State.submit_unserved (closed : s.m.kdpServed t = false) : s.submit t f env sig = s := by
  simp [submit, closed]

theorem State.submit_busy {p : PartId} (box : mailboxOf t = some p) (busy : (s.m.fn p.val).mbxBusy = true) : s.submit t f env sig = s := by
  cases t with
  | udp a => cases box
  | vfl i => cases box
  | pf0 =>
    cases box
    simp [submit, mailboxOf, tenantOf, show (s.m.fn 0).mbxBusy = true from busy]
  | vf k =>
    cases box
    simp [submit, mailboxOf, tenantOf, busy]

/-- The rows of the dictionary protocol, and MBX_GO, put a frame on its transport. -/
def Instr.Submits (i : Instr) (t : Transport) (f : KFrame) (env : List ActEnv) (sig : Bool) : Prop :=
  ((i, env, sig) ∈ [(Instr.kdpDiscover t f, [], false), (.kdpRead t f, [], false), (.kdpWrite t f env, env, false), (.kdpDescribe t f, [], false),
    (.kdpLoginChallenge t f, [], false), (.kdpLoginResponse t f sig, [], sig), (.kdpLogout t f, [], false), (.kdpSubscribe t f, [], false),
    (.kdpFetchEvents t f, [], false)] ∧ i.wellFormed = true) ∨
  (∃ fn, i = .mbxGo fn f env ∧ t = (if fn = 0 then .pf0 else .vf fn) ∧ sig = (env.headD {}).signatureOk)

theorem exec_submits (h : Instr.Submits i t f env sig) (s : State) : exec i s = .next (s.submit t f env sig) := by
  obtain ⟨row, form⟩ | ⟨fn, rfl, rfl, rfl⟩ := h
  · simp only [List.mem_cons, List.not_mem_nil, or_false, Prod.mk.injEq] at row
    rcases row with ⟨rfl, rfl, rfl⟩ | ⟨rfl, rfl, rfl⟩ | ⟨rfl, -, rfl⟩ | ⟨rfl, rfl, rfl⟩ | ⟨rfl, rfl, rfl⟩ | ⟨rfl, rfl, -⟩ | ⟨rfl, rfl, rfl⟩ |
      ⟨rfl, rfl, rfl⟩ | ⟨rfl, rfl, rfl⟩ <;> exact if_pos form
  · rfl

end

/-! The serving block (R572, R578-R580, R586). -/

section
variable {s : State} {t : Transport} {f : KFrame} {env : List ActEnv} {sig : Bool} {x : Session}

/-- The block's answer without entries. -/
def State.refuse (s : State) (t : Transport) (f : KFrame) (st : Fin 6) (tagged : Bool) : State :=
  { s with m := s.m.reply ⟨t, f.op ||| 0x80, st, f.session.toNat, f.seq.toNat, tagged, []⟩ }

/-- The partition of a VF's transport is ACTIVE. -/
def State.Live (s : State) (t : Transport) : Prop := ∀ k, t = .vf k → (s.m.part k.val).st = .active

theorem State.live_iff : s.Live t ↔ ¬ ∃ k, t = .vf k ∧ (s.m.part k.val).st ≠ .active := by
  simp [Live]

theorem State.serve_full (full : 32 ≤ s.m.kod.held.length) : s.serve t f env sig = s.refuse t f 4 false := by
  simp only [serve, if_pos full]
  rfl

theorem State.serve_inactive (room : s.m.kod.held.length < 32) {k : PartId} (off : (s.m.part k.val).st ≠ .active) :
    s.serve (.vf k) f env sig = s.refuse (.vf k) f 5 false := by
  simp only [serve, if_neg (Nat.not_le.2 room), bne_iff_ne.2 off, if_pos]
  rfl

theorem State.serve_version (room : s.m.kod.held.length < 32) (live : s.Live t) (ver : f.ver ≠ 1) :
    s.serve t f env sig = s.refuse t f 2 false := by
  cases t with
  | vf k => simp [serve, Nat.not_le.2 room, live k rfl, ver]; rfl
  | _ => simp [serve, Nat.not_le.2 room, ver]; rfl

theorem State.serve_unknown (room : s.m.kod.held.length < 32) (live : s.Live t) (ver : f.ver = 1) (unknown : s.m.sess t f.session.toNat = none) :
    s.serve t f env sig = if malformed f then s.refuse t f 1 false else s.refuse t f 3 false := by
  cases t with
  | vf k => simp [serve, Nat.not_le.2 room, live k rfl, ver, unknown]; rfl
  | _ => simp [serve, Nat.not_le.2 room, ver, unknown]; rfl

/-- A frame above the starting role has risen past its session's last SEQ. -/
def Session.stale (x : Session) (f : KFrame) : Bool :=
  match x.lastSeq with
  | some n => decide (f.seq.toNat ≤ n)
  | none => false

theorem Session.stale_iff : x.stale f = true ↔ ∃ n, x.lastSeq = some n ∧ f.seq.toNat ≤ n := by
  cases last : x.lastSeq <;> simp [stale, last]

/-- A frame is dropped: counted, and its mailbox is free again. -/
def Mod.dropFrame (m : Mod) (t : Transport) : Mod :=
  let n := m.updKod fun k => { k with badTag := (stick32 k.badTag k.badTagOvf).1, badTagOvf := (stick32 k.badTag k.badTagOvf).2 }
  match mailboxOf t with
  | some p => n.updFn p.val fun g => { g with mbxBusy := false }
  | none => n

/-- A frame that the block takes is refused as malformed, or its request is performed and answered. -/
def State.takeFrame (s : State) (t : Transport) (f : KFrame) (x : Session) (tagged : Bool) (env : List ActEnv) (sig : Bool) : State :=
  if malformed f then s.refuse t f 1 tagged
  else
    let a := s.request t f x env sig
    { a.2 with m := a.2.m.reply ⟨t, f.op ||| 0x80, Fin.ofNat 6 a.1.1, a.1.2.1, f.seq.toNat, tagged, a.1.2.2⟩ }

theorem State.serve_starting (room : s.m.kod.held.length < 32) (live : s.Live t) (ver : f.ver = 1) (known : s.m.sess t f.session.toNat = some x)
    (start : x.role = startRole t) : s.serve t f env sig = s.takeFrame t f x false env sig := by
  have low : (x.role != startRole t) = false := by simpa using start
  cases t with
  | vf k => simp [serve, Nat.not_le.2 room, live k rfl, ver, known, low, takeFrame, refuse]; rfl
  | _ => simp [serve, Nat.not_le.2 room, ver, known, low, takeFrame, refuse]; rfl

theorem State.serve_elevated (room : s.m.kod.held.length < 32) (live : s.Live t) (ver : f.ver = 1) (known : s.m.sess t f.session.toNat = some x)
    (above : x.role ≠ startRole t) : s.serve t f env sig =
      if !f.tagged || !f.tagOk || x.stale f then { s with m := s.m.dropFrame t }
      else ({ s with m := s.m.setSess t f.session.toNat { x with lastSeq := some f.seq.toNat } }).takeFrame t f
        { x with lastSeq := some f.seq.toNat } true env sig := by
  have high : (x.role != startRole t) = true := by simpa using above
  cases t with
  | vf k => simp only [serve, Nat.not_le.2 room, live k rfl, ver, known, high, takeFrame, refuse]; rfl
  | _ => simp only [serve, Nat.not_le.2 room, ver, known, high, takeFrame, refuse]; rfl

end

/-- A dropped frame is counted, and answers nothing. -/
theorem Mod.dropFrame_counts (m : Mod) (t : Transport) : (m.dropFrame t).kod.held = m.kod.held ∧ (m.dropFrame t).kod.sent = m.kod.sent ∧
    ((m.dropFrame t).kod.badTag, (m.dropFrame t).kod.badTagOvf) = stick32 m.kod.badTag m.kod.badTagOvf := by
  unfold dropFrame
  split <;> exact ⟨rfl, rfl, rfl⟩

theorem State.serve_accepts {s : State} {t : Transport} {f : KFrame} {x : Session} (h : s.Accepts t f x) (env : List ActEnv) (sig : Bool) :
    s.serve t f env sig = (s.noted t f x).takeFrame t f (x.noted t f) (x.role != startRole t) env sig := by
  obtain ⟨room, live, ver, known, -, tag⟩ := h
  by_cases start : x.role = startRole t
  · rw [serve_starting room live ver known start, noted, if_pos start, Session.noted, if_pos start, bne_eq_false_iff_eq.2 start]
  · obtain ⟨tagged, tagOk, risen⟩ := tag.resolve_left start
    have fresh : x.stale f = false := by
      rw [← Bool.not_eq_true, Session.stale_iff]
      rintro ⟨n, last, old⟩
      have := risen n last
      omega
    rw [serve_elevated room live ver known start, if_neg (by simp [tagged, tagOk, fresh]), noted, if_neg start, Session.noted, if_neg start,
      bne_iff_ne.2 start]

theorem State.takeFrame_malformed {f : KFrame} (bad : malformed f = true) (s : State) (t : Transport) (x : Session) (tagged : Bool)
    (env : List ActEnv) (sig : Bool) : s.takeFrame t f x tagged env sig = s.refuse t f 1 tagged := if_pos bad

theorem State.takeFrame_formed {f : KFrame} (good : malformed f = false) (s : State) (t : Transport) (x : Session) (tagged : Bool)
    (env : List ActEnv) (sig : Bool) : s.takeFrame t f x tagged env sig =
      (let a := s.request t f x env sig
       { a.2 with m := a.2.m.reply ⟨t, f.op ||| 0x80, Fin.ofNat 6 a.1.1, a.1.2.1, f.seq.toNat, tagged, a.1.2.2⟩ }) :=
  if_neg (by simp [good])

/-- Settles O51, by `exec_submits` and the lemma of each check of the serving block. -/
theorem kdpFrames : Obligations.KdpFrames := by
  unfold Obligations.KdpFrames
  refine ⟨fun s t f env sig i submits => ⟨fun served idle => ?_, fun closed => ?_, fun p box busy => ?_⟩,
    fun s t f env sig => ⟨State.serve_full, fun room => ⟨?inactive, fun live ver => ?version, fun live ver =>
      ⟨fun unknown bad => ?unknownMalformed, fun unknown good => ?unknown, fun x known start bad => ?malformed,
        fun x known above bad => ?dropped⟩⟩, fun x accepts => ?accepted⟩⟩
  · rw [exec_submits submits, State.submit_served served idle]
  · rw [exec_submits submits, State.submit_unserved closed]
  · rw [exec_submits submits, State.submit_busy box busy]
  case inactive =>
    rintro ⟨k, rfl, off⟩
    exact State.serve_inactive room off
  case version => exact State.serve_version room (State.live_iff.2 live) ver
  case unknownMalformed => rw [State.serve_unknown room (State.live_iff.2 live) ver unknown, if_pos bad]; rfl
  case unknown => rw [State.serve_unknown room (State.live_iff.2 live) ver unknown, if_neg (by simp [good])]; rfl
  case malformed => rw [State.serve_starting room (State.live_iff.2 live) ver known start, State.takeFrame_malformed bad]; rfl
  case dropped =>
    have drops : (!f.tagged || !f.tagOk || x.stale f) = true := by
      simpa only [Bool.or_eq_true, Bool.not_eq_true', Session.stale_iff, or_assoc] using bad
    rw [State.serve_elevated room (State.live_iff.2 live) ver known above, if_pos drops]
    exact s.m.dropFrame_counts t
  case accepted =>
    have ⟨_, _, _, _, good, _⟩ := accepts
    rw [State.serve_accepts accepts, State.takeFrame_formed good]

end Sys2Proof.Machine
end

section
/-! The dictionary's upkeep (21 R570, R577, R581, R588-R592, 22 R600): actions that end, EVENT frames, the fail-over and the saved copies. -/

namespace Sys2Proof.Machine

/-! Actions that end (R577). -/

section
variable {s : State} {n : BitVec 24} {e : Fin 8} {a : ActRun}

theorem exec_actionDone_waiting (found : Tab.find n.toNat s.m.kod.actions = some a) (final : a.final = some e.val) (waits : a.answered = false) :
    exec (.actionDone n e) s = Becomes s (s.m.updKod fun k => { k with
      actions := k.actions.del n.toNat, held := k.held.map fun r => { r with entries := r.entries.map fun x =>
        if x.number == n && x.estat == 7 then { x with estat := Fin.ofNat 16 e.val } else x } }).release := by
  simp [execActionDone, found, final, waits, Becomes]

theorem exec_actionDone_answered (found : Tab.find n.toNat s.m.kod.actions = some a) (final : a.final = some e.val) (answered : a.answered = true) :
    exec (.actionDone n e) s = Becomes s ((s.m.updKod fun k => { k with actions := k.actions.del n.toNat }).raise
      evKodActDone s.m.kod.server.val noPart (n.toNat + e.val * 2 ^ 24)).release := by
  simp [execActionDone, found, final, answered, Becomes]

end

/-! EVENT frames and the fail-over (R570, R588). -/

/-- A session that is listed is replaced. -/
theorem Mod.find_setSess {m : Mod} {sid : Nat} {x : Session} (named : sid ≠ 0) (found : Tab.find sid m.kod.sessions = some x) (t : Transport)
    (y : Session) : Tab.find sid (m.setSess t sid y).kod.sessions = some y := by
  rw [setSess, if_neg named]
  simp [updKod, Tab.adj_of_find found]

@[simp] theorem Mod.sent_setSess (m : Mod) (t : Transport) (sid : Nat) (x : Session) : (m.setSess t sid x).kod.sent = m.kod.sent := by
  unfold setSess
  split <;> rfl

theorem Mod.sendResp_noBox {r : KResp} (noBox : mailboxOf r.transport = none) (m : Mod) :
    m.sendResp r = m.updKod fun k => { k with sent := r :: k.sent } := by
  simp [sendResp, noBox]

theorem exec_eventFrameSend_frame {s : State} {id : BitVec 32} {x : Session} {last : Event} (found : Tab.find id.toNat s.m.kod.sessions = some x)
    (noBox : mailboxOf x.transport = none) : let ev := (s.m.kod.events.filter fun e =>
        decide (x.evNext ≤ e.seq) && x.mask.getLsbD (e.code.toNat / 2 ^ 24) && x.sees e).take 32
    ev.getLast? = some last → exec (.eventFrameSend id) s =
      Becomes s (((s.m.draw).2.setSess x.transport id.toNat { x with evNext := last.seq + 1 }).sendResp
        ⟨x.transport, 0x10, 0, id.toNat, s.m.draw.1, x.role != startRole x.transport, eventEntries ev⟩) := by
  intro ev isLast
  simp only [exec_eventFrameSend, execEventFrameSend, State.go_eq, found, noBox, Becomes]
  rw [isLast]

theorem exec_kdpServerFailover_to {s : State} {j : Nat} (out : s.m.iodState s.m.kod.server.val = 1) (four : j < 4) (serves : s.m.iodState j ≠ 1)
    (least : ∀ k < j, s.m.iodState k = 1) :
    exec .kdpServerFailover s = Becomes s (s.m.endSessions.updKod fun x => { x with server := Fin.ofNat 4 j }) := by
  have lowest : ((List.range 4).find? fun k => s.m.iodState k ≠ 1) = some j := by
    rw [List.find?_range_eq_some]
    exact ⟨by simpa using serves, by simpa using four, fun k below => by simpa using least k below⟩
  simp only [exec_kdpServerFailover, execKdpServerFailover, State.go_eq, out, lowest]
  rfl

/-! The saved copies (R589-R592): a save takes the copy that is not the newest. -/

section
variable {k : Kod} {order fw : Nat} {act : Bool} {a b : SavedCopy}

theorem Kod.save_idle (idle : k.saving = none) : k.save order fw act = k.saveStart order fw act := by
  simp [save, idle]

theorem Kod.saveStart_toB (heldA : k.cfgA = some a) (heldB : k.cfgB = some b) (newestA : b.seq ≤ a.seq) : let n := k.saveStart order fw act
    n.cfgA = some a ∧ n.cfgB = none ∧ n.saving = some (true, { seq := a.seq + 1, fwver := fw, entries := k.savedEntries order }) := by
  simp [saveStart, newest, heldA, heldB, Nat.not_lt.2 newestA]

theorem Kod.saveStart_toA (heldA : k.cfgA = some a) (heldB : k.cfgB = some b) (newestB : a.seq < b.seq) : let n := k.saveStart order fw act
    n.cfgB = some b ∧ n.cfgA = none ∧ n.saving = some (false, { seq := b.seq + 1, fwver := fw, entries := k.savedEntries order }) := by
  simp [saveStart, newest, heldA, heldB, newestB]

end

/-- The header of a save is written: its copy is the newest valid one. -/
def Kod.saved (k : Kod) (toB : Bool) (c : SavedCopy) : Kod := { k with
  cfgA := if toB then k.cfgA else some c, cfgB := if toB then some c else k.cfgB,
  saving := none, saveAct := false, cfgSeq := c.seq, cfgSlot := if toB then 1 else 0, defaulted := false }

theorem exec_configSaveDone_once {s : State} {toB : Bool} {c : SavedCopy} (saving : s.m.kod.saving = some (toB, c))
    (once : s.m.kod.saveAgain = false) : let n := s.m.updKod fun k => k.saved toB c
    exec .configSaveDone s = if s.m.kod.saveAct then Acts s n pKodSave esOK else Becomes s n := by
  cases act : s.m.kod.saveAct <;> simp [execConfigSaveDone, saving, act, once, Mod.acted, Mod.updKod, Acts, Becomes, Kod.saved]

/-- Settles O53, by the lemma of each command, and `Kod.saveStart_toB` and `_toA` for the copy that a save takes. -/
theorem dictionaryUpkeep : Obligations.DictionaryUpkeep := by
  unfold Obligations.DictionaryUpkeep
  refine fun s => ⟨fun _ => rfl, fun n e a found final => ⟨exec_actionDone_waiting found final, exec_actionDone_answered found final⟩,
    fun id x last found noBox isLast => ?frame, fun _ => rfl, fun _ => rfl, fun j four out serves least => exec_kdpServerFailover_to out four serves least,
    ?serves, ?save, ?delay, fun k order fw act a b idle heldA heldB => ?copies, fun toB c saving once => exec_configSaveDone_once saving once,
    ?factory, ?refused⟩
  case frame =>
    refine ⟨_, exec_eventFrameSend_frame found noBox isLast, s.m.draw.1, ?_, fun named => ?_⟩
    · rw [Mod.sendResp_noBox noBox]
      exact congrArg (List.cons _) (Mod.sent_setSess ..)
    · rw [Mod.sendResp_noBox noBox]
      exact Mod.find_setSess named (by exact found) ..
  case serves =>
    intro up
    simp [execKdpServerFailover, up, Becomes]
  case save =>
    intro opened
    simp only [exec_kodSave, execKodSave, State.go_eq]
    rw [if_pos (by simpa using opened)]
    rfl
  case delay =>
    intro dirty last delay
    simp only [exec_saveDelayExpiry, execSaveDelayExpiry, State.go_eq]
    rw [if_pos (by simp [dirty, delay, Option.isSome_iff_ne_none.2 last])]
    rfl
  case copies =>
    rw [Kod.save_idle idle]
    exact ⟨Kod.saveStart_toB heldA heldB, Kod.saveStart_toA heldA heldB⟩
  case factory =>
    intro standby recovery kickstand
    simp [execKodFactory, Mod.kodFactory, standby, recovery, kickstand, Acts, Becomes]
  case refused =>
    intro closed
    simp only [exec_kodFactory, execKodFactory, Mod.kodFactory, State.go_eq]
    rw [if_pos (by simpa [or_assoc] using closed)]
    rfl

end Sys2Proof.Machine
end

section
/-! Firmware and security (22 R602-R613): valid images and tested sets, staging and committing, the live update step by step, SVN fuses, attestation,
debug unlock. -/

namespace Sys2Proof.Machine

/-! Images and sets (R602, R603). -/

theorem imageValid_iff (f : Fuse) (t : Nat) (i : Image) : imageValid f t i = true ↔ (i.magicOk = true ∧ i.type = t ∧ i.reservedZero = true ∧
    i.blen ≤ bodyMax t ∧ i.keyidx < 4 ∧ f.revoked.testBit i.keyidx = false ∧ leNat (sha256 i.signer) = f.keyHash.getD i.keyidx 0 ∧
    i.sigOk = true ∧ f.svnMin.getD t 0 ≤ i.svn) := by
  simp only [imageValid, Bool.and_eq_true, beq_iff_eq, decide_eq_true_eq, Bool.not_eq_true', and_assoc]

theorem SecS.tested_iff (c : SecS) (f : Fuse) (idx : Nat) : c.tested f idx = true ↔ ∃ is, c.setOf f idx = some is ∧ ∀ i ∈ is,
    i.stepMin ≤ f.stepping.toNat ∧ f.stepping.toNat ≤ i.stepMax ∧ ∀ j ∈ is, i.type ≠ j.type → lists i j = true := by
  cases set : c.setOf f idx with
  | none => simp [tested, set]
  | some is => simp [tested, set, and_assoc, or_iff_not_imp_left]

/-! Staging, committing and activation (R607, R608). -/

theorem State.go_performIn {s : State} (opened : s.m.fwOpen = true) {f : Mod → Nat × Mod} {es : Nat} {n : Mod} (h : f s.m = (es, n))
    (num : Nat) : (s.go fun m => m.performIn m.fwOpen num f) = Acts s n num es := by
  simp [Mod.performIn, opened, h, Acts, Becomes]

section
variable {m : Mod} {f : Fuse} {t k : Nat}

/-- The header of a chunk: type, three zero bytes, offset. -/
theorem fwChunk_fields {h d : List Byte} {off : Nat} (len : h.length = 8) (high : t ≤ 4) (far : off < 2 ^ 32) (word : leNat h = t + off * 2 ^ 32) :
    leField (h ++ d) 0 1 = t ∧ leField (h ++ d) 1 3 = 0 ∧ leField (h ++ d) 4 4 = off := by
  simp only [leField_eq, leNat_append, len, word]
  omega

theorem Mod.fwWrite_chunk {h d : List Byte} {off : Nat} (len : h.length = 8) (few : d.length ≤ 1016) (low : 1 ≤ t) (high : t ≤ 4) (far : off < 2 ^ 32)
    (word : leNat h = t + off * 2 ^ 32) (fits : off + d.length ≤ 256 + bodyMax t) (image : Option Image) : m.fwWrite (h ++ d) image =
      match m.freeSlotFw t with
      | none => (esSTATE, m)
      | some k => (esOK, m.updSec fun c => { c with
          slots := c.slots.put k { bytes := Mem.wrs off d (if off = 0 then [] else (c.slots.getD k {}).bytes), image := image },
          staging := c.staging.put k () }) := by
  obtain ⟨type, zeros, offset⟩ := fwChunk_fields (d := d) len high far word
  have drop : (h ++ d).drop 8 = d := by rw [← len, List.drop_left]
  have size : ¬ ((h ++ d).length < 8 ∨ 1024 < (h ++ d).length) := by
    rw [List.length_append]
    omega
  simp only [fwWrite, type, zeros, offset, drop, if_neg size]
  rw [if_neg (by omega)]
  cases m.freeSlotFw t <;> rfl

/-- The module once the image staged in a slot is validated: it is staged no more. -/
def Mod.unstage (m : Mod) (k : Nat) : Mod := m.updSec fun c => { c with staging := c.staging.del k }

theorem Mod.fwCommit_staged (low : 1 ≤ t) (high : t ≤ 4) (slot : m.freeSlotFw t = some k) : m.fwCommit f t =
    if (m.sec.image f k).isSome then (esOK, (m.unstage k).updSec fun c => { c with pending := setIdx c.pending k }) else (esSTATE, m.unstage k) := by
  simp only [fwCommit, slot, if_neg (show ¬ (t = 0 ∨ 4 < t) by omega)]
  rfl

theorem Mod.fwActivate_of (h : m.serving = false ∨ m.sec.tested f m.sec.pending = true) :
    m.fwActivate f = (esOK, (m.updSec fun c => { c with unlockFlag := false }).restart) := by
  rw [fwActivate, if_neg (by obtain h | h := h <;> simp [h])]

theorem Mod.fwActivate_untested (serves : m.serving = true) (untested : m.sec.tested f m.sec.pending = false) :
    m.fwActivate f = (esSTATE, m) := by
  rw [fwActivate, if_pos (by simp [serves, untested])]

/-! The live update (R609, R610). -/

theorem Mod.fwLive_begins {i j : Image} (idle : m.sec.live = none) (next : m.sec.pending ^^^ m.sec.running = 1)
    (tested : m.sec.tested f m.sec.pending = true) (runs : m.sec.image f (idxSlot m.sec.running 1) = some i)
    (pends : m.sec.image f (idxSlot m.sec.pending 1) = some j) (ij : lists i j = true) (ji : lists j i = true)
    (all : ∀ k, k < 4 → m.iodState k = 0) : m.fwLive f = (esRUNNING, m.liveBegin 3) := by
  exact if_neg (by simpa [idle, next, tested, runs, pends, ij, ji] using all)

theorem Mod.fwLive_refused (h : m.sec.live ≠ none ∨ m.sec.pending ^^^ m.sec.running ≠ 1 ∨ m.sec.tested f m.sec.pending = false ∨
    ∃ k, k < 4 ∧ m.iodState k ≠ 0) : m.fwLive f = (esSTATE, m) := by
  rw [fwLive]
  refine if_pos ?_
  obtain h | h | h | h := h
  · simp [Option.isSome_iff_ne_none.2 h]
  · simp [h]
  · simp [h]
  · have down : ((List.range 4).any fun k => m.iodState k ≠ 0) = true := by simpa using h
    simp only [down, Bool.or_true]

end

section
variable {s : State} {k : IodId} {n : Nat} {ok : Bool}

theorem exec_liveUpdateStepDone_stopped (live : s.m.sec.live = some (k, 1)) :
    exec (.liveUpdateStepDone ok) s = Becomes s (s.m.updSec fun c => { c with live := some (k, 2) }) := by
  simp [execLiveUpdateStepDone, live, Becomes]

theorem exec_liveUpdateStepDone_taken (live : s.m.sec.live = some (k, 2)) : exec (.liveUpdateStepDone ok) s =
    Becomes s (((s.m.updFt fun f => { f with takeover := f.takeover.del k.val }).updSeq fun x => { x with
      freed := x.freed.adj k.val fun l => sortBy id l }).updSec fun c => { c with live := some (k, 3) }) := by
  simp [execLiveUpdateStepDone, live, Becomes]

theorem exec_liveUpdateStepDone_verified (live : s.m.sec.live = some (k, 3)) : exec (.liveUpdateStepDone ok) s =
    (let m := if k = s.m.kod.server then s.m.endSessions else s.m
     Becomes s (if ok then m.updSec fun c => { c with live := some (k, 4), updated := c.updated.insert k }
       else m.liveAbandon.raise evFwUpdateFail k.val noPart k.val)) := by
  simp [execLiveUpdateStepDone, live, Becomes]

theorem exec_liveUpdateStepDone_returned (live : s.m.sec.live = some (k, n)) (last : 4 ≤ n) : exec (.liveUpdateStepDone ok) s =
    (let m := s.m.updFt fun f => { f with iodState := f.iodState.del k.val }
     if k = 0 then Acts s (m.updSec fun c => { c with
       live := none, updated := [], running := c.running ^^^ 1, lkg := c.running ^^^ 1, liveCount := c.liveCount + 1 }) pFwLiveIod esOK
     else Becomes s (m.liveBegin (k - 1))) := by
  have stopped : n ≠ 1 := by omega
  have taken : n ≠ 2 := by omega
  have verified : n ≠ 3 := by omega
  by_cases first : k = 0 <;> simp [execLiveUpdateStepDone, live, stopped, taken, verified, first, Acts, Becomes]

end

/-! SVN fuses (R611). -/

section
variable {s : State} {t : Nat}

theorem State.svnCommit_m (s : State) (t : Nat) : (s.svnCommit t).2.m = s.m := by
  obtain e | ⟨n, -, e⟩ := s.svnCommit_cases t <;> rw [e]

theorem State.svnCommit_blows {i : Image} (low : 1 ≤ t) (high : t ≤ 4) (serves : s.m.serving = true)
    (good : idxSlot s.m.sec.running t = idxSlot s.m.sec.lkg t) (image : (s.m.sec.slots.getD (idxSlot s.m.sec.running t) {}).image = some i)
    (few : i.svn ≤ 64) : s.svnCommit t = (esOK, { s with fuse := s.fuse.blown t i.svn }) := by
  rw [good] at image
  simp [svnCommit, show ¬ (t = 0 ∨ 4 < t) by omega, serves, good, image, Nat.not_lt.2 few, Fuse.blown]

theorem State.svnCommit_differs (h : idxSlot s.m.sec.running t ≠ idxSlot s.m.sec.lkg t) : (s.svnCommit t).2 = s := by
  by_cases range : t = 0 ∨ 4 < t <;> simp [svnCommit, range, h]

end

/-! Attestation (R612): an answer draws free values and changes nothing else of the module. -/

section
variable (s : State) (x : Spdm) (q : List Byte)

theorem State.spdmMeasurements_kod (sign : Bool) (op : Nat) : (s.spdmMeasurements sign op).2.kod = s.m.kod := by
  cases sign <;> rfl

theorem State.spdmPlain_kod : (s.spdmPlain x q).2.2.kod = s.m.kod := by
  simp only [spdmPlain, apply_ite Prod.snd, apply_ite Mod.kod, spdmMeasurements_kod, show ∀ b, (s.spdmChallenge b).2.kod = s.m.kod from fun _ => rfl,
    ite_self]

theorem State.spdmChunkSend_kod : (s.spdmChunkSend x q).2.2.kod = s.m.kod := by
  simp only [spdmChunkSend, apply_ite Prod.snd, apply_ite Mod.kod, spdmPlain_kod, ite_self]

theorem spdmFit_mod (r : List Byte × Spdm × Mod) : (spdmFit r).2.2 = r.2.2 := by
  simp only [spdmFit, apply_ite Prod.snd, ite_self]

theorem spdmFit_short {r : List Byte × Spdm × Mod} (short : r.1.length ≤ spdmSize) : spdmFit r = r := if_pos short

theorem State.spdmAnswer_kod : (s.spdmAnswer x q).2.2.kod = s.m.kod := by
  simp only [spdmAnswer, apply_ite Prod.snd, apply_ite Mod.kod, spdmFit_mod, spdmChunkSend_kod, spdmPlain_kod, ite_self]

end

@[simp] theorem length_spdmError (code data : Nat) : (spdmError code data).length = 4 := by
  simp [spdmError, spdmHead]

section
variable {s : State} {x : Spdm} {q : List Byte} {code : Nat}

theorem State.spdmAnswer_whole (is : leField q 1 1 = code) (send : code ≠ 0x85) (get : code ≠ 0x86) :
    s.spdmAnswer x q = spdmFit (s.spdmPlain { x with out := [], outSeq := 0 } q) := by
  simp [spdmAnswer, is, send, get]

theorem State.spdmPlain_version (len : 4 ≤ q.length) (is : leField q 1 1 = 0x84) : s.spdmPlain x q = (spdmVersion, { stage := 1 }, s.m) := by
  simp [spdmPlain, Nat.not_lt.2 len, is]

/-- Requests of SPDM 1.2 in one piece, beside GET_VERSION. -/
theorem State.spdmPlain_unsupported (len : 4 ≤ q.length) (version : leField q 0 1 = 0x12) (is : leField q 1 1 = code)
    (unsupported : spdmSupported.contains code = false) : s.spdmPlain x q = (spdmError 7 code, x, s.m) := by
  have named : code ≠ 0x84 := by
    rintro rfl
    exact absurd unsupported (by decide)
  have none : code ∉ spdmSupported := by simpa using unsupported
  simp [spdmPlain, Nat.not_lt.2 len, version, is, named, none]

theorem State.spdmPlain_unexpected (len : 4 ≤ q.length) (version : leField q 0 1 = 0x12) (is : leField q 1 1 = code) (send : code ≠ 0x85)
    (get : code ≠ 0x86) (supported : spdmSupported.contains code = true) (named : code ≠ 0x84) (early : x.stage.val ≠ spdmNeeds code) :
    s.spdmPlain x q = (spdmError 4 0, x, s.m) := by
  have mem : code ∈ spdmSupported := by simpa using supported
  simp [spdmPlain, Nat.not_lt.2 len, version, is, named, send, get, mem, early]

theorem State.spdmPlain_certificate_slot (len : 4 ≤ q.length) (version : leField q 0 1 = 0x12) (is : leField q 1 1 = 0x82) (stage : x.stage = 3)
    (slot : leField q 2 1 % 16 ≠ 0) : s.spdmPlain x q = (spdmError 1 0, x, s.m) := by
  simp [spdmPlain, Nat.not_lt.2 len, version, is, stage, slot, spdmSupported, spdmNeeds]

theorem State.spdmPlain_measurement (len : 4 ≤ q.length) (version : leField q 0 1 = 0x12) (is : leField q 1 1 = 0xE0) (stage : x.stage = 3)
    (unsigned : leField q 2 1 % 2 = 0) (low : 1 ≤ leField q 3 1) (high : leField q 3 1 ≤ 10) : (s.spdmPlain x q).1 =
      spdmHead 0x60 0 0 ++ [1] ++ leBytes (s.measureBlock (leField q 3 1)).length 3 ++ s.measureBlock (leField q 3 1) ++ (s.m.drawBytes 32).1 ++
        [0, 0] := by
  have one : leField q 3 1 ≠ 0 := by omega
  have all : leField q 3 1 ≠ 0xFF := by omega
  simp [spdmPlain, Nat.not_lt.2 len, version, is, stage, unsigned, high, spdmSupported, spdmNeeds, spdmMeasurements, one, all, leBytes]

end

/-! What is measured (Table 22.8). -/

/-- A block of a list of blocks of one length. -/
theorem take_drop_flatMap {α β : Type} {f : α → List β} {w : Nat} (len : ∀ a, (f a).length = w) (l : List α) (i : Nat) (h : i < l.length) :
    ((l.flatMap f).drop (w * i)).take w = f l[i] := by
  induction l generalizing i with
  | nil => cases h
  | cons a l ih =>
    cases i with
    | zero => simp [← len a]
    | succ i =>
      rw [List.flatMap_cons, Nat.mul_succ, Nat.add_comm, ← List.drop_drop, ← len a, List.drop_left, len a]
      exact ih i (by simpa using h)

theorem SecS.slotDigest_of {c : SecS} {k : Nat} {i : Image} (held : (c.slots.getD k {}).image = some i) : c.slotDigest k = leBytes i.digest 32 := by
  rw [slotDigest, held]
  rfl

theorem State.measured_running {s : State} {t : Nat} {i : Image} (low : 2 ≤ t) (high : t ≤ 4)
    (held : (s.m.sec.slots.getD (idxSlot s.m.sec.running t) {}).image = some i) : s.measured (t + 1) = leBytes i.digest 32 := by
  rw [← SecS.slotDigest_of held]
  obtain rfl | rfl | rfl : t = 2 ∨ t = 3 ∨ t = 4 := by omega
  all_goals rfl

theorem State.measured_iodfw {s : State} {k : IodId} {i : Image} (held : (s.m.sec.slots.getD (s.m.sec.runs k) {}).image = some i) :
    ((s.measured 2).drop (32 * k.val)).take 32 = leBytes i.digest 32 := by
  have block := take_drop_flatMap (f := fun k : IodId => s.m.sec.slotDigest (s.m.sec.runs k)) (w := 32) (by simp [SecS.slotDigest]) [0, 1, 2, 3]
    k.val k.isLt
  have same : ∀ k : IodId, ([0, 1, 2, 3] : List IodId)[k.val]'k.isLt = k := by decide
  rw [same k, SecS.slotDigest_of held] at block
  exact block

/-! Debug unlock (R613). -/

section
variable {m : Mod}

theorem Mod.dbgUnlock_unlocks (read : m.sec.nonce ≠ none) (free : ∀ e ∈ m.parts.parts, e.1 ≠ 0 → e.2.st ≠ .active) :
    m.dbgUnlock true true = (esOK,
      (((m.updSec fun c => { c with nonce := none }).updSec fun c => { c with unlockFlag := true }).endSessions).restart) := by
  have none : (m.parts.parts.any fun e => e.1 ≠ 0 && e.2.st == .active) = false := by simpa using free
  simp only [dbgUnlock, updSec_parts, none, Option.isSome_iff_ne_none.2 read]
  rfl

theorem Mod.dbgUnlock_refused {sig time : Bool} (h : m.sec.nonce = none ∨ sig = false ∨ time = false ∨
    ∃ e ∈ m.parts.parts, e.1 ≠ 0 ∧ e.2.st = .active) : m.dbgUnlock sig time = (esSTATE, m.updSec fun c => { c with nonce := none }) := by
  refine if_pos ?_
  obtain h | h | h | h := h
  · simp [h]
  · simp [h]
  · simp [h]
  · have active : (m.parts.parts.any fun e => e.1 ≠ 0 && e.2.st == .active) = true := by simpa using h
    simp only [updSec_parts, active, Bool.true_or]

end

/-- Settles O54, by the lemmas of images, of each action under `State.go_performIn` or `State.go_perform`, of each step of the live update, and of
the responder. -/
theorem firmwareAndSecurity : Obligations.FirmwareAndSecurity := by
  unfold Obligations.FirmwareAndSecurity
  refine ⟨imageValid_iff, SecS.tested_iff, fun s => ⟨fun opened => ⟨?write, ?commit, fun h => ?activate, fun serves untested => ?untested⟩,
    fun serves => ⟨fun i j idle next tested runs pends ij ji all => ?live, fun h => ?noLive⟩, fun k n ok live => ⟨?stopped, ?taken, ?verified, ?returned⟩,
    fun t => ?svn, fun id req x serves len found => ?spdm, fun req up opened => ?doe, fun x q code len version is send get => ?responder,
    fun t i => State.measured_running, fun k i => State.measured_iodfw, fun serves => ⟨fun read free => ?unlock, fun sig t h => ?locked⟩⟩⟩
  case write =>
    intro h d t off image k len few low high far word fits
    have chunk := Mod.fwWrite_chunk (m := s.m) len few low high far word fits image
    refine ⟨fun slot => ?_, fun slot => ?_⟩ <;> rw [slot] at chunk <;>
      exact (exec_fwWrite ..).trans (State.go_performIn opened chunk _)
  case commit =>
    intro t k low high slot
    have commits := Mod.fwCommit_staged (f := s.fuse) low high slot
    refine ⟨fun valid => ?_, fun invalid => ?_⟩
    · rw [if_pos (Option.isSome_iff_ne_none.2 valid)] at commits
      exact (exec_fwCommit ..).trans (State.go_performIn opened commits _)
    · rw [if_neg (by simpa using invalid)] at commits
      exact (exec_fwCommit ..).trans (State.go_performIn opened commits _)
  case activate => exact State.go_performIn opened (Mod.fwActivate_of h) _
  case untested => exact State.go_performIn opened (Mod.fwActivate_untested serves untested) _
  case live => exact State.go_perform serves (Mod.fwLive_begins idle next tested runs pends ij ji all) _
  case noLive => exact State.go_perform serves (Mod.fwLive_refused h) _
  case stopped =>
    rintro rfl
    exact exec_liveUpdateStepDone_stopped live
  case taken =>
    rintro rfl
    exact exec_liveUpdateStepDone_taken live
  case verified =>
    rintro rfl
    exact ⟨exec_liveUpdateStepDone_verified live, exec_liveUpdateStepDone_verified live⟩
  case returned =>
    intro last
    exact ⟨fun more => (exec_liveUpdateStepDone_returned live last).trans (if_neg more),
      fun first => (exec_liveUpdateStepDone_returned live last).trans (if_pos first)⟩
  case svn =>
    refine ⟨_, rfl, by rw [State.svnCommit_m], fun low high serves good i image few => ?_, fun differs => by rw [State.svnCommit_differs differs]⟩
    have blows := State.svnCommit_blows low high serves good image few
    refine ⟨by rw [blows]; rfl, ?_, fun q other => ?_⟩ <;> rw [blows]
    · exact s.fuse.svnMin_blown_same ..
    · exact s.fuse.svnMin_blown_other other _
  case spdm =>
    refine ⟨_, (exec_spdmReq ..).trans (State.go_eq ..), ?_⟩
    rw [if_neg (by simpa [len, or_iff_not_imp_left] using serves), found]
    have kept : Tab.find id.toNat (s.spdmAnswer x.spdmAt req).2.2.kod.sessions = some x := by rwa [State.spdmAnswer_kod]
    refine ⟨?_, rfl⟩
    simp [Mod.updKod, State.spdmSubmit, Tab.adj_of_find kept]
  case doe =>
    refine ⟨_, (exec_doeRequest ..).trans (State.go_eq ..), ?_⟩
    rw [if_neg (by simpa [up, or_iff_not_imp_left] using opened)]
    exact ⟨rfl, rfl, rfl⟩
  case responder =>
    have whole := State.spdmAnswer_whole (s := s) (x := x) is send get
    refine ⟨whole, fun named => ?_, fun unsupported => ?_, fun supported named early => ?_, fun named stage slot => ?_,
      fun named stage unsigned low high => ⟨_, ?_, State.spdmPlain_measurement len version (is.trans named) stage unsigned low high⟩⟩
    · rw [whole, State.spdmPlain_version len (is.trans named), spdmFit_short (show spdmVersion.length ≤ spdmSize by decide)]
    · rw [whole, State.spdmPlain_unsupported len version is unsupported, spdmFit_short (by simp [spdmSize])]
    · rw [whole, State.spdmPlain_unexpected (x := { x with out := [], outSeq := 0 }) len version is send get supported named early, spdmFit_short (by simp [spdmSize])]
    · rw [whole, State.spdmPlain_certificate_slot (x := { x with out := [], outSeq := 0 }) len version (is.trans named) stage slot,
        spdmFit_short (by simp [spdmSize])]
    · simp [Mod.drawBytes]
  case unlock => exact State.go_perform serves (Mod.dbgUnlock_unlocks read free) _
  case locked => exact State.go_perform serves (Mod.dbgUnlock_refused h) _

end Sys2Proof.Machine
end

section
/-! Counters, debug and audits (23 R615-R637, 10 R297-R305): the actions, the Brake's stages, the trace ring, one audit sample. -/

namespace Sys2Proof.Machine

/-! Odometer (R617, R622). -/

/-- No counter has as many instances as the number that names all of them. -/
theorem ctrDefs_insts {d : CtrDef} (h : d ∈ ctrDefs) : d.insts < 0xFFFFFFFF := by
  revert d
  decide +kernel

theorem Mod.ctrExists_lt {m : Mod} {d : CtrDef} {inst : Nat} (h : m.ctrExists d inst = true) : inst < d.insts := by
  simp only [ctrExists, Bool.and_eq_true, decide_eq_true_eq] at h
  exact h.1

section
variable {m : Mod} {num inst : Nat} {d : CtrDef}

theorem Mod.odoClear_unknown (unknown : ctrDefs.find? (fun d => d.num == num) = none) : m.odoClear num inst = (esRANGE, m) := by
  simp [odoClear, unknown]

theorem Mod.odoClear_all (found : ctrDefs.find? (fun d => d.num == num) = some d) :
    m.odoClear num 0xFFFFFFFF = (esOK, forEach (m.ctrInsts d) (fun i m => m.clearCtr num i) m) := by
  simp [odoClear, found]

theorem Mod.odoClear_one (found : ctrDefs.find? (fun d => d.num == num) = some d) (there : m.ctrExists d inst = true) :
    m.odoClear num inst = (esOK, m.clearCtr num inst) := by
  have below := ctrExists_lt there
  have few := ctrDefs_insts (List.mem_of_find?_eq_some found)
  simp [odoClear, found, there, show inst ≠ 0xFFFFFFFF by omega]

theorem Mod.odoClear_missing (found : ctrDefs.find? (fun d => d.num == num) = some d) (missing : m.ctrExists d inst = false)
    (one : inst ≠ 0xFFFFFFFF) : m.odoClear num inst = (esRANGE, m) := by
  simp [odoClear, found, missing, one]

end

/-! Triggers and halted contexts (R625, R626). -/

section
variable {m : Mod}

theorem Mod.trigSet_one {blob : List Byte} (len : blob.length = 24) (op : Bool) : let r := leNat blob
    let t := bits r 9 0
    let k := bits r 17 16
    let i := bits r 25 24
    m.trigSet blob op = (esOK, if (m.ctx t k).st == .empty || (m.ctx t k).part.val != bits r 38 32 then m
      else m.updCtx t k fun c => { c with
        trig := c.trig.put i (trigWrite i (!op && m.unlocked) (c.trig.getD i {}).ctl (bits r 127 64) (bits r 191 128)) }) := by
  simp only [trigSet, len, recordsOf_one (by decide) len]
  rfl

theorem Mod.dbgResume_unknown {w : Nat} (unknown : Tab.find (bits w 15 0) m.dbg.halted = none) : m.dbgResume w = (esSTATE, m) := by
  simp [dbgResume, unknown]

/-- A context that is in a saddle goes on there. -/
theorem Mod.dbgResume_saddle {w uid k : Nat} (few : w < 2 ^ 17) (halted : Tab.find (bits w 15 0) m.dbg.halted = some uid)
    (saddle : (m.updDbg fun d => { d with halted := d.halted.del (bits w 15 0) }).ctxOf uid = some k) : m.dbgResume w =
      (esOK, ((m.updDbg fun d => { d with halted := d.halted.del (bits w 15 0) }).updCtx (k / 4) (k % 4) fun c =>
        c.resumed (w.testBit 16)).pickCur (k / 4)) := by
  simp only [dbgResume, halted, saddle, Nat.div_eq_of_lt few, ne_eq, not_true_eq_false, if_false]

/-! Freewheel (R627, R628). -/

theorem scopeOk_iff {p : Nat} : scopeOk p = true ↔ p < 128 ∨ p = 255 := by simp [scopeOk]

theorem Mod.fwlStart_scope {p : Nat} (scope : p < 128 ∨ p = 255) : m.fwlStart p = (esOK, m.freewheel p) := if_pos (scopeOk_iff.2 scope)
theorem Mod.fwlEnd_scope {p : Nat} (scope : p < 128 ∨ p = 255) :
    m.fwlEnd p = (esOK, m.updDbg fun d => ({ d with fwl := d.fwl.del p } : DbgS).refreshFwl) := if_pos (scopeOk_iff.2 scope)
theorem Mod.fwlStart_noScope {p : Nat} (high : 128 ≤ p) (some : p ≠ 255) : m.fwlStart p = (esRANGE, m) :=
  if_neg (by rw [scopeOk_iff]; omega)
theorem Mod.fwlEnd_noScope {p : Nat} (high : 128 ≤ p) (some : p ≠ 255) : m.fwlEnd p = (esRANGE, m) :=
  if_neg (by rw [scopeOk_iff]; omega)

/-! The Brake (R629-R632). -/

theorem Mod.brakeAct_starts (unlocked : m.unlocked = true) (off : m.dbg.brake = 0) : m.brakeAct =
    (esOK, ((m.count kDbgBrakeCnt 0).freewheel 255).updDbg fun d => { d with
      brake := 1, brakeUnit := unitOfIod m.kod.server.val, brakeRecs := [] }) := by
  simp [brakeAct, brakeStart, unlocked, off]

theorem Mod.brakeAct_refused (h : m.unlocked = false ∨ m.dbg.brake ≠ 0) : m.brakeAct = (esSTATE, m) := if_pos (by simpa using h)

theorem Mod.brakeMarker_stops {u input : Nat} (stops : m.dbg.brake = 2) (there : m.unitIn u = true) :
    m.brakeMarker u input = ((if m.heldAt u then m else m.takeStop u).markInput u input false).brakeCheck :=
  if_neg (by simp [stops, there])

theorem Mod.brakeRelease_stopped (stopped : m.dbg.brake = 3) : m.brakeRelease = (esOK, m.updDbg fun d => { d with brake := 0 }) :=
  if_neg (by simp [stopped])
theorem Mod.brakeRelease_refused (h : m.dbg.brake ≠ 3) : m.brakeRelease = (esSTATE, m) := if_pos (by simpa using h)

end

/-- A marker crosses to an input once the unit that drives it has taken its stop. -/
theorem exec_brakeMarker_driven {s : State} {u input v : Nat} (drives : (brakeInputs u).find? (fun e => e.1 == input) = some (input, .unit v) ∨
    ∃ k, (brakeInputs u).find? (fun e => e.1 == input) = some (input, .link k v)) :
    exec (.brakeMarker u input) s = Becomes s (if s.m.heldAt v then s.m.brakeMarker u input else s.m) := by
  obtain unit | ⟨k, link⟩ := drives
  · simp only [exec_brakeMarker, execBrakeMarker, State.go_eq, unit]; rfl
  · simp only [exec_brakeMarker, execBrakeMarker, State.go_eq, link]; rfl

/-! The trace ring (R634, R636): a source's buffer drains, and after drops takes one LOST record. -/

/-- The module once the buffer of a source has been written to the ring. -/
def Mod.ringDrained (m : Mod) (src : Nat) : Mod :=
  (forEach (m.dbg.buf.getD src []) (fun r m => m.ringWrite r) m).updDbg fun d => { d with buf := d.buf.del src }

/-- The LOST record of a source. -/
def Mod.lostRec (m : Mod) (src : Nat) : TraceRec :=
  ⟨m.cc (dieOfSource src), m.cycleC (dieOfSource src), BitVec.ofNat 32 (m.dbg.lost.getD src 0),
    BitVec.ofNat 11 (if src < 16 then unitOfSlice src else unitOfIod (src - 16)), 9, 0x7F, m.dbg.tseq.getD src 0, 0⟩

/-- Drops are reported: one LOST record is taken, and nothing counts as lost any more. -/
def Mod.reportLost (m : Mod) (src : Nat) : Mod :=
  (m.updDbg fun d => { d with
    buf := d.buf.put src [m.lostRec src], tseq := d.tseq.put src (m.dbg.tseq.getD src 0 + 1), lost := d.lost.del src }).raise
    evDbgTraceLost src noPart (src + m.dbg.lost.getD src 0 * 2 ^ 32)

theorem exec_traceSpaceReturn_serving {s : State} (serves : s.m.serving = true) (src : Fin 20) : exec (.traceSpaceReturn src) s =
    (let n := s.m.ringDrained src.val
     Becomes s (if n.dbg.lost.getD src.val 0 = 0 then n else n.reportLost src.val)) := by
  simp only [exec_traceSpaceReturn, execTraceSpaceReturn, State.go_eq, serves]
  rfl

theorem Mod.reportLost_takes (m : Mod) (src : Nat) : let n := m.reportLost src
    n.dbg.buf.getD src [] = [m.lostRec src] ∧ n.dbg.tseq.getD src 0 = m.dbg.tseq.getD src 0 + 1 ∧ n.dbg.lost.getD src 0 = 0 :=
  ⟨Tab.getD_put_same .., Tab.getD_put_same .., congrArg (Option.getD · 0) (Tab.find_del_same ..)⟩

/-! Audits (10 R297-R305). -/

section
variable {m : Mod} {l : LedgerId} {x : AuditSample}

@[simp] theorem Mod.ledgerInst_sideband (m : Mod) (l : LedgerId) : (m.sideband l).ledgerInst l = m.ledgerInst l := by cases l <;> rfl
@[simp] theorem Mod.ledgerUnit_sideband (m : Mod) (l : LedgerId) : (m.sideband l).ledgerUnit l = m.ledgerUnit l := by cases l <;> rfl
@[simp] theorem Mod.ledgerUnit_updNet (m : Mod) (f : NetS → NetS) (l : LedgerId) : (m.updNet f).ledgerUnit l = m.ledgerUnit l := by cases l <;> rfl
@[simp] theorem Mod.windowBound_sideband (m : Mod) (l : LedgerId) (w e : Nat) : (m.sideband l).windowBound l w e = m.windowBound l w e := by
  cases l <;> rfl
@[simp] theorem Mod.audits_sideband (m : Mod) (l : LedgerId) : (m.sideband l).net.audits = m.net.audits := by cases l <;> rfl
@[simp] theorem Mod.ticks_sideband (m : Mod) (l : LedgerId) : (m.sideband l).ticks = m.ticks := by cases l <;> rfl

/-- The number of items that a sample finds is that in excused windows. -/
theorem LedgerTerms.sampled_eq_iff (t : LedgerTerms) (x : AuditSample) :
    (t.sampled x).1 = ((t.sampled x).2 : Int) ↔ t.count + x.leak = t.windows := by
  simp only [sampled]
  omega

/-- A sample whose count agrees and whose oldest excused item is within its bound is recorded. -/
theorem Mod.auditSample_agrees (agrees : ((m.sideband l).ledgerTerms l).count + x.leak = ((m.sideband l).ledgerTerms l).windows)
    (inTime : ∀ b, m.windowBound l (((m.sideband l).ledgerTerms l).window x) (((m.sideband l).ledgerTerms l).windows + x.excused) = some b →
      x.age ≤ b) : let v := (m.sideband l).ledgerTerms l
    let old := m.net.audits.getD (m.auditKey l) {}
    m.auditSample l x = (m.sideband l).updNet fun n => { n with audits := n.audits.put (m.auditKey l) {
      fault := old.fault, kind := old.kind, window := Fin.ofNat 8 (v.window x), inst := if old.fault then old.inst else m.ledgerInst l,
      age := min x.age 0x3FFFF, inflight := (v.count + x.excused + x.leak).toNat % 2 ^ 24 } } := by
  have right := (LedgerTerms.sampled_eq_iff _ x).2 agrees
  simp only [LedgerTerms.sampled] at right
  cases bound : m.windowBound l (((m.sideband l).ledgerTerms l).window x) (((m.sideband l).ledgerTerms l).windows + x.excused) with
  | none =>
    cases fault : (m.net.audits.getD (m.auditKey l) {}).fault <;> simp [auditSample, LedgerTerms.sampled, bound, right, fault]
  | some b =>
    have early := Nat.not_lt.2 (inTime b bound)
    cases fault : (m.net.audits.getD (m.auditKey l) {}).fault <;> simp [auditSample, LedgerTerms.sampled, bound, right, fault, early]

/-- The audit register of a fault of the count. -/
def Mod.countFault (m : Mod) (l : LedgerId) (x : AuditSample) : AuditReg :=
  let v := (m.sideband l).ledgerTerms l
  { fault := true, kind := false, window := Fin.ofNat 8 (v.window x), inst := m.ledgerInst l, age := min x.age 0x3FFFF,
    inflight := (v.count + x.excused + x.leak).toNat % 2 ^ 24 }

/-- A sample whose count does not agree is a fault of the module, whatever its age. -/
theorem Mod.auditSample_differs (differs : ((m.sideband l).ledgerTerms l).count + x.leak ≠ ((m.sideband l).ledgerTerms l).windows) :
    let r := m.countFault l x
    m.auditSample l x = (((((m.sideband l).updNet fun n => { n with audits := n.audits.put (m.auditKey l) r }).raise evLedgerFault
      (m.ledgerUnit l) noPart (auditWord r + ledgerCode l * 2 ^ 64 + m.ticks % 2 ^ 48 * 2 ^ 80)).count kOdoLedgerFault 0).ledgerAction l false) := by
  have wrong := mt (LedgerTerms.sampled_eq_iff _ x).1 differs
  simp only [LedgerTerms.sampled, Nat.cast_add] at wrong
  simp [auditSample, countFault, LedgerTerms.sampled, wrong]

/-- The report of a link's receiver is of the sampled cycle (R300). -/
theorem Mod.sideband_reports (m : Mod) (q : PortRef) (n : Net) (vc : Fin 3) : let key := creditKey q n vc.val
    let r := m.sideband (.credit q n vc)
    Tab.find key r.net.reports = some (m.net.freed.getD key 0, m.ticks) ∧
    r.ledgerTerms (.credit q n vc) = ⟨creditCap n vc.val, [(creditCap n vc.val : Int) - (m.net.spent.getD key 0 : Nat),
      ((m.net.red.filter fun e => e.2.2.via == some key).length : Nat)], m.net.freed.getD key 0⟩ := by
  have report := Tab.find_put_same (creditKey q n vc.val) (m.net.freed.getD (creditKey q n vc.val) 0, m.ticks) m.net.reports
  refine ⟨report, ?_⟩
  simp only [ledgerTerms, sideband, updNet, entriesInUse, Tab.getD_put_same]

theorem Mod.ledgerTerms_slots (m : Mod) (h : SliceId) : (m.ledgerTerms (.slots h)).count =
    256 - (m.half h.val).slots - (m.copies.filter fun e => e.2.half == h && e.2.status.isNone).length := by
  simp only [ledgerTerms, LedgerTerms.count, List.foldl_cons, List.foldl_nil]
  omega

end

theorem exec_auditSample_of {s : State} {l : LedgerId} {x : AuditSample} (form : sampleOk l x = true) : exec (.auditSample l x) s =
    Becomes s (if s.m.audited l && s.m.hasWindow l x then s.m.auditSample l x else s.m) := by
  rw [exec_auditSample, execAuditSample, form]
  rfl

/-- Settles O55, by the lemma of each action under `State.go_perform`, of each stage of the Brake, of the ring, and of an audit sample. -/
theorem debugAndCounters : Obligations.DebugAndCounters := by
  unfold Obligations.DebugAndCounters
  refine fun s => ⟨rfl, fun serves => ⟨fun num inst d found => ⟨fun there => ?one, fun all => ?all, fun missing one => ?missing⟩,
    fun num inst unknown => ?unknown, fun blob op len => ?trigger, fun w uid k few halted saddle => ?resume, fun w unknown => ?noHandle,
    fun p scope => ?freewheel, fun p high some => ⟨?noStart, ?noEnd⟩, fun unlocked off => ?brake, fun h => ?noBrake, fun stopped => ?release,
    fun h => ?noRelease⟩, fun p waits quiet => ?drained, fun p busy => ?busy, fun cut => ?cut, fun stops => ⟨fun u input v drives there => ?marker,
    fun port held open' => ?fabric, fun u held late => ?late⟩, fun src serves => ?ring, fun r => rfl,
    fun l x form audited window => ⟨fun agrees inTime => ?agrees, fun differs => ?differs⟩, s.m.sideband_reports, s.m.ledgerTerms_slots,
    fun l x form off => ?off⟩
  case one => exact State.go_perform serves (Mod.odoClear_one found there) _
  case all =>
    subst all
    exact State.go_perform serves (Mod.odoClear_all found) _
  case missing => exact State.go_perform serves (Mod.odoClear_missing found missing fun h => one (BitVec.eq_of_toNat_eq h)) _
  case unknown => exact State.go_perform serves (Mod.odoClear_unknown unknown) _
  case trigger =>
    have set := Mod.trigSet_one (m := s.m) len op
    refine ⟨fun foreign => ?_, fun held own => ?_⟩
    · have skip : ((s.m.ctx (bits (leNat blob) 9 0) (bits (leNat blob) 17 16)).st == .empty ||
          (s.m.ctx (bits (leNat blob) 9 0) (bits (leNat blob) 17 16)).part.val != bits (leNat blob) 38 32) = true := by simpa using foreign
      exact State.go_perform serves (set.trans (congrArg (Prod.mk _) (if_pos skip))) _
    · exact State.go_perform serves (set.trans (congrArg (Prod.mk _) (if_neg (by simp [held, own])))) _
  case resume => exact State.go_perform serves (Mod.dbgResume_saddle few halted saddle) _
  case noHandle => exact State.go_perform serves (Mod.dbgResume_unknown unknown) _
  case freewheel =>
    have start := Mod.fwlStart_scope (m := s.m) scope
    exact ⟨fun new => State.go_perform serves (start.trans (congrArg (Prod.mk _) (if_neg (by simp [new])))) _,
      fun old => State.go_perform serves (start.trans (congrArg (Prod.mk _) (if_pos old))) _, State.go_perform serves (Mod.fwlEnd_scope scope) _⟩
  case noStart => exact State.go_perform serves (Mod.fwlStart_noScope high some) _
  case noEnd => exact State.go_perform serves (Mod.fwlEnd_noScope high some) _
  case brake => exact State.go_perform serves (Mod.brakeAct_starts unlocked off) _
  case noBrake => exact State.go_perform serves (Mod.brakeAct_refused h) _
  case release => exact State.go_perform serves (Mod.brakeRelease_stopped stopped) _
  case noRelease => exact State.go_perform serves (Mod.brakeRelease_refused h) _
  case drained => simp [execFreewheelDrained, waits, quiet, Becomes]
  case busy => simp [execFreewheelDrained, busy, Becomes]
  case cut =>
    simp only [exec_brakeCut, execBrakeCut, State.go_eq, cut]
    rfl
  case marker =>
    have arrives := exec_brakeMarker_driven (s := s) drives
    refine ⟨fun taken => ?_, fun waits => ?_⟩
    · rw [arrives, if_pos taken, Mod.brakeMarker_stops stops there]
    · rw [arrives, if_neg (by simp [waits])]
  case fabric => simp [execBrakeFabMarkerTimeout, stops, held, open', Becomes]
  case late => simp [execBrakeUnitTimeout, stops, held, late, Becomes]
  case ring =>
    have drains := exec_traceSpaceReturn_serving serves src
    refine ⟨fun none => drains.trans (congrArg (Becomes s) (if_pos none)), fun k lost some => ?_⟩
    subst lost
    obtain ⟨record, seq, cleared⟩ := (s.m.ringDrained src.val).reportLost_takes src.val
    exact ⟨_, drains.trans (congrArg (Becomes s) (if_neg some)), record, seq, cleared, rfl, rfl⟩
  case agrees => rw [exec_auditSample_of form, if_pos (by simp [audited, window]), Mod.auditSample_agrees agrees inTime]
  case differs =>
    rw [exec_auditSample_of form, if_pos (by simp [audited, window]), Mod.auditSample_differs differs]
    rfl
  case off => rw [exec_auditSample_of form, if_neg (by simp [off])]

end Sys2Proof.Machine
end

section
/-! Start-up and registers (24 R638-R647, 22 R596, R597, R604-R606, 00 R14): power, the steps of SECURE_BOOT, the keys of the dies, BRINGUP and READY,
the writes that no row of its own has. -/

namespace Sys2Proof.Machine

/-! Power, start and stop (R638, R639, R641). -/

theorem Tab.has_units (l : List Nat) (k : Nat) : Tab.has (l.map fun i => (i, ())) k = l.contains k := by
  induction l with
  | nil => rfl
  | cons i l ih =>
    obtain rfl | other := eq_or_ne k i
    · simp [Tab.has, Tab.find]
    · simpa [Tab.has, Tab.find, other, other.symm] using ih

theorem segOpen_has (seg : BitVec 23) {i : Nat} (h : i < 23) :
    Tab.has (((List.range 23).filter fun i => seg.getLsbD i).map fun i => (i, ())) i = seg.getLsbD i := by
  rw [Tab.has_units, Bool.eq_iff_iff, List.contains_iff_mem, List.mem_filter, List.mem_range]
  simp [h]

theorem exec_powerOn_off {s : State} (off : s.m.mod.mstate = 0) (ref : Bool) (seg : BitVec 23) : exec (.powerOn ref seg) s =
    Becomes s { s.m with
      ticks := 0, mod := { mstate := 1 }, pwr := { s.m.pwr with refOsc := !ref },
      saf := { s.m.saf with segOpen := ((List.range 23).filter fun i => seg.getLsbD i).map fun i => (i, ()) } } := by
  rw [exec_powerOn, execPowerOn, State.go_eq, off, if_neg (by simp)]
  rfl

theorem exec_powerOn_on {s : State} (on : s.m.mod.mstate ≠ 0) (ref : Bool) (seg : BitVec 23) : exec (.powerOn ref seg) s = Becomes s s.m := by
  rw [exec_powerOn, execPowerOn, State.go_eq, if_pos on]
  rfl

section
variable {m : Mod}

theorem Mod.modStart_starts (standby : m.mod.mstate = 1) (calm : m.saf.cause = 0) :
    m.modStart true = (esOK, { m with mod := { m.mod with startReq := true } }) := by
  simp [modStart, standby, calm]

theorem Mod.modStart_refused {ok : Bool} (h : m.mod.mstate ≠ 1 ∨ ok = false ∨ m.saf.cause ≠ 0) : m.modStart ok = (esSTATE, m) := by
  refine if_neg ?_
  simp only [Bool.and_eq_true, beq_iff_eq, not_and]
  intro ⟨standby, good⟩ calm
  simp [standby, good, calm] at h

theorem Mod.modStop_stops (h : m.mod.mstate = 4 ∨ m.mod.mstate = 6) : m.modStop = (esOK, m.offLoss true) := if_pos (by simpa using h)
theorem Mod.modStop_refused (ready : m.mod.mstate ≠ 4) (recovery : m.mod.mstate ≠ 6) : m.modStop = (esSTATE, m) :=
  if_neg (by simp [ready, recovery])

/-! SECURE_BOOT (22 R604-R606). -/

theorem SecS.candidates_head (c : SecS) : c.candidates.head? = some c.pending := by
  by_cases same : c.pending = c.lkg <;> simp [candidates, same]
theorem SecS.candidates_second {c : SecS} (differ : c.lkg ≠ c.pending) : c.candidates[1]? = some c.lkg := by
  simp [candidates, differ.symm]
theorem SecS.mem_candidates (c : SecS) {i : Nat} (h : i < 16) : i ∈ c.candidates := by
  by_cases same : c.pending = c.lkg
  · simp [candidates, same, h, em]
  · simp only [candidates, if_neg same, List.mem_append, List.mem_filter, List.mem_range, List.contains_eq_mem, Bool.not_eq_true', decide_eq_false_iff_not]
    tauto

end

/-- When SECURE_BOOT begins: from STANDBY, or again after a restart. -/
def Mod.boots (m : Mod) (inputOk : Bool) : Bool :=
  m.mod.mstate == 1 && (m.autostart || m.mod.startReq) && inputOk && m.saf.cause == 0 || m.mod.mstate == 2 && m.mod.bringStep == 0

theorem exec_secureBoot_of (s : State) (inp ok : Bool) (st : BitVec 4) :
    exec (.secureBoot inp ok st) s = Becomes s (if s.m.boots inp then s.m.secureBoot s.fuse ok st else s.m) := rfl

/-! The boot ROM of a die derives its keys once (22 R596-R598). -/

section
variable {m : Mod} {f : Fuse} {k : Nat}

theorem Mod.deriveKeys_eq (m : Mod) (f : Fuse) (k : Nat) : ∃ keys, m.deriveKeys f k = m.updSec fun c => { c with dieKeys := keys } := by
  unfold deriveKeys
  cases m.readUds f k with
  | none => exact ⟨_, rfl⟩
  | some u => exact ⟨_, rfl⟩

/-- What does not read the keys is as it was before them. -/
theorem Mod.keys_keep {β : Type} (g : Mod → β) (blind : ∀ m keys, g (m.updSec fun c => { c with dieKeys := keys }) = g m) (l : List Nat) (m : Mod)
    (f : Fuse) : g (forEach l (fun k m => m.deriveKeys f k) m) = g m :=
  forEach_keeps g (fun k m => by
    obtain ⟨keys, e⟩ := m.deriveKeys_eq f k
    rw [e, blind]) l m

theorem Mod.secureBoot_keeps {β : Type} (g : Mod → β) (blind : ∀ m keys, g (m.updSec fun c => { c with dieKeys := keys }) = g m) (m : Mod) (f : Fuse)
    (ok : Bool) (st : BitVec 4) : g (m.secureBoot f ok st) = g (m.bootSteps f ok st) := keys_keep g blind _ _ f

/-- The Alias key of a measurement: DIGEST, SVN and debug byte. -/
def Fuse.aliasKey (f : Fuse) (x : Nat × Nat × Bool) : Option Nat := aliasKeyOf f.uds x.1 x.2.1 x.2.2

/-- The Alias key that a die derives: none without an image set, whose IODFW there is nothing to measure of. -/
def Mod.aliasOf (m : Mod) (f : Fuse) : Option Nat := if m.mod.mstate = 6 then none else m.sec.measured.bind f.aliasKey

theorem Fuse.aliasKey_mk (f : Fuse) (d v : Nat) (b : Bool) : f.aliasKey (d, v, b) = aliasKeyOf f.uds d v b := by rw [aliasKey]

theorem Mod.aliasOf_measured {x : Nat × Nat × Bool} (booted : m.mod.mstate ≠ 6) (measured : m.sec.measured = some x) :
    m.aliasOf f = f.aliasKey x := by
  rw [aliasOf, if_neg booted, measured, Option.bind_some]

theorem Mod.deriveKeys_locked (locked : m.sec.dieKeys.has k = true) : m.deriveKeys f k = m := by
  simp [deriveKeys, readUds, locked]

theorem Mod.deriveKeys_derives (unread : m.sec.dieKeys.has k = false) : m.deriveKeys f k =
    m.updSec fun c => { c with dieKeys := c.dieKeys.put k ⟨deviceIdKey f.uds, m.aliasOf f⟩ } := by
  simp [deriveKeys, readUds, unread, aliasOf]
  rfl

theorem Mod.find_deriveKeys_other {j : Nat} (other : k ≠ j) : Tab.find k (m.deriveKeys f j).sec.dieKeys = Tab.find k m.sec.dieKeys := by
  cases read : m.sec.dieKeys.has j with
  | true => rw [deriveKeys_locked read]
  | false =>
    rw [deriveKeys_derives read]
    exact Tab.find_put_other other ..

/-- A die whose read is locked keeps its keys. -/
theorem Mod.find_keys_locked (locked : m.sec.dieKeys.has k = true) (l : List Nat) :
    Tab.find k (forEach l (fun k m => m.deriveKeys f k) m).sec.dieKeys = Tab.find k m.sec.dieKeys := by
  refine forEach_invariant (P := fun n => Tab.find k n.sec.dieKeys = Tab.find k m.sec.dieKeys) (fun j n same => ?_) l rfl
  obtain rfl | other := eq_or_ne k j
  · rwa [deriveKeys_locked (by rwa [Tab.has, same])]
  · rwa [find_deriveKeys_other other]

theorem Mod.find_keys_derived {l : List Nat} (mem : k ∈ l) (unread : m.sec.dieKeys.has k = false) :
    Tab.find k (forEach l (fun k m => m.deriveKeys f k) m).sec.dieKeys = some ⟨deviceIdKey f.uds, m.aliasOf f⟩ := by
  induction l generalizing m with
  | nil => cases mem
  | cons j l ih =>
    rw [forEach_cons]
    obtain rfl | other := eq_or_ne k j
    · have own : Tab.find k (m.deriveKeys f k).sec.dieKeys = some ⟨deviceIdKey f.uds, m.aliasOf f⟩ := by
        rw [deriveKeys_derives unread]
        exact Tab.find_put_same ..
      rw [find_keys_locked (by rw [Tab.has, own]; rfl), own]
    · have same : (m.deriveKeys f j).aliasOf f = m.aliasOf f := by
        obtain ⟨keys, e⟩ := m.deriveKeys_eq f j
        rw [e]
        rfl
      rw [ih (List.mem_of_ne_of_mem other mem) (by rwa [Tab.has, find_deriveKeys_other other]), same]

/-- The dies that boot. -/
theorem Mod.mem_booting {m : Mod} {st : BitVec 4} (low : k < 4) (good : st.getLsbD k = true) (closed : m.saf.segOpen.has (16 + k) = false) :
    k ∈ (List.range 4).filter fun k => st.getLsbD k && !(m.saf.segOpen.has (16 + k)) := by
  simp [low, good, closed]

end

/-! Scalars (22 R597): a block of the HKDF stream within the order of the group. -/

theorem hkdfScan_spec {prk info : List Byte} {f i : Nat} {prev : List Byte} {d : Nat} (h : hkdfScan prk info f i prev = some d) :
    1 ≤ d ∧ d < p256Order ∧ ∃ j t, i ≤ j ∧ j < i + f ∧ d = beNat (hmac256 prk (t ++ info ++ [BitVec.ofNat 8 j])) := by
  induction f generalizing i prev with
  | zero => cases h
  | succ f ih =>
    simp only [hkdfScan] at h
    split at h
    · next within =>
      cases h
      exact ⟨within.1, within.2, i, prev, le_rfl, by omega, rfl⟩
    · obtain ⟨low, high, j, t, above, below, is⟩ := ih h
      exact ⟨low, high, j, t, by omega, by omega, is⟩

theorem hkdfScalar_spec {ikm info : List Byte} {d : Nat} (h : hkdfScalar ikm info = some d) : 1 ≤ d ∧ d < p256Order ∧ ∃ i t, 1 ≤ i ∧ i ≤ 255 ∧
    d = beNat (hmac256 (hmac256 (List.replicate 32 0) ikm) (t ++ info ++ [BitVec.ofNat 8 i])) := by
  obtain ⟨low, high, i, t, above, below, is⟩ := hkdfScan_spec h
  exact ⟨low, high, i, t, above, by omega, is⟩

/-! The set of images is chosen (22 R604-R606, Table 22.5). -/

section
variable {m : Mod} {f : Fuse}

theorem Mod.chooseSet_none (none : ∀ i ∈ m.sec.candidates, m.sec.tested f i = false) : (m.chooseSet f).mod.mstate = 6 := by
  have find : (m.sec.candidates.find? fun i => m.sec.tested f i) = .none := by simpa using none
  simp only [chooseSet, find]
  rfl

theorem Mod.chooseSet_first {i : Nat} {pre rest : List Nat} (order : m.sec.candidates = pre ++ i :: rest)
    (earlier : ∀ j ∈ pre, m.sec.tested f j = false) (tested : m.sec.tested f i = true) : let n := m.chooseSet f
    n.mod = m.mod ∧ n.sec.running = i ∧ n.sec.bootResult = (if i = m.sec.pending then 0 else if i = m.sec.lkg then 1 else 2) := by
  have find : (m.sec.candidates.find? fun i => m.sec.tested f i) = some i :=
    List.find?_eq_some_iff_append.2 ⟨tested, pre, rest, order, by simpa using earlier⟩
  simp only [chooseSet, find]
  exact ⟨rfl, rfl, rfl⟩

/-- The module once its self-tests have passed. -/
def Mod.booting (m : Mod) (factoryOk : Bool) : Mod :=
  let n := m.updSec fun c => { c with factoryBad := !factoryOk, mismatch := false, unlocked := false }
  { n with
    ft := { n.ft with iodState := [] }, kod := { n.kod with server := 0 },
    mod := { n.mod with mstate := 2, startReq := false, bootFault := false, warm := false } }

theorem Mod.bootSteps_sound (closed : m.saf.segOpen = []) (ok : Bool) : m.bootSteps f ok 15 =
    if !ok then (m.booting ok).toRecovery
    else if ((m.booting ok).chooseSet f).mod.mstate == 6 then (m.booting ok).chooseSet f
    else { ((m.booting ok).chooseSet f).loadConfig f.order.val with mod := { ((m.booting ok).chooseSet f).mod with bringStep := 3 } } := by
  have sound : ((List.range 4).filter fun k => !((15 : BitVec 4).getLsbD k) || m.saf.segOpen.has (16 + k)) = [] := by
    rw [closed]
    decide
  simp only [bootSteps, sound]
  rfl

/-- A bad factory record, or no tested set, ends in RECOVERY_ONLY; else the first tested candidate runs. -/
theorem Mod.secureBoot_factory (closed : m.saf.segOpen = []) :
    (m.secureBoot f false 15).mod.mstate = 6 ∧ (m.secureBoot f false 15).sec.factoryBad = true := by
  constructor
  · rw [secureBoot_keeps (fun m => m.mod.mstate) (fun _ _ => rfl), bootSteps_sound closed]
    rfl
  · rw [secureBoot_keeps (fun m => m.sec.factoryBad) (fun _ _ => rfl), bootSteps_sound closed]
    rfl

theorem Mod.secureBoot_none (closed : m.saf.segOpen = []) (none : ∀ i ∈ m.sec.candidates, m.sec.tested f i = false) :
    (m.secureBoot f true 15).mod.mstate = 6 := by
  have recovers := chooseSet_none (m := m.booting true) none
  rw [secureBoot_keeps (fun m => m.mod.mstate) (fun _ _ => rfl), bootSteps_sound closed, if_neg (by simp), if_pos (by simp [recovers])]
  exact recovers

theorem Mod.secureBoot_first (closed : m.saf.segOpen = []) {i : Nat} {pre rest : List Nat} (order : m.sec.candidates = pre ++ i :: rest)
    (earlier : ∀ j ∈ pre, m.sec.tested f j = false) (tested : m.sec.tested f i = true) : let n := m.secureBoot f true 15
    n.mod.mstate = 2 ∧ n.mod.bringStep = 3 ∧ n.sec.running = i ∧
    n.sec.bootResult = (if i = m.sec.pending then 0 else if i = m.sec.lkg then 1 else 2) := by
  obtain ⟨mode, running, result⟩ := chooseSet_first (m := m.booting true) order earlier tested
  have boots : m.bootSteps f true 15 = { ((m.booting true).chooseSet f).loadConfig f.order.val with
      mod := { ((m.booting true).chooseSet f).mod with bringStep := 3 } } := by
    rw [bootSteps_sound closed, if_neg (by simp), if_neg (by rw [mode]; exact Bool.false_ne_true)]
  refine ⟨?_, ?_, ?_, ?_⟩
  · rw [secureBoot_keeps (fun m => m.mod.mstate) (fun _ _ => rfl), boots, mode]
    rfl
  · rw [secureBoot_keeps (fun m => m.mod.bringStep) (fun _ _ => rfl), boots]
  · rw [secureBoot_keeps (fun m => m.sec.running) (fun _ _ => rfl), boots]
    exact running
  · rw [secureBoot_keeps (fun m => m.sec.bootResult) (fun _ _ => rfl), boots]
    exact result

theorem Mod.dieKeys_chooseSet (m : Mod) (f : Fuse) : (m.chooseSet f).sec.dieKeys = m.sec.dieKeys := by
  simp only [chooseSet]
  split <;> rfl

theorem Mod.dieKeys_bootSteps (m : Mod) (f : Fuse) (ok : Bool) (st : BitVec 4) : (m.bootSteps f ok st).sec.dieKeys = m.sec.dieKeys := by
  simp only [bootSteps]
  split
  · rfl
  split
  · rfl
  split <;> exact dieKeys_chooseSet ..

end

/-- Each die that boots has read its UDS and locked the read; the keys that it derived before stand, new ones are of its UDS. -/
theorem Mod.secureBoot_keys (m : Mod) (f : Fuse) (ok : Bool) {st : BitVec 4} {k : Nat} (low : k < 4) (good : st.getLsbD k = true)
    (closed : m.saf.segOpen.has (16 + k) = false) : let n := m.secureBoot f ok st
    n.sec.dieKeys.has k = true ∧ (m.sec.dieKeys.has k = true → Tab.find k n.sec.dieKeys = Tab.find k m.sec.dieKeys) ∧
    (m.sec.dieKeys.has k = false → Tab.find k n.sec.dieKeys = some ⟨deviceIdKey f.uds, n.aliasOf f⟩) := by
  have same := m.dieKeys_bootSteps f ok st
  have kept (locked : m.sec.dieKeys.has k = true) : Tab.find k (m.secureBoot f ok st).sec.dieKeys = Tab.find k m.sec.dieKeys := by
    rw [secureBoot, find_keys_locked (by rwa [same]), same]
  have derived (unread : m.sec.dieKeys.has k = false) :
      Tab.find k (m.secureBoot f ok st).sec.dieKeys = some ⟨deviceIdKey f.uds, (m.secureBoot f ok st).aliasOf f⟩ := by
    rw [secureBoot_keeps (fun m => m.aliasOf f) (fun _ _ => rfl), secureBoot, find_keys_derived (mem_booting low good closed) (by rwa [same])]
  refine ⟨?_, kept, derived⟩
  cases read : m.sec.dieKeys.has k with
  | true => rwa [Tab.has, kept read]
  | false => rw [Tab.has, derived read]; rfl

/-! BRINGUP and READY (R643-R646). -/

section
variable {m : Mod}

theorem Mod.askDivs_keeps {β : Type} (g : Mod → β) (blind : ∀ m h x, g (m.updHalf h x) = g m) (m : Mod) : g m.askDivs = g m :=
  forEach_keeps g (f := fun h m => let d := m.wantDiv h; m.updHalf h fun x => { x with reqDiv := if d = x.div then none else some d })
    (fun h n => blind n h _) _ m

theorem Mod.pllsLock_mem (m : Mod) : m.pllsLock.mem = m.mem :=
  forEach_keeps Mod.mem (f := fun d n => n.updDie d fun x => { x with pllTick := n.ticks, ccOff := 0 }) (fun _ _ => rfl) _ m

theorem Mod.portsInit_mem (m : Mod) (order : Nat) : (m.portsInit order).mem = m.mem :=
  forEach_keeps Mod.mem (f := fun i n => n.updPort i fun _ => {
    state := if portFitted order i then 1 else 0, mode := n.parN (pFabPortMode + i) }) (fun _ _ => rfl) _ m

theorem Mod.portsInit_state (m : Mod) (order : Nat) {i : Nat} (h : i < 32) :
    ((m.portsInit order).port i).state = if portFitted order i then 1 else 0 := by
  refine forEach_establishes (P := fun i n => (n.port i).state = if portFitted order i then 1 else 0) (fun i n => ?_) (fun j i n same => ?_)
    (List.mem_range.2 h) m
  · rw [port_updPort]
  · obtain rfl | other := eq_or_ne i j
    · rw [port_updPort]
    · rwa [port_updPort_other other]

/-- The module enters BRINGUP: the provider key is drawn, and the memory is without frame tags. -/
def Mod.bringing (m : Mod) : Mod :=
  let n := m.updMem fun e => { e with frameTag := [], keyGen := e.keyGen.upd 0xFE 0 (· + 1) }
  let n := n.updSec fun c => { c with unlocked := match c.measured with
    | some x => x.2.2
    | none => false }
  { n with seq := {}, mod := { n.mod with mstate := 3, warm := false, bringStep := 4 } }

theorem Mod.port_bringing (m : Mod) (i : Nat) : m.bringing.port i = m.port i := rfl
theorem Mod.mem_bringing (m : Mod) : m.bringing.mem = { m.mem with frameTag := [], keyGen := m.mem.keyGen.upd 0xFE 0 (· + 1) } := rfl

theorem Mod.mstate_bringing (m : Mod) : m.bringing.mod.mstate = 3 := rfl
theorem Mod.warm_bringing (m : Mod) : m.bringing.mod.warm = false := rfl
theorem Mod.inService_bringing (m : Mod) : m.bringing.seq.inService = false := rfl

theorem Mod.coldBringup_eq (m : Mod) (order : Nat) : m.coldBringup order = ((m.pllsLock.ncBringup).portsInit order).bringing.askDivs := rfl

theorem Mod.mem_coldBringup (m : Mod) (order : Nat) :
    (m.coldBringup order).mem = { m.mem with frameTag := [], keyGen := m.mem.keyGen.upd 0xFE 0 (· + 1) } := by
  have mem : ((m.pllsLock.ncBringup).portsInit order).mem = m.mem := (portsInit_mem ..).trans m.pllsLock_mem
  rw [coldBringup_eq, askDivs_keeps Mod.mem (fun _ _ _ => rfl), mem_bringing, mem]

theorem Mod.port_coldBringup (m : Mod) (order : Nat) {i : Nat} (h : i < 32) :
    ((m.coldBringup order).port i).state = if portFitted order i then 1 else 0 := by
  rw [coldBringup_eq, askDivs_keeps (fun m => (m.port i).state) (fun _ _ _ => rfl), port_bringing, portsInit_state _ _ h]

theorem Mod.portsBegin_keeps {β : Type} (g : Mod → β) (ports : ∀ m i x, g (m.updPort i x) = g m) (down : ∀ m i c, g (m.portDown i c) = g m) (m : Mod)
    (order : Nat) : g (m.portsBegin order) = g m := by
  refine forEach_keeps g (fun i n => ?_) _ m
  split
  · split
    · exact ports ..
    · exact down ..
  · rfl

/-- The module as it reaches READY, before its ports begin. -/
def Mod.ready (m : Mod) : Mod :=
  let n := m.updSec fun c => { c with lkg := c.running }
  { n with mod := { n.mod with mstate := 4, bringStep := 9, readyMs := (n.ticks - n.mod.startTick) / ticksPerMs } }

/-- The partner of each I/O die that failed its boot serves its numbers. -/
def Mod.takeOvers (m : Mod) (order : Nat) : Mod :=
  forEach ((List.range 4).filter fun k => m.iodState k == 1) (fun k m => (m.iodFail order k).takeOver k) m

theorem Mod.takeOvers_none (up : ∀ k, k < 4 → m.iodState k ≠ 1) (order : Nat) : m.takeOvers order = m := by
  have none : ((List.range 4).filter fun k => m.iodState k == 1) = [] := by simpa using up
  rw [takeOvers, none, forEach_nil]

theorem Mod.reachReady_eq (m : Mod) (order : Nat) : let n := (m.ready.takeOvers order).portsBegin order
    m.reachReady order = (if n.mod.warm then n.warmReturn else n).refreshState := rfl

/-- After a cold BRINGUP with every I/O die in service. -/
theorem Mod.reachReady_cold (cold : m.mod.warm = false) (up : ∀ k, k < 4 → m.iodState k ≠ 1) (order : Nat) :
    m.reachReady order = (m.ready.portsBegin order).refreshState := by
  have warm : (m.ready.portsBegin order).mod.warm = false :=
    (portsBegin_keeps (fun n => n.mod.warm) (fun _ _ _ => rfl) (fun _ _ _ => rfl) m.ready order).trans cold
  have none : m.ready.takeOvers order = m.ready := takeOvers_none (m := m.ready) up order
  rw [reachReady_eq, none, if_neg (by simp [warm])]

theorem Mod.refreshState_empty (serves : m.serving = true) (empty : m.parts.parts = []) :
    m.refreshState = { m with mod := { m.mod with mstate := 4 } } := by
  simp [refreshState, serves, empty]

/-- READY after a cold BRINGUP without partitions (24 R640, R646). -/
theorem Mod.reachReady_ready (cold : m.mod.warm = false) (up : ∀ k, k < 4 → m.iodState k ≠ 1) (empty : m.parts.parts = []) (order : Nat) :
    let n := m.reachReady order
    n.mod.mstate = 4 ∧ n.sec.lkg = m.sec.running ∧ n.mod.readyMs = (m.ticks - m.mod.startTick) / ticksPerMs := by
  have mode := portsBegin_keeps Mod.mod (fun _ _ _ => rfl) (fun _ _ _ => rfl) m.ready order
  have parts := portsBegin_keeps Mod.parts (fun _ _ _ => rfl) (fun _ _ _ => rfl) m.ready order
  have sec := portsBegin_keeps Mod.sec (fun _ _ _ => rfl) (fun _ _ _ => rfl) m.ready order
  rw [reachReady_cold cold up, refreshState_empty (by rw [serving, mode]; rfl) (by rw [parts]; exact empty)]
  refine ⟨rfl, ?_, ?_⟩
  · dsimp only
    rw [sec]
    rfl
  · dsimp only
    rw [mode]
    rfl

end

/-! Register writes (00 R14, 14 Tables 14.1 to 14.5). -/

section
variable {m : Mod} {fn : Nat} {v : BitVec 64}

theorem exec_registerWrite_of (s : State) (fn : PartId) (r : RegRef) (v : BitVec 64) :
    exec (.registerWrite fn r v) s = Becomes s (s.m.writeReg fn.val r v) := rfl

/-- The registers of an admin queue take a write while it is disabled, and ignore it while it is enabled. -/
theorem Mod.writeReg_aq_disabled (up : m.portUp fn = true) (disabled : (m.fn fn).aqEn = false) :
    m.writeReg fn .hifAqSqbase v = m.updFn fn (fun x => { x with sqBase := v }) ∧
    m.writeReg fn .hifAqCqbase v = m.updFn fn (fun x => { x with cqBase := v }) ∧
    m.writeReg fn .hifAqCfg v = m.updFn fn (aqCfgWrite v.toNat) := by
  simp [writeReg, up, disabled]

theorem Mod.writeReg_aq_enabled (enabled : (m.fn fn).aqEn = true) {r : RegRef} (aq : r ∈ [RegRef.hifAqSqbase, .hifAqCqbase, .hifAqCfg]) :
    m.writeReg fn r v = m := by
  simp only [List.mem_cons, List.not_mem_nil, or_false] at aq
  obtain rfl | rfl | rfl := aq <;> simp [writeReg, enabled]

theorem Mod.writeReg_hifCtl (up : m.portUp fn = true) (attach : v.getLsbD 31 = false) : m.writeReg fn .hifCtl v =
    if v.getLsbD 30 then m.aqEnable fn else m.updFn fn fun x => { x with aqEn := false } := by
  simp only [writeReg, up, attach, Bool.false_eq_true, if_false, Bool.not_true]

theorem Mod.aqEnable_disabled (up : m.portUp fn = true) (disabled : (m.fn fn).aqEn = false) :
    m.aqEnable fn = m.updFn fn fun x => { x with aqEn := true, sqTail := 0, sqHead := 0, cqHead := 0, cqTail := 0 } := by
  simp [aqEnable, up, disabled]

theorem getLsbD_zero_setWidth (v : BitVec 64) : (v.setWidth 32).getLsbD 0 = v.getLsbD 0 := by simp

theorem setWidth_and_one (v : BitVec 64) : v.setWidth 32 &&& 1 = if v.getLsbD 0 then 1 else 0 := by
  rw [show (1 : BitVec 32) = 1#32 from rfl, BitVec.and_one_eq_setWidth_ofBool_getLsbD, getLsbD_zero_setWidth]
  cases v.getLsbD 0 <;> rfl

theorem Mod.writeReg_msix (up : m.portUp fn = true) (word : Nat) : m.writeReg fn (.msix word) v = m.msixWrite fn word (v.setWidth 32) := if_pos up

section
variable {word : Nat}

theorem Mod.msixWrite_outside (out : 4 * msixVectors fn ≤ word) (w : BitVec 32) : m.msixWrite fn word w = m := if_pos out

theorem Mod.msixWrite_data (within : word < 4 * msixVectors fn) (data : word % 4 ≠ 3) (w : BitVec 32) :
    m.msixWrite fn word w = m.updFn fn fun x => { x with msix := x.msix.put word w } := by
  rw [msixWrite, if_neg (by omega), if_pos data]

theorem Mod.msixWrite_masks (within : word < 4 * msixVectors fn) (control : word % 4 = 3) (masked : v.getLsbD 0 = true) :
    m.msixWrite fn word (v.setWidth 32) = m.updFn fn fun x => { x with msix := x.msix.put word 1 } := by
  simp only [msixWrite, if_neg (Nat.not_le.2 within), control, ne_eq, not_true_eq_false, if_false, getLsbD_zero_setWidth, setWidth_and_one, masked,
    Bool.true_or, if_true]

/-- A vector unmasked with its pending bit set sends its message. -/
theorem Mod.msixWrite_unmasks (within : word < 4 * msixVectors fn) (control : word % 4 = 3) (unmasked : v.getLsbD 0 = false) :
    m.msixWrite fn word (v.setWidth 32) =
      (let n := m.updFn fn fun x => { x with msix := x.msix.put word 0 }
       if (n.fn fn).pba.has (word / 4) then (n.updFn fn fun x => { x with pba := x.pba.del (word / 4) }).msi fn (word / 4) else n) := by
  cases pending : (m.fn fn).pba.has (word / 4) <;>
    simp only [msixWrite, if_neg (Nat.not_le.2 within), control, ne_eq, not_true_eq_false, if_false, getLsbD_zero_setWidth, setWidth_and_one, unmasked,
      Bool.false_or, Bool.false_eq_true, fn_updFn, pending, Bool.not_true, Bool.not_false, if_true]

end

end

/-- Settles O56, by the lemmas of power, SECURE_BOOT, the dies' keys, BRINGUP, READY and each register. -/
theorem startUp : Obligations.StartUp := by
  unfold Obligations.StartUp
  refine fun s => ⟨fun ref seg off => ⟨_, exec_powerOn_off off ref seg, rfl, rfl, rfl, fun i => segOpen_has seg, rfl⟩,
    fun ref seg on => exec_powerOn_on on ref seg, ⟨_, rfl, rfl, rfl, rfl, rfl, rfl, rfl, rfl, rfl, rfl, rfl, rfl⟩, fun standby calm => ?start,
    fun ok h => ?noStart, fun h => ?stop, fun ready recovery => ?noStop, fun ok st standby asked calm => ?boot, fun inp ok st restart step => ?again,
    fun inp ok st standby h => ?noBoot, fun closed => ⟨(Mod.secureBoot_factory closed).1, (Mod.secureBoot_factory closed).2,
      fun i rest pre => Mod.secureBoot_first closed, Mod.secureBoot_none closed⟩,
    fun c => ⟨c.candidates_head, SecS.candidates_second, fun i => c.mem_candidates⟩, fun pll b up step => ?bringup,
    fun fac st k low good open' => ?keys, fun ikm info d => hkdfScalar_spec, ?cold, fun bringing trained => ?reach, fun bringing untrained => ?wait,
    fun cold up empty => Mod.reachReady_ready cold up empty s.fuse.order.val, fun fn v => ?registers⟩
  case start => exact congrArg (fun r : Nat × Mod => Acts s r.2 pModStart r.1) (Mod.modStart_starts standby calm)
  case noStart => exact congrArg (fun r : Nat × Mod => Acts s r.2 pModStart r.1) (Mod.modStart_refused h)
  case stop =>
    exact ⟨_, congrArg (fun r : Nat × Mod => Acts s r.2 pModStop r.1) (Mod.modStop_stops h), rfl, rfl, rfl, rfl, rfl⟩
  case noStop => exact congrArg (fun r : Nat × Mod => Acts s r.2 pModStop r.1) (Mod.modStop_refused ready recovery)
  case boot =>
    exact (exec_secureBoot_of ..).trans (congrArg (Becomes s) (if_pos (by simpa [Mod.boots, standby, calm] using asked)))
  case again =>
    exact (exec_secureBoot_of ..).trans (congrArg (Becomes s) (if_pos (by simp [Mod.boots, restart, step])))
  case noBoot =>
    have stays : s.m.boots inp = false := by
      obtain ⟨auto, asked⟩ | off | kicked := h
      · simp [Mod.boots, standby, auto, asked]
      · simp [Mod.boots, standby, off]
      · rw [Mod.boots, standby, beq_eq_false_iff_ne.2 kicked, Bool.and_false]
        rfl
    exact (exec_secureBoot_of ..).trans (congrArg (Becomes s) (if_neg (by simp [stays])))
  case bringup =>
    rw [exec_coldBringup, execColdBringup, State.go_eq, if_pos (by simp [up, step])]
    rfl
  case keys =>
    obtain ⟨locked, kept, derived⟩ := s.m.secureBoot_keys s.fuse fac low good open'
    refine ⟨if_pos locked, kept, fun unread => ⟨_, derived unread, fun recovery => if_pos recovery, fun d v b booted measured => ?_⟩⟩
    rw [Mod.aliasOf_measured booted measured, Fuse.aliasKey_mk]
  case cold =>
    refine ⟨?_, ?_, by rw [Mod.mem_coldBringup], ?_, ?_, fun i => Mod.port_coldBringup s.m s.fuse.order.val⟩
    · rw [Mod.coldBringup_eq, Mod.askDivs_keeps (fun m => m.mod.mstate) (fun _ _ _ => rfl), Mod.mstate_bringing]
    · rw [Mod.coldBringup_eq, Mod.askDivs_keeps (fun m => m.mod.warm) (fun _ _ _ => rfl), Mod.warm_bringing]
    · rw [Mod.mem_coldBringup]
      exact Tab.getD_put_same ..
    · rw [Mod.coldBringup_eq, Mod.askDivs_keeps (fun m => m.seq.inService) (fun _ _ _ => rfl), Mod.inService_bringing]
  case reach =>
    rw [exec_readyReached, execReadyReached, State.go_eq, if_pos (by simpa [bringing] using trained)]
    rfl
  case wait =>
    rw [exec_readyReached, execReadyReached, State.go_eq, if_neg (by simpa [bringing] using untrained)]
    rfl
  case registers =>
    have writes (r : RegRef) : exec (.registerWrite fn r v) s = Becomes s (s.m.writeReg fn.val r v) := exec_registerWrite_of ..
    simp only [writes]
    refine ⟨fun _ => rfl, fun up disabled => ?_, fun enabled r aq => ?_, fun up attach off => ?_, fun up attach on disabled => ?_,
      fun w up within data => ?_, fun w up within control masked => ?_, fun w up within control unmasked => ⟨fun none => ?_, fun pending => ?_⟩,
      fun w up out => ?_, fun up => ⟨fun st ch => ?_, fun t clear => ?_, fun t kept => ?_, fun h clear => ?_, fun l clear => ?_⟩, fun up clear => ?_,
      fun powered => ?_⟩
    · obtain ⟨sq, cq, cfg⟩ := Mod.writeReg_aq_disabled (v := v) up disabled
      exact ⟨congrArg (Becomes s) sq, congrArg (Becomes s) cq, congrArg (Becomes s) cfg⟩
    · rw [Mod.writeReg_aq_enabled enabled aq]
    · rw [Mod.writeReg_hifCtl up attach, if_neg (by simpa using off)]
    · rw [Mod.writeReg_hifCtl up attach, if_pos on, Mod.aqEnable_disabled up disabled]
    · rw [Mod.writeReg_msix up, Mod.msixWrite_data within data]
    · rw [Mod.writeReg_msix up, Mod.msixWrite_masks within control masked]
    · rw [Mod.writeReg_msix up, Mod.msixWrite_unmasks within control unmasked]
      exact congrArg (Becomes s) (if_neg (by rw [none]; exact Bool.false_ne_true))
    · rw [Mod.writeReg_msix up, Mod.msixWrite_unmasks within control unmasked]
      exact congrArg (Becomes s) (if_pos pending)
    · rw [Mod.writeReg_msix up, Mod.msixWrite_outside out]
    · exact congrArg (Becomes s) (if_pos up)
    · exact congrArg (Becomes s) (if_pos (by rw [up, clear]; rfl))
    · exact congrArg (Becomes s) (if_neg (by rw [up, kept]; decide))
    · exact congrArg (Becomes s) (if_pos (by rw [up, clear]; rfl))
    · exact congrArg (Becomes s) (if_pos (by rw [up, clear]; rfl))
    · exact congrArg (Becomes s) (if_pos (by rw [up, clear]; rfl))
    · exact congrArg (Becomes s) (if_pos powered)

end Sys2Proof.Machine
end

section
/-! Die links (17 R489-R508): the parameters of R493, the slots of a message, what each command does to a link. -/

namespace Sys2Proof.Machine

/-! The parameters chosen from two blocks (R493): of each field the greatest common choice. -/

/-- A fold that keeps the last choice keeps the greatest one. -/
theorem foldl_range_last {α : Type} (p : Nat → Bool) (v : Nat → α) (b : α) (n : Nat) :
    let r := (List.range n).foldl (fun b i => if p i then v i else b) b
    r = b ∨ ∃ i < n, p i = true ∧ r = v i ∧ ∀ j < n, p j = true → j ≤ i := by
  induction n with
  | zero => exact .inl rfl
  | succ n ih =>
    simp only [List.range_succ, List.foldl_append, List.foldl_cons, List.foldl_nil]
    cases last : p n with
    | true => exact .inr ⟨n, by omega, last, if_pos rfl, fun j small _ => by omega⟩
    | false =>
      rw [if_neg (by simp)]
      refine ih.imp id fun ⟨i, small, chosen, is, greatest⟩ => ⟨i, by omega, chosen, is, fun j small' also => greatest j ?_ also⟩
      have : j ≠ n := by
        rintro rfl
        simp [last] at also
      omega

/-- Wavelengths or lanes of a step of width. -/
def widthUnit (k : Nat) : Nat := if k < 64 then 8 else if k < 72 then 16 else 64
/-- The protocols that a link needs. -/
def linkNeed (k : Nat) : BitVec 8 := if isCdCd k then 0x07 else if k < 72 then 0x0F else 0x12
/-- A width step that both ends offer and carry. -/
def widthOk (k : Nat) (o c : CapBlock) (i : Nat) : Bool :=
  (o.widths &&& c.widths).getLsbD i && decide (widthUnit k * (i + 1) ≤ min o.usable.toNat c.usable.toNat)
def widthChosen (k : Nat) (o c : CapBlock) : Nat := (List.range 4).foldl (fun b i => if widthOk k o c i then widthUnit k * (i + 1) else b) 0
def rateChosen (o c : CapBlock) : Option Nat := (List.range 4).foldl (fun b i => if (o.rates &&& c.rates).getLsbD i then some i else b) none

theorem linkChoice_eq (k : Nat) (o c : CapBlock) : linkChoice k o c = match rateChosen o c with
    | none => none
    | some x =>
      if widthChosen k o c = 0 ∨ o.crct &&& c.crct = 0 ∨ (o.proto &&& c.proto) &&& linkNeed k ≠ linkNeed k then none
      else some { width := widthChosen k o c, rate := x, crc32c := (o.crct &&& c.crct).getLsbD 1, replay := min o.replay.val c.replay.val,
                  proto := (o.proto &&& c.proto).toNat } := rfl

theorem linkChoice_cases {k : Nat} {o c : CapBlock} {p : LinkPar} (h : linkChoice k o c = some p) : ∃ x, rateChosen o c = some x ∧
    widthChosen k o c ≠ 0 ∧ o.crct &&& c.crct ≠ 0 ∧ (o.proto &&& c.proto) &&& linkNeed k = linkNeed k ∧
    p = { width := widthChosen k o c, rate := x, crc32c := (o.crct &&& c.crct).getLsbD 1, replay := min o.replay.val c.replay.val,
          proto := (o.proto &&& c.proto).toNat } := by
  rw [linkChoice_eq] at h
  cases rate : rateChosen o c with
  | none => simp [rate] at h
  | some x =>
    simp only [rate] at h
    split at h
    · cases h
    · next common =>
      simp only [not_or, not_not] at common
      obtain ⟨width, crc, proto⟩ := common
      exact ⟨x, rfl, width, crc, proto, (Option.some.inj h).symm⟩

theorem widthOk_iff {k : Nat} {o c : CapBlock} {i : Nat} : widthOk k o c i = true ↔ o.widths.getLsbD i = true ∧ c.widths.getLsbD i = true ∧
    widthUnit k * (i + 1) ≤ o.usable.toNat ∧ widthUnit k * (i + 1) ≤ c.usable.toNat := by
  simp only [widthOk, BitVec.getLsbD_and, Bool.and_eq_true, decide_eq_true_eq, Nat.le_min, and_assoc]

theorem widthChosen_greatest {k : Nat} {o c : CapBlock} (some : widthChosen k o c ≠ 0) : ∃ i < 4, widthOk k o c i = true ∧
    widthChosen k o c = widthUnit k * (i + 1) ∧ ∀ j < 4, widthOk k o c j = true → widthUnit k * (j + 1) ≤ widthChosen k o c := by
  obtain none | ⟨i, small, chosen, is, greatest⟩ := foldl_range_last (widthOk k o c) (fun i => widthUnit k * (i + 1)) 0 4
  · exact absurd none some
  · refine ⟨i, small, chosen, is, fun j few also => ?_⟩
    rw [show widthChosen k o c = widthUnit k * (i + 1) from is]
    exact Nat.mul_le_mul_left _ (Nat.succ_le_succ (greatest j few also))

theorem rateChosen_greatest {o c : CapBlock} {x : Nat} (h : rateChosen o c = some x) : x < 4 ∧ o.rates.getLsbD x = true ∧ c.rates.getLsbD x = true ∧
    ∀ j < 4, o.rates.getLsbD j = true → c.rates.getLsbD j = true → j ≤ x := by
  obtain none | ⟨i, small, chosen, is, greatest⟩ := foldl_range_last (fun i => (o.rates &&& c.rates).getLsbD i) some none 4
  · cases none.symm.trans h
  · cases is.symm.trans h
    simp only [BitVec.getLsbD_and, Bool.and_eq_true] at chosen greatest
    exact ⟨small, chosen.1, chosen.2, fun j few own other => greatest j few ⟨own, other⟩⟩

theorem crc_common : ∀ x y : BitVec 2, x &&& y ≠ 0 → (x &&& y).getLsbD 1 = false → x.getLsbD 0 = true ∧ y.getLsbD 0 = true := by decide

theorem toNat_and_need {x need : BitVec 8} (h : x &&& need = need) : x.toNat &&& need.toNat = need.toNat := by
  rw [← BitVec.toNat_and, h]

theorem linkNeed_cdcd {k : Nat} (h : isCdCd k = true) : linkNeed k = 0x07 := if_pos h
theorem linkNeed_iod {k : Nat} (low : k < 72) (h : isCdCd k = false) : linkNeed k = 0x0F := by simp [linkNeed, h, low]
theorem linkNeed_site {k : Nat} (high : 72 ≤ k) : linkNeed k = 0x12 := by
  have : isCdCd k = false := by simp [isCdCd]; omega
  simp [linkNeed, this, Nat.not_lt.2 high]

/-! Slots of messages (R499): what is packed is restored, wherever flits cut it. -/

theorem udlLen_two (x : UdlMsg) : 2 ≤ udlLen x := by
  unfold udlLen
  split <;> try split
  all_goals omega

@[simp] theorem length_udlSlots (x : UdlMsg) : (udlSlots x).length = udlLen x := by simp [udlSlots]
theorem length_packSlots (l : List UdlMsg) : (packSlots l).length = (l.map udlLen).sum := by
  simp [packSlots, List.length_flatMap]

/-- Slots of a message before its `n`-th. -/
def slotsTo (x : UdlMsg) (n : Nat) : List UdlSlot := (List.range n).map fun i => ⟨x, i, if i = 0 then some (udlCode x, udlLen x) else none⟩

theorem slotsTo_succ (x : UdlMsg) (n : Nat) : slotsTo x (n + 1) = slotsTo x n ++ [⟨x, n, if n = 0 then some (udlCode x, udlLen x) else none⟩] := by
  simp [slotsTo, List.range_succ]
@[simp] theorem length_slotsTo (x : UdlMsg) (n : Nat) : (slotsTo x n).length = n := by simp [slotsTo]
theorem slotsTo_head (x : UdlMsg) (n : Nat) : (slotsTo x (n + 1)).head? = some ⟨x, 0, some (udlCode x, udlLen x)⟩ := by
  simp [slotsTo, List.range_succ_eq_map]

/-- The slots of the message that a gateway is in, once it has taken one more. -/
def Unpack.next (c : List UdlSlot) (s : UdlSlot) : List UdlSlot :=
  if s.idx = 0 then [s] else if s.idx = c.length ∧ c.head?.map UdlSlot.msg = some s.msg then c ++ [s] else []

theorem Unpack.take_eq (c : List UdlSlot) (out : List UdlMsg) (s : UdlSlot) : Unpack.take ⟨c, out⟩ s = match (Unpack.next c s).head? with
    | some h => if h.head = some (udlCode s.msg, (Unpack.next c s).length) then { cur := [], out := out ++ [s.msg] } else ⟨Unpack.next c s, out⟩
    | none => ⟨[], out⟩ := rfl

theorem Unpack.next_slot (x : UdlMsg) (n : Nat) :
    Unpack.next (slotsTo x n) ⟨x, n, if n = 0 then some (udlCode x, udlLen x) else none⟩ = slotsTo x (n + 1) := by
  cases n with
  | zero => simp [next, slotsTo]
  | succ n => rw [slotsTo_succ x (n + 1)]; simp [next, slotsTo_head]

/-- The next slot of a message is taken with those before it. -/
theorem Unpack.take_slot (x : UdlMsg) (n : Nat) (out : List UdlMsg) :
    Unpack.take ⟨slotsTo x n, out⟩ ⟨x, n, if n = 0 then some (udlCode x, udlLen x) else none⟩ =
      if udlLen x = n + 1 then ⟨[], out ++ [x]⟩ else ⟨slotsTo x (n + 1), out⟩ := by
  rw [take_eq, next_slot, slotsTo_head]
  simp

theorem unpack_slotsTo {x : UdlMsg} {n : Nat} (short : n < udlLen x) (out : List UdlMsg) :
    (slotsTo x n).foldl Unpack.take ⟨[], out⟩ = ⟨slotsTo x n, out⟩ := by
  induction n with
  | zero => rfl
  | succ n ih =>
    rw [slotsTo_succ, List.foldl_append, ih (by omega), List.foldl_cons, List.foldl_nil, Unpack.take_slot, if_neg (by omega), slotsTo_succ]

theorem unpack_message (x : UdlMsg) (out : List UdlMsg) : (udlSlots x).foldl Unpack.take ⟨[], out⟩ = ⟨[], out ++ [x]⟩ := by
  obtain ⟨n, len⟩ : ∃ n, udlLen x = n + 1 := ⟨udlLen x - 1, by have := udlLen_two x; omega⟩
  rw [show udlSlots x = slotsTo x (n + 1) by rw [← len]; rfl, slotsTo_succ, List.foldl_append, unpack_slotsTo (by omega), List.foldl_cons,
    List.foldl_nil, Unpack.take_slot, if_pos len]

theorem unpack_messages (l : List UdlMsg) (out : List UdlMsg) : (packSlots l).foldl Unpack.take ⟨[], out⟩ = ⟨[], out ++ l⟩ := by
  induction l generalizing out with
  | nil => simp [packSlots]
  | cons x l ih =>
    rw [packSlots, List.flatMap_cons, List.foldl_append, unpack_message, ← packSlots, ih]
    simp

theorem unpackSlots_packSlots (l : List UdlMsg) : unpackSlots [] (packSlots l) = { cur := [], out := l } := by
  rw [unpackSlots, unpack_messages, List.nil_append]

/-- What a slot restores follows what was restored before it. -/
theorem Unpack.take_out (c : List UdlSlot) (out : List UdlMsg) (s : UdlSlot) :
    Unpack.take ⟨c, out⟩ s = ⟨(Unpack.take ⟨c, []⟩ s).cur, out ++ (Unpack.take ⟨c, []⟩ s).out⟩ := by
  rw [take_eq, take_eq]
  cases (Unpack.next c s).head? with
  | none => simp
  | some h => by_cases whole : h.head = some (udlCode s.msg, (Unpack.next c s).length) <;> simp [whole]

theorem unpack_out (l : List UdlSlot) (c : List UdlSlot) (out : List UdlMsg) :
    l.foldl Unpack.take ⟨c, out⟩ = ⟨(unpackSlots c l).cur, out ++ (unpackSlots c l).out⟩ := by
  induction l generalizing c out with
  | nil => simp [unpackSlots]
  | cons s l ih =>
    rw [unpackSlots, List.foldl_cons, List.foldl_cons, Unpack.take_out c out, ih, show Unpack.take { cur := c } s =
      ⟨(Unpack.take ⟨c, []⟩ s).cur, (Unpack.take ⟨c, []⟩ s).out⟩ from rfl, ih, List.append_assoc]

theorem unpackSlots_append (c l r : List UdlSlot) : unpackSlots c (l ++ r) =
    ⟨(unpackSlots (unpackSlots c l).cur r).cur, (unpackSlots c l).out ++ (unpackSlots (unpackSlots c l).cur r).out⟩ := by
  rw [unpackSlots, List.foldl_append, ← unpackSlots, show unpackSlots c l = ⟨(unpackSlots c l).cur, (unpackSlots c l).out⟩ from rfl, unpack_out]

end Sys2Proof.Machine
end

section
/-! Die links (17 R489-R508): training and negotiation, flits, detours, light and sites, a command at a time. -/

namespace Sys2Proof.Machine

/-! Links read back. -/

theorem Mod.updLink_congr {m : Mod} {k : Nat} {f g : Link → Link} (h : f (m.link k) = g (m.link k)) : m.updLink k f = m.updLink k g := by
  simp only [updLink, h]

section
variable (m : Mod) (c k n : Nat)

theorem Mod.countGate_frame : ∃ t q, m.countGate c k n = { m with ctr := t, kod := { m.kod with evq := m.kod.evq ++ q } } := by
  unfold countGate
  split
  · exact m.countBy_frame c k n
  · exact ⟨m.ctr, [], by rw [List.append_nil]⟩

@[simp] theorem Mod.link_countGate (j : Nat) : (m.countGate c k n).link j = m.link j := by
  obtain ⟨_, _, e⟩ := m.countGate_frame c k n
  rw [e]
  rfl
@[simp] theorem Mod.countGate_free : (m.countGate c k n).free = m.free := by
  obtain ⟨_, _, e⟩ := m.countGate_frame c k n
  rw [e]
@[simp] theorem Mod.countGate_ticks : (m.countGate c k n).ticks = m.ticks := by
  obtain ⟨_, _, e⟩ := m.countGate_frame c k n
  rw [e]
@[simp] theorem Mod.countGate_mod : (m.countGate c k n).mod = m.mod := by
  obtain ⟨_, _, e⟩ := m.countGate_frame c k n
  rw [e]

end

@[simp] theorem Mod.link_raise (m : Mod) (c : BitVec 32) (x y z k : Nat) : (m.raise c x y z).link k = m.link k := rfl

/-- Links of a list take a change that is the same done twice. -/
theorem Mod.link_forEach_updLink {g : Link → Link} (twice : ∀ l, g (g l) = g l) (ks : List Nat) (m : Mod) (k : Nat) :
    (forEach ks (fun j m => m.updLink j g) m).link k = if k ∈ ks then g (m.link k) else m.link k := by
  induction ks generalizing m with
  | nil => rfl
  | cons j ks ih =>
    rw [forEach_cons, ih]
    obtain rfl | other := eq_or_ne k j
    · by_cases again : k ∈ ks <;> simp [again, twice]
    · simp [link_updLink_other _ other, other]

/-! Which links negotiate (00 R5, R6). -/

theorem isCdCd_lt {k : Nat} (h : isCdCd k = true) : k < 64 := by
  simp only [isCdCd, Bool.and_eq_true, decide_eq_true_eq] at h
  exact h.1

theorem linkNegotiates_iff {order k : Nat} : linkNegotiates order k = true ↔
    (k < 64 ∧ (isCdCd k = true ∨ order ≠ 2)) ∨ (64 ≤ k ∧ k < 72 ∧ order ≠ 2) ∨ (72 ≤ k ∧ order = 0) := by
  unfold linkNegotiates
  split
  · next low => simp [low, show ¬ 64 ≤ k by omega, show ¬ 72 ≤ k by omega]
  split
  · next high low => simp [high, low, show 64 ≤ k by omega]
  · next high low => simp [high, low, show 72 ≤ k by omega]

/-- Of two compute dies the lower one proposes; elsewhere the end that the module names does. -/
theorem proposes_iff {k : Nat} : proposes k = true ↔ ¬ (isCdCd k = true ∧ k % 8 < k / 8) := by
  unfold proposes
  cases cd : isCdCd k with
  | false => simp
  | true =>
    simp only [isCdCd, Bool.and_eq_true, bne_iff_ne] at cd
    simp
    omega

/-! Training and negotiation (R490-R497). -/

section
variable {s : State} {r : LinkRef}

/-- A link that does not negotiate stays as it is (R505). -/
theorem exec_negotiation_off (off : linkNegotiates s.fuse.order.val (linkKey r) = false) {weak : List (Fin 128)} {usable : Nat} {quick : Bool}
    {c : CapBlock} {same : Bool} {a b : Nat} {i : Instr} (h : i ∈ [Instr.udlTrain r weak usable quick, .udlCapx r c, .udlPropose r,
      .udlConfirm r same a b, .udlConfirmTimeout r, .udlPartnerTraining r]) : exec i s = Becomes s s.m := by
  simp only [List.mem_cons, List.not_mem_nil, or_false] at h
  obtain rfl | rfl | rfl | rfl | rfl | rfl := h
  · simp [execUdlTrain, off, Becomes]
  · simp [execUdlCapx, off, Becomes]
  · simp [execUdlPropose, off, Becomes]
  · simp [execUdlConfirm, off, Becomes]
  · simp [execUdlConfirmTimeout, off, Becomes]
  · simp [execUdlPartnerTraining, off, Becomes]

variable (on : linkNegotiates s.fuse.order.val (linkKey r) = true)
include on

theorem exec_udlTrain_idle (weak : List (Fin 128)) (usable : Nat) (quick : Bool) (idle : (s.m.link (linkKey r)).state = 0) :
    let k := linkKey r
    let l := s.m.link k
    let n := weak.length + (l.lost.filter fun w => !(weak.any fun x : Fin 128 => x.val == w)).length
    let before := if quick then l.spares else 0
    let full := if k < 72 then linkFull k else 64 * l.modules.val
    exec (.udlTrain r weak usable quick) s = Becomes s (s.m.updLink k fun l => { l with
      state := 1, spares := min (linkSpares k) (before + n), usable := min usable (full - (before + n - linkSpares k)), lost := [] }) := by
  simp only [exec_udlTrain, execUdlTrain, State.go_eq, on, Bool.not_true, Bool.false_eq_true, if_false]
  refine congrArg (Becomes s) (Mod.updLink_congr ?_)
  simp [idle]

theorem exec_udlPropose_of {p : LinkPar} (exchanged : (s.m.link (linkKey r)).state = 2) (proposed : s.m.proposal (linkKey r) = some p) :
    exec (.udlPropose r) s = Becomes s (s.m.updLink (linkKey r) fun l => { l with state := 3, proposal := some p }) := by
  simp [execUdlPropose, on, exchanged, proposed, Becomes]

theorem exec_udlConfirm_good (testing : (s.m.link (linkKey r)).state = 3) : exec (.udlConfirm r true 0 0) s =
    Becomes s (s.m.updLink (linkKey r) fun l => { l with
      state := 4, par := l.proposal, proposal := none, confFail := 0, holdCredits := false, crcRun := 0, replays := 0 }) := by
  simp [execUdlConfirm, on, testing, Becomes]

theorem exec_udlConfirm_bad {same : Bool} {own partner : Nat} (testing : (s.m.link (linkKey r)).state = 3)
    (bad : same = false ∨ own ≠ 0 ∨ partner ≠ 0) : exec (.udlConfirm r same own partner) s =
      Becomes s ((s.m.confFail (linkKey r)).cutOff s.fuse.order.val (linkKey r)) := by
  have fails : (same && own == 0 && partner == 0) = false := by
    obtain bad | bad | bad := bad <;> simp [bad]
  simp only [exec_udlConfirm, execUdlConfirm, State.go_eq, on, testing, fails]
  rfl

theorem exec_udlConfirmTimeout_testing (testing : (s.m.link (linkKey r)).state = 3) : exec (.udlConfirmTimeout r) s =
    Becomes s ((s.m.confFail (linkKey r)).cutOff s.fuse.order.val (linkKey r)) := by
  simp [execUdlConfirmTimeout, on, testing, Becomes]

theorem exec_udlPartnerTraining_active (active : (s.m.link (linkKey r)).state = 4) :
    exec (.udlPartnerTraining r) s = Becomes s (s.m.updLink (linkKey r) Link.retrain) := by
  rw [exec_udlPartnerTraining, execUdlPartnerTraining, State.go_eq, on]
  exact congrArg (Becomes s) (Mod.updLink_congr (by simp [active]))

theorem exec_udlCapx_trained (c : CapBlock) (trained : (s.m.link (linkKey r)).state = 1) :
    exec (.udlCapx r c) s = Becomes s (s.m.capx (linkKey r) c) := by
  simp [execUdlCapx, on, trained, Becomes]

end

/-! The third failure of a confirmation declares the link FAILED (R495). -/

theorem Mod.confFail_again {m : Mod} {k : Nat} (few : (m.link k).confFail < 2) :
    (m.confFail k).link k = { m.link k with state := 0, confFail := (m.link k).confFail + 1, proposal := none } := by
  simp [confFail, Nat.not_le.2 few]

theorem Mod.confFail_third {m : Mod} {k : Nat} (third : 2 ≤ (m.link k).confFail) :
    (m.confFail k).link k = { m.link k with state := 5, confFail := 3, proposal := none } := by
  simp [confFail, third]

/-! The blocks are exchanged (R491, R496). -/

/-- A new EPOCH of the partner: its end has been reset. -/
def Link.renewed (l : Link) (c : CapBlock) : Bool :=
  match l.epoch with
  | some e => e != c.epoch
  | none => false

/-- The link once the blocks are known at both ends. -/
def Link.exchanged (l : Link) (own c : CapBlock) : Link :=
  let x := { l with partner := some c, epoch := some c.epoch, sent := some own }
  if l.renewed c then { x with txSeq := 0, rxSeq := 0, replay := [], flits := [], partSlots := [] } else x

theorem Link.exchanged_blocks (l : Link) (own c : CapBlock) : (l.exchanged own c).partner = some c ∧ (l.exchanged own c).epoch = some c.epoch ∧
    (l.exchanged own c).sent = some own ∧ (l.exchanged own c).confFail = l.confFail := by
  unfold exchanged
  split <;> exact ⟨rfl, rfl, rfl, rfl⟩

theorem Link.renewed_of_ne {l : Link} {c : CapBlock} {e : BitVec 8} (held : l.epoch = some e) (new : e ≠ c.epoch) : l.renewed c = true := by
  simp [renewed, held, new]
theorem Link.renewed_of_same {l : Link} {c : CapBlock} (h : l.epoch = none ∨ l.epoch = some c.epoch) : l.renewed c = false := by
  obtain h | h := h <;> simp [renewed, h]

/-- The flits not acknowledged are counted as discarded, or as replayed. -/
def Mod.countKept (m : Mod) (k : Nat) (c : CapBlock) : Mod :=
  if (m.link k).renewed c then m.countGate kUdlDiscard k (m.link k).replay.length else m.countGate kUdlReplay k (m.link k).replay.length

theorem Mod.countKept_frame (m : Mod) (k : Nat) (c : CapBlock) :
    ∃ t q, m.countKept k c = { m with ctr := t, kod := { m.kod with evq := m.kod.evq ++ q } } := by
  unfold countKept
  split <;> exact countGate_frame ..

/-- The module once the blocks are exchanged, before parameters are chosen. -/
def Mod.exchange (m : Mod) (k : Nat) (c : CapBlock) : Mod :=
  (m.countKept k c).draw.2.updLink k fun l => l.exchanged (m.capOwn k (m.draw.1 % 5)) c

theorem Mod.link_exchange (m : Mod) (k : Nat) (c : CapBlock) :
    (m.exchange k c).link k = (m.link k).exchanged (m.capOwn k (m.draw.1 % 5)) c := by
  obtain ⟨_, _, e⟩ := m.countKept_frame k c
  rw [exchange, link_updLink, e]
  rfl

theorem Mod.capx_eq (m : Mod) (k : Nat) (c : CapBlock) : m.capx k c = match linkChoice k (m.capOwn k (m.draw.1 % 5)) c with
    | none => (m.exchange k c).confFail k
    | some p => (m.exchange k c).updLink k fun l => { l with state := 2, proposal := if proposes k then some p else none } := by
  have own : (m.countKept k c).capOwn k ((m.countKept k c).draw.1 % 5) = m.capOwn k (m.draw.1 % 5) := by
    obtain ⟨_, _, e⟩ := m.countKept_frame k c
    rw [e]
    rfl
  have exchanged : ((m.countKept k c).draw.2.updLink k fun l =>
      let x := { l with partner := some c, epoch := some c.epoch, sent := some (m.capOwn k (m.draw.1 % 5)) }
      if (m.link k).renewed c then { x with txSeq := 0, rxSeq := 0, replay := [], flits := [], partSlots := [] } else x) = m.exchange k c := by
    have link : (m.countKept k c).draw.2.link k = m.link k := by
      obtain ⟨_, _, e⟩ := m.countKept_frame k c
      rw [e]
      rfl
    refine updLink_congr ?_
    rw [link]
    rfl
  rw [← exchanged, ← own]
  rfl

/-- A choice that both ends share is proposed by one of them, and the link goes on as its EPOCH has it. -/
theorem Mod.link_capx_chosen {m : Mod} {k : Nat} {c : CapBlock} {p : LinkPar} (chosen : linkChoice k (m.capOwn k (m.draw.1 % 5)) c = some p) :
    (m.capx k c).link k = { (m.link k).exchanged (m.capOwn k (m.draw.1 % 5)) c with
      state := 2, proposal := if proposes k then some p else none } := by
  rw [capx_eq, chosen]
  simp only [link_updLink, link_exchange]

theorem Mod.capx_none {m : Mod} {k : Nat} {c : CapBlock} (none : linkChoice k (m.capOwn k (m.draw.1 % 5)) c = none) :
    m.capx k c = (m.exchange k c).confFail k := by
  rw [capx_eq, none]

end Sys2Proof.Machine
end

section
/-! Die links (17 R498-R508): flits, NAK and detours, UDL 1.0 and sites, comb sources and rings; then the obligation of the die links. -/

namespace Sys2Proof.Machine

/-- What the other end of a link has, where it proposes. -/
theorem ite_proposes {α : Type} (k : Nat) (a b : α) :
    (if isCdCd k = true ∧ k % 8 < k / 8 then a else b) = if proposes k = true then b else a := by
  by_cases proposer : proposes k = true
  · rw [if_pos proposer, if_neg (proposes_iff.1 proposer)]
  · rw [if_neg proposer, if_pos (not_not.1 (mt proposes_iff.2 proposer))]

/-! Flits (R498-R500). -/

section
variable {s : State} {r : LinkRef}

/-- The electrical path carries nothing while the photonic port beside it is in service (01 R23). -/
theorem exec_udlDataFlit_bare {d : DieId} (order : s.fuse.order.val ≠ 2) (up : (s.m.link (9 * d.val)).state ≠ 5) (seq ack : BitVec 12) (ok : Bool)
    (body : FlitBody) : exec (.udlDataFlit (.electrical d) seq ack ok body) s = Becomes s s.m := by
  have bare : s.m.electricalCarries s.fuse.order.val d.val = false := by simp [Mod.electricalCarries, order, up]
  simp only [exec_udlDataFlit, execUdlDataFlit, State.go_eq, bare]
  rw [if_pos (by simp)]
  rfl

/-- The module once a flit is on its way: the other gateway of a link between compute dies keeps it for replay. -/
def Mod.flitSent (m : Mod) (k : Nat) (seq : BitVec 12) (msgs : List UdlMsg) : Mod :=
  (if isCdCd k then (m.countGate kUdlFlits (otherGate k) 1).updLink (otherGate k) fun x =>
      if x.replay.contains seq then x else { x with replay := x.replay ++ [seq], txSeq := seq + 1 }
    else m).updLink k fun x => x.sendFlit seq msgs

/-- The module once a flit in order has been taken, its stamp aside. -/
def Mod.flitTaken (m : Mod) (k : Nat) (seq ack : BitVec 12) (msgs : List UdlMsg) : Mod :=
  let l := m.link k
  let u := unpackSlots l.partSlots (l.flitOf seq msgs)
  (m.flitSent k seq msgs).updLink k fun x => { x with
    rxSeq := x.rxSeq + 1, crcRun := 0, flits := x.flits.del seq.toNat, partSlots := u.cur, restored := u.out,
    replay := dropAcked ack x.replay, overDetour := dropAcked ack x.overDetour }

theorem exec_udlDataFlit_of (carries : (s.m.link (linkKey r)).carries = true)
    (path : ∀ d, r = .electrical d → s.fuse.order.val = 2 ∨ (s.m.link (9 * d.val)).state = 5) (seq ack : BitVec 12) (ok : Bool)
    (stamp : Option Nat) (msgs : List UdlMsg) : let k := linkKey r
    let n := s.m.flitSent k seq msgs
    let m := s.m.flitTaken k seq ack msgs
    exec (.udlDataFlit r seq ack ok ⟨stamp, msgs⟩) s = Becomes s (
      if !ok then (n.countGate kUdlCrcErr k 1).updLink k fun l =>
        if 8 ≤ l.crcRun + 1 ∧ l.state = 4 then l.retrain else { l with crcRun := l.crcRun + 1 }
      else if seq ≠ (s.m.link k).rxSeq then n
      else match stamp with
        | none => m
        | some v => m.updDie (linkOwn k) fun x => { x with ccOff := x.ccOff + (v + 1 - m.cc (linkOwn k)) }) := by
  cases r with
  | electrical d =>
    have up : s.m.electricalCarries s.fuse.order.val d.val = true := by
      simpa [Mod.electricalCarries] using path d rfl
    simp only [exec_udlDataFlit, execUdlDataFlit, State.go_eq, carries, up]
    rfl
  | _ =>
    simp only [exec_udlDataFlit, execUdlDataFlit, State.go_eq, carries]
    rfl

theorem exec_udlNak_of (carries : (s.m.link (linkKey r)).carries = true) (seq : BitVec 12) : let k := linkKey r
    let l := s.m.link k
    let fresh := l.replayTick + ticksPerMs < s.m.ticks
    let c := if fresh then 1 else l.replays + 1
    exec (.udlNak r seq) s = Becomes s ((s.m.countGate kUdlReplay k (l.replay.dropWhile (· != seq)).length).updLink k fun l =>
      if 64 < c ∧ l.state = 4 then l.retrain else { l with replays := c, replayTick := if fresh then s.m.ticks else l.replayTick }) := by
  simp [execUdlNak, carries, Becomes]

/-! Detours (R501, R502). -/

theorem exec_detourTimeout_of (cd : isCdCd (linkKey r) = true) (away : (s.m.link (linkKey r)).state ≠ 4) (open' : (s.m.link (linkKey r)).state ≠ 6)
    (direct : (s.m.link (linkKey r)).detour = false) (third : s.m.detourDie (linkKey r) = true) : exec (.detourTimeout r) s =
      Becomes s ((s.m.countGate kUdlReplay (linkKey r) (s.m.link (linkKey r)).replay.length).updLink (linkKey r) fun l => { l with
        detour := true, overDetour := l.replay }) := by
  simp [execDetourTimeout, cd, away, open', direct, third, Becomes]

theorem exec_udlDetourReturn_of (detour : (s.m.link (linkKey r)).detour = true) (active : (s.m.link (linkKey r)).state = 4) :
    exec (.udlDetourReturn r) s = Becomes s (s.m.updLink (linkKey r) fun l => { l with
      detour := false, replay := l.replay.filter fun x => !l.overDetour.contains x, overDetour := [] }) :=
  congrArg (Becomes s) (Mod.updLink_congr (by simp [detour, active]))

theorem Mod.detourDies_eq (m : Mod) {die q : Nat} (h : q < 8) : m.detourDies (8 * die + q) =
    (List.range 8).filter fun c => c ≠ die ∧ c ≠ q ∧ (m.link (8 * die + c)).state = 4 ∧ (m.link (8 * q + c)).state = 4 := by
  have own : (8 * die + q) / 8 = die := by omega
  have other : (8 * die + q) % 8 = q := by omega
  simp only [detourDies, own, other]
  refine List.filter_congr fun c _ => ?_
  rw [Bool.eq_iff_iff]
  simp [and_assoc]

theorem Mod.gateVia_detour {m : Mod} {die q node c : Nat} (away : (m.link (8 * die + q)).detour = true) (down : (m.link (8 * die + q)).state ≠ 4)
    (third : (m.detourDies (8 * die + q))[node % (m.detourDies (8 * die + q)).length]? = some c) : m.gateVia die q node = c := by
  simp [gateVia, away, down, detourVia, third]

end

/-! UDL 1.0, sites, light (R489, R490, R505, R506, R508). -/

section
variable {s : State}

theorem exec_udl1TrainingPattern_of (order : s.fuse.order = 2) (d : DieId) : exec (.udl1TrainingPattern d) s =
    Becomes s (s.m.updLink (64 + d.val) fun l => { l with
      state := 6, par := some { width := 64, rate := 0, crc32c := false, replay := 0, proto := 0x0F }, usable := 64, proposal := none,
      holdCredits := false }) := by
  simp [execUdl1TrainingPattern, order, Becomes]

theorem exec_xsTrain_of (site : Fin 2) (modules : Fin 3) (cap : CapBlock) : let id := s.fuse.xsIdent.getD site.val 0
    exec (.xsTrain site modules cap) s = Becomes s (
      if s.fuse.order ≠ 0 then s.m
      else if modules = 0 ∨ id = 0 ∨ cap.vendor.toNat * 65536 + cap.product.toNat ≠ id then s.m.siteFault s.fuse.order.val site.val
      else (s.m.updLink (72 + site.val) fun l => { l with
        state := 1, modules := modules, usable := 64 * modules.val, confFail := 0 }).capx (72 + site.val) cap) := rfl

/-- A link that is ACTIVE negotiates anew. -/
def Link.anew (l : Link) : Link := if l.state == 4 then l.retrain else l
theorem Link.anew_twice (l : Link) : l.anew.anew = l.anew := by
  by_cases active : l.state = 4 <;> simp [anew, active, retrain]

theorem exec_combEmitterFail_standby {src : Fin 12} (standby : (s.m.die src.val).comb = false) : exec (.combEmitterFail src) s =
    Becomes s (forEach (photonicOf src.val) (fun k m => m.updLink k Link.anew) (s.m.updDie src.val fun d => { d with comb := true })) := by
  simp only [exec_combEmitterFail, execCombEmitterFail, State.go_eq, standby, Bool.not_false, if_true]
  rfl

theorem exec_combEmitterFail_last {src : Fin 12} (last : (s.m.die src.val).comb = true) : exec (.combEmitterFail src) s =
    Becomes s (forEach (photonicOf src.val) (fun k m => m.cutOff s.fuse.order.val k) (forEach (photonicOf src.val)
      (fun k m => m.updLink k fun l => { l with state := 5, proposal := none }) (s.m.updDie src.val fun d => { d with comb := true }))) := by
  simp only [exec_combEmitterFail, execCombEmitterFail, State.go_eq, last, Bool.not_true, Bool.false_eq_true, if_false]
  rfl

theorem exec_ringLockLoss_of {d : DieId} {g : Fin 8} {w : Fin 34} (new : w.val ∉ (s.m.link (linkKey (.photonic d g))).lost) :
    exec (.ringLockLoss (.photonic d g) w) s = Becomes s (s.m.updLink (linkKey (.photonic d g)) fun l => { l with lost := w.val :: l.lost }) :=
  congrArg (Becomes s) (Mod.updLink_congr (by simp [new]))

end

/-- Settles O45, by `linkChoice_cases` for the parameters, `unpackSlots_append` for the slots, and the lemma of each command. -/
theorem dieLinks : Obligations.DieLinks := by
  unfold Obligations.DieLinks
  refine ⟨fun k o c p choice => ?choice, fun s r => ⟨fun off _ _ _ _ _ _ _ _ => exec_negotiation_off off, linkNegotiates_iff, fun on =>
    ⟨fun weak usable quick idle => exec_udlTrain_idle on weak usable quick idle, fun c trained => ⟨rfl, rfl, rfl, rfl, rfl, fun p chosen => ?chosen,
      fun none => ?nothing⟩, fun p exchanged proposed => exec_udlPropose_of on exchanged ?proposal, fun testing =>
      ⟨exec_udlConfirm_good on testing, fun same own partner bad => exec_udlConfirm_bad on testing bad, exec_udlConfirmTimeout_testing on testing⟩,
      exec_udlPartnerTraining_active on⟩, Mod.confFail_again, Mod.confFail_third, fun d seq ack ok stamp msgs electrical order up => ?bare,
    fun seq ack ok stamp msgs carries path => ?flit, fun msgs => ⟨length_packSlots msgs, unpackSlots_packSlots msgs, fun n => ?split⟩,
    fun seq carries => exec_udlNak_of carries seq, fun cd away open' direct third => exec_detourTimeout_of cd away open' direct third,
    exec_udlDetourReturn_of, fun die q node c small away down => ?via, fun d order => exec_udl1TrainingPattern_of order d,
    fun site modules cap => ?site, fun src standby => ?standby, fun src => exec_combEmitterFail_last, fun d g w photonic new => ?ring⟩⟩
  case choice =>
    obtain ⟨x, rate, width, crc, proto, rfl⟩ := linkChoice_cases choice
    obtain ⟨i, small, offered, is, greatest⟩ := widthChosen_greatest width
    obtain ⟨low, own, other, fastest⟩ := rateChosen_greatest rate
    obtain ⟨ownStep, otherStep, ownLanes, otherLanes⟩ := widthOk_iff.1 offered
    refine ⟨⟨i, small, ownStep, otherStep, is⟩, is.trans_le ownLanes, is.trans_le otherLanes,
      fun j few ours theirs here there => greatest j few (widthOk_iff.2 ⟨ours, theirs, here, there⟩), low, own, other, fastest,
      BitVec.getLsbD_and .., crc_common _ _ crc, rfl, rfl, fun cd => ?_, fun side cd => ?_, fun side => ?_⟩
    · exact toNat_and_need (linkNeed_cdcd cd ▸ proto)
    · exact toNat_and_need (linkNeed_iod side cd ▸ proto)
    · exact toNat_and_need (linkNeed_site side ▸ proto)
  case chosen =>
    obtain ⟨partner, epoch, sent, -⟩ := (s.m.link (linkKey r)).exchanged_blocks (s.m.capOwn (linkKey r) (s.m.draw.1 % 5)) c
    refine ⟨_, exec_udlCapx_trained on c trained, ?_⟩
    dsimp only
    rw [Mod.link_capx_chosen chosen]
    refine ⟨rfl, ?_, sent, partner, epoch, fun e held new => ?_, fun same => ?_⟩
    · exact (ite_proposes ..).symm
    · rw [Link.exchanged, if_pos (Link.renewed_of_ne held new)]
      exact ⟨rfl, rfl, rfl, rfl, rfl⟩
    · rw [Link.exchanged, if_neg (by rw [Link.renewed_of_same same]; exact Bool.false_ne_true)]
      exact ⟨rfl, rfl, rfl⟩
  case nothing =>
    obtain ⟨-, -, -, fails⟩ := (s.m.link (linkKey r)).exchanged_blocks (s.m.capOwn (linkKey r) (s.m.draw.1 % 5)) c
    rw [← Mod.link_exchange] at fails
    refine ⟨_, exec_udlCapx_trained on c trained, ?_⟩
    dsimp only
    rw [Mod.capx_none none, ← fails]
    obtain few | third := Nat.lt_or_ge ((s.m.exchange (linkKey r) c).link (linkKey r)).confFail 2
    · rw [Mod.confFail_again few]
      exact ⟨rfl, fun _ => ⟨rfl, rfl⟩, fun third => absurd few (Nat.not_lt.2 third)⟩
    · rw [Mod.confFail_third third]
      exact ⟨rfl, fun few => absurd few (Nat.not_lt.2 third), fun _ => rfl⟩
  case proposal =>
    rw [← proposed, Mod.proposal, ite_proposes, apply_ite s.m.link]
  case bare =>
    subst electrical
    exact exec_udlDataFlit_bare order up seq ack ok _
  case flit =>
    have arrives := exec_udlDataFlit_of carries path seq ack ok stamp msgs
    have whole (good : ok = true) := arrives.trans (congrArg (Becomes s) (if_neg (by simp [good])))
    refine ⟨fun bad => arrives.trans (congrArg (Becomes s) (if_pos (by simp [bad]))), fun good off => (whole good).trans (congrArg (Becomes s) (if_pos off)),
      fun good due plain => ?_, fun v good due stamped => ?_⟩
    · subst plain
      exact (whole good).trans (congrArg (Becomes s) (if_neg (not_not.2 due)))
    · subst stamped
      exact (whole good).trans (congrArg (Becomes s) (if_neg (not_not.2 due)))
  case split =>
    have whole := unpackSlots_append [] ((packSlots msgs).take n) ((packSlots msgs).drop n)
    rw [List.take_append_drop, unpackSlots_packSlots, Unpack.mk.injEq] at whole
    exact ⟨whole.2.symm, whole.1.symm⟩
  case via =>
    intro ds third
    refine Mod.gateVia_detour away down ?_
    rw [Mod.detourDies_eq _ small]
    exact third
  case site =>
    have trains := exec_xsTrain_of (s := s) site modules cap
    refine ⟨fun empty => ⟨?_, if_pos empty⟩, fun populated bad => ?_, fun populated some known is => ?_⟩
    · exact trains.trans (congrArg (Becomes s) (if_pos fun h => empty (by rw [h]; rfl)))
    · exact trains.trans (congrArg (Becomes s) ((if_neg (not_not.2 (Fin.ext populated))).trans (if_pos bad)))
    · exact trains.trans (congrArg (Becomes s) ((if_neg (not_not.2 (Fin.ext populated))).trans (if_neg (by simp [some, known, is]))))
  case standby =>
    refine ⟨_, exec_combEmitterFail_standby standby, ?_, fun k fed => ?_⟩
    · rw [forEach_keeps (f := fun k m => m.updLink k Link.anew) (fun m => (m.die src.val).comb) (fun _ _ => rfl), Mod.die_updDie]
    · dsimp only
      rw [Mod.link_forEach_updLink Link.anew_twice, if_pos fed]
      rfl
  case ring =>
    subst photonic
    exact exec_ringLockLoss_of new

end Sys2Proof.Machine
end
